-- ==== Sys2Proof/Word.lean ====
section
/-!
DEFINITION. Word.lean: the word types of the module and their plainest arithmetic.
-/
namespace Sys2Proof

/-- A byte of memory. -/
abbrev Byte := BitVec 8

/-- A loop-core data register and a register word (R3). -/
abbrev Word := BitVec 64

/-- One of the 16 axis slices. -/
abbrev Slice := Fin 16

/-- One of the 8 loop cores. -/
abbrev Core := Fin 8

/-- Three values, one for each leg or phase U, V, W. -/
structure Tri (α : Type) where
  u : α
  v : α
  w : α
deriving DecidableEq, Repr

/-- One leg of three. -/
def Tri.leg {α : Type} (t : Tri α) (i : Fin 3) : α := match i with | 0 => t.u | 1 => t.v | 2 => t.w

/-- One leg of three replaced. -/
def Tri.put {α : Type} (t : Tri α) (i : Fin 3) (x : α) : Tri α :=
  match i with
  | 0 => { t with u := x }
  | 1 => { t with v := x }
  | 2 => { t with w := x }

/-- A function on each leg. -/
def Tri.map {α β : Type} (t : Tri α) (f : α → β) : Tri β := ⟨f t.u, f t.v, f t.w⟩

end Sys2Proof
end

