-- ==== Sys2Proof/Syntax.lean ====
section
/-!
DEFINITION. Syntax.lean: the commands of the module, one constructor per row of spec/opcode_table.json, with the operands
of each; an event that the world decides carries what it shows as operands (log entry 5).
-/

namespace Sys2Proof

/-- A local-time stamp in units of 2^−16 ns (R322). -/
abbrev Stamp := Nat

/-- What the ECC of a memory word read finds (R24, R27): the row that reads the word carries it, as upsets come from outside. -/
inductive EccSeen where
  | clean | single | double
deriving DecidableEq, Repr

/-- A fabric initiator (R22, Table IMG.3). -/
inductive Init where
  | core (c : Core)
  | sched | network | harso | sliceA | sliceB | fieldLink | host | acq | imageReader
deriving DecidableEq, Repr

/-- Size of an access to a register block or a memory (R469). -/
inductive AccSize where
  | b4 | b8 | b16
deriving DecidableEq, Repr

/-- A die link (Table ARC.2). -/
inductive Link where
  | sliceA | sliceB | field
deriving DecidableEq, Repr

/-- What the payload of a flit or field-link frame carries (R12): a capture, sample set or register access is a row of its own; a
fault record of the field die is delivered here. -/
inductive Payload where
  | other
  | fault (code sev skind sindex detail : Nat)
deriving DecidableEq, Repr

/-- A fault record that reaches the fault engine (R451, R464). -/
structure FaultSpec where
  code : Nat
  sev : Nat
  skind : Nat
  sindex : Nat
  origin : Nat
  detail : Nat
  gross : Bool
  late : Bool
deriving DecidableEq, Repr

/-- What an INTAKE step meets (Table IMG.4), beside what the flash holds: the links train; the ECC of the memory words it reads; the SFDP
signature is there, a usable BFPT of revision B or later, the density, and both octal tables (R477); every burst completes; the second
reading of the record sections agrees with the first; the hard-limit copies are acknowledged; and the ms since INTAKE started. -/
structure IntakeObs where
  linksOk : Bool
  ecc : EccSeen
  sfdp : Bool
  bfpt : Bool
  densityLog2 : Nat
  octal : Bool
  readOk : Bool
  rereadOk : Bool
  hlAck : Bool
  elapsedMs : Nat
deriving DecidableEq, Repr

/-- What an enable step meets (Table STA.8): means, minima and maxima of the 32 conversions of each leg (R167), whether each leg's
bootstrap is above its rising level (R199), and the commutation angle measured (R174, R175). -/
structure EnableObs where
  mean : Tri Int
  spread : Tri Nat
  bootOk : Tri Bool
  angle : Nat
  angleOk : Bool
deriving DecidableEq, Repr

/-- Where a pip instruction stands: its core, what the ECC of its fetch finds, and whether a register it reads has bad parity. -/
structure PipAt where
  core : Core
  ecc : EccSeen
  parityBad : Bool
deriving DecidableEq, Repr

/-- The fields of an R-format instruction (Table PIP.7). -/
structure RForm where
  cond : Nat
  rm : Nat
  sat : Bool
  sf : Bool
  dst : Nat
  sa : Nat
  sb : Nat
  hd : Bool
  ha : Bool
  hb : Bool
  sh : Nat
deriving DecidableEq, Repr

/-- The fields of an I-format instruction (Table PIP.7). -/
structure IForm where
  cond : Nat
  rm : Nat
  sat : Bool
  sf : Bool
  dst : Nat
  sa : Nat
  imm : Nat
deriving DecidableEq, Repr

/-- The fields of an M-format instruction (Table PIP.7); `disp` is the 30-bit field. -/
structure MForm where
  cond : Nat
  rm : Nat
  dt : Nat
  areg : Nat
  amode : Nat
  oreg : Nat
  hd : Bool
  disp : Nat
deriving DecidableEq, Repr

/-- The fields of a B-format instruction (Table PIP.7); `offset` is the 32-bit field. -/
structure BForm where
  cond : Nat
  creg : Nat
  len : Nat
  icount : Nat
  offset : Nat
deriving DecidableEq, Repr

/-- What a servo capture meets (R229, R232): a receiver in use shows a wire fault, and the feedback clocks since the last counted
edge. -/
structure CaptureObs where
  wire : Bool
  edgeAge : Nat
deriving DecidableEq, Repr

/-- A serial encoder frame as received (R225 to R228): the position word as sent, the status bits, the CRC and parity bits, the second
reading of the word (DBL), whether the Ack or Start came late, whether the data line was low before the frame, and the line delay in
5 ns units. -/
structure SerialFrame where
  position : Nat
  status : Nat
  crc : Nat
  parity : Nat
  second : Nat
  late : Bool
  lineLow : Bool
  lineDelay : Nat
deriving DecidableEq, Repr

/-- What the start sequencer observes (R177 to R179): the motion command (electrical Hz; in CURRENT the sign of iq*), a measured
speed in electrical Hz and whether one was measured, the back-EMF amplitude in mV peak line to line, the number of crossing intervals,
the angle at the end of LISTEN, and the largest leg current in Q1.15 of full scale. -/
structure StartObs where
  command : Int
  measured : Bool
  speed : Int
  amplitude : Nat
  crossings : Nat
  angle : Nat
  current : Nat
deriving DecidableEq, Repr

/-- What a frame carries for the module (Table NET.3, R305 to R308, R326); hostBroken is a frame for the host-protocol engine that fails
R345 or R346. -/
inductive FrameKind where
  | other | hostProtocol | udpHost | hostBroken | ptpSync | ptpDelayReq | ptpPeer | ptpGeneral | arp
deriving DecidableEq, Repr

/-- A frame as a port receives it: its stamp is the ingress timestamp before RXOFS, its correction that of a PTP message in 2^−16 ns. -/
structure Frame where
  dst : Nat
  src : Nat
  etherType : Nat
  tagged : Bool
  vid : Nat
  pcp : Nat
  length : Nat
  fcsOk : Bool
  codeError : Bool
  kind : FrameKind
  stamp : Stamp
  correction : Int
deriving DecidableEq, Repr

/-- A received PAUSE or PFC frame (R316): quanta, and the priorities it holds (PFC). -/
structure PauseRec where
  pfc : Bool
  enable : Nat
  quanta : List Nat
deriving DecidableEq, Repr

/-- A PTP Sync with its Follow_Up (R328 to R331): the origin and arrival times, the correction in 2^−16 ns, rateRatio − 1 in 2^−41, and
whether its Follow_Up, where there is one, came. -/
structure SyncRec where
  port : Fin 2
  domain : Nat
  source : Nat
  origin : Stamp
  correction : Int
  arrival : Stamp
  rateRatio : Int
  sourceValid : Bool
deriving DecidableEq, Repr

/-- A PTP Announce (R328). -/
structure AnnounceRec where
  port : Fin 2
  domain : Nat
  source : Nat
  priority1 : Nat
  clockClass : Nat
  accuracy : Nat
  variance : Nat
  priority2 : Nat
  gmId : Nat
  stepsRemoved : Nat
  utcOffset : Nat
deriving DecidableEq, Repr

/-- Kinds of PTP delay message (R329). -/
inductive DelayKind where
  | delayReq | delayResp | pdelayReq | pdelayResp
deriving DecidableEq, Repr

/-- A PTP delay message with the four time stamps of its exchange (R329). -/
structure DelayRec where
  port : Fin 2
  domain : Nat
  kind : DelayKind
  source : Nat
  t1 : Stamp
  t2 : Stamp
  t3 : Stamp
  t4 : Stamp
  correction : Int
deriving DecidableEq, Repr

/-- PTP messages sent on an interval (R327). -/
inductive PtpInterval where
  | sync | announce | delay
deriving DecidableEq, Repr

/-- Whether a host frame carries an authentication tag, and whether it verifies (R348). -/
inductive TagSeen where
  | absent | valid | invalid
deriving DecidableEq, Repr

/-- The envelope of a host request (R345 to R350). -/
structure HpReq where
  port : Fin 2
  src : Nat
  udp : Bool
  session : Nat
  seq : Nat
  tag : TagSeen
deriving DecidableEq, Repr

/-- One pair of a WRITEM (Table HPR.2): value and mask. -/
structure MaskWrite where
  data : Nat
  mask : Nat
deriving DecidableEq, Repr

/-- CAN error kinds (R384, R385). -/
inductive CanErr where
  | bit | stuff | form | ack | crc
deriving DecidableEq, Repr

/-- A CAN frame (R379 to R383): identifier as Table CAN.3 places it (a standard one in [28:18]), format, FD marks, DLC, data bytes and the time
stamp of its SOF. -/
structure CanFrame where
  id : Nat
  ide : Bool
  fd : Bool
  brs : Bool
  rtr : Bool
  esi : Bool
  dlc : Nat
  data : List Nat
  stamp : Stamp
deriving DecidableEq, Repr

/-- How a CAN transmission attempt ended (R380, R381, R385). -/
inductive CanTxResult where
  | sent | lostArbitration | failed (kind : CanErr)
deriving DecidableEq, Repr

/-- What one output channel shows for a millisecond or more (R400, Table FIO.6). -/
inductive ChannelFault where
  | short | overload | wired | mismatch | overtemp | stuck
deriving DecidableEq, Repr

/-- What a check of the gate-supply switches sees (R414, R484): SW1's control line shows on, a sensor reads 1 mA or more (for
release step 3: shows current), VGS at 1 V or above, VGS above 90 % of VBULK. -/
structure StoObs where
  line1 : Bool
  i1 : Bool
  i2 : Bool
  vgs1V : Bool
  vgs90 : Bool
deriving DecidableEq, Repr

namespace Machine

/-- One segment of a motion plan: its duration in 2^−64 servo cycles, its acceleration at the start in 2^−160 counts per cycle² and its
jerk in 2^−160 counts per cycle³. -/
structure Phase where
  dur : Nat
  a : Int
  j : Int
deriving DecidableEq, Repr

/-- A point-to-point plan (R482): position and velocity at its start in 2^−160 counts, its segments, its target in Q40.24 with the number
of its last cycle, the velocity it keeps after its last segment, and the servo cycles run so far; a jog has no target and cruises on. -/
structure Plan where
  p0 : Int
  v0 : Int
  phases : List Phase
  goal : Option (Int × Nat)
  cruise : Int
  k : Nat
deriving DecidableEq, Repr

/-- A GEAR follower (R105, R273): engaged, cam input x in Q40.24, remainder r, position latched at engage F0, last leader position, and
whether the leader's measured position is the source. -/
structure GearDyn where
  engaged : Bool
  x : Int
  r : Int
  f0 : Int
  last : Int
  measured : Bool
deriving DecidableEq, Repr

end Machine

/-- An axis record of a mirror frame (R421): its slice; the named fields of its first 64 bytes, the capture's p and its servo instant as a
compact time; from the context the generator's state (target, velocity, acceleration, DONE, plan, gearing) and the observer's θ̂ and
ω̂; and the 24 words of the context as they stand in memory. -/
structure MirrorAxis where
  slice : Slice
  axst : Nat
  mode : Nat
  phase : Nat
  pcmd : Int
  pcmdPrev : Int
  p : Int
  instant : Nat
  sofs : Int
  shift : Int
  homed : Bool
  poslost : Bool
  slost : Bool
  target : Int
  vel : Int
  acc : Int
  reached : Bool
  plan : Option Machine.Plan
  gear : Machine.GearDyn
  theta : Nat
  omega : Int
  ctx : List Nat
deriving DecidableEq, Repr

/-- A group record of a mirror frame (R421). -/
structure MirrorGroup where
  group : Fin 8
  state : Nat
  sigma : Int
  f : Nat
  head : Nat
  count : Nat
deriving DecidableEq, Repr

/-- A mirror frame (Table TWN.2, R420 to R422): whether its length and CRC are right, what the ECC of its buffer finds, the header, the
records. -/
structure MirrorFrame where
  intact : Bool
  ecc : EccSeen
  type : Nat
  holding : Bool
  rank : Nat
  torqueOff : Bool
  orderly : Bool
  handover : Bool
  reclaim : Bool
  synced : Bool
  epoch : Nat
  cycle : Nat
  imgId : Nat
  lease : Nat
  state : Nat
  axes : List MirrorAxis
  groups : List MirrorGroup
deriving DecidableEq, Repr

/-- Which silence TWIN_FRAME_TIMEOUT reports (R424): no frame for one lease, or SYNCED clear for 1 s after it first set. -/
inductive TwinTimeout where
  | noFrame | unsynced
deriving DecidableEq, Repr

/-- Wake sources (Table PWR.4); WAKE_EVENT also carries whether the event falls inside the window of R440, when entry is under way. -/
inductive WakeSrc where
  | eth0 | eth1 | harso | can0 | syncIn | fio (k : Fin 4) | guard
deriving DecidableEq, Repr

/-- One reading of the housekeeping controller (R444): converter word and temperature in 0.01 °C, per sensor. -/
structure Reading where
  sensor : Nat
  raw : Nat
  temp : Int
deriving DecidableEq, Repr

/-- The commands (spec/opcode_table.json). -/
inductive Instr where
  /-- REGISTER_WRITE (R474). -/
  | registerWrite (who : Init) (sz : AccSize) (addr : Nat) (value : Nat)
  /-- PTP_TIME0_READ (R324). -/
  | ptpTime0Read
  /-- SLICE_LINK_FLIT (R12). -/
  | sliceLinkFlit (link : Link) (toControl : Bool) (seq : Nat) (crcOk : Bool) (load : Payload)
  /-- LINK_RETRAIN_COMPLETE (R13). -/
  | linkRetrainComplete (link : Link)
  /-- SLICE_LINK_WATCHDOG (R14). -/
  | sliceLinkWatchdog (die : Fin 2)
  /-- FABRIC_ACCESS (R26). -/
  | fabricAccess (who : Init) (write : Bool) (sz : AccSize) (addr : Nat) (value : Nat) (ecc : EccSeen)
  /-- SRAM_SCRUB (R25). -/
  | sramScrub (bank : Fin 48) (ecc : EccSeen)
  /-- LOCAL_MEMORY_SCRUB (R134). -/
  | localMemoryScrub (core : Core) (ecc : EccSeen)
  /-- PRESENCE_RECOGNISED (R35). -/
  | presenceRecognised
  /-- REMOVAL_RECOGNISED (R35). -/
  | removalRecognised
  /-- DEPARTURE_NOTICE (R359). -/
  | departureNotice
  /-- SWITCHED_DOMAINS_OFF (R60). -/
  | switchedDomainsOff
  /-- RESET_ASSERTED (R41). -/
  | resetAsserted
  /-- RESET_RELEASED (R41). -/
  | resetReleased
  /-- STRAP_CHANGE (R42). -/
  | strapChange (addr : Nat) (rank : Nat)
  /-- FLASH_SUPPLY_LIMIT (R39). -/
  | flashSupplyLimit
  /-- TAP_RESET (R45). -/
  | tapReset
  /-- TAP_EXTEST (R45). -/
  | tapExtest
  /-- TAP_IDCODE (R46). -/
  | tapIdcode
  /-- TAP_SAMPLE_PRELOAD (R45). -/
  | tapSamplePreload (pins : List Bool) (shifted : List Bool)
  /-- TAP_HIGHZ (R45). -/
  | tapHighz
  /-- TAP_CLAMP (R45). -/
  | tapClamp
  /-- TAP_BYPASS (R45). -/
  | tapBypass (code : Nat)
  /-- RIND_START (R476). -/
  | rindStart
  /-- RIND_DROPOUT (R476). -/
  | rindDropout
  /-- FEED_VALID (R48). -/
  | feedValid (feed : Fin 2)
  /-- FEED_INVALID (R48). -/
  | feedInvalid (feed : Fin 2)
  /-- FEED_STABLE (R48). -/
  | feedStable (feed : Fin 2)
  /-- FEED_CURRENT_LIMIT (R50). -/
  | feedCurrentLimit (feed : Fin 2)
  /-- FEED_RETRY (R50). -/
  | feedRetry (feed : Fin 2)
  /-- POWER_FAIL (R52). -/
  | powerFail
  /-- POWER_SEQUENCE_STEP (R55). -/
  | powerSequenceStep
  /-- DOMAIN_READY (R55). -/
  | domainReady (dom : Fin 8)
  /-- DOMAIN_READY_TIMEOUT (R56). -/
  | domainReadyTimeout
  /-- POWER_UP_RETRY (R56). -/
  | powerUpRetry
  /-- INTAKE_STEP_DONE (R83). -/
  | intakeStepDone (o : IntakeObs)
  /-- INTAKE_TIMEOUT (R85). -/
  | intakeTimeout
  /-- FLASH_BURST_TIMEOUT (R87). -/
  | flashBurstTimeout
  /-- ERASE (R90). -/
  | erase (slot : Fin 2)
  /-- PROGRAM (R90). -/
  | program (slot : Fin 2) (offset : Nat) (pages : Nat)
  /-- VERIFY (R91). -/
  | verify (slot : Fin 2)
  /-- RETIRE (R92). -/
  | retire
  /-- ABORT (R90). -/
  | abort
  /-- KEYFUSE (R94). -/
  | keyfuse
  /-- IMAGE_UPDATE_COMPLETE (R90). -/
  | imageUpdateComplete (flashOk : Bool)
  /-- SYS_RUN (R96). -/
  | sysRun
  /-- SYS_HOLD (R96). -/
  | sysHold
  /-- SYS_SERVICE (R95). -/
  | sysService
  /-- LEAVE_SERVICE (R96). -/
  | leaveService
  /-- RESTART (R96). -/
  | restart
  /-- ENABLE (R102). -/
  | enable (n : Slice)
  /-- STOP (R102). -/
  | stop (n : Slice)
  /-- QUICK_STOP (R102). -/
  | quickStop (n : Slice)
  /-- DISABLE (R102). -/
  | disable (n : Slice)
  /-- CLEAR (R459). -/
  | clear (n : Slice)
  /-- ENABLE_STEP_DONE (R108). -/
  | enableStepDone (n : Slice) (o : EnableObs)
  /-- BOOTSTRAP_PRECHARGE_START (R58). -/
  | bootstrapPrechargeStart
  /-- PRECHARGE_PHASE (R199). -/
  | prechargePhase (n : Slice) (o : EnableObs)
  /-- SLICE_START (R58). -/
  | sliceStart
  /-- FIELD_GROUP_ENABLE (R58). -/
  | fieldGroupEnable
  /-- MOV (R126). -/
  | mov (x : PipAt) (f : RForm)
  /-- MOVI (R126). -/
  | movi (x : PipAt) (f : IForm)
  /-- MOVHI (R126). -/
  | movhi (x : PipAt) (f : IForm)
  /-- SWAP (R126). -/
  | swap (x : PipAt) (f : RForm)
  /-- EXT (R126). -/
  | ext (x : PipAt) (f : RForm)
  /-- INS (R126). -/
  | ins (x : PipAt) (f : RForm)
  /-- MOVIS (R126). -/
  | movis (x : PipAt) (f : IForm)
  /-- ADD (R126). -/
  | add (x : PipAt) (f : RForm)
  /-- SUB (R126). -/
  | sub (x : PipAt) (f : RForm)
  /-- ADDI (R126). -/
  | addi (x : PipAt) (f : IForm)
  /-- CMP (R126). -/
  | cmp (x : PipAt) (f : RForm)
  /-- CMPI (R126). -/
  | cmpi (x : PipAt) (f : IForm)
  /-- NEG (R126). -/
  | neg (x : PipAt) (f : RForm)
  /-- ABS (R126). -/
  | abs (x : PipAt) (f : RForm)
  /-- MIN (R126). -/
  | min (x : PipAt) (f : RForm)
  /-- MAX (R126). -/
  | max (x : PipAt) (f : RForm)
  /-- CLAMP (R126). -/
  | clamp (x : PipAt) (f : RForm)
  /-- AND (R126). -/
  | and (x : PipAt) (f : RForm)
  /-- OR (R126). -/
  | or (x : PipAt) (f : RForm)
  /-- XOR (R126). -/
  | xor (x : PipAt) (f : RForm)
  /-- NOT (R126). -/
  | not (x : PipAt) (f : RForm)
  /-- SHL (R126). -/
  | shl (x : PipAt) (f : RForm)
  /-- ASR (R126). -/
  | asr (x : PipAt) (f : RForm)
  /-- LSR (R126). -/
  | lsr (x : PipAt) (f : RForm)
  /-- CLS (R126). -/
  | cls (x : PipAt) (f : RForm)
  /-- ADD2 (R126). -/
  | add2 (x : PipAt) (f : RForm)
  /-- SUB2 (R126). -/
  | sub2 (x : PipAt) (f : RForm)
  /-- NEGH (R126). -/
  | negh (x : PipAt) (f : RForm)
  /-- QMUL2 (R126). -/
  | qmul2 (x : PipAt) (f : RForm)
  /-- MULL (R126). -/
  | mull (x : PipAt) (f : RForm)
  /-- MUL (R126). -/
  | mul (x : PipAt) (f : RForm)
  /-- SINCOS (R126). -/
  | sincos (x : PipAt) (f : RForm)
  /-- VLIM (R126). -/
  | vlim (x : PipAt) (f : RForm)
  /-- MAC1 (R126). -/
  | mac1 (x : PipAt) (f : RForm)
  /-- MSU1 (R126). -/
  | msu1 (x : PipAt) (f : RForm)
  /-- MAC1Z (R126). -/
  | mac1z (x : PipAt) (f : RForm)
  /-- MAC4 (R126). -/
  | mac4 (x : PipAt) (f : RForm)
  /-- MSU4 (R126). -/
  | msu4 (x : PipAt) (f : RForm)
  /-- MAC4Z (R126). -/
  | mac4z (x : PipAt) (f : RForm)
  /-- MACL4 (R126). -/
  | macl4 (x : PipAt) (f : MForm) (dataEcc : EccSeen)
  /-- MVA (R126). -/
  | mva (x : PipAt) (f : RForm)
  /-- MVAW (R126). -/
  | mvaw (x : PipAt) (f : RForm)
  /-- LDA (R126). -/
  | lda (x : PipAt) (f : RForm)
  /-- CLRA (R126). -/
  | clra (x : PipAt) (f : RForm)
  /-- ANRM (R122). -/
  | anrm (x : PipAt) (f : RForm)
  /-- SNRM (R120). -/
  | snrm (x : PipAt) (f : RForm)
  /-- SALN (R121). -/
  | saln (x : PipAt) (f : RForm)
  /-- MAXI (R132). -/
  | maxi (x : PipAt) (f : RForm)
  /-- MINI (R132). -/
  | mini (x : PipAt) (f : RForm)
  /-- MAXAI (R132). -/
  | maxai (x : PipAt) (f : RForm)
  /-- LD (R115). -/
  | ld (x : PipAt) (f : MForm) (dataEcc : EccSeen)
  /-- LDW (R115). -/
  | ldw (x : PipAt) (f : MForm) (dataEcc : EccSeen)
  /-- LDH (R115). -/
  | ldh (x : PipAt) (f : MForm) (dataEcc : EccSeen)
  /-- LDQ (R115). -/
  | ldq (x : PipAt) (f : MForm) (dataEcc : EccSeen)
  /-- ST (R115). -/
  | st (x : PipAt) (f : MForm)
  /-- STH (R115). -/
  | sth (x : PipAt) (f : MForm)
  /-- STQ (R115). -/
  | stq (x : PipAt) (f : MForm)
  /-- BR (R131). -/
  | br (x : PipAt) (f : BForm)
  /-- CALL (R126). -/
  | call (x : PipAt) (f : BForm)
  /-- JMP (R126). -/
  | jmp (x : PipAt) (f : RForm)
  /-- REP (R129). -/
  | rep (x : PipAt) (f : BForm)
  /-- POST (R127). -/
  | post (x : PipAt) (f : RForm)
  /-- DONE (R127). -/
  | done (x : PipAt) (f : RForm)
  /-- NOP (R126). -/
  | nop (x : PipAt) (f : RForm)
  /-- BRK (R128). -/
  | brk (x : PipAt) (f : RForm)
  /-- FENCE (R127). -/
  | fence (x : PipAt) (f : RForm)
  /-- LOAD_DATA_ARRIVAL (R115). -/
  | loadDataArrival (c : Core)
  /-- STORE_ACCEPTED (R127). -/
  | storeAccepted (c : Core)
  /-- HALT (R139). -/
  | halt (c : Core)
  /-- RESUME (R139). -/
  | resume (c : Core)
  /-- STEP (R139). -/
  | step (c : Core)
  /-- CORE_DEBUG_HALTED (R139). -/
  | coreDebugHalted (c : Core) (place : List Nat)
  /-- SCHEDULER_TICK (R150). -/
  | schedulerTick
  /-- DELAY_RELEASE (R150). -/
  | delayRelease (p : Nat)
  /-- DEADLINE_MISS (R154). -/
  | deadlineMiss (p : Nat)
  /-- PIP_OVERRUN (R157). -/
  | pipOverrun (c : Core)
  /-- PIP_RUNTIME_EXPIRY (R157). -/
  | pipRuntimeExpiry (c : Core)
  /-- CURRENT_SAMPLE (R163). -/
  | currentSample (n : Slice)
  /-- ISAMPLE_SET (R165). -/
  | isampleSet (n : Slice) (conv : Tri Int)
  /-- VSAMPLE_SET (R168). -/
  | vsampleSet (n : Slice) (avg : Tri Nat) (count : Nat)
  /-- OVERCURRENT_TRIP (R171). -/
  | overcurrentTrip (n : Slice) (leg : Fin 3) (negative : Bool)
  /-- TRIP_RELEASE_QUALIFIED (R172). -/
  | tripReleaseQualified (n : Slice) (leg : Fin 3)
  /-- SWITCH_NODE_CHECK_FAIL (R173). -/
  | switchNodeCheckFail (n : Slice) (leg : Fin 3)
  /-- START_SEQUENCER_CYCLE (R177). -/
  | startSequencerCycle (n : Slice) (o : StartObs)
  /-- LISTEN_ELAPSED (R177). -/
  | listenElapsed (n : Slice) (o : StartObs)
  /-- BRAKE_TIME (R177). -/
  | brakeTime (n : Slice)
  /-- SYNC_CYCLES_COMPLETE (R177). -/
  | syncCyclesComplete (n : Slice)
  /-- ALIGN_COMPLETE (R177). -/
  | alignComplete (n : Slice)
  /-- FORCED_LOCK_HELD (R177). -/
  | forcedLockHeld (n : Slice)
  /-- LOCK_TIMEOUT (R177). -/
  | lockTimeout (n : Slice)
  /-- BLEND_COMPLETE (R177). -/
  | blendComplete (n : Slice)
  /-- FALLBACK (R177). -/
  | fallback (n : Slice)
  /-- OBS_LOSS (R177). -/
  | obsLoss (n : Slice)
  /-- COAST_COMPLETE (R177). -/
  | coastComplete (n : Slice)
  /-- SLOBS_STALE (R176). -/
  | slobsStale (n : Slice)
  /-- CARRIER_BOUNDARY (R190). -/
  | carrierBoundary (n : Slice) (trim : Int) (cal : Option EnableObs)
  /-- SHADOW_WRITE (R187). -/
  | shadowWrite (n : Slice) (window : Fin 3) (word : Fin 4) (value : Nat)
  /-- SHADOW_STAGE_WRITE (R187). -/
  | shadowStageWrite (n : Slice) (word : Fin 4) (value : Nat)
  /-- COMMIT (R188). -/
  | commit (n : Slice) (tgt : Fin 3)
  /-- DELAY_LINE_CALIBRATION (R184). -/
  | delayLineCalibration (die : Fin 2)
  /-- VDRV_UNDERVOLTAGE (R197). -/
  | vdrvUndervoltage (die : Fin 2)
  /-- VDRV_RECOVERED (R197). -/
  | vdrvRecovered (die : Fin 2)
  /-- BOOTSTRAP_UNDERVOLTAGE (R198). -/
  | bootstrapUndervoltage (n : Slice) (leg : Fin 3)
  /-- BOOTSTRAP_RECOVERED (R198). -/
  | bootstrapRecovered (n : Slice) (leg : Fin 3) (heldUs : Nat)
  /-- BOOTUV_PERSISTENT (R198). -/
  | bootuvPersistent (n : Slice) (leg : Fin 3)
  /-- HALT_GUARD (R202). -/
  | haltGuard (n : Slice)
  /-- SLICE_RESUME (R203). -/
  | sliceResume (n : Slice) (passed : Nat)
  /-- CHOPPER_ON (R206). -/
  | chopperOn (k : Fin 4) (v : Nat)
  /-- CHOPPER_OFF (R206). -/
  | chopperOff (k : Fin 4) (v : Nat)
  /-- CHOPPER_CHECK (R206). -/
  | chopperCheck (k : Fin 4) (chi : Int) (v : Nat)
  /-- REGEN_ENTRY (R206). -/
  | regenEntry (k : Fin 4) (v : Nat)
  /-- REGEN_RELEASE (R206). -/
  | regenRelease (k : Fin 4) (v : Nat)
  /-- ACTIVE_SHORT_ENTRY (R206). -/
  | activeShortEntry (k : Fin 4) (v : Nat)
  /-- ACTIVE_SHORT_RELEASE (R206). -/
  | activeShortRelease (k : Fin 4) (v : Nat)
  /-- BUS_ABS_ENTRY (R206). -/
  | busAbsEntry (k : Fin 4) (v : Nat)
  /-- BUS_ABS_RELEASE (R206). -/
  | busAbsRelease (k : Fin 4) (v : Nat)
  /-- BACKSTOP (R208). -/
  | backstop (k : Fin 4)
  /-- BACKSTOP_END (R208). -/
  | backstopEnd
  /-- BUSUV (R209). -/
  | busuv (k : Fin 4)
  /-- QUADRATURE_EDGE (R215). -/
  | quadratureEdge (n : Slice) (a : Bool) (b : Bool)
  /-- INDEX_EVENT (R217). -/
  | indexEvent (n : Slice) (stamp : Stamp)
  /-- HALL_CHANGE (R220). -/
  | hallChange (n : Slice) (h : Fin 8)
  /-- WIRE_FAULT (R232). -/
  | wireFault (n : Slice)
  /-- SINCOS_CONVERSION (R222). -/
  | sincosConversion (n : Slice) (a : Int) (b : Int)
  /-- SINCOS_CORRECTION_UPDATE (R223). -/
  | sincosCorrectionUpdate (n : Slice) (offA : Int) (offB : Int) (gain : Nat) (phase : Int)
  /-- SERVO_CAPTURE (R229). -/
  | servoCapture (n : Slice) (o : CaptureObs)
  /-- SERIAL_FRAME_COMPLETE (R228). -/
  | serialFrameComplete (n : Slice) (r : SerialFrame)
  /-- ARM (R217). -/
  | arm (n : Slice)
  /-- DISARM (R217). -/
  | disarm (n : Slice)
  /-- FBVALID_WAIT_ELAPSED (R234). -/
  | fbvalidWaitElapsed (n : Slice)
  /-- FBVALID_TIMEOUT (R234). -/
  | fbvalidTimeout (n : Slice)
  /-- EV5_CURRENT_LIMIT (R238). -/
  | ev5CurrentLimit (n : Slice)
  /-- EV5_RETRY (R238). -/
  | ev5Retry (n : Slice)
  /-- SERVO_BOUNDARY (R245). -/
  | servoBoundary (n : Slice)
  /-- SVCMD1_WRITE (R250). -/
  | svcmd1Write (n : Slice) (seq : Nat)
  /-- SUPERVISION_STEP (R254). -/
  | supervisionStep (n : Slice) (emfLow : Bool)
  /-- CMDSTALE (R250). -/
  | cmdstale (n : Slice)
  /-- STOPTIME (R256). -/
  | stoptime (n : Slice)
  /-- MOVE (R261). -/
  | move (n : Slice) (ssw : Bool) (ssel : Fin 4) (probe : Bool)
  /-- MOVE_REL (R261). -/
  | moveRel (n : Slice) (ssw : Bool) (ssel : Fin 4) (probe : Bool)
  /-- JOG (R261). -/
  | jog (n : Slice) (negative : Bool)
  /-- HOME (R282). -/
  | home (n : Slice)
  /-- HOME_ABORT (R282). -/
  | homeAbort (n : Slice)
  /-- HARDSTOP_REFERENCE (R282). -/
  | hardstopReference (n : Slice)
  /-- STEP_HOLD_CURRENT (R278). -/
  | stepHoldCurrent (n : Slice)
  /-- STALL (R280). -/
  | stall (n : Slice)
  /-- FIRE (R266). -/
  | fire (k : Fin 4)
  /-- GO (R271). -/
  | go (g : Fin 8) (ssw : Bool) (ssel : Fin 4)
  /-- GROUP_HOLD (R271). -/
  | groupHold (g : Fin 8)
  /-- GROUP_RESUME (R271). -/
  | groupResume (g : Fin 8)
  /-- GROUP_ABORT (R271). -/
  | groupAbort (g : Fin 8)
  /-- APPEND (R270). -/
  | append (g : Fin 8) (napp : Nat)
  /-- FRAME_RECEIVED (R305). -/
  | frameReceived (p : Fin 3) (f : Frame)
  /-- PAUSE_REFRESH (R314). -/
  | pauseRefresh (p : Fin 2)
  /-- PAUSE_RECEIVED (R316). -/
  | pauseReceived (p : Fin 2) (r : PauseRec)
  /-- PAUSE_HOLD_EXPIRY (R316). -/
  | pauseHoldExpiry (p : Fin 2) (q : Fin 4)
  /-- FRAME_TRANSMIT_START (R311). -/
  | frameTransmitStart (p : Fin 3) (stamp : Stamp)
  /-- FRAME_TRANSMITTED (R311). -/
  | frameTransmitted (p : Fin 3)
  /-- LINK_UP (R304). -/
  | linkUp (p : Fin 2) (speed : Nat) (pauseOk : Bool)
  /-- LINK_DOWN (R304). -/
  | linkDown (p : Fin 2)
  /-- FAILOVER_REVERT (R319). -/
  | failoverRevert
  /-- LEARN_AGEOUT (R309). -/
  | learnAgeout (mac : Nat)
  /-- FLUSH (R309). -/
  | flush
  /-- SWITCH (R319). -/
  | switch
  /-- ARP_REQUEST (R308). -/
  | arpRequest (p : Fin 3) (f : Frame) (target : Nat)
  /-- SYNC_RECEIVED (R330). -/
  | syncReceived (r : SyncRec)
  /-- ANNOUNCE_RECEIVED (R327). -/
  | announceReceived (r : AnnounceRec)
  /-- DELAY_MESSAGE_RECEIVED (R329). -/
  | delayMessageReceived (r : DelayRec)
  /-- PTP_MESSAGE_INTERVAL (R327). -/
  | ptpMessageInterval (p : Fin 2) (kind : PtpInterval)
  /-- SYNC_TIMEOUT (R333). -/
  | syncTimeout
  /-- ANNOUNCE_TIMEOUT (R333). -/
  | announceTimeout
  /-- TIMEDRIFT (R334). -/
  | timedrift
  /-- PTP_ADJ (R331). -/
  | ptpAdj (ofs : Int)
  /-- PTP_SETSEC (R331). -/
  | ptpSetsec (sec : Nat)
  /-- SYNC_IN_EDGE (R335). -/
  | syncInEdge (stamp : Stamp)
  /-- SYNC_IN_MISSING (R335). -/
  | syncInMissing
  /-- REF_IN_LOSS (R335). -/
  | refInLoss
  /-- REF_GATE (R335). -/
  | refGate (count : Nat)
  /-- RIND_TIME_COPY (R325). -/
  | rindTimeCopy
  /-- COMPARATOR_FIRE (R338). -/
  | comparatorFire (k : Fin 16)
  /-- SYNC_OUT_PULSE_END (R340). -/
  | syncOutPulseEnd
  /-- BURST_SAMPLE_SET (R339). -/
  | burstSampleSet (n : Slice) (conv : Tri Int)
  /-- LAUNCH (R342). -/
  | launch (p : Fin 2)
  /-- OPEN (R347). -/
  | hpOpen (q : HpReq) (notify : Bool)
  /-- CLOSE (R347). -/
  | hpClose (q : HpReq)
  /-- HP_NOP (R350). -/
  | hpNop (q : HpReq)
  /-- READ (R352). -/
  | hpRead (q : HpReq) (addr : Nat) (count : Nat)
  /-- WRITE (R353). -/
  | hpWrite (q : HpReq) (addr : Nat) (words : List Nat)
  /-- WRITEM (R353). -/
  | hpWritem (q : HpReq) (addr : Nat) (writes : List MaskWrite)
  /-- SETPT (R356). -/
  | setpt (q : HpReq) (elements : List (List Nat)) (ackReq : Bool)
  /-- SEGMENT (R357). -/
  | segment (q : HpReq) (g : Fin 8) (segs : List (List Nat))
  /-- REPCFG (R361). -/
  | repcfg (q : HpReq) (cmp : Nat) (offset : Nat) (addrs : List Nat)
  /-- EVACK (R358). -/
  | evack (q : HpReq) (nseq : Nat)
  /-- HP_UNKNOWN_TYPE (R345). -/
  | hpUnknownType (q : HpReq) (type : Nat)
  /-- NOTICE_RETRY (R358). -/
  | noticeRetry (session : Nat) (nseq : Nat)
  /-- SESSION_TIMEOUT (R347). -/
  | sessionTimeout (session : Nat)
  /-- ACQ_ROW_TAKEN (R363). -/
  | acqRowTaken (c : Fin 4) (stamp : Stamp) (ecc : EccSeen)
  /-- ACQ_FLUSH_TIMEOUT (R366). -/
  | acqFlushTimeout (c : Fin 4) (ecc : EccSeen)
  /-- TRIGGER_TIMER (R371). -/
  | triggerTimer
  /-- ACQ_ARM (R371). -/
  | acqArm
  /-- ACQ_STOP (R371). -/
  | acqStop
  /-- ACQ_FORCE (R371). -/
  | acqForce
  /-- ACQ_RUN_START (R363). -/
  | acqRunStart
  /-- ACQ_RUN_STOP (R371). -/
  | acqRunStop
  /-- CAN_FRAME_RECEIVED (R382). -/
  | canFrameReceived (c : Fin 2) (f : CanFrame)
  /-- CAN_TX_START (R381). -/
  | canTxStart (c : Fin 2)
  /-- CAN_TX_COMPLETE (R381). -/
  | canTxComplete (c : Fin 2) (r : CanTxResult) (stamp : Stamp)
  /-- CAN_BUS_ERROR (R384). -/
  | canBusError (c : Fin 2) (kind : CanErr) (tx : Bool) (mark : Bool)
  /-- CAN_BUSOFF_RECOVERY (R384). -/
  | canBusoffRecovery (c : Fin 2)
  /-- TXREQ (R380). -/
  | txreq (c : Fin 2) (mask : Nat)
  /-- TXABT (R381). -/
  | txabt (c : Fin 2) (mask : Nat)
  /-- TXDONE (R380). -/
  | txdone (c : Fin 2) (mask : Nat)
  /-- RXFULL (R383). -/
  | rxfull (c : Fin 2) (h : Fin 2) (mask : Nat)
  /-- CAN_TXD_TIMEOUT (R376). -/
  | canTxdTimeout
  /-- CAN_WAKE_PATTERN (R377). -/
  | canWakePattern
  /-- CAN_TT_WINDOW (R387). -/
  | canTtWindow (c : Fin 2) (col : Nat)
  /-- CAN_TT_REFERENCE_SEND (R389). -/
  | canTtReferenceSend (c : Fin 2)
  /-- CAN_TT_SYNC_LOSS (R389). -/
  | canTtSyncLoss (c : Fin 2)
  /-- FIO_INPUT_EVENT (R394). -/
  | fioInputEvent (k : Fin 24) (level : Bool) (stamp : Stamp)
  /-- FIO_OPEN_WIRE (R395). -/
  | fioOpenWire (k : Fin 24)
  /-- FIO_CHANNEL_LATCH (R401). -/
  | fioChannelLatch (k : Fin 24) (cause : ChannelFault)
  /-- FIO_RETRY (R402). -/
  | fioRetry (k : Fin 24)
  /-- FIO_CLR (R402). -/
  | fioClr (mask : Nat)
  /-- OFF_PULSE_TEST (R403). -/
  | offPulseTest (k : Fin 24) (readHigh : Bool)
  /-- FIO_PWM_PERIOD (R397). -/
  | fioPwmPeriod (k : Fin 16)
  /-- FIO_CMP_PULSE_END (R397). -/
  | fioCmpPulseEnd (k : Fin 24)
  /-- BRAKE_DISBRK_TIMEOUT (R398). -/
  | brakeDisbrkTimeout (n : Slice)
  /-- FIELD_SUPPLY_WARNING (R404). -/
  | fieldSupplyWarning (sup : Fin 2)
  /-- FIELD_SUPPLY_CUTOFF (R404). -/
  | fieldSupplyCutoff (sup : Fin 2)
  /-- FIELD_SUPPLY_RECOVERY (R404). -/
  | fieldSupplyRecovery (sup : Fin 2)
  /-- WDKICK (R405). -/
  | wdkick (value : Nat)
  /-- WDCLR (R405). -/
  | wdclr
  /-- FIELD_WATCHDOG_EXPIRY (R405). -/
  | fieldWatchdogExpiry
  /-- STO_ENGAGE (R412). -/
  | stoEngage (offUs : Nat)
  /-- STO_RELEASE_REQUEST (R414). -/
  | stoReleaseRequest
  /-- STO_RELEASE_STEP (R414). -/
  | stoReleaseStep (o : StoObs)
  /-- TORQUE_OFF_CLEAR (R414). -/
  | torqueOffClear
  /-- STO_OPEN_CHECK (R484). -/
  | stoOpenCheck (o : StoObs)
  /-- STO_SWITCH_TEST (R415). -/
  | stoSwitchTest (sw : Fin 2) (ok : Bool)
  /-- STO_INPUT_DISAGREE (R416). -/
  | stoInputDisagree
  /-- STO_CLOCK_FAILURE (R416). -/
  | stoClockFailure
  /-- STO_FB_MISMATCH (R416). -/
  | stoFbMismatch
  /-- HARSO_LINK_UP (R420). -/
  | harsoLinkUp
  /-- HARSO_LINK_DOWN (R420). -/
  | harsoLinkDown
  /-- MIRROR_FRAME_SEND (R421). -/
  | mirrorFrameSend
  /-- MIRROR_FRAME_RECEIVED (R422). -/
  | mirrorFrameReceived (f : MirrorFrame)
  /-- TWIN_FRAME_TIMEOUT (R424). -/
  | twinFrameTimeout (k : TwinTimeout)
  /-- HOLD_IN_CHANGE (R425). -/
  | holdInChange (level : Bool)
  /-- CLAIM (R428). -/
  | claim
  /-- ARB_WINDOW_END (R428). -/
  | arbWindowEnd
  /-- TOKENCONF (R428). -/
  | tokenconf
  /-- LEASE_EXPIRY (R426). -/
  | leaseExpiry
  /-- SWITCHOVER_GAP_END (R432). -/
  | switchoverGapEnd
  /-- RECLAIM (R433). -/
  | reclaim
  /-- PERF_LEVEL_CHANGE_DONE (R438). -/
  | perfLevelChangeDone
  /-- SLEEP_S1 (R439). -/
  | sleepS1
  /-- SLEEP_S2 (R439). -/
  | sleepS2
  /-- SLEEP_S3 (R439). -/
  | sleepS3
  /-- SLEEP_ENTRY_COMPLETE (R440). -/
  | sleepEntryComplete
  /-- WAKE_EVENT (R441). -/
  | wakeEvent (src : WakeSrc) (window : Bool)
  /-- WAKE_STEP_DONE (R442). -/
  | wakeStepDone
  /-- WAKE_STEP_TIMEOUT (R443). -/
  | wakeStepTimeout
  /-- WAKE_RETRY (R443). -/
  | wakeRetry
  /-- HOUSEKEEPING_SAMPLE (R444). -/
  | housekeepingSample (readings : List Reading)
  /-- GRACE_EXPIRY (R445). -/
  | graceExpiry
  /-- THROTTLE_STEP (R446). -/
  | throttleStep (zone : Fin 14)
  /-- FAULT_RECORD (R453). -/
  | faultRecord (records : List FaultSpec)
  /-- FLT_CLEAR (R460). -/
  | fltClear (skind : Nat) (sindex : Nat)
  /-- ILLEGAL_INSTRUCTION (R123). -/
  | illegalInstruction (x : PipAt) (word : Nat)
  /-- FREEZE_SWITCH_READ (R257). -/
  | freezeSwitchRead (n : Slice)
  /-- EV5_IN_REGULATION (R234). -/
  | ev5InRegulation (n : Slice)
  /-- NS_CARRY (R331). -/
  | nsCarry
  /-- FIELD_SUPPLY_WARNING_CLEAR (R404). -/
  | fieldSupplyWarningClear (sup : Fin 2)
  /-- FIO_OPEN_WIRE_CLEAR (R395). -/
  | fioOpenWireClear (k : Fin 24)
deriving DecidableEq, Repr

end Sys2Proof
end

