-- ==== Sys2Proof/Config.lean ====
section
/-!
DEFINITION. Config.lean: what the spec leaves to the device or does not state, as constants without a body; no proof can see a
value of one.
-/
namespace Sys2Proof

/-- The factory MAC of this module, as its fuses hold it (R89). -/
opaque Config.factoryMac : Nat

/-- Whether C after a subtraction is the borrow (else its complement): Table PIP.9 names the flag and not its sense (log entry 30). -/
opaque Config.subBorrow : Bool

/-- C after SHL of a value by a count: Table PIP.9 names the flag and not its value (log entry 30). -/
opaque Config.shlCarry : BitVec 64 → Nat → Bool

/-- The error that SINCOS makes within its bound, for cosine (false) and sine (true) of an angle (log entry 31). -/
opaque Config.sincosPick : BitVec 32 → Bool → Nat

/-- The error that VLIM makes within its bound, for lane l (false) and h (true) of a vector and a limit (log entry 31). -/
opaque Config.vlimPick : BitVec 64 → BitVec 64 → Bool → Nat

/-- Free values: what the spec leaves open where the module goes on (log entry 3). -/
opaque Config.freeValue : Nat → BitVec 64

end Sys2Proof
end

