-- ==== Sys2Proof/Machine/Bits.lean ====
section
/-!
DEFINITION. Machine/Bits.lean: bit fields, sign extension, wrapping and saturating arithmetic, byte order; and the shapes in
which the register tables are written down.
-/

namespace Sys2Proof.Machine

/-- Bit `i` of `v`. -/
def bit (v i : Nat) : Nat := v / 2 ^ i % 2

/-- Bits `[lo + w - 1 : lo]` of `v`. -/
def bitsOf (v lo w : Nat) : Nat := v / 2 ^ lo % 2 ^ w

/-- `v` with bits `[lo + w - 1 : lo]` replaced by `x`. -/
def putBits (v lo w x : Nat) : Nat :=
  v - bitsOf v lo w * 2 ^ lo + x % 2 ^ w * 2 ^ lo

/-- `v` with bit `i` set. -/
def setBit (v i : Nat) : Nat := putBits v i 1 1

/-- `v` with bit `i` clear. -/
def clrBit (v i : Nat) : Nat := putBits v i 1 0

/-- The signed reading of a `w`-bit field. -/
def toS (w v : Nat) : Int :=
  if v % 2 ^ w < 2 ^ (w - 1) then (v % 2 ^ w : Nat) else (v % 2 ^ w : Nat) - (2 ^ w : Nat)

/-- A signed value as a `w`-bit field, wrapping. -/
def ofS (w : Nat) (i : Int) : Nat := (i % (2 ^ w : Nat)).toNat

/-- `x` held within `[lo, hi]`. -/
def clampI (lo hi x : Int) : Int := if x < lo then lo else if x > hi then hi else x

/-- `x` held at `hi`. -/
def satN (hi x : Nat) : Nat := if x > hi then hi else x

/-- A signed value narrowed to `w` bits by saturation. -/
def satS (w : Nat) (x : Int) : Int := clampI (-(2 ^ (w - 1) : Nat)) ((2 ^ (w - 1) : Nat) - 1) x

/-- A truth value as a bit. -/
def b2n (b : Bool) : Nat := if b then 1 else 0

/-- The sign of an integer: −1, 0 or 1. -/
def sgn (x : Int) : Int := if x < 0 then -1 else if x = 0 then 0 else 1

/-- Largest natural not above the square root of `n`, by bisection over `fuel` bits. -/
def isqrtAux (n : Nat) : Nat → Nat → Nat
  | 0, r => r
  | b + 1, r => if (r + 2 ^ b) * (r + 2 ^ b) ≤ n then isqrtAux n b (r + 2 ^ b) else isqrtAux n b r

/-- Integer square root of a value below 2^256. -/
def isqrt (n : Nat) : Nat := isqrtAux n 128 0

/-- Division rounding to the nearest integer, halves away from zero; `d` positive. -/
def divRound (x : Int) (d : Nat) : Int :=
  if x ≥ 0 then (x + (d / 2 : Nat)) / d else -((-x + (d / 2 : Nat)) / d)

/-- Division toward zero. -/
def divTrunc (x : Int) (d : Int) : Int := Int.tdiv x d

/-- Number of set bits among the low `n` bits. -/
def popcount : Nat → Nat → Nat
  | 0, _ => 0
  | n + 1, v => bit v n + popcount n v

/-- Number of bits of `v`: 0 for 0 (fuel 128 bits). -/
def bitLenAux : Nat → Nat → Nat
  | 0, _ => 0
  | n + 1, v => if v / 2 ^ n % 2 = 1 then n + 1 else bitLenAux n v

def bitLen (v : Nat) : Nat := bitLenAux 128 v

/-- `n` bytes of `v`, least significant first (R3). -/
def leBytes : Nat → Nat → List Nat
  | 0, _ => []
  | n + 1, v => v % 256 :: leBytes n (v / 256)

/-- The value of bytes, least significant first. -/
def ofLe : List Nat → Nat
  | [] => 0
  | b :: t => b % 256 + 256 * ofLe t

/-- `n` bytes of `v`, most significant first (network byte order, R3). -/
def beBytes (n v : Nat) : List Nat := (leBytes n v).reverse

/-- The value of bytes, most significant first. -/
def ofBe (l : List Nat) : Nat := ofLe l.reverse

/-- Numbers `0 .. n - 1`. -/
def upto : Nat → List Nat
  | 0 => []
  | n + 1 => upto n ++ [n]

/-- Element `i` of a list, or `d`. -/
def nthD {α : Type} : List α → Nat → α → α
  | [], _, d => d
  | a :: _, 0, _ => a
  | _ :: t, n + 1, d => nthD t n d

/-- A list with element `i` replaced. -/
def setNth {α : Type} : List α → Nat → α → List α
  | [], _, _ => []
  | _ :: t, 0, x => x :: t
  | a :: t, n + 1, x => a :: setNth t n x

/-- The 16 slices in order. -/
def slices : List Slice := [0, 1, 2, 3, 4, 5, 6, 7, 8, 9, 10, 11, 12, 13, 14, 15]

/-- The 8 loop cores in order. -/
def cores : List Core := [0, 1, 2, 3, 4, 5, 6, 7]

/-- A register field: the byte address of its register, its lowest bit, its width and its reset value. -/
structure Fld where
  addr : Nat
  lo : Nat
  w : Nat
  rst : Nat
deriving DecidableEq, Repr

/-- The bit address of a field, which is its key in the register file. -/
def Fld.key (f : Fld) : Nat := f.addr * 8 + f.lo

/-- Access of a field (table of *Register tables*). -/
inductive Acc where
  | ro | rw | w1c | wo
deriving DecidableEq, Repr

/-- Update class of a field (table of *Update classes*). -/
inductive Cls where
  | live | hold | image | none
deriving DecidableEq, Repr

/-- The owning cycle of an L field or the owning block of an H field (R7, R9).
`atOnce` stands for cycles whose next boundary is the next fabric, network-island, field-island, feedback-clock or instruction
boundary, before any other event (log entry 7). -/
inductive Own where
  | none | fixed | atOnce | mcc | servo | current | carrier | group | second | pwmPeriod
  | axis | homing | prpar | comparator | hostEngine | acq | image
deriving DecidableEq, Repr

/-- The permitted values of one field (R473). -/
inductive Perm where
  | any
  | range (lo hi : Nat)
  | among (vs : List Nat)
  | multiple (m lo hi : Nat)
  | orZero (lo hi : Nat)
deriving DecidableEq, Repr

/-- Whether a value is permitted (R473). -/
def Perm.ok : Perm → Nat → Bool
  | .any, _ => true
  | .range lo hi, v => lo ≤ v && v ≤ hi
  | .among vs, v => vs.contains v
  | .multiple m lo hi, v => v % m == 0 && lo ≤ v && v ≤ hi
  | .orZero lo hi, v => v == 0 || (lo ≤ v && v ≤ hi)

/-- One field of a register table. -/
structure FDef where
  lo : Nat
  w : Nat
  rst : Nat
  acc : Acc
  cls : Cls
  own : Own
  perm : Perm
deriving DecidableEq, Repr

/-- One register of Table MAP.3: its name, the address at index zero, its indices as (count, stride) pairs, whether it is a hard
limit (HL), and its fields. -/
structure RegRow (N : Type) where
  name : N
  base : Nat
  dims : List (Nat × Nat)
  hl : Bool
  fields : List FDef
deriving DecidableEq, Repr

/-- The index tuple at which offset `d` falls under the given (count, stride) pairs, the largest stride first. -/
def dimIndex : List (Nat × Nat) → Nat → Option (List Nat)
  | [], d => if d = 0 then some [] else none
  | (c, st) :: t, d =>
    let i := d / st
    if i < c then (dimIndex t (d - i * st)).map (i :: ·) else none

/-- The indices at which a register row stands at a word address, or none. -/
def RegRow.at? {N : Type} (r : RegRow N) (a : Nat) : Option (List Nat) :=
  if a < r.base then none else dimIndex r.dims (a - r.base)

/-- The field of a row's register at word address `a`. -/
def FDef.fld (f : FDef) (a : Nat) : Fld := ⟨a, f.lo, f.w, f.rst⟩

end Sys2Proof.Machine
end

