-- ==== Sys2Proof/Machine/Regs.lean ====
section
/-!
DEFINITION. Machine/Regs.lean: one constant per register field of the spec: its byte address, bit place, width and reset value,
as the register tables of each chapter and Table MAP.3 (R467) give them. A register with an index takes it as argument
(slice n, port p, comparator k, and so on); where a register has two or three indices, the arguments stand in the order of its
heading in the spec.
-/

namespace Sys2Proof.Machine

/-! SYS_ID: spec/00_scope.md, after R1. -/
def R.SYS_ID_REV : Fld := ⟨0, 0, 8, 160⟩
def R.SYS_ID_PART : Fld := ⟨0, 16, 16, 0x1624⟩
def R.SYS_ID_FAMILY : Fld := ⟨0, 32, 16, 0xa01⟩
def R.SYS_ID_VENDOR : Fld := ⟨0, 48, 16, 165⟩
/-! SYS_DLSTAT: spec/01_architecture.md, after R15. -/
def R.SYS_DLSTAT_LA_UP : Fld := ⟨64, 0, 1, 0⟩
def R.SYS_DLSTAT_LB_UP : Fld := ⟨64, 1, 1, 0⟩
def R.SYS_DLSTAT_LF_UP : Fld := ⟨64, 2, 1, 0⟩
def R.SYS_DLSTAT_LA_REPLAY : Fld := ⟨64, 8, 16, 0⟩
def R.SYS_DLSTAT_LB_REPLAY : Fld := ⟨64, 24, 16, 0⟩
def R.SYS_DLSTAT_LF_REPLAY : Fld := ⟨64, 40, 16, 0⟩
def R.SYS_DLSTAT_RETRAIN : Fld := ⟨64, 56, 4, 0⟩
/-! SYS_STRAP: spec/02_connectors_pins_electrical.md, after R42. -/
def R.SYS_STRAP_ADDR : Fld := ⟨80, 0, 4, 15⟩
def R.SYS_STRAP_RANK : Fld := ⟨80, 4, 1, 1⟩
def R.SYS_STRAP_PRES0 : Fld := ⟨80, 5, 1, 0⟩
def R.SYS_STRAP_PRES1 : Fld := ⟨80, 6, 1, 0⟩
def R.SYS_STRAP_ADDR_LIVE : Fld := ⟨80, 8, 4, 15⟩
def R.SYS_STRAP_RANK_LIVE : Fld := ⟨80, 12, 1, 1⟩
def R.SYS_STRAP_STRAP_CHG : Fld := ⟨80, 13, 1, 0⟩
/-! PWR_STAT: spec/03_power_intake_live_insertion.md, after R61. -/
def R.PWR_STAT_FA_VALID : Fld := ⟨0x10000, 0, 1, 0⟩
def R.PWR_STAT_FB_VALID : Fld := ⟨0x10000, 1, 1, 0⟩
def R.PWR_STAT_FA_ACT : Fld := ⟨0x10000, 2, 1, 0⟩
def R.PWR_STAT_FB_ACT : Fld := ⟨0x10000, 3, 1, 0⟩
def R.PWR_STAT_VFA_OK : Fld := ⟨0x10000, 4, 1, 0⟩
def R.PWR_STAT_VFB_OK : Fld := ⟨0x10000, 5, 1, 0⟩
def R.PWR_STAT_PRESENT : Fld := ⟨0x10000, 6, 1, 0⟩
def R.PWR_STAT_DOM_ON : Fld := ⟨0x10000, 8, 8, 0⟩
def R.PWR_STAT_FA_LOST : Fld := ⟨0x10000, 16, 1, 0⟩
def R.PWR_STAT_FB_LOST : Fld := ⟨0x10000, 17, 1, 0⟩
def R.PWR_STAT_PFAIL : Fld := ⟨0x10000, 18, 1, 0⟩
def R.PWR_STAT_PWRUP_RETRY : Fld := ⟨0x10000, 19, 1, 0⟩
def R.PWR_STAT_LAST_FAIL_DOM : Fld := ⟨0x10000, 24, 4, 0⟩
/-! PWR_FEED: spec/03_power_intake_live_insertion.md, after R61. -/
def R.PWR_FEED_FA_MV : Fld := ⟨0x10008, 0, 16, 0⟩
def R.PWR_FEED_FB_MV : Fld := ⟨0x10008, 16, 16, 0⟩
def R.PWR_FEED_VFA_MV : Fld := ⟨0x10008, 32, 16, 0⟩
def R.PWR_FEED_VFB_MV : Fld := ⟨0x10008, 48, 16, 0⟩
/-! PWR_CNT: spec/03_power_intake_live_insertion.md, after R61. -/
def R.PWR_CNT_FA_LOSS : Fld := ⟨0x10010, 0, 16, 0⟩
def R.PWR_CNT_FB_LOSS : Fld := ⟨0x10010, 16, 16, 0⟩
def R.PWR_CNT_REMOVE : Fld := ⟨0x10010, 32, 16, 0⟩
def R.PWR_CNT_PFAIL_CNT : Fld := ⟨0x10010, 48, 16, 0⟩
/-! SYS_FMAC: spec/04_configuration_image_startup.md, after R89. -/
def R.SYS_FMAC_MAC : Fld := ⟨96, 0, 48, 0⟩
/-! IMG_STAT: spec/04_configuration_image_startup.md, after R94. -/
def R.IMG_STAT_SLOT : Fld := ⟨0x20000, 0, 1, 0⟩
def R.IMG_STAT_FALLBACK : Fld := ⟨0x20000, 1, 1, 0⟩
def R.IMG_STAT_SIGNED : Fld := ⟨0x20000, 2, 1, 0⟩
def R.IMG_STAT_KEYED : Fld := ⟨0x20000, 3, 1, 0⟩
def R.IMG_STAT_RMODE : Fld := ⟨0x20000, 4, 2, 0⟩
def R.IMG_STAT_CODE : Fld := ⟨0x20000, 8, 8, 0⟩
def R.IMG_STAT_CODE_A : Fld := ⟨0x20000, 16, 8, 254⟩
def R.IMG_STAT_CODE_B : Fld := ⟨0x20000, 24, 8, 254⟩
def R.IMG_STAT_FL_DENS : Fld := ⟨0x20000, 32, 8, 0⟩
def R.IMG_STAT_INTAKE_MS : Fld := ⟨0x20000, 40, 8, 0⟩
/-! IMG_CTRL: spec/04_configuration_image_startup.md, after R94. -/
def R.IMG_CTRL_NEXT : Fld := ⟨0x20008, 0, 2, 0⟩
/-! IMG_UPD: spec/04_configuration_image_startup.md, after R94. -/
def R.IMG_UPD_CMD : Fld := ⟨0x20010, 0, 4, 0⟩
def R.IMG_UPD_SLOT : Fld := ⟨0x20010, 4, 1, 0⟩
def R.IMG_UPD_OFFSET : Fld := ⟨0x20010, 8, 24, 0⟩
def R.IMG_UPD_PAGES : Fld := ⟨0x20010, 32, 9, 0⟩
def R.IMG_UPD_STATE : Fld := ⟨0x20010, 48, 4, 0⟩
def R.IMG_UPD_UCODE : Fld := ⟨0x20010, 52, 8, 0⟩
/-! IMG_RGEN: spec/04_configuration_image_startup.md, after R94. -/
def R.IMG_RGEN_GEN : Fld := ⟨0x20018, 0, 64, 0⟩
/-! IMG_KEYHk: spec/04_configuration_image_startup.md, after R94. -/
def R.IMG_KEYH_KEYH (n : Nat) : Fld := ⟨0x20020 + n * 8, 0, 64, 0⟩
/-! SYS_STATE: spec/05_device_states_axis_modes.md. -/
def R.SYS_STATE_STATE : Fld := ⟨16, 0, 3, 0⟩
def R.SYS_STATE_TORQUE_OFF : Fld := ⟨16, 4, 1, 0⟩
def R.SYS_STATE_HOLDOVER : Fld := ⟨16, 5, 1, 0⟩
def R.SYS_STATE_THROTTLE : Fld := ⟨16, 6, 1, 0⟩
def R.SYS_STATE_THR_ENF : Fld := ⟨16, 7, 1, 0⟩
def R.SYS_STATE_TWIN : Fld := ⟨16, 8, 1, 0⟩
def R.SYS_STATE_TOKEN : Fld := ⟨16, 9, 1, 0⟩
def R.SYS_STATE_AX_ON : Fld := ⟨16, 16, 16, 0⟩
/-! SYS_CMD: spec/05_device_states_axis_modes.md. -/
def R.SYS_CMD_CMD : Fld := ⟨24, 0, 4, 0⟩
def R.SYS_CMD_RESULT : Fld := ⟨24, 8, 8, 0⟩
/-! SYS_CFG: spec/05_device_states_axis_modes.md. -/
def R.SYS_CFG_SVCMODE : Fld := ⟨32, 0, 2, 0⟩
/-! SLC_MODE: spec/05_device_states_axis_modes.md, after R101. -/
def R.SLC_MODE_MODE (n : Nat) : Fld := ⟨0x101800 + n * 0x4000, 0, 3, 0⟩
def R.SLC_MODE_LEADER (n : Nat) : Fld := ⟨0x101800 + n * 0x4000, 4, 4, 0⟩
def R.SLC_MODE_LSRC (n : Nat) : Fld := ⟨0x101800 + n * 0x4000, 8, 1, 0⟩
def R.SLC_MODE_GROUP (n : Nat) : Fld := ⟨0x101800 + n * 0x4000, 12, 4, 15⟩
/-! SLC_AXCMD: spec/05_device_states_axis_modes.md, after R101. -/
def R.SLC_AXCMD_CMD (n : Nat) : Fld := ⟨0x101808 + n * 0x4000, 0, 3, 0⟩
/-! SLC_AXST: spec/05_device_states_axis_modes.md, after R101. -/
def R.SLC_AXST_AXST (n : Nat) : Fld := ⟨0x101810 + n * 0x4000, 0, 3, 0⟩
def R.SLC_AXST_PHASE (n : Nat) : Fld := ⟨0x101810 + n * 0x4000, 4, 4, 0⟩
def R.SLC_AXST_CAUSE (n : Nat) : Fld := ⟨0x101810 + n * 0x4000, 8, 8, 0⟩
def R.SLC_AXST_REFUSE (n : Nat) : Fld := ⟨0x101810 + n * 0x4000, 16, 8, 0⟩
/-! LCn_CTRL: spec/06_pip_engines.md, after R137. -/
def R.LC_CTRL_RMODE (n : Nat) : Fld := ⟨0x90000 + n * 0x1000, 0, 2, 1⟩
def R.LC_CTRL_SATWARN (n : Nat) : Fld := ⟨0x90000 + n * 0x1000, 2, 1, 0⟩
/-! LCn_STAT: spec/06_pip_engines.md, after R137. -/
def R.LC_STAT_STATE (n : Nat) : Fld := ⟨0x90008 + n * 0x1000, 0, 2, 3⟩
def R.LC_STAT_RDEPTH (n : Nat) : Fld := ⟨0x90008 + n * 0x1000, 2, 3, 0⟩
def R.LC_STAT_PIPID (n : Nat) : Fld := ⟨0x90008 + n * 0x1000, 8, 12, 0⟩
def R.LC_STAT_SATCNT (n : Nat) : Fld := ⟨0x90008 + n * 0x1000, 32, 16, 0⟩
def R.LC_STAT_BRKCNT (n : Nat) : Fld := ⟨0x90008 + n * 0x1000, 48, 16, 0⟩
/-! LCn_FAULT: spec/06_pip_engines.md, after R137. -/
def R.LC_FAULT_CODE (n : Nat) : Fld := ⟨0x90010 + n * 0x1000, 0, 8, 0⟩
def R.LC_FAULT_PIPID (n : Nat) : Fld := ⟨0x90010 + n * 0x1000, 8, 12, 0⟩
def R.LC_FAULT_VALID (n : Nat) : Fld := ⟨0x90010 + n * 0x1000, 20, 1, 0⟩
def R.LC_FAULT_PC (n : Nat) : Fld := ⟨0x90010 + n * 0x1000, 32, 32, 0⟩
/-! LCn_ECC: spec/06_pip_engines.md, after R137. -/
def R.LC_ECC_CORR (n : Nat) : Fld := ⟨0x90018 + n * 0x1000, 0, 16, 0⟩
def R.LC_ECC_UNCORR (n : Nat) : Fld := ⟨0x90018 + n * 0x1000, 16, 8, 0⟩
def R.LC_ECC_LASTADDR (n : Nat) : Fld := ⟨0x90018 + n * 0x1000, 32, 32, 0⟩
/-! LCn_DBG: spec/06_pip_engines.md, after R138. -/
def R.LC_DBG_HALT (n : Nat) : Fld := ⟨0x90020 + n * 0x1000, 0, 1, 0⟩
def R.LC_DBG_STEP (n : Nat) : Fld := ⟨0x90020 + n * 0x1000, 1, 1, 0⟩
def R.LC_DBG_BKEN (n : Nat) : Fld := ⟨0x90020 + n * 0x1000, 2, 1, 0⟩
def R.LC_DBG_HALTED (n : Nat) : Fld := ⟨0x90020 + n * 0x1000, 8, 1, 0⟩
def R.LC_DBG_PC (n : Nat) : Fld := ⟨0x90020 + n * 0x1000, 32, 32, 0⟩
/-! SCH_STAT: spec/07_pip_scheduler.md, after R159. -/
def R.SCH_STAT_STATE : Fld := ⟨0x80000, 0, 2, 0⟩
def R.SCH_STAT_READY : Fld := ⟨0x80000, 8, 13, 0⟩
def R.SCH_STAT_DELAYED : Fld := ⟨0x80000, 24, 13, 0⟩
def R.SCH_STAT_IDLE : Fld := ⟨0x80000, 40, 8, 0⟩
/-! SCH_TICK: spec/07_pip_scheduler.md, after R159. -/
def R.SCH_TICK_TICK : Fld := ⟨0x80008, 0, 64, 0⟩
/-! SCH_CNT: spec/07_pip_scheduler.md, after R159. -/
def R.SCH_CNT_MISS : Fld := ⟨0x80010, 0, 16, 0⟩
def R.SCH_CNT_OVERRUN : Fld := ⟨0x80010, 16, 16, 0⟩
def R.SCH_CNT_TOKDROP : Fld := ⟨0x80010, 32, 16, 0⟩
def R.SCH_CNT_RUNABT : Fld := ⟨0x80010, 48, 16, 0⟩
/-! SCH_LAST: spec/07_pip_scheduler.md, after R159. -/
def R.SCH_LAST_PIPID : Fld := ⟨0x80018, 0, 12, 0⟩
def R.SCH_LAST_GRP : Fld := ⟨0x80018, 16, 5, 0⟩
def R.SCH_LAST_LATE : Fld := ⟨0x80018, 24, 24, 0⟩
def R.SCH_LAST_VALID : Fld := ⟨0x80018, 48, 1, 0⟩
/-! SCH_LIM: spec/07_pip_scheduler.md, after R159. -/
def R.SCH_LIM_RUNMAX : Fld := ⟨0x80020, 0, 24, 0⟩
/-! SCH_HLTH: spec/07_pip_scheduler.md, after R159. -/
def R.SCH_HLTH_UNHEALTHY : Fld := ⟨0x80028, 0, 32, 0⟩
def R.SCH_HLTH_LAST_OK : Fld := ⟨0x80028, 32, 1, 0⟩
/-! SLC_ISCFG: spec/08_current_sensing_commutation.md, after R182. -/
def R.SLC_ISCFG_RANGE (n : Nat) : Fld := ⟨0x100000 + n * 0x4000, 0, 2, 2⟩
def R.SLC_ISCFG_POL (n : Nat) : Fld := ⟨0x100000 + n * 0x4000, 2, 1, 0⟩
def R.SLC_ISCFG_TBLANK (n : Nat) : Fld := ⟨0x100000 + n * 0x4000, 4, 8, 50⟩
def R.SLC_ISCFG_OFFLIM (n : Nat) : Fld := ⟨0x100000 + n * 0x4000, 16, 12, 0x51f⟩
def R.SLC_ISCFG_SUMLIM (n : Nat) : Fld := ⟨0x100000 + n * 0x4000, 32, 12, 0x51f⟩
def R.SLC_ISCFG_STALE_LIM (n : Nat) : Fld := ⟨0x100000 + n * 0x4000, 48, 8, 4⟩
def R.SLC_ISCFG_SUM_N (n : Nat) : Fld := ⟨0x100000 + n * 0x4000, 56, 8, 16⟩
/-! SLC_ISOFF: spec/08_current_sensing_commutation.md, after R182. -/
def R.SLC_ISOFF_OFFU (n : Nat) : Fld := ⟨0x100008 + n * 0x4000, 0, 16, 0⟩
def R.SLC_ISOFF_OFFV (n : Nat) : Fld := ⟨0x100008 + n * 0x4000, 16, 16, 0⟩
def R.SLC_ISOFF_OFFW (n : Nat) : Fld := ⟨0x100008 + n * 0x4000, 32, 16, 0⟩
def R.SLC_ISOFF_CAL_OK (n : Nat) : Fld := ⟨0x100008 + n * 0x4000, 48, 1, 0⟩
def R.SLC_ISOFF_OFF_KEPT (n : Nat) : Fld := ⟨0x100008 + n * 0x4000, 49, 1, 0⟩
/-! SLC_ISCNT: spec/08_current_sensing_commutation.md, after R182. -/
def R.SLC_ISCNT_REC (n : Nat) : Fld := ⟨0x100010 + n * 0x4000, 0, 16, 0⟩
def R.SLC_ISCNT_STALE (n : Nat) : Fld := ⟨0x100010 + n * 0x4000, 16, 16, 0⟩
def R.SLC_ISCNT_SUMERR (n : Nat) : Fld := ⟨0x100010 + n * 0x4000, 32, 16, 0⟩
def R.SLC_ISCNT_CLIP (n : Nat) : Fld := ⟨0x100010 + n * 0x4000, 48, 16, 0⟩
/-! SLC_OCLIM: spec/08_current_sensing_commutation.md, after R182. -/
def R.SLC_OCLIM_TRIP_POS (n : Nat) : Fld := ⟨0x100018 + n * 0x4000, 0, 8, 0⟩
def R.SLC_OCLIM_TRIP_NEG (n : Nat) : Fld := ⟨0x100018 + n * 0x4000, 8, 8, 0⟩
def R.SLC_OCLIM_FILT (n : Nat) : Fld := ⟨0x100018 + n * 0x4000, 16, 6, 0⟩
def R.SLC_OCLIM_CEIL (n : Nat) : Fld := ⟨0x100018 + n * 0x4000, 24, 16, 0⟩
def R.SLC_OCLIM_CEIL_N (n : Nat) : Fld := ⟨0x100018 + n * 0x4000, 40, 8, 0⟩
/-! SLC_OCSTAT: spec/08_current_sensing_commutation.md, after R182. -/
def R.SLC_OCSTAT_TRIP (n : Nat) : Fld := ⟨0x100020 + n * 0x4000, 0, 3, 0⟩
def R.SLC_OCSTAT_TPOL (n : Nat) : Fld := ⟨0x100020 + n * 0x4000, 3, 3, 0⟩
def R.SLC_OCSTAT_SWFAULT (n : Nat) : Fld := ⟨0x100020 + n * 0x4000, 6, 1, 0⟩
def R.SLC_OCSTAT_SWLEG (n : Nat) : Fld := ⟨0x100020 + n * 0x4000, 8, 2, 0⟩
def R.SLC_OCSTAT_CEILCNT (n : Nat) : Fld := ⟨0x100020 + n * 0x4000, 16, 16, 0⟩
def R.SLC_OCSTAT_TRIPCNT (n : Nat) : Fld := ⟨0x100020 + n * 0x4000, 32, 16, 0⟩
/-! SLC_COMM: spec/08_current_sensing_commutation.md, after R182. -/
def R.SLC_COMM_ASRC (n : Nat) : Fld := ⟨0x101840 + n * 0x4000, 0, 2, 0⟩
def R.SLC_COMM_POLEP (n : Nat) : Fld := ⟨0x101840 + n * 0x4000, 2, 6, 1⟩
def R.SLC_COMM_DIR (n : Nat) : Fld := ⟨0x101840 + n * 0x4000, 8, 1, 0⟩
def R.SLC_COMM_BUSSEL (n : Nat) : Fld := ⟨0x101840 + n * 0x4000, 9, 2, 0⟩
def R.SLC_COMM_EOFS (n : Nat) : Fld := ⟨0x101840 + n * 0x4000, 32, 32, 0⟩
/-! SLC_SLCFG0: spec/08_current_sensing_commutation.md, after R182. -/
def R.SLC_SLCFG0_I_ALIGN (n : Nat) : Fld := ⟨0x101848 + n * 0x4000, 0, 16, 0⟩
def R.SLC_SLCFG0_I_GO (n : Nat) : Fld := ⟨0x101848 + n * 0x4000, 16, 16, 0⟩
def R.SLC_SLCFG0_I_BRAKE (n : Nat) : Fld := ⟨0x101848 + n * 0x4000, 32, 16, 0⟩
def R.SLC_SLCFG0_RAISE (n : Nat) : Fld := ⟨0x101848 + n * 0x4000, 48, 8, 0⟩
def R.SLC_SLCFG0_RETRIES (n : Nat) : Fld := ⟨0x101848 + n * 0x4000, 56, 3, 0⟩
/-! SLC_SLCFG1: spec/08_current_sensing_commutation.md, after R182. -/
def R.SLC_SLCFG1_W_HO (n : Nat) : Fld := ⟨0x101850 + n * 0x4000, 0, 16, 0⟩
def R.SLC_SLCFG1_W_LOW (n : Nat) : Fld := ⟨0x101850 + n * 0x4000, 16, 16, 0⟩
def R.SLC_SLCFG1_W_CATCH (n : Nat) : Fld := ⟨0x101850 + n * 0x4000, 32, 16, 0⟩
def R.SLC_SLCFG1_ACC (n : Nat) : Fld := ⟨0x101850 + n * 0x4000, 48, 16, 0⟩
/-! SLC_SLCFG2: spec/08_current_sensing_commutation.md, after R182. -/
def R.SLC_SLCFG2_T_LISTEN (n : Nat) : Fld := ⟨0x101858 + n * 0x4000, 0, 8, 20⟩
def R.SLC_SLCFG2_T_RAMP (n : Nat) : Fld := ⟨0x101858 + n * 0x4000, 8, 8, 20⟩
def R.SLC_SLCFG2_T_ALIGN (n : Nat) : Fld := ⟨0x101858 + n * 0x4000, 16, 8, 50⟩
def R.SLC_SLCFG2_T_LOCK (n : Nat) : Fld := ⟨0x101858 + n * 0x4000, 24, 8, 20⟩
def R.SLC_SLCFG2_T_BLEND (n : Nat) : Fld := ⟨0x101858 + n * 0x4000, 32, 8, 10⟩
def R.SLC_SLCFG2_T_COAST (n : Nat) : Fld := ⟨0x101858 + n * 0x4000, 40, 8, 10⟩
def R.SLC_SLCFG2_T_BRAKE (n : Nat) : Fld := ⟨0x101858 + n * 0x4000, 48, 8, 20⟩
def R.SLC_SLCFG2_N_LOSS (n : Nat) : Fld := ⟨0x101858 + n * 0x4000, 56, 8, 32⟩
/-! SLC_SLCMD: spec/08_current_sensing_commutation.md, after R182. -/
def R.SLC_SLCMD_THETA (n : Nat) : Fld := ⟨0x101860 + n * 0x4000, 0, 32, 0⟩
def R.SLC_SLCMD_IREF (n : Nat) : Fld := ⟨0x101860 + n * 0x4000, 32, 16, 0⟩
def R.SLC_SLCMD_MODE (n : Nat) : Fld := ⟨0x101860 + n * 0x4000, 48, 4, 0⟩
def R.SLC_SLCMD_SEQ (n : Nat) : Fld := ⟨0x101860 + n * 0x4000, 56, 8, 0⟩
/-! SLC_SLOBS: spec/08_current_sensing_commutation.md, after R182. -/
def R.SLC_SLOBS_THETA_EST (n : Nat) : Fld := ⟨0x101868 + n * 0x4000, 0, 32, 0⟩
def R.SLC_SLOBS_OMEGA_EST (n : Nat) : Fld := ⟨0x101868 + n * 0x4000, 32, 16, 0⟩
def R.SLC_SLOBS_LOCK (n : Nat) : Fld := ⟨0x101868 + n * 0x4000, 48, 1, 0⟩
def R.SLC_SLOBS_SEQ (n : Nat) : Fld := ⟨0x101868 + n * 0x4000, 56, 8, 0⟩
/-! SLC_SLSTAT: spec/08_current_sensing_commutation.md, after R182. -/
def R.SLC_SLSTAT_PHASE (n : Nat) : Fld := ⟨0x101870 + n * 0x4000, 0, 4, 0⟩
def R.SLC_SLSTAT_RETRY (n : Nat) : Fld := ⟨0x101870 + n * 0x4000, 4, 3, 0⟩
def R.SLC_SLSTAT_FALLBACK (n : Nat) : Fld := ⟨0x101870 + n * 0x4000, 7, 1, 0⟩
def R.SLC_SLSTAT_OMEGA_M (n : Nat) : Fld := ⟨0x101870 + n * 0x4000, 8, 16, 0⟩
def R.SLC_SLSTAT_CAUSE (n : Nat) : Fld := ⟨0x101870 + n * 0x4000, 24, 8, 0⟩
def R.SLC_SLSTAT_STARTS (n : Nat) : Fld := ⟨0x101870 + n * 0x4000, 32, 16, 0⟩
def R.SLC_SLSTAT_FAILS (n : Nat) : Fld := ⟨0x101870 + n * 0x4000, 48, 16, 0⟩
/-! SLC_AOFS: spec/08_current_sensing_commutation.md, after R182. -/
def R.SLC_AOFS_AOFS (n : Nat) : Fld := ⟨0x101878 + n * 0x4000, 0, 32, 0⟩
def R.SLC_AOFS_AVALID (n : Nat) : Fld := ⟨0x101878 + n * 0x4000, 32, 1, 0⟩
/-! SLC_PWMCFG: spec/09_pwm_gate_drive.md, after R210. -/
def R.SLC_PWMCFG_CTYPE (n : Nat) : Fld := ⟨0x100800 + n * 0x4000, 0, 2, 0⟩
def R.SLC_PWMCFG_NCUR (n : Nat) : Fld := ⟨0x100800 + n * 0x4000, 2, 3, 0⟩
def R.SLC_PWMCFG_CARRY (n : Nat) : Fld := ⟨0x100800 + n * 0x4000, 5, 1, 0⟩
def R.SLC_PWMCFG_FRZMASK (n : Nat) : Fld := ⟨0x100800 + n * 0x4000, 8, 8, 0⟩
def R.SLC_PWMCFG_PRE (n : Nat) : Fld := ⟨0x100800 + n * 0x4000, 16, 12, 150⟩
def R.SLC_PWMCFG_CPER (n : Nat) : Fld := ⟨0x100800 + n * 0x4000, 32, 32, 0x1f400⟩
/-! SLC_PWMLIM: spec/09_pwm_gate_drive.md, after R210. -/
def R.SLC_PWMLIM_TD (n : Nat) : Fld := ⟨0x100808 + n * 0x4000, 0, 16, 0⟩
def R.SLC_PWMLIM_TMIN (n : Nat) : Fld := ⟨0x100808 + n * 0x4000, 16, 16, 0⟩
def R.SLC_PWMLIM_VCEIL (n : Nat) : Fld := ⟨0x100808 + n * 0x4000, 32, 17, 0⟩
def R.SLC_PWMLIM_REFMAX (n : Nat) : Fld := ⟨0x100808 + n * 0x4000, 49, 7, 0⟩
def R.SLC_PWMLIM_HG_EN (n : Nat) : Fld := ⟨0x100808 + n * 0x4000, 56, 1, 0⟩
def R.SLC_PWMLIM_HG_TIME (n : Nat) : Fld := ⟨0x100808 + n * 0x4000, 57, 7, 0⟩
/-! SLC_PWMUPD: spec/09_pwm_gate_drive.md, after R210. -/
def R.SLC_PWMUPD_COMMIT (n : Nat) : Fld := ⟨0x100810 + n * 0x4000, 0, 1, 0⟩
def R.SLC_PWMUPD_TGT (n : Nat) : Fld := ⟨0x100810 + n * 0x4000, 1, 2, 0⟩
/-! SLC_PWMSTAT: spec/09_pwm_gate_drive.md, after R210. -/
def R.SLC_PWMSTAT_FROZEN (n : Nat) : Fld := ⟨0x100818 + n * 0x4000, 0, 1, 0⟩
def R.SLC_PWMSTAT_HG_FIRED (n : Nat) : Fld := ⟨0x100818 + n * 0x4000, 1, 1, 0⟩
def R.SLC_PWMSTAT_BOOTUV (n : Nat) : Fld := ⟨0x100818 + n * 0x4000, 2, 3, 0⟩
def R.SLC_PWMSTAT_SPLIT (n : Nat) : Fld := ⟨0x100818 + n * 0x4000, 5, 1, 0⟩
def R.SLC_PWMSTAT_LATE (n : Nat) : Fld := ⟨0x100818 + n * 0x4000, 6, 1, 0⟩
def R.SLC_PWMSTAT_CLAMPCNT (n : Nat) : Fld := ⟨0x100818 + n * 0x4000, 48, 16, 0⟩
/-! SLC_PWMCNT: spec/09_pwm_gate_drive.md, after R210. -/
def R.SLC_PWMCNT_DROPCNT (n : Nat) : Fld := ⟨0x100820 + n * 0x4000, 0, 16, 0⟩
def R.SLC_PWMCNT_LATECNT (n : Nat) : Fld := ⟨0x100820 + n * 0x4000, 16, 16, 0⟩
def R.SLC_PWMCNT_SPLITCNT (n : Nat) : Fld := ⟨0x100820 + n * 0x4000, 32, 16, 0⟩
def R.SLC_PWMCNT_REFCNT (n : Nat) : Fld := ⟨0x100820 + n * 0x4000, 48, 16, 0⟩
/-! SLC_PWMEFF0: spec/09_pwm_gate_drive.md, after R210. -/
def R.SLC_PWMEFF0_EFFU (n : Nat) : Fld := ⟨0x100828 + n * 0x4000, 0, 32, 0⟩
def R.SLC_PWMEFF0_EFFV (n : Nat) : Fld := ⟨0x100828 + n * 0x4000, 32, 32, 0⟩
/-! SLC_PWMEFF1: spec/09_pwm_gate_drive.md, after R210. -/
def R.SLC_PWMEFF1_EFFW (n : Nat) : Fld := ⟨0x100830 + n * 0x4000, 0, 32, 0⟩
def R.SLC_PWMEFF1_EFFT (n : Nat) : Fld := ⟨0x100830 + n * 0x4000, 32, 32, 0⟩
/-! SLC_SHD0: spec/09_pwm_gate_drive.md, after R210. -/
def R.SLC_SHD0_LEGU (n : Nat) (k : Nat) : Fld := ⟨0x100900 + n * 0x4000 + k * 32, 0, 32, 0⟩
def R.SLC_SHD0_LEGV (n : Nat) (k : Nat) : Fld := ⟨0x100900 + n * 0x4000 + k * 32, 32, 32, 0⟩
/-! SLC_SHD1: spec/09_pwm_gate_drive.md, after R210. -/
def R.SLC_SHD1_LEGW (n : Nat) (k : Nat) : Fld := ⟨0x100908 + n * 0x4000 + k * 32, 0, 32, 0⟩
/-! SLC_SHD2: spec/09_pwm_gate_drive.md, after R210. -/
def R.SLC_SHD2_PER (n : Nat) (k : Nat) : Fld := ⟨0x100910 + n * 0x4000 + k * 32, 0, 32, 0⟩
/-! BUS_GDCFG: spec/09_pwm_gate_drive.md, after R210. -/
def R.BUS_GDCFG_VDRV_A : Fld := ⟨0x200000, 0, 2, 0⟩
def R.BUS_GDCFG_VDRV_B : Fld := ⟨0x200000, 2, 2, 0⟩
/-! BUS_STAT: spec/09_pwm_gate_drive.md, after R210. -/
def R.BUS_STAT_CHON : Fld := ⟨0x200008, 0, 4, 0⟩
def R.BUS_STAT_CHFAULT : Fld := ⟨0x200008, 4, 4, 0⟩
def R.BUS_STAT_REGEN : Fld := ⟨0x200008, 8, 4, 0⟩
def R.BUS_STAT_SHORT : Fld := ⟨0x200008, 12, 4, 0⟩
def R.BUS_STAT_ABS : Fld := ⟨0x200008, 16, 4, 0⟩
def R.BUS_STAT_UV : Fld := ⟨0x200008, 20, 4, 0⟩
def R.BUS_STAT_BACKSTOP : Fld := ⟨0x200008, 24, 1, 0⟩
def R.BUS_STAT_VDRV_OK_A : Fld := ⟨0x200008, 25, 1, 0⟩
def R.BUS_STAT_VDRV_OK_B : Fld := ⟨0x200008, 26, 1, 0⟩
/-! BUS_MEAS: spec/09_pwm_gate_drive.md, after R210. -/
def R.BUS_MEAS_V0 : Fld := ⟨0x200010, 0, 16, 0⟩
def R.BUS_MEAS_V1 : Fld := ⟨0x200010, 16, 16, 0⟩
def R.BUS_MEAS_V2 : Fld := ⟨0x200010, 32, 16, 0⟩
def R.BUS_MEAS_V3 : Fld := ⟨0x200010, 48, 16, 0⟩
/-! BUS_CNT: spec/09_pwm_gate_drive.md, after R210. -/
def R.BUS_CNT_CHFCNT : Fld := ⟨0x200018, 0, 16, 0⟩
def R.BUS_CNT_SHORTCNT : Fld := ⟨0x200018, 16, 16, 0⟩
def R.BUS_CNT_ABSCNT : Fld := ⟨0x200018, 32, 16, 0⟩
def R.BUS_CNT_BSTCNT : Fld := ⟨0x200018, 48, 16, 0⟩
/-! BUS_VLIMk: spec/09_pwm_gate_drive.md, after R210. -/
def R.BUS_VLIM_VCH_OFF (n : Nat) : Fld := ⟨0x200040 + n * 16, 0, 16, 0⟩
def R.BUS_VLIM_VCH_ON (n : Nat) : Fld := ⟨0x200040 + n * 16, 16, 16, 0⟩
def R.BUS_VLIM_VREGEN (n : Nat) : Fld := ⟨0x200040 + n * 16, 32, 16, 0⟩
def R.BUS_VLIM_VSHORT (n : Nat) : Fld := ⟨0x200040 + n * 16, 48, 16, 0⟩
/-! BUS_CLIMk: spec/09_pwm_gate_drive.md, after R210. -/
def R.BUS_CLIM_VABS (n : Nat) : Fld := ⟨0x200048 + n * 16, 0, 16, 0⟩
def R.BUS_CLIM_VUV (n : Nat) : Fld := ⟨0x200048 + n * 16, 16, 16, 0⟩
def R.BUS_CLIM_TCHK (n : Nat) : Fld := ⟨0x200048 + n * 16, 32, 8, 0⟩
def R.BUS_CLIM_ICH_MIN (n : Nat) : Fld := ⟨0x200048 + n * 16, 40, 8, 0⟩
def R.BUS_CLIM_RGCEIL (n : Nat) : Fld := ⟨0x200048 + n * 16, 48, 8, 0⟩
def R.BUS_CLIM_EN (n : Nat) : Fld := ⟨0x200048 + n * 16, 56, 1, 0⟩
def R.BUS_CLIM_CHEN (n : Nat) : Fld := ⟨0x200048 + n * 16, 57, 1, 0⟩
/-! SLC_FBCFG: spec/10_position_feedback.md, after R239. -/
def R.SLC_FBCFG_FBMODE (n : Nat) : Fld := ⟨0x101000 + n * 0x4000, 0, 3, 0⟩
def R.SLC_FBCFG_HALLEN (n : Nat) : Fld := ⟨0x101000 + n * 0x4000, 3, 1, 0⟩
def R.SLC_FBCFG_HYST (n : Nat) : Fld := ⟨0x101000 + n * 0x4000, 4, 1, 1⟩
def R.SLC_FBCFG_DIRINV (n : Nat) : Fld := ⟨0x101000 + n * 0x4000, 5, 1, 0⟩
def R.SLC_FBCFG_TERM (n : Nat) : Fld := ⟨0x101000 + n * 0x4000, 6, 1, 0⟩
def R.SLC_FBCFG_HPU (n : Nat) : Fld := ⟨0x101000 + n * 0x4000, 7, 1, 1⟩
def R.SLC_FBCFG_FILTN (n : Nat) : Fld := ⟨0x101000 + n * 0x4000, 8, 8, 4⟩
def R.SLC_FBCFG_IDXMODE (n : Nat) : Fld := ⟨0x101000 + n * 0x4000, 16, 2, 0⟩
def R.SLC_FBCFG_ZQUAL (n : Nat) : Fld := ⟨0x101000 + n * 0x4000, 18, 3, 0⟩
def R.SLC_FBCFG_EV5EN (n : Nat) : Fld := ⟨0x101000 + n * 0x4000, 21, 1, 0⟩
def R.SLC_FBCFG_CORR_EN (n : Nat) : Fld := ⟨0x101000 + n * 0x4000, 22, 1, 0⟩
def R.SLC_FBCFG_CFRZ (n : Nat) : Fld := ⟨0x101000 + n * 0x4000, 23, 1, 0⟩
def R.SLC_FBCFG_CPT (n : Nat) : Fld := ⟨0x101000 + n * 0x4000, 32, 32, 1⟩
/-! SLC_FBSER: spec/10_position_feedback.md, after R239. -/
def R.SLC_FBSER_POSW (n : Nat) : Fld := ⟨0x101008 + n * 0x4000, 0, 6, 32⟩
def R.SLC_FBSER_ERRB (n : Nat) : Fld := ⟨0x101008 + n * 0x4000, 6, 2, 2⟩
def R.SLC_FBSER_CRCLEN (n : Nat) : Fld := ⟨0x101008 + n * 0x4000, 8, 4, 6⟩
def R.SLC_FBSER_GRAY (n : Nat) : Fld := ⟨0x101008 + n * 0x4000, 12, 1, 0⟩
def R.SLC_FBSER_DBL (n : Nat) : Fld := ⟨0x101008 + n * 0x4000, 13, 1, 0⟩
def R.SLC_FBSER_PAR (n : Nat) : Fld := ⟨0x101008 + n * 0x4000, 14, 1, 0⟩
def R.SLC_FBSER_CLKDIV (n : Nat) : Fld := ⟨0x101008 + n * 0x4000, 16, 8, 9⟩
def R.SLC_FBSER_POLY (n : Nat) : Fld := ⟨0x101008 + n * 0x4000, 24, 6, 3⟩
def R.SLC_FBSER_TMONO (n : Nat) : Fld := ⟨0x101008 + n * 0x4000, 32, 8, 20⟩
def R.SLC_FBSER_LEAD (n : Nat) : Fld := ⟨0x101008 + n * 0x4000, 40, 4, 0⟩
def R.SLC_FBSER_JUMPLIM (n : Nat) : Fld := ⟨0x101008 + n * 0x4000, 48, 16, 0⟩
/-! SLC_FBIDX: spec/10_position_feedback.md, after R239. -/
def R.SLC_FBIDX_IDXVAL (n : Nat) : Fld := ⟨0x101010 + n * 0x4000, 0, 40, 0⟩
def R.SLC_FBIDX_IDXTOL (n : Nat) : Fld := ⟨0x101010 + n * 0x4000, 48, 16, 0⟩
/-! SLC_FBCMD: spec/10_position_feedback.md, after R239. -/
def R.SLC_FBCMD_ARM (n : Nat) : Fld := ⟨0x101018 + n * 0x4000, 0, 1, 0⟩
def R.SLC_FBCMD_DISARM (n : Nat) : Fld := ⟨0x101018 + n * 0x4000, 1, 1, 0⟩
/-! SLC_FBSC: spec/10_position_feedback.md, after R239. -/
def R.SLC_FBSC_OFFA (n : Nat) : Fld := ⟨0x101020 + n * 0x4000, 0, 16, 0⟩
def R.SLC_FBSC_OFFB (n : Nat) : Fld := ⟨0x101020 + n * 0x4000, 16, 16, 0⟩
def R.SLC_FBSC_GAIN (n : Nat) : Fld := ⟨0x101020 + n * 0x4000, 32, 16, 0x4000⟩
def R.SLC_FBSC_PHASE (n : Nat) : Fld := ⟨0x101020 + n * 0x4000, 48, 16, 0⟩
/-! SLC_FBPOS: spec/10_position_feedback.md, after R239. -/
def R.SLC_FBPOS_POS (n : Nat) : Fld := ⟨0x101028 + n * 0x4000, 0, 64, 0⟩
/-! SLC_FBSPD: spec/10_position_feedback.md, after R239. -/
def R.SLC_FBSPD_SPD (n : Nat) : Fld := ⟨0x101030 + n * 0x4000, 0, 64, 0⟩
/-! SLC_FBSTAT: spec/10_position_feedback.md, after R239. -/
def R.SLC_FBSTAT_FBVALID (n : Nat) : Fld := ⟨0x101038 + n * 0x4000, 0, 1, 0⟩
def R.SLC_FBSTAT_EXTRAP (n : Nat) : Fld := ⟨0x101038 + n * 0x4000, 1, 1, 0⟩
def R.SLC_FBSTAT_ARMED (n : Nat) : Fld := ⟨0x101038 + n * 0x4000, 2, 1, 0⟩
def R.SLC_FBSTAT_IDXSEEN (n : Nat) : Fld := ⟨0x101038 + n * 0x4000, 3, 1, 0⟩
def R.SLC_FBSTAT_POSLOST (n : Nat) : Fld := ⟨0x101038 + n * 0x4000, 4, 1, 1⟩
def R.SLC_FBSTAT_WIRE (n : Nat) : Fld := ⟨0x101038 + n * 0x4000, 5, 1, 0⟩
def R.SLC_FBSTAT_AMP (n : Nat) : Fld := ⟨0x101038 + n * 0x4000, 6, 1, 0⟩
def R.SLC_FBSTAT_CORRHOLD (n : Nat) : Fld := ⟨0x101038 + n * 0x4000, 7, 1, 0⟩
def R.SLC_FBSTAT_HALL (n : Nat) : Fld := ⟨0x101038 + n * 0x4000, 8, 3, 0⟩
def R.SLC_FBSTAT_SECTOR (n : Nat) : Fld := ⟨0x101038 + n * 0x4000, 11, 3, 7⟩
def R.SLC_FBSTAT_WRAP (n : Nat) : Fld := ⟨0x101038 + n * 0x4000, 14, 1, 0⟩
def R.SLC_FBSTAT_EVON (n : Nat) : Fld := ⟨0x101038 + n * 0x4000, 15, 1, 0⟩
def R.SLC_FBSTAT_EVFAULT (n : Nat) : Fld := ⟨0x101038 + n * 0x4000, 16, 1, 0⟩
def R.SLC_FBSTAT_LATV0 (n : Nat) : Fld := ⟨0x101038 + n * 0x4000, 17, 1, 0⟩
def R.SLC_FBSTAT_LATV1 (n : Nat) : Fld := ⟨0x101038 + n * 0x4000, 18, 1, 0⟩
def R.SLC_FBSTAT_EWARN (n : Nat) : Fld := ⟨0x101038 + n * 0x4000, 19, 1, 0⟩
def R.SLC_FBSTAT_LINEDLY (n : Nat) : Fld := ⟨0x101038 + n * 0x4000, 32, 16, 0⟩
/-! SLC_FBCNT: spec/10_position_feedback.md, after R239. -/
def R.SLC_FBCNT_QERR (n : Nat) : Fld := ⟨0x101040 + n * 0x4000, 0, 16, 0⟩
def R.SLC_FBCNT_HALLERR (n : Nat) : Fld := ⟨0x101040 + n * 0x4000, 16, 16, 0⟩
def R.SLC_FBCNT_FRMERR (n : Nat) : Fld := ⟨0x101040 + n * 0x4000, 32, 16, 0⟩
def R.SLC_FBCNT_IDXERR (n : Nat) : Fld := ⟨0x101040 + n * 0x4000, 48, 16, 0⟩
/-! SLC_FBLIM: spec/10_position_feedback.md, after R239. -/
def R.SLC_FBLIM_FBERR_N (n : Nat) : Fld := ⟨0x101048 + n * 0x4000, 0, 8, 3⟩
def R.SLC_FBLIM_HALL_N (n : Nat) : Fld := ⟨0x101048 + n * 0x4000, 8, 8, 3⟩
def R.SLC_FBLIM_EVWAIT (n : Nat) : Fld := ⟨0x101048 + n * 0x4000, 16, 8, 50⟩
def R.SLC_FBLIM_HALLMAP (n : Nat) : Fld := ⟨0x101048 + n * 0x4000, 32, 18, 0x1d850⟩
/-! SLC_LATCFG: spec/10_position_feedback.md, after R239. -/
def R.SLC_LATCFG_SRC0 (n : Nat) : Fld := ⟨0x101050 + n * 0x4000, 0, 2, 0⟩
def R.SLC_LATCFG_PAR0 (n : Nat) : Fld := ⟨0x101050 + n * 0x4000, 2, 5, 0⟩
def R.SLC_LATCFG_EDGE0 (n : Nat) : Fld := ⟨0x101050 + n * 0x4000, 7, 1, 0⟩
def R.SLC_LATCFG_SRC1 (n : Nat) : Fld := ⟨0x101050 + n * 0x4000, 8, 2, 0⟩
def R.SLC_LATCFG_PAR1 (n : Nat) : Fld := ⟨0x101050 + n * 0x4000, 10, 5, 0⟩
def R.SLC_LATCFG_EDGE1 (n : Nat) : Fld := ⟨0x101050 + n * 0x4000, 15, 1, 0⟩
/-! SLC_LATPOSk: spec/10_position_feedback.md, after R239. -/
def R.SLC_LATPOS_POS (n : Nat) (k : Nat) : Fld := ⟨0x101060 + n * 0x4000 + k * 16, 0, 64, 0⟩
/-! SLC_LATTIMk: spec/10_position_feedback.md, after R239. -/
def R.SLC_LATTIM_NS (n : Nat) (k : Nat) : Fld := ⟨0x101068 + n * 0x4000 + k * 16, 0, 30, 0⟩
def R.SLC_LATTIM_SUBNS (n : Nat) (k : Nat) : Fld := ⟨0x101068 + n * 0x4000 + k * 16, 32, 16, 0⟩
def R.SLC_LATTIM_SEC (n : Nat) (k : Nat) : Fld := ⟨0x101068 + n * 0x4000 + k * 16, 48, 16, 0⟩
/-! SLC_GAINb: spec/11_control_loops_supervision.md, after R244. -/
def R.SLC_GAIN_MANT (n : Nat) (k : Nat) (j : Nat) : Fld := ⟨0x101900 + n * 0x4000 + k * 0x100 + j * 8, 0, 32, 0⟩
def R.SLC_GAIN_EXP (n : Nat) (k : Nat) (j : Nat) : Fld := ⟨0x101900 + n * 0x4000 + k * 0x100 + j * 8, 32, 8, 0⟩
/-! SLC_SERVO: spec/11_control_loops_supervision.md, after R244. -/
def R.SLC_SERVO_SDIV (n : Nat) : Fld := ⟨0x101880 + n * 0x4000, 0, 7, 1⟩
def R.SLC_SERVO_VLAW (n : Nat) : Fld := ⟨0x101880 + n * 0x4000, 8, 1, 0⟩
def R.SLC_SERVO_NBQ (n : Nat) : Fld := ⟨0x101880 + n * 0x4000, 9, 3, 0⟩
def R.SLC_SERVO_GBANK (n : Nat) : Fld := ⟨0x101880 + n * 0x4000, 16, 1, 0⟩
def R.SLC_SERVO_GACT (n : Nat) : Fld := ⟨0x101880 + n * 0x4000, 17, 1, 0⟩
/-! SLC_SVFE0: spec/11_control_loops_supervision.md, after R257. -/
def R.SLC_SVFE0_FELIM (n : Nat) : Fld := ⟨0x103000 + n * 0x4000, 0, 32, 0⟩
def R.SLC_SVFE0_FETIME (n : Nat) : Fld := ⟨0x103000 + n * 0x4000, 32, 16, 0⟩
/-! SLC_SVFE1: spec/11_control_loops_supervision.md, after R257. -/
def R.SLC_SVFE1_FELIM (n : Nat) : Fld := ⟨0x103008 + n * 0x4000, 0, 32, 0⟩
def R.SLC_SVFE1_FETIME (n : Nat) : Fld := ⟨0x103008 + n * 0x4000, 32, 16, 0⟩
/-! SLC_SVGROSS: spec/11_control_loops_supervision.md, after R257. -/
def R.SLC_SVGROSS_FEGROSS (n : Nat) : Fld := ⟨0x103010 + n * 0x4000, 0, 32, 0⟩
def R.SLC_SVGROSS_VMAX (n : Nat) : Fld := ⟨0x103010 + n * 0x4000, 32, 32, 0⟩
/-! SLC_SVTRAV0: spec/11_control_loops_supervision.md, after R257. -/
def R.SLC_SVTRAV0_POSMIN (n : Nat) : Fld := ⟨0x103018 + n * 0x4000, 0, 64, 0⟩
/-! SLC_SVTRAV1: spec/11_control_loops_supervision.md, after R257. -/
def R.SLC_SVTRAV1_POSMAX (n : Nat) : Fld := ⟨0x103020 + n * 0x4000, 0, 64, 0⟩
/-! SLC_SVTRAV2: spec/11_control_loops_supervision.md, after R257. -/
def R.SLC_SVTRAV2_TRAV_EN (n : Nat) : Fld := ⟨0x103028 + n * 0x4000, 0, 1, 0⟩
def R.SLC_SVTRAV2_OVT (n : Nat) : Fld := ⟨0x103028 + n * 0x4000, 8, 24, 0⟩
def R.SLC_SVTRAV2_LIMP_EN (n : Nat) : Fld := ⟨0x103028 + n * 0x4000, 32, 1, 0⟩
def R.SLC_SVTRAV2_LIMP_CH (n : Nat) : Fld := ⟨0x103028 + n * 0x4000, 33, 5, 0⟩
def R.SLC_SVTRAV2_LIMP_POL (n : Nat) : Fld := ⟨0x103028 + n * 0x4000, 38, 1, 0⟩
def R.SLC_SVTRAV2_LIMN_EN (n : Nat) : Fld := ⟨0x103028 + n * 0x4000, 40, 1, 0⟩
def R.SLC_SVTRAV2_LIMN_CH (n : Nat) : Fld := ⟨0x103028 + n * 0x4000, 41, 5, 0⟩
def R.SLC_SVTRAV2_LIMN_POL (n : Nat) : Fld := ⟨0x103028 + n * 0x4000, 46, 1, 0⟩
/-! SLC_SVSTOP: spec/11_control_loops_supervision.md, after R257. -/
def R.SLC_SVSTOP_DEC_STOP (n : Nat) : Fld := ⟨0x103030 + n * 0x4000, 0, 32, 0⟩
def R.SLC_SVSTOP_DEC_QS (n : Nat) : Fld := ⟨0x103030 + n * 0x4000, 32, 32, 0⟩
/-! SLC_SVSTILL: spec/11_control_loops_supervision.md, after R257. -/
def R.SLC_SVSTILL_VSTILL (n : Nat) : Fld := ⟨0x103038 + n * 0x4000, 0, 32, 0x100⟩
def R.SLC_SVSTILL_TSTOP (n : Nat) : Fld := ⟨0x103038 + n * 0x4000, 32, 16, 0⟩
/-! SLC_SVCTL: spec/11_control_loops_supervision.md, after R257. -/
def R.SLC_SVCTL_FESEL (n : Nat) : Fld := ⟨0x103040 + n * 0x4000, 0, 1, 0⟩
def R.SLC_SVCTL_SVSTALE (n : Nat) : Fld := ⟨0x103040 + n * 0x4000, 8, 8, 2⟩
def R.SLC_SVCTL_FEWARN (n : Nat) : Fld := ⟨0x103040 + n * 0x4000, 32, 32, 0⟩
/-! SLC_SVCMD0: spec/11_control_loops_supervision.md, after R257. -/
def R.SLC_SVCMD0_PCMD (n : Nat) : Fld := ⟨0x103048 + n * 0x4000, 0, 64, 0⟩
/-! SLC_SVCMD1: spec/11_control_loops_supervision.md, after R257. -/
def R.SLC_SVCMD1_SEQ (n : Nat) : Fld := ⟨0x103050 + n * 0x4000, 0, 16, 0⟩
/-! SLC_SVREF: spec/11_control_loops_supervision.md, after R257. -/
def R.SLC_SVREF_PR (n : Nat) : Fld := ⟨0x103058 + n * 0x4000, 0, 64, 0⟩
/-! SLC_SVREFV: spec/11_control_loops_supervision.md, after R257. -/
def R.SLC_SVREFV_VR (n : Nat) : Fld := ⟨0x103060 + n * 0x4000, 0, 32, 0⟩
def R.SLC_SVREFV_RAMP (n : Nat) : Fld := ⟨0x103060 + n * 0x4000, 32, 1, 0⟩
/-! SLC_SVSTAT: spec/11_control_loops_supervision.md, after R257. -/
def R.SLC_SVSTAT_FE (n : Nat) : Fld := ⟨0x103068 + n * 0x4000, 0, 32, 0⟩
def R.SLC_SVSTAT_FEW (n : Nat) : Fld := ⟨0x103068 + n * 0x4000, 32, 1, 0⟩
def R.SLC_SVSTAT_FETMR (n : Nat) : Fld := ⟨0x103068 + n * 0x4000, 33, 1, 0⟩
def R.SLC_SVSTAT_LIMP (n : Nat) : Fld := ⟨0x103068 + n * 0x4000, 34, 1, 0⟩
def R.SLC_SVSTAT_LIMN (n : Nat) : Fld := ⟨0x103068 + n * 0x4000, 35, 1, 0⟩
def R.SLC_SVSTAT_BEYOND_P (n : Nat) : Fld := ⟨0x103068 + n * 0x4000, 36, 1, 0⟩
def R.SLC_SVSTAT_BEYOND_N (n : Nat) : Fld := ⟨0x103068 + n * 0x4000, 37, 1, 0⟩
def R.SLC_SVSTAT_NOREF (n : Nat) : Fld := ⟨0x103068 + n * 0x4000, 38, 1, 0⟩
def R.SLC_SVSTAT_HOMESUSP (n : Nat) : Fld := ⟨0x103068 + n * 0x4000, 39, 1, 0⟩
def R.SLC_SVSTAT_FECNT (n : Nat) : Fld := ⟨0x103068 + n * 0x4000, 40, 16, 0⟩
/-! SLC_SVCNT: spec/11_control_loops_supervision.md, after R257. -/
def R.SLC_SVCNT_FEWCNT (n : Nat) : Fld := ⟨0x103070 + n * 0x4000, 0, 16, 0⟩
def R.SLC_SVCNT_FETRIP (n : Nat) : Fld := ⟨0x103070 + n * 0x4000, 16, 16, 0⟩
def R.SLC_SVCNT_LIMCNT (n : Nat) : Fld := ⟨0x103070 + n * 0x4000, 32, 16, 0⟩
def R.SLC_SVCNT_STALECNT (n : Nat) : Fld := ⟨0x103070 + n * 0x4000, 48, 16, 0⟩
/-! SLC_PRCFG: spec/12_motion_profiles_stepping_homing.md, after R286. -/
def R.SLC_PRCFG_REQHOME (n : Nat) : Fld := ⟨0x102000 + n * 0x4000, 0, 1, 0⟩
def R.SLC_PRCFG_CAMEN (n : Nat) : Fld := ⟨0x102000 + n * 0x4000, 1, 1, 0⟩
def R.SLC_PRCFG_CINTERP (n : Nat) : Fld := ⟨0x102000 + n * 0x4000, 2, 1, 0⟩
def R.SLC_PRCFG_INPOS_N (n : Nat) : Fld := ⟨0x102000 + n * 0x4000, 8, 8, 4⟩
def R.SLC_PRCFG_INPOSWIN (n : Nat) : Fld := ⟨0x102000 + n * 0x4000, 16, 16, 0x100⟩
def R.SLC_PRCFG_PRBDIST (n : Nat) : Fld := ⟨0x102000 + n * 0x4000, 32, 32, 0⟩
/-! SLC_PRCMD: spec/12_motion_profiles_stepping_homing.md, after R286. -/
def R.SLC_PRCMD_CMD (n : Nat) : Fld := ⟨0x102008 + n * 0x4000, 0, 3, 0⟩
def R.SLC_PRCMD_DIR (n : Nat) : Fld := ⟨0x102008 + n * 0x4000, 3, 1, 0⟩
def R.SLC_PRCMD_SSW (n : Nat) : Fld := ⟨0x102008 + n * 0x4000, 4, 1, 0⟩
def R.SLC_PRCMD_SSEL (n : Nat) : Fld := ⟨0x102008 + n * 0x4000, 5, 2, 0⟩
def R.SLC_PRCMD_PROBE (n : Nat) : Fld := ⟨0x102008 + n * 0x4000, 7, 1, 0⟩
/-! SLC_PRTGT: spec/12_motion_profiles_stepping_homing.md, after R286. -/
def R.SLC_PRTGT_TGT (n : Nat) : Fld := ⟨0x102010 + n * 0x4000, 0, 64, 0⟩
/-! SLC_PRSTAT: spec/12_motion_profiles_stepping_homing.md, after R286. -/
def R.SLC_PRSTAT_PSTATE (n : Nat) : Fld := ⟨0x102018 + n * 0x4000, 0, 3, 0⟩
def R.SLC_PRSTAT_INPOS (n : Nat) : Fld := ⟨0x102018 + n * 0x4000, 3, 1, 0⟩
def R.SLC_PRSTAT_HOMED (n : Nat) : Fld := ⟨0x102018 + n * 0x4000, 4, 1, 0⟩
def R.SLC_PRSTAT_SLOST (n : Nat) : Fld := ⟨0x102018 + n * 0x4000, 5, 1, 1⟩
def R.SLC_PRSTAT_PRBHIT (n : Nat) : Fld := ⟨0x102018 + n * 0x4000, 6, 1, 0⟩
def R.SLC_PRSTAT_PRBMISS (n : Nat) : Fld := ⟨0x102018 + n * 0x4000, 7, 1, 0⟩
def R.SLC_PRSTAT_HSTEP (n : Nat) : Fld := ⟨0x102018 + n * 0x4000, 8, 4, 0⟩
def R.SLC_PRSTAT_CAMERR (n : Nat) : Fld := ⟨0x102018 + n * 0x4000, 12, 1, 0⟩
def R.SLC_PRSTAT_RES (n : Nat) : Fld := ⟨0x102018 + n * 0x4000, 16, 8, 0⟩
def R.SLC_PRSTAT_STALLCNT (n : Nat) : Fld := ⟨0x102018 + n * 0x4000, 32, 16, 0⟩
/-! SLC_PRPAR: spec/12_motion_profiles_stepping_homing.md, after R286. -/
def R.SLC_PRPAR_MANT (n : Nat) (k : Nat) : Fld := ⟨0x102040 + n * 0x4000 + k * 8, 0, 32, 0⟩
def R.SLC_PRPAR_EXP (n : Nat) (k : Nat) : Fld := ⟨0x102040 + n * 0x4000 + k * 8, 32, 8, 0⟩
/-! SLC_GRRAT: spec/12_motion_profiles_stepping_homing.md, after R286. -/
def R.SLC_GRRAT_NUM (n : Nat) : Fld := ⟨0x102080 + n * 0x4000, 0, 32, 1⟩
def R.SLC_GRRAT_DEN (n : Nat) : Fld := ⟨0x102080 + n * 0x4000, 32, 32, 1⟩
/-! SLC_GRCAM: spec/12_motion_profiles_stepping_homing.md, after R286. -/
def R.SLC_GRCAM_CAMADDR (n : Nat) : Fld := ⟨0x102088 + n * 0x4000, 0, 32, 0⟩
def R.SLC_GRCAM_CAMNEXT (n : Nat) : Fld := ⟨0x102088 + n * 0x4000, 32, 32, 0⟩
/-! SLC_HMCFG: spec/12_motion_profiles_stepping_homing.md, after R286. -/
def R.SLC_HMCFG_METHOD (n : Nat) : Fld := ⟨0x102100 + n * 0x4000, 0, 3, 0⟩
def R.SLC_HMCFG_HDIR (n : Nat) : Fld := ⟨0x102100 + n * 0x4000, 3, 1, 0⟩
def R.SLC_HMCFG_HRET (n : Nat) : Fld := ⟨0x102100 + n * 0x4000, 4, 1, 0⟩
def R.SLC_HMCFG_HSW_EN (n : Nat) : Fld := ⟨0x102100 + n * 0x4000, 5, 1, 0⟩
def R.SLC_HMCFG_HSW_CH (n : Nat) : Fld := ⟨0x102100 + n * 0x4000, 6, 5, 0⟩
def R.SLC_HMCFG_HSW_POL (n : Nat) : Fld := ⟨0x102100 + n * 0x4000, 11, 1, 0⟩
def R.SLC_HMCFG_HSI (n : Nat) : Fld := ⟨0x102100 + n * 0x4000, 16, 16, 0⟩
def R.SLC_HMCFG_HST (n : Nat) : Fld := ⟨0x102100 + n * 0x4000, 32, 16, 50⟩
/-! SLC_HMPOS: spec/12_motion_profiles_stepping_homing.md, after R286. -/
def R.SLC_HMPOS_HPOS (n : Nat) : Fld := ⟨0x102108 + n * 0x4000, 0, 64, 0⟩
/-! SLC_HMDIST: spec/12_motion_profiles_stepping_homing.md, after R286. -/
def R.SLC_HMDIST_HDIST (n : Nat) : Fld := ⟨0x102110 + n * 0x4000, 0, 64, 0⟩
/-! SLC_STCFG: spec/12_motion_profiles_stepping_homing.md, after R286. -/
def R.SLC_STCFG_TSEL (n : Nat) : Fld := ⟨0x102180 + n * 0x4000, 0, 2, 0⟩
def R.SLC_STCFG_STALLEN (n : Nat) : Fld := ⟨0x102180 + n * 0x4000, 2, 1, 0⟩
def R.SLC_STCFG_STALLSEV (n : Nat) : Fld := ⟨0x102180 + n * 0x4000, 3, 1, 1⟩
def R.SLC_STCFG_STALL_N (n : Nat) : Fld := ⟨0x102180 + n * 0x4000, 8, 8, 8⟩
def R.SLC_STCFG_IRUN (n : Nat) : Fld := ⟨0x102180 + n * 0x4000, 16, 16, 0⟩
def R.SLC_STCFG_IHOLD (n : Nat) : Fld := ⟨0x102180 + n * 0x4000, 32, 16, 0⟩
def R.SLC_STCFG_HOLDDLY (n : Nat) : Fld := ⟨0x102180 + n * 0x4000, 48, 16, 100⟩
/-! SLC_STLIM: spec/12_motion_profiles_stepping_homing.md, after R286. -/
def R.SLC_STLIM_DSTALL (n : Nat) : Fld := ⟨0x102188 + n * 0x4000, 0, 16, 0x200⟩
def R.SLC_STLIM_EMIN (n : Nat) : Fld := ⟨0x102188 + n * 0x4000, 16, 16, 200⟩
def R.SLC_STLIM_SPR (n : Nat) : Fld := ⟨0x102188 + n * 0x4000, 32, 16, 200⟩
def R.SLC_STLIM_SFMIN (n : Nat) : Fld := ⟨0x102188 + n * 0x4000, 48, 16, 0x100⟩
/-! SLC_STOBS: spec/12_motion_profiles_stepping_homing.md, after R286. -/
def R.SLC_STOBS_DELTA (n : Nat) : Fld := ⟨0x102190 + n * 0x4000, 0, 16, 0⟩
def R.SLC_STOBS_EMAG (n : Nat) : Fld := ⟨0x102190 + n * 0x4000, 16, 16, 0⟩
def R.SLC_STOBS_SEQ (n : Nat) : Fld := ⟨0x102190 + n * 0x4000, 48, 16, 0⟩
/-! GRP_CFGg: spec/12_motion_profiles_stepping_homing.md, after R286. -/
def R.GRP_CFG_QBASE (n : Nat) : Fld := ⟨0x210000 + n * 0x100, 0, 32, 0⟩
def R.GRP_CFG_TBASE (n : Nat) : Fld := ⟨0x210000 + n * 0x100, 32, 1, 0⟩
def R.GRP_CFG_THOLDQ (n : Nat) : Fld := ⟨0x210000 + n * 0x100, 48, 8, 20⟩
/-! GRP_PARg: spec/12_motion_profiles_stepping_homing.md, after R286. -/
def R.GRP_PAR_MANT (n : Nat) (k : Nat) : Fld := ⟨0x210008 + n * 0x100 + k * 8, 0, 32, 0⟩
def R.GRP_PAR_EXP (n : Nat) (k : Nat) : Fld := ⟨0x210008 + n * 0x100 + k * 8, 32, 8, 0⟩
/-! GRP_LEADg: spec/12_motion_profiles_stepping_homing.md, after R286. -/
def R.GRP_LEAD_NUM (n : Nat) : Fld := ⟨0x210020 + n * 0x100, 0, 32, 1⟩
def R.GRP_LEAD_DEN (n : Nat) : Fld := ⟨0x210020 + n * 0x100, 32, 32, 1⟩
/-! GRP_OVRg: spec/12_motion_profiles_stepping_homing.md, after R286. -/
def R.GRP_OVR_OVR (n : Nat) : Fld := ⟨0x210028 + n * 0x100, 0, 17, 0x10000⟩
def R.GRP_OVR_THOLD (n : Nat) : Fld := ⟨0x210028 + n * 0x100, 48, 16, 200⟩
/-! GRP_CMDg: spec/12_motion_profiles_stepping_homing.md, after R286. -/
def R.GRP_CMD_CMD (n : Nat) : Fld := ⟨0x210030 + n * 0x100, 0, 3, 0⟩
def R.GRP_CMD_SSW (n : Nat) : Fld := ⟨0x210030 + n * 0x100, 3, 1, 0⟩
def R.GRP_CMD_SSEL (n : Nat) : Fld := ⟨0x210030 + n * 0x100, 4, 2, 0⟩
def R.GRP_CMD_NAPP (n : Nat) : Fld := ⟨0x210030 + n * 0x100, 16, 11, 0⟩
/-! GRP_STATg: spec/12_motion_profiles_stepping_homing.md, after R286. -/
def R.GRP_STAT_STATE (n : Nat) : Fld := ⟨0x210038 + n * 0x100, 0, 3, 0⟩
def R.GRP_STAT_RES (n : Nat) : Fld := ⟨0x210038 + n * 0x100, 8, 8, 0⟩
def R.GRP_STAT_HEAD (n : Nat) : Fld := ⟨0x210038 + n * 0x100, 16, 10, 0⟩
def R.GRP_STAT_COUNT (n : Nat) : Fld := ⟨0x210038 + n * 0x100, 32, 11, 0⟩
def R.GRP_STAT_SEGID (n : Nat) : Fld := ⟨0x210038 + n * 0x100, 48, 16, 0⟩
/-! GRP_SSk: spec/12_motion_profiles_stepping_homing.md, after R286. -/
def R.GRP_SS_SRC (n : Nat) : Fld := ⟨0x210800 + n * 8, 0, 2, 0⟩
def R.GRP_SS_PAR (n : Nat) : Fld := ⟨0x210800 + n * 8, 2, 5, 0⟩
def R.GRP_SS_EDGE (n : Nat) : Fld := ⟨0x210800 + n * 8, 7, 1, 0⟩
def R.GRP_SS_FIRE (n : Nat) : Fld := ⟨0x210800 + n * 8, 8, 1, 0⟩
def R.GRP_SS_FIRECNT (n : Nat) : Fld := ⟨0x210800 + n * 8, 16, 16, 0⟩
def R.GRP_SS_ARMCNT (n : Nat) : Fld := ⟨0x210800 + n * 8, 32, 16, 0⟩
/-! GRP_STTAB: spec/12_motion_profiles_stepping_homing.md, after R286. -/
def R.GRP_STTAB_BASE : Fld := ⟨0x210900, 0, 32, 0⟩
/-! SLC_CHYCFG: spec/13_cherry_pairing.md, after R300. -/
def R.SLC_CHYCFG_FUNC (n : Nat) : Fld := ⟨0x101820 + n * 0x4000, 0, 3, 0⟩
def R.SLC_CHYCFG_OFS30 (n : Nat) : Fld := ⟨0x101820 + n * 0x4000, 3, 1, 0⟩
def R.SLC_CHYCFG_CPH (n : Nat) : Fld := ⟨0x101820 + n * 0x4000, 4, 1, 0⟩
def R.SLC_CHYCFG_DEG (n : Nat) : Fld := ⟨0x101820 + n * 0x4000, 5, 1, 0⟩
def R.SLC_CHYCFG_IMB_N (n : Nat) : Fld := ⟨0x101820 + n * 0x4000, 8, 8, 8⟩
def R.SLC_CHYCFG_IMBLIM (n : Nat) : Fld := ⟨0x101820 + n * 0x4000, 16, 16, 0x51f⟩
def R.SLC_CHYCFG_DEVLIM (n : Nat) : Fld := ⟨0x101820 + n * 0x4000, 32, 24, 0⟩
/-! SLC_CHYRAT: spec/13_cherry_pairing.md, after R300. -/
def R.SLC_CHYRAT_NUM (n : Nat) : Fld := ⟨0x101828 + n * 0x4000, 0, 32, 1⟩
def R.SLC_CHYRAT_DEN (n : Nat) : Fld := ⟨0x101828 + n * 0x4000, 32, 32, 1⟩
/-! SLC_CHYSTAT: spec/13_cherry_pairing.md, after R300. -/
def R.SLC_CHYSTAT_LOST_E (n : Nat) : Fld := ⟨0x101830 + n * 0x4000, 0, 1, 0⟩
def R.SLC_CHYSTAT_LOST_O (n : Nat) : Fld := ⟨0x101830 + n * 0x4000, 1, 1, 0⟩
def R.SLC_CHYSTAT_IMBCNT (n : Nat) : Fld := ⟨0x101830 + n * 0x4000, 16, 16, 0⟩
def R.SLC_CHYSTAT_DEV (n : Nat) : Fld := ⟨0x101830 + n * 0x4000, 32, 24, 0⟩
/-! NET_CFG: spec/14_ethernet_switch_buffers.md, after R321. -/
def R.NET_CFG_PMODE : Fld := ⟨0x300000, 0, 2, 0⟩
def R.NET_CFG_LEARN : Fld := ⟨0x300000, 2, 1, 1⟩
def R.NET_CFG_PREF : Fld := ⟨0x300000, 3, 1, 0⟩
def R.NET_CFG_REVERT : Fld := ⟨0x300000, 4, 1, 0⟩
def R.NET_CFG_VLANEN : Fld := ⟨0x300000, 5, 1, 0⟩
def R.NET_CFG_AGE : Fld := ⟨0x300000, 8, 12, 0x12c⟩
/-! NET_MAC: spec/14_ethernet_switch_buffers.md, after R321. -/
def R.NET_MAC_MAC : Fld := ⟨0x300008, 0, 48, 0⟩
/-! NET_PRIMAP: spec/14_ethernet_switch_buffers.md, after R321. -/
def R.NET_PRIMAP_MAP0 : Fld := ⟨0x300010, 0, 2, 1⟩
def R.NET_PRIMAP_MAP1 : Fld := ⟨0x300010, 2, 2, 0⟩
def R.NET_PRIMAP_MAP2 : Fld := ⟨0x300010, 4, 2, 1⟩
def R.NET_PRIMAP_MAP3 : Fld := ⟨0x300010, 6, 2, 1⟩
def R.NET_PRIMAP_MAP4 : Fld := ⟨0x300010, 8, 2, 2⟩
def R.NET_PRIMAP_MAP5 : Fld := ⟨0x300010, 10, 2, 2⟩
def R.NET_PRIMAP_MAP6 : Fld := ⟨0x300010, 12, 2, 3⟩
def R.NET_PRIMAP_MAP7 : Fld := ⟨0x300010, 14, 2, 3⟩
def R.NET_PRIMAP_PCP_TIME : Fld := ⟨0x300010, 16, 3, 6⟩
def R.NET_PRIMAP_PCP_CTRL : Fld := ⟨0x300010, 19, 3, 5⟩
def R.NET_PRIMAP_PCP_ACQ : Fld := ⟨0x300010, 22, 3, 1⟩
def R.NET_PRIMAP_TAGOWN : Fld := ⟨0x300010, 25, 1, 0⟩
def R.NET_PRIMAP_OWNVID : Fld := ⟨0x300010, 32, 12, 1⟩
/-! NET_CMD: spec/14_ethernet_switch_buffers.md, after R321. -/
def R.NET_CMD_FLUSH : Fld := ⟨0x300018, 0, 1, 0⟩
def R.NET_CMD_SWITCH : Fld := ⟨0x300018, 1, 1, 0⟩
/-! NET_FOSTAT: spec/14_ethernet_switch_buffers.md, after R321. -/
def R.NET_FOSTAT_ACTIVE : Fld := ⟨0x300020, 0, 1, 0⟩
def R.NET_FOSTAT_NOLINK : Fld := ⟨0x300020, 1, 1, 1⟩
def R.NET_FOSTAT_TBLFULL : Fld := ⟨0x300020, 2, 1, 0⟩
def R.NET_FOSTAT_FOCNT : Fld := ⟨0x300020, 16, 16, 0⟩
def R.NET_FOSTAT_LEARNED : Fld := ⟨0x300020, 32, 11, 0⟩
def R.NET_FOSTAT_CELLS : Fld := ⟨0x300020, 48, 16, 0x1000⟩
/-! NET_PCFGp: spec/14_ethernet_switch_buffers.md, after R321. -/
def R.NET_PCFG_MODE (n : Nat) : Fld := ⟨0x300100 + n * 0x100, 0, 3, 0⟩
def R.NET_PCFG_AN (n : Nat) : Fld := ⟨0x300100 + n * 0x100, 3, 1, 1⟩
def R.NET_PCFG_FC (n : Nat) : Fld := ⟨0x300100 + n * 0x100, 4, 2, 0⟩
def R.NET_PCFG_RXPAUSE (n : Nat) : Fld := ⟨0x300100 + n * 0x100, 6, 1, 1⟩
def R.NET_PCFG_PFCEN (n : Nat) : Fld := ⟨0x300100 + n * 0x100, 8, 8, 0⟩
def R.NET_PCFG_PVID (n : Nat) : Fld := ⟨0x300100 + n * 0x100, 16, 12, 1⟩
def R.NET_PCFG_DEFPCP (n : Nat) : Fld := ⟨0x300100 + n * 0x100, 28, 3, 0⟩
def R.NET_PCFG_MAXFRM (n : Nat) : Fld := ⟨0x300100 + n * 0x100, 32, 14, 0x5f2⟩
def R.NET_PCFG_TXAMP (n : Nat) : Fld := ⟨0x300100 + n * 0x100, 46, 4, 8⟩
def R.NET_PCFG_DEEMPH (n : Nat) : Fld := ⟨0x300100 + n * 0x100, 50, 3, 0⟩
/-! NET_PSTATp: spec/14_ethernet_switch_buffers.md, after R321. -/
def R.NET_PSTAT_LINK (n : Nat) : Fld := ⟨0x300108 + n * 0x100, 0, 1, 0⟩
def R.NET_PSTAT_SYNC (n : Nat) : Fld := ⟨0x300108 + n * 0x100, 1, 1, 0⟩
def R.NET_PSTAT_SPEED (n : Nat) : Fld := ⟨0x300108 + n * 0x100, 2, 3, 0⟩
def R.NET_PSTAT_PPAUSE (n : Nat) : Fld := ⟨0x300108 + n * 0x100, 5, 1, 0⟩
def R.NET_PSTAT_PAUSED (n : Nat) : Fld := ⟨0x300108 + n * 0x100, 6, 1, 0⟩
def R.NET_PSTAT_XOFF (n : Nat) : Fld := ⟨0x300108 + n * 0x100, 7, 1, 0⟩
def R.NET_PSTAT_PFCHELD (n : Nat) : Fld := ⟨0x300108 + n * 0x100, 8, 8, 0⟩
def R.NET_PSTAT_PFCSENT (n : Nat) : Fld := ⟨0x300108 + n * 0x100, 16, 8, 0⟩
def R.NET_PSTAT_LDOWN (n : Nat) : Fld := ⟨0x300108 + n * 0x100, 24, 1, 0⟩
/-! NET_FCTHp: spec/14_ethernet_switch_buffers.md, after R321. -/
def R.NET_FCTH_XOFF (n : Nat) : Fld := ⟨0x300110 + n * 0x100, 0, 16, 0xc00⟩
def R.NET_FCTH_XON (n : Nat) : Fld := ⟨0x300110 + n * 0x100, 16, 16, 0x800⟩
def R.NET_FCTH_QUANTA (n : Nat) : Fld := ⟨0x300110 + n * 0x100, 32, 16, 0xffff⟩
/-! NET_PFCTHp: spec/14_ethernet_switch_buffers.md, after R321. -/
def R.NET_PFCTH_XOFF0 (n : Nat) : Fld := ⟨0x300118 + n * 0x100, 0, 8, 0⟩
def R.NET_PFCTH_XON0 (n : Nat) : Fld := ⟨0x300118 + n * 0x100, 8, 8, 0⟩
def R.NET_PFCTH_XOFF1 (n : Nat) : Fld := ⟨0x300118 + n * 0x100, 16, 8, 0⟩
def R.NET_PFCTH_XON1 (n : Nat) : Fld := ⟨0x300118 + n * 0x100, 24, 8, 0⟩
def R.NET_PFCTH_XOFF2 (n : Nat) : Fld := ⟨0x300118 + n * 0x100, 32, 8, 0⟩
def R.NET_PFCTH_XON2 (n : Nat) : Fld := ⟨0x300118 + n * 0x100, 40, 8, 0⟩
def R.NET_PFCTH_XOFF3 (n : Nat) : Fld := ⟨0x300118 + n * 0x100, 48, 8, 0⟩
def R.NET_PFCTH_XON3 (n : Nat) : Fld := ⟨0x300118 + n * 0x100, 56, 8, 0⟩
/-! NET_EQp: spec/14_ethernet_switch_buffers.md, after R321. -/
def R.NET_EQ_QUOTA0 (n : Nat) : Fld := ⟨0x300120 + n * 0x100, 0, 16, 0x500⟩
def R.NET_EQ_QUOTA1 (n : Nat) : Fld := ⟨0x300120 + n * 0x100, 16, 16, 0x600⟩
def R.NET_EQ_QUOTA2 (n : Nat) : Fld := ⟨0x300120 + n * 0x100, 32, 16, 0x400⟩
def R.NET_EQ_QUOTA3 (n : Nat) : Fld := ⟨0x300120 + n * 0x100, 48, 16, 0x100⟩
/-! NET_PCNT0p: spec/14_ethernet_switch_buffers.md, after R321. -/
def R.NET_PCNT0_RXFRM (n : Nat) : Fld := ⟨0x300128 + n * 0x100, 0, 32, 0⟩
def R.NET_PCNT0_TXFRM (n : Nat) : Fld := ⟨0x300128 + n * 0x100, 32, 32, 0⟩
/-! NET_PCNT1p: spec/14_ethernet_switch_buffers.md, after R321. -/
def R.NET_PCNT1_RXERR (n : Nat) : Fld := ⟨0x300130 + n * 0x100, 0, 16, 0⟩
def R.NET_PCNT1_RXOVF (n : Nat) : Fld := ⟨0x300130 + n * 0x100, 16, 16, 0⟩
def R.NET_PCNT1_OVERSIZE (n : Nat) : Fld := ⟨0x300130 + n * 0x100, 32, 16, 0⟩
def R.NET_PCNT1_VLANDROP (n : Nat) : Fld := ⟨0x300130 + n * 0x100, 48, 16, 0⟩
/-! NET_PCNT2p: spec/14_ethernet_switch_buffers.md, after R321. -/
def R.NET_PCNT2_EQDROP (n : Nat) : Fld := ⟨0x300138 + n * 0x100, 0, 16, 0⟩
def R.NET_PCNT2_PAUSETX (n : Nat) : Fld := ⟨0x300138 + n * 0x100, 16, 16, 0⟩
def R.NET_PCNT2_PAUSERX (n : Nat) : Fld := ⟨0x300138 + n * 0x100, 32, 16, 0⟩
def R.NET_PCNT2_TXLATE (n : Nat) : Fld := ⟨0x300138 + n * 0x100, 48, 16, 0⟩
/-! NET_VLANk: spec/14_ethernet_switch_buffers.md, after R321. -/
def R.NET_VLAN_VID (n : Nat) : Fld := ⟨0x300800 + n * 8, 0, 12, 0⟩
def R.NET_VLAN_VALID (n : Nat) : Fld := ⟨0x300800 + n * 8, 12, 1, 0⟩
def R.NET_VLAN_MEMBER (n : Nat) : Fld := ⟨0x300800 + n * 8, 13, 3, 0⟩
def R.NET_VLAN_UNTAG (n : Nat) : Fld := ⟨0x300800 + n * 8, 16, 3, 0⟩
/-! PTP_CFG: spec/15_network_time.md, after R344. -/
def R.PTP_CFG_ROLE : Fld := ⟨0x310000, 0, 2, 0⟩
def R.PTP_CFG_PROF : Fld := ⟨0x310000, 2, 1, 0⟩
def R.PTP_CFG_P2P : Fld := ⟨0x310000, 3, 1, 0⟩
def R.PTP_CFG_TRANS : Fld := ⟨0x310000, 4, 2, 0⟩
def R.PTP_CFG_TCEN : Fld := ⟨0x310000, 6, 1, 1⟩
def R.PTP_CFG_DOMAIN : Fld := ⟨0x310000, 8, 8, 0⟩
def R.PTP_CFG_PRIO1 : Fld := ⟨0x310000, 16, 8, 128⟩
def R.PTP_CFG_PRIO2 : Fld := ⟨0x310000, 24, 8, 128⟩
def R.PTP_CFG_CLASS : Fld := ⟨0x310000, 32, 8, 248⟩
def R.PTP_CFG_LOGSYNC : Fld := ⟨0x310000, 40, 4, 13⟩
def R.PTP_CFG_LOGANN : Fld := ⟨0x310000, 44, 4, 1⟩
def R.PTP_CFG_ANNTO : Fld := ⟨0x310000, 48, 4, 3⟩
def R.PTP_CFG_LOGMDR : Fld := ⟨0x310000, 52, 4, 0⟩
/-! PTP_SERVO: spec/15_network_time.md, after R344. -/
def R.PTP_SERVO_STEPTH : Fld := ⟨0x310008, 0, 16, 10⟩
def R.PTP_SERVO_LOCKTH : Fld := ⟨0x310008, 16, 16, 100⟩
def R.PTP_SERVO_LOCKN : Fld := ⟨0x310008, 32, 8, 16⟩
def R.PTP_SERVO_QUALN : Fld := ⟨0x310008, 40, 8, 4⟩
def R.PTP_SERVO_HOTIME : Fld := ⟨0x310008, 48, 16, 60⟩
/-! PTP_SRC: spec/15_network_time.md, after R344. -/
def R.PTP_SRC_PPSDISC : Fld := ⟨0x310010, 0, 1, 0⟩
def R.PTP_SRC_REFSEL : Fld := ⟨0x310010, 1, 1, 0⟩
def R.PTP_SRC_SINEDGE : Fld := ⟨0x310010, 2, 1, 0⟩
def R.PTP_SRC_UTCOFS : Fld := ⟨0x310010, 8, 8, 37⟩
/-! PTP_TIME0: spec/15_network_time.md, after R344. -/
def R.PTP_TIME0_NS : Fld := ⟨0x310018, 0, 30, 0⟩
def R.PTP_TIME0_SUBNS : Fld := ⟨0x310018, 32, 16, 0⟩
/-! PTP_TIME1: spec/15_network_time.md, after R344. -/
def R.PTP_TIME1_SEC : Fld := ⟨0x310020, 0, 48, 0⟩
/-! PTP_ADJ: spec/15_network_time.md, after R344. -/
def R.PTP_ADJ_OFS : Fld := ⟨0x310028, 0, 40, 0⟩
def R.PTP_ADJ_GO : Fld := ⟨0x310028, 48, 1, 0⟩
/-! PTP_SETSEC: spec/15_network_time.md, after R344. -/
def R.PTP_SETSEC_SEC : Fld := ⟨0x310030, 0, 48, 0⟩
/-! PTP_RATE: spec/15_network_time.md, after R344. -/
def R.PTP_RATE_RATE : Fld := ⟨0x310038, 0, 48, 0⟩
/-! PTP_STAT: spec/15_network_time.md, after R344. -/
def R.PTP_STAT_LOCK : Fld := ⟨0x310040, 0, 1, 0⟩
def R.PTP_STAT_HOLD : Fld := ⟨0x310040, 1, 1, 0⟩
def R.PTP_STAT_DRIFT : Fld := ⟨0x310040, 2, 1, 0⟩
def R.PTP_STAT_TIMESET : Fld := ⟨0x310040, 3, 1, 0⟩
def R.PTP_STAT_RSTATE : Fld := ⟨0x310040, 4, 2, 0⟩
def R.PTP_STAT_RXPORT : Fld := ⟨0x310040, 6, 1, 0⟩
def R.PTP_STAT_SINV : Fld := ⟨0x310040, 7, 1, 0⟩
def R.PTP_STAT_REFV : Fld := ⟨0x310040, 8, 1, 0⟩
def R.PTP_STAT_RATEMAX : Fld := ⟨0x310040, 32, 32, 0⟩
/-! PTP_OFFS: spec/15_network_time.md, after R344. -/
def R.PTP_OFFS_OFFSET : Fld := ⟨0x310048, 0, 32, 0⟩
def R.PTP_OFFS_MPD : Fld := ⟨0x310048, 32, 32, 0⟩
/-! PTP_GMID: spec/15_network_time.md, after R344. -/
def R.PTP_GMID_GMID : Fld := ⟨0x310050, 0, 64, 0⟩
/-! PTP_EPOCH0: spec/15_network_time.md, after R344. -/
def R.PTP_EPOCH0_NS : Fld := ⟨0x310058, 0, 30, 0⟩
def R.PTP_EPOCH0_SUBNS : Fld := ⟨0x310058, 32, 16, 0⟩
/-! PTP_EPOCH1: spec/15_network_time.md, after R344. -/
def R.PTP_EPOCH1_SEC : Fld := ⟨0x310060, 0, 48, 0⟩
/-! PTP_SIN: spec/15_network_time.md, after R344. -/
def R.PTP_SIN_TS : Fld := ⟨0x310068, 0, 64, 0⟩
/-! PTP_SOUT: spec/15_network_time.md, after R344. -/
def R.PTP_SOUT_CMP : Fld := ⟨0x310070, 0, 4, 0⟩
def R.PTP_SOUT_EN : Fld := ⟨0x310070, 4, 1, 0⟩
def R.PTP_SOUT_POL : Fld := ⟨0x310070, 5, 1, 0⟩
def R.PTP_SOUT_WIDTH : Fld := ⟨0x310070, 8, 24, 1⟩
/-! PTP_CNT: spec/15_network_time.md, after R344. -/
def R.PTP_CNT_STEPCNT : Fld := ⟨0x310078, 0, 16, 0⟩
def R.PTP_CNT_HOCNT : Fld := ⟨0x310078, 16, 16, 0⟩
def R.PTP_CNT_LLATE : Fld := ⟨0x310078, 32, 16, 0⟩
def R.PTP_CNT_LQFULL : Fld := ⟨0x310078, 48, 16, 0⟩
/-! PTP_PORTp: spec/15_network_time.md, after R344. -/
def R.PTP_PORT_TXOFS (n : Nat) : Fld := ⟨0x310100 + n * 0x100, 0, 16, 0⟩
def R.PTP_PORT_RXOFS (n : Nat) : Fld := ⟨0x310100 + n * 0x100, 16, 16, 0⟩
def R.PTP_PORT_ASYM (n : Nat) : Fld := ⟨0x310100 + n * 0x100, 32, 32, 0⟩
/-! PTP_CMPk0: spec/15_network_time.md, after R344. -/
def R.PTP_CMP0_NS (n : Nat) : Fld := ⟨0x310400 + n * 32, 0, 30, 0⟩
def R.PTP_CMP0_SUBNS (n : Nat) : Fld := ⟨0x310400 + n * 32, 32, 16, 0⟩
/-! PTP_CMPk1: spec/15_network_time.md, after R344. -/
def R.PTP_CMP1_SEC (n : Nat) : Fld := ⟨0x310408 + n * 32, 0, 48, 0⟩
/-! PTP_CMPk2: spec/15_network_time.md, after R344. -/
def R.PTP_CMP2_PERNS (n : Nat) : Fld := ⟨0x310410 + n * 32, 0, 30, 0⟩
def R.PTP_CMP2_PERSUB (n : Nat) : Fld := ⟨0x310410 + n * 32, 32, 16, 0⟩
/-! PTP_CMPk3: spec/15_network_time.md, after R344. -/
def R.PTP_CMP3_EN (n : Nat) : Fld := ⟨0x310418 + n * 32, 0, 1, 0⟩
def R.PTP_CMP3_FIRED (n : Nat) : Fld := ⟨0x310418 + n * 32, 1, 1, 0⟩
def R.PTP_CMP3_LATE (n : Nat) : Fld := ⟨0x310418 + n * 32, 2, 1, 0⟩
def R.PTP_CMP3_BMASK (n : Nat) : Fld := ⟨0x310418 + n * 32, 16, 16, 0⟩
def R.PTP_CMP3_BURSTN (n : Nat) : Fld := ⟨0x310418 + n * 32, 32, 12, 0⟩
def R.PTP_CMP3_FIRECNT (n : Nat) : Fld := ⟨0x310418 + n * 32, 48, 16, 0⟩
/-! NET_HPCFG0: spec/16_host_protocol.md, after R361. -/
def R.NET_HPCFG0_ETYPE : Fld := ⟨0x301000, 0, 16, 0x88b5⟩
def R.NET_HPCFG0_UDPPORT : Fld := ⟨0x301000, 16, 16, 0xca26⟩
def R.NET_HPCFG0_IPV4 : Fld := ⟨0x301000, 32, 32, 0⟩
/-! NET_HPCFG1: spec/16_host_protocol.md, after R361. -/
def R.NET_HPCFG1_AUTH : Fld := ⟨0x301008, 0, 1, 0⟩
def R.NET_HPCFG1_F0NOTE : Fld := ⟨0x301008, 1, 1, 0⟩
def R.NET_HPCFG1_NRTO : Fld := ⟨0x301008, 8, 8, 10⟩
def R.NET_HPCFG1_NRET : Fld := ⟨0x301008, 16, 4, 5⟩
def R.NET_HPCFG1_SESSTO : Fld := ⟨0x301008, 32, 16, 60⟩
def R.NET_HPCFG1_SPLATE : Fld := ⟨0x301008, 48, 16, 100⟩
/-! NET_HPKEYk: spec/16_host_protocol.md, after R361. -/
def R.NET_HPKEY_PSK (n : Nat) : Fld := ⟨0x301010 + n * 8, 0, 64, 0⟩
/-! NET_HPSTAT: spec/16_host_protocol.md, after R361. -/
def R.NET_HPSTAT_OPEN : Fld := ⟨0x301030, 0, 4, 0⟩
def R.NET_HPSTAT_NOTIFY : Fld := ⟨0x301030, 4, 4, 0⟩
def R.NET_HPSTAT_NOTELOST : Fld := ⟨0x301030, 16, 16, 0⟩
def R.NET_HPSTAT_AUTHFAIL : Fld := ⟨0x301030, 32, 16, 0⟩
def R.NET_HPSTAT_BADFRM : Fld := ⟨0x301030, 48, 16, 0⟩
/-! NET_HPCNT: spec/16_host_protocol.md, after R361. -/
def R.NET_HPCNT_REFUSED : Fld := ⟨0x301038, 0, 16, 0⟩
def R.NET_HPCNT_SPNOSRC : Fld := ⟨0x301038, 16, 16, 0⟩
def R.NET_HPCNT_SPDUP : Fld := ⟨0x301038, 32, 16, 0⟩
def R.NET_HPCNT_SPLATE_CNT : Fld := ⟨0x301038, 48, 16, 0⟩
/-! ACQ_CFG: spec/17_acquisition_triggers.md, after R373. -/
def R.ACQ_CFG_EN : Fld := ⟨0x320000, 0, 1, 0⟩
def R.ACQ_CFG_TCLK : Fld := ⟨0x320000, 2, 2, 0⟩
def R.ACQ_CFG_BLKMAX : Fld := ⟨0x320000, 8, 14, 0x800⟩
def R.ACQ_CFG_FLUSHT : Fld := ⟨0x320000, 32, 16, 0x3e8⟩
/-! ACQ_CTL: spec/17_acquisition_triggers.md, after R373. -/
def R.ACQ_CTL_RUN : Fld := ⟨0x320008, 0, 1, 0⟩
def R.ACQ_CTL_SESS : Fld := ⟨0x320008, 1, 3, 0⟩
/-! ACQ_CLKc: spec/17_acquisition_triggers.md, after R373. -/
def R.ACQ_CLK_KIND (n : Nat) : Fld := ⟨0x320010 + n * 8, 0, 2, 0⟩
def R.ACQ_CLK_PARAM (n : Nat) : Fld := ⟨0x320010 + n * 8, 2, 14, 0⟩
def R.ACQ_CLK_DIV (n : Nat) : Fld := ⟨0x320010 + n * 8, 16, 16, 0⟩
/-! ACQ_TCMD: spec/17_acquisition_triggers.md, after R373. -/
def R.ACQ_TCMD_ARM : Fld := ⟨0x320030, 0, 1, 0⟩
def R.ACQ_TCMD_STOP : Fld := ⟨0x320030, 1, 1, 0⟩
def R.ACQ_TCMD_FORCE : Fld := ⟨0x320030, 2, 1, 0⟩
/-! ACQ_TSTAT: spec/17_acquisition_triggers.md, after R373. -/
def R.ACQ_TSTAT_ACTIVE : Fld := ⟨0x320038, 0, 1, 0⟩
def R.ACQ_TSTAT_STATE : Fld := ⟨0x320038, 1, 3, 0⟩
def R.ACQ_TSTAT_CNT : Fld := ⟨0x320038, 8, 14, 0⟩
def R.ACQ_TSTAT_MSEQ : Fld := ⟨0x320038, 32, 16, 0⟩
def R.ACQ_TSTAT_MQ : Fld := ⟨0x320038, 48, 9, 0⟩
/-! ACQ_STAT: spec/17_acquisition_triggers.md, after R373. -/
def R.ACQ_STAT_BLKDROP : Fld := ⟨0x320040, 0, 16, 0⟩
def R.ACQ_STAT_GAPS : Fld := ⟨0x320040, 16, 16, 0⟩
def R.ACQ_STAT_COLL : Fld := ⟨0x320040, 32, 16, 0⟩
def R.ACQ_STAT_TRGBLK : Fld := ⟨0x320040, 48, 16, 0⟩
/-! ACQ_CNT: spec/17_acquisition_triggers.md, after R373. -/
def R.ACQ_CNT_BLKSENT : Fld := ⟨0x320048, 0, 32, 0⟩
def R.ACQ_CNT_MARKS : Fld := ⟨0x320048, 32, 32, 0⟩
/-! ACQ_RING: spec/17_acquisition_triggers.md, after R373. -/
def R.ACQ_RING_BASE : Fld := ⟨0x320050, 0, 32, 0⟩
def R.ACQ_RING_WPTR : Fld := ⟨0x320050, 32, 32, 0⟩
/-! ACQ_CHk: spec/17_acquisition_triggers.md, after R373. -/
def R.ACQ_CH_EN (n : Nat) : Fld := ⟨0x320100 + n * 8, 0, 1, 0⟩
def R.ACQ_CH_CLK (n : Nat) : Fld := ⟨0x320100 + n * 8, 1, 2, 0⟩
def R.ACQ_CH_W64 (n : Nat) : Fld := ⟨0x320100 + n * 8, 3, 1, 0⟩
def R.ACQ_CH_SRC (n : Nat) : Fld := ⟨0x320100 + n * 8, 4, 1, 0⟩
def R.ACQ_CH_LOC (n : Nat) : Fld := ⟨0x320100 + n * 8, 32, 32, 0⟩
/-! ACQ_TSk: spec/17_acquisition_triggers.md, after R373. -/
def R.ACQ_TS_CMP (n : Nat) : Fld := ⟨0x320400 + n * 16, 0, 3, 0⟩
def R.ACQ_TS_CH (n : Nat) : Fld := ⟨0x320400 + n * 16, 3, 6, 0⟩
def R.ACQ_TS_EXTEDGE (n : Nat) : Fld := ⟨0x320400 + n * 16, 9, 1, 0⟩
def R.ACQ_TS_MARK (n : Nat) : Fld := ⟨0x320400 + n * 16, 10, 1, 0⟩
def R.ACQ_TS_END (n : Nat) : Fld := ⟨0x320400 + n * 16, 11, 1, 0⟩
def R.ACQ_TS_NEXT (n : Nat) : Fld := ⟨0x320400 + n * 16, 12, 3, 0⟩
def R.ACQ_TS_TONEXT (n : Nat) : Fld := ⟨0x320400 + n * 16, 15, 3, 0⟩
def R.ACQ_TS_COUNT (n : Nat) : Fld := ⟨0x320400 + n * 16, 18, 14, 1⟩
def R.ACQ_TS_TIMER (n : Nat) : Fld := ⟨0x320400 + n * 16, 32, 32, 0⟩
/-! ACQ_TLVk: spec/17_acquisition_triggers.md, after R373. -/
def R.ACQ_TLV_LEVA (n : Nat) : Fld := ⟨0x320408 + n * 16, 0, 32, 0⟩
def R.ACQ_TLV_LEVB (n : Nat) : Fld := ⟨0x320408 + n * 16, 32, 32, 0⟩
/-! CANc_CFG: spec/18_can_fd.md, after R391. -/
def R.CAN_CFG_EN (n : Nat) : Fld := ⟨0x330200 + n * 0x200, 0, 1, 0⟩
def R.CAN_CFG_FDEN (n : Nat) : Fld := ⟨0x330200 + n * 0x200, 1, 1, 0⟩
def R.CAN_CFG_WAKEN (n : Nat) : Fld := ⟨0x330200 + n * 0x200, 2, 1, 0⟩
def R.CAN_CFG_TTEN (n : Nat) : Fld := ⟨0x330200 + n * 0x200, 3, 1, 0⟩
def R.CAN_CFG_TTROLE (n : Nat) : Fld := ⟨0x330200 + n * 0x200, 4, 2, 0⟩
def R.CAN_CFG_NETTIME (n : Nat) : Fld := ⟨0x330200 + n * 0x200, 6, 1, 0⟩
def R.CAN_CFG_TTCMP (n : Nat) : Fld := ⟨0x330200 + n * 0x200, 8, 4, 0⟩
def R.CAN_CFG_RETRYLIM (n : Nat) : Fld := ⟨0x330200 + n * 0x200, 16, 8, 0⟩
/-! CANc_NBT: spec/18_can_fd.md, after R391. -/
def R.CAN_NBT_NBRP (n : Nat) : Fld := ⟨0x330208 + n * 0x200, 0, 8, 0⟩
def R.CAN_NBT_NTSEG1 (n : Nat) : Fld := ⟨0x330208 + n * 0x200, 8, 8, 0⟩
def R.CAN_NBT_NTSEG2 (n : Nat) : Fld := ⟨0x330208 + n * 0x200, 16, 7, 0⟩
def R.CAN_NBT_NSJW (n : Nat) : Fld := ⟨0x330208 + n * 0x200, 24, 7, 0⟩
/-! CANc_DBT: spec/18_can_fd.md, after R391. -/
def R.CAN_DBT_DBRP (n : Nat) : Fld := ⟨0x330210 + n * 0x200, 0, 5, 0⟩
def R.CAN_DBT_DTSEG1 (n : Nat) : Fld := ⟨0x330210 + n * 0x200, 8, 5, 0⟩
def R.CAN_DBT_DTSEG2 (n : Nat) : Fld := ⟨0x330210 + n * 0x200, 16, 4, 0⟩
def R.CAN_DBT_DSJW (n : Nat) : Fld := ⟨0x330210 + n * 0x200, 24, 4, 0⟩
def R.CAN_DBT_TDCEN (n : Nat) : Fld := ⟨0x330210 + n * 0x200, 28, 1, 0⟩
def R.CAN_DBT_TDCO (n : Nat) : Fld := ⟨0x330210 + n * 0x200, 32, 7, 0⟩
/-! CANc_STAT: spec/18_can_fd.md, after R391. -/
def R.CAN_STAT_STATE (n : Nat) : Fld := ⟨0x330218 + n * 0x200, 0, 2, 0⟩
def R.CAN_STAT_RESTR (n : Nat) : Fld := ⟨0x330218 + n * 0x200, 2, 1, 0⟩
def R.CAN_STAT_TTSYNC (n : Nat) : Fld := ⟨0x330218 + n * 0x200, 3, 1, 0⟩
def R.CAN_STAT_TXDTO (n : Nat) : Fld := ⟨0x330218 + n * 0x200, 4, 1, 0⟩
def R.CAN_STAT_TEC (n : Nat) : Fld := ⟨0x330218 + n * 0x200, 8, 8, 0⟩
def R.CAN_STAT_REC (n : Nat) : Fld := ⟨0x330218 + n * 0x200, 16, 8, 0⟩
def R.CAN_STAT_RECSEQ (n : Nat) : Fld := ⟨0x330218 + n * 0x200, 24, 8, 0⟩
def R.CAN_STAT_TDCV (n : Nat) : Fld := ⟨0x330218 + n * 0x200, 32, 7, 0⟩
/-! CANc_CNT: spec/18_can_fd.md, after R391. -/
def R.CAN_CNT_BOCNT (n : Nat) : Fld := ⟨0x330220 + n * 0x200, 0, 16, 0⟩
def R.CAN_CNT_EPCNT (n : Nat) : Fld := ⟨0x330220 + n * 0x200, 16, 16, 0⟩
def R.CAN_CNT_RXOVF (n : Nat) : Fld := ⟨0x330220 + n * 0x200, 32, 16, 0⟩
def R.CAN_CNT_TTMISS (n : Nat) : Fld := ⟨0x330220 + n * 0x200, 48, 16, 0⟩
/-! CANc_TXREQ: spec/18_can_fd.md, after R391. -/
def R.CAN_TXREQ_REQ (n : Nat) : Fld := ⟨0x330228 + n * 0x200, 0, 64, 0⟩
/-! CANc_TXABT: spec/18_can_fd.md, after R391. -/
def R.CAN_TXABT_ABT (n : Nat) : Fld := ⟨0x330230 + n * 0x200, 0, 64, 0⟩
/-! CANc_TXPEND: spec/18_can_fd.md, after R391. -/
def R.CAN_TXPEND_PEND (n : Nat) : Fld := ⟨0x330238 + n * 0x200, 0, 64, 0⟩
/-! CANc_TXDONE: spec/18_can_fd.md, after R391. -/
def R.CAN_TXDONE_DONE (n : Nat) : Fld := ⟨0x330240 + n * 0x200, 0, 64, 0⟩
/-! CANc_RXFULLh: spec/18_can_fd.md, after R391. -/
def R.CAN_RXFULL_FULL (n : Nat) (k : Nat) : Fld := ⟨0x330248 + n * 0x200 + k * 8, 0, 64, 0⟩
/-! CANc_RXPTR: spec/18_can_fd.md, after R391. -/
def R.CAN_RXPTR_RXWPTR (n : Nat) : Fld := ⟨0x330258 + n * 0x200, 0, 7, 0⟩
def R.CAN_RXPTR_RXCNT (n : Nat) : Fld := ⟨0x330258 + n * 0x200, 8, 8, 0⟩
/-! CANc_TTCFG: spec/18_can_fd.md, after R391. -/
def R.CAN_TTCFG_NCOL (n : Nat) : Fld := ⟨0x330260 + n * 0x200, 0, 6, 0⟩
def R.CAN_TTCFG_NCYCX (n : Nat) : Fld := ⟨0x330260 + n * 0x200, 8, 3, 0⟩
def R.CAN_TTCFG_CYCLEN (n : Nat) : Fld := ⟨0x330260 + n * 0x200, 16, 16, 0⟩
def R.CAN_TTCFG_REFID (n : Nat) : Fld := ⟨0x330260 + n * 0x200, 32, 29, 0⟩
def R.CAN_TTCFG_REFIDE (n : Nat) : Fld := ⟨0x330260 + n * 0x200, 61, 1, 0⟩
/-! CANc_TTMk: spec/18_can_fd.md, after R391. -/
def R.CAN_TTM_MARK0 (n : Nat) (k : Nat) : Fld := ⟨0x330280 + n * 0x200 + k * 8, 0, 16, 0⟩
def R.CAN_TTM_MARK1 (n : Nat) (k : Nat) : Fld := ⟨0x330280 + n * 0x200 + k * 8, 16, 16, 0⟩
def R.CAN_TTM_MARK2 (n : Nat) (k : Nat) : Fld := ⟨0x330280 + n * 0x200 + k * 8, 32, 16, 0⟩
def R.CAN_TTM_MARK3 (n : Nat) (k : Nat) : Fld := ⟨0x330280 + n * 0x200 + k * 8, 48, 16, 0⟩
/-! CANc_FLTk: spec/18_can_fd.md, after R391. -/
def R.CAN_FLT_ID (n : Nat) (k : Nat) : Fld := ⟨0x330300 + n * 0x200 + k * 8, 0, 29, 0⟩
def R.CAN_FLT_IDE (n : Nat) (k : Nat) : Fld := ⟨0x330300 + n * 0x200 + k * 8, 29, 1, 0⟩
def R.CAN_FLT_EN (n : Nat) (k : Nat) : Fld := ⟨0x330300 + n * 0x200 + k * 8, 30, 1, 0⟩
def R.CAN_FLT_DEST (n : Nat) (k : Nat) : Fld := ⟨0x330300 + n * 0x200 + k * 8, 31, 1, 0⟩
def R.CAN_FLT_MASK (n : Nat) (k : Nat) : Fld := ⟨0x330300 + n * 0x200 + k * 8, 32, 29, 0⟩
/-! FIO_OUT: spec/19_field_io.md, after R406. -/
def R.FIO_OUT_OUT : Fld := ⟨0x340000, 0, 24, 0⟩
/-! FIO_IN: spec/19_field_io.md, after R406. -/
def R.FIO_IN_LEVEL : Fld := ⟨0x340008, 0, 24, 0⟩
def R.FIO_IN_INVALID : Fld := ⟨0x340008, 24, 24, 0⟩
/-! FIO_WD: spec/19_field_io.md, after R406. -/
def R.FIO_WD_WDT : Fld := ⟨0x340010, 0, 10, 0⟩
def R.FIO_WD_WDSRC : Fld := ⟨0x340010, 10, 1, 0⟩
/-! FIO_WDKICK: spec/19_field_io.md, after R406. -/
def R.FIO_WDKICK_KICK : Fld := ⟨0x340018, 0, 8, 0⟩
/-! FIO_SUP: spec/19_field_io.md, after R406. -/
def R.FIO_SUP_SUPWARN_A : Fld := ⟨0x340020, 0, 1, 0⟩
def R.FIO_SUP_CUTOFF_A : Fld := ⟨0x340020, 1, 1, 1⟩
def R.FIO_SUP_SUPWARN_B : Fld := ⟨0x340020, 2, 1, 0⟩
def R.FIO_SUP_CUTOFF_B : Fld := ⟨0x340020, 3, 1, 1⟩
def R.FIO_SUP_WDEXP : Fld := ⟨0x340020, 4, 1, 0⟩
def R.FIO_SUP_WDCNT : Fld := ⟨0x340020, 16, 16, 0⟩
def R.FIO_SUP_CUTCNT : Fld := ⟨0x340020, 32, 16, 0⟩
/-! FIO_CMD: spec/19_field_io.md, after R406. -/
def R.FIO_CMD_CLR : Fld := ⟨0x340028, 0, 24, 0⟩
def R.FIO_CMD_WDCLR : Fld := ⟨0x340028, 24, 1, 0⟩
/-! FIO_TIM: spec/19_field_io.md, after R406. -/
def R.FIO_TIM_RETRY : Fld := ⟨0x340030, 0, 16, 0⟩
def R.FIO_TIM_OPT_PER : Fld := ⟨0x340030, 16, 16, 0⟩
def R.FIO_TIM_OPT_W : Fld := ⟨0x340030, 32, 10, 0⟩
/-! FIO_CFGk: spec/19_field_io.md, after R406. -/
def R.FIO_CFG_FUNC (n : Nat) : Fld := ⟨0x340100 + n * 8, 0, 2, 0⟩
def R.FIO_CFG_GRP (n : Nat) : Fld := ⟨0x340100 + n * 8, 2, 2, 0⟩
def R.FIO_CFG_SRC (n : Nat) : Fld := ⟨0x340100 + n * 8, 4, 2, 0⟩
def R.FIO_CFG_PAR (n : Nat) : Fld := ⟨0x340100 + n * 8, 6, 4, 0⟩
def R.FIO_CFG_SAFE (n : Nat) : Fld := ⟨0x340100 + n * 8, 10, 3, 0⟩
def R.FIO_CFG_GAP (n : Nat) : Fld := ⟨0x340100 + n * 8, 13, 1, 0⟩
def R.FIO_CFG_DISBRK (n : Nat) : Fld := ⟨0x340100 + n * 8, 14, 1, 0⟩
def R.FIO_CFG_OWEN (n : Nat) : Fld := ⟨0x340100 + n * 8, 15, 1, 0⟩
def R.FIO_CFG_EVEDGE (n : Nat) : Fld := ⟨0x340100 + n * 8, 16, 2, 0⟩
def R.FIO_CFG_FLT (n : Nat) : Fld := ⟨0x340100 + n * 8, 32, 16, 0⟩
/-! FIO_CHSTk: spec/19_field_io.md, after R406. -/
def R.FIO_CHST_LIMIT (n : Nat) : Fld := ⟨0x340200 + n * 8, 0, 1, 0⟩
def R.FIO_CHST_LATCHED (n : Nat) : Fld := ⟨0x340200 + n * 8, 1, 1, 0⟩
def R.FIO_CHST_CAUSE (n : Nat) : Fld := ⟨0x340200 + n * 8, 2, 3, 0⟩
def R.FIO_CHST_OPEN (n : Nat) : Fld := ⟨0x340200 + n * 8, 5, 1, 0⟩
def R.FIO_CHST_LATCNT (n : Nat) : Fld := ⟨0x340200 + n * 8, 16, 16, 0⟩
/-! FIO_PWMk: spec/19_field_io.md, after R406. -/
def R.FIO_PWM_PER (n : Nat) : Fld := ⟨0x340300 + n * 8, 0, 32, 250⟩
def R.FIO_PWM_DUTY (n : Nat) : Fld := ⟨0x340300 + n * 8, 32, 32, 0⟩
/-! SAF_CFG: spec/20_safe_torque_off.md, after R417. -/
def R.SAF_CFG_STOFLT : Fld := ⟨0x350000, 0, 10, 0⟩
/-! SAF_STAT: spec/20_safe_torque_off.md, after R417. -/
def R.SAF_STAT_IN_A : Fld := ⟨0x350008, 0, 1, 0⟩
def R.SAF_STAT_IN_B : Fld := ⟨0x350008, 1, 1, 0⟩
def R.SAF_STAT_REQ : Fld := ⟨0x350008, 2, 1, 1⟩
def R.SAF_STAT_ENGAGED : Fld := ⟨0x350008, 3, 1, 1⟩
def R.SAF_STAT_I_SW1 : Fld := ⟨0x350008, 4, 1, 0⟩
def R.SAF_STAT_I_SW2 : Fld := ⟨0x350008, 5, 1, 0⟩
def R.SAF_STAT_VGS_HI : Fld := ⟨0x350008, 6, 1, 0⟩
def R.SAF_STAT_FB : Fld := ⟨0x350008, 7, 1, 0⟩
def R.SAF_STAT_RELSEQ : Fld := ⟨0x350008, 8, 1, 0⟩
def R.SAF_STAT_DIAG : Fld := ⟨0x350008, 9, 1, 0⟩
def R.SAF_STAT_DCAUSE : Fld := ⟨0x350008, 12, 3, 0⟩
/-! SAF_CNT: spec/20_safe_torque_off.md, after R417. -/
def R.SAF_CNT_ENGCNT : Fld := ⟨0x350010, 0, 16, 0⟩
def R.SAF_CNT_PULSES : Fld := ⟨0x350010, 16, 16, 0⟩
def R.SAF_CNT_TSTCNT : Fld := ⟨0x350010, 32, 32, 0⟩
/-! TWN_CFG: spec/21_twin_redundancy.md, after R434. -/
def R.TWN_CFG_EN : Fld := ⟨0x360000, 0, 1, 0⟩
def R.TWN_CFG_LEASE : Fld := ⟨0x360000, 1, 7, 8⟩
def R.TWN_CFG_REVERT : Fld := ⟨0x360000, 8, 2, 1⟩
def R.TWN_CFG_RCOND : Fld := ⟨0x360000, 10, 1, 0⟩
def R.TWN_CFG_RHOLD : Fld := ⟨0x360000, 16, 10, 50⟩
def R.TWN_CFG_MIRRMAX : Fld := ⟨0x360000, 32, 8, 4⟩
/-! TWN_STAT: spec/21_twin_redundancy.md, after R434. -/
def R.TWN_STAT_LSTATE : Fld := ⟨0x360008, 0, 3, 0⟩
def R.TWN_STAT_HOLD_OUT : Fld := ⟨0x360008, 3, 1, 0⟩
def R.TWN_STAT_HOLD_IN : Fld := ⟨0x360008, 4, 1, 0⟩
def R.TWN_STAT_RCLM : Fld := ⟨0x360008, 5, 1, 0⟩
def R.TWN_STAT_LINK : Fld := ⟨0x360008, 6, 1, 0⟩
def R.TWN_STAT_SYNCED : Fld := ⟨0x360008, 7, 1, 0⟩
def R.TWN_STAT_PSYNCED : Fld := ⟨0x360008, 8, 1, 0⟩
def R.TWN_STAT_PHOLD : Fld := ⟨0x360008, 9, 1, 0⟩
def R.TWN_STAT_IMGDIFF : Fld := ⟨0x360008, 10, 1, 0⟩
def R.TWN_STAT_RANKSAME : Fld := ⟨0x360008, 11, 1, 0⟩
def R.TWN_STAT_GAP : Fld := ⟨0x360008, 12, 1, 0⟩
def R.TWN_STAT_RECLAIM : Fld := ⟨0x360008, 13, 1, 0⟩
def R.TWN_STAT_ALIGNED : Fld := ⟨0x360008, 16, 16, 0⟩
def R.TWN_STAT_MIRRORED : Fld := ⟨0x360008, 32, 16, 0⟩
/-! TWN_EPOCH: spec/21_twin_redundancy.md, after R434. -/
def R.TWN_EPOCH_EPOCH : Fld := ⟨0x360010, 0, 32, 0⟩
def R.TWN_EPOCH_PEPOCH : Fld := ⟨0x360010, 32, 32, 0⟩
/-! TWN_GAP: spec/21_twin_redundancy.md, after R434. -/
def R.TWN_GAP_LAST : Fld := ⟨0x360018, 0, 32, 0⟩
def R.TWN_GAP_MAX : Fld := ⟨0x360018, 32, 32, 0⟩
/-! TWN_CNT: spec/21_twin_redundancy.md, after R434. -/
def R.TWN_CNT_CLAIMS : Fld := ⟨0x360020, 0, 16, 0⟩
def R.TWN_CNT_LOSSES : Fld := ⟨0x360020, 16, 16, 0⟩
def R.TWN_CNT_CONFLICTS : Fld := ⟨0x360020, 32, 16, 0⟩
def R.TWN_CNT_MIRRDROP : Fld := ⟨0x360020, 48, 16, 0⟩
/-! PWR_PLVL: spec/22_power_states_thermal.md, after R472. -/
def R.PWR_PLVL_REQ : Fld := ⟨0x10020, 0, 2, 0⟩
def R.PWR_PLVL_FLOOR : Fld := ⟨0x10020, 2, 2, 0⟩
def R.PWR_PLVL_CAP : Fld := ⟨0x10020, 4, 2, 0⟩
def R.PWR_PLVL_EFF : Fld := ⟨0x10020, 6, 2, 0⟩
def R.PWR_PLVL_BUSY : Fld := ⟨0x10020, 8, 1, 0⟩
/-! PWR_SLEEP: spec/22_power_states_thermal.md, after R472. -/
def R.PWR_SLEEP_CMD : Fld := ⟨0x10028, 0, 2, 0⟩
def R.PWR_SLEEP_RESULT : Fld := ⟨0x10028, 8, 8, 0⟩
def R.PWR_SLEEP_GUARD : Fld := ⟨0x10028, 32, 32, 0⟩
/-! PWR_WCFG: spec/22_power_states_thermal.md, after R472. -/
def R.PWR_WCFG_ETH0 : Fld := ⟨0x10030, 0, 1, 0⟩
def R.PWR_WCFG_ETH1 : Fld := ⟨0x10030, 1, 1, 0⟩
def R.PWR_WCFG_HRS : Fld := ⟨0x10030, 2, 1, 0⟩
def R.PWR_WCFG_CAN0 : Fld := ⟨0x10030, 3, 1, 0⟩
def R.PWR_WCFG_SYNCIN : Fld := ⟨0x10030, 4, 1, 0⟩
def R.PWR_WCFG_FIOMODE : Fld := ⟨0x10030, 8, 8, 0⟩
/-! PWR_WSTAT: spec/22_power_states_thermal.md, after R472. -/
def R.PWR_WSTAT_WSRC : Fld := ⟨0x10038, 0, 4, 0⟩
def R.PWR_WSTAT_PRE : Fld := ⟨0x10038, 4, 1, 0⟩
def R.PWR_WSTAT_REPLAY : Fld := ⟨0x10038, 5, 1, 0⟩
def R.PWR_WSTAT_REPLAYED : Fld := ⟨0x10038, 6, 1, 0⟩
def R.PWR_WSTAT_WAKE_FAIL : Fld := ⟨0x10038, 7, 1, 0⟩
def R.PWR_WSTAT_WSTEP : Fld := ⟨0x10038, 8, 3, 0⟩
def R.PWR_WSTAT_WRETRY : Fld := ⟨0x10038, 11, 2, 0⟩
def R.PWR_WSTAT_SLP : Fld := ⟨0x10038, 16, 2, 0⟩
def R.PWR_WSTAT_SLPCNT : Fld := ⟨0x10038, 32, 16, 0⟩
/-! PWR_RET: spec/22_power_states_thermal.md, after R472. -/
def R.PWR_RET_RETBANKS : Fld := ⟨0x10040, 0, 48, 0⟩
/-! THM_CFG: spec/22_power_states_thermal.md, after R472. -/
def R.THM_CFG_GRACE : Fld := ⟨0x30000, 0, 16, 0x7d0⟩
def R.THM_CFG_ENFSTEP : Fld := ⟨0x30000, 16, 8, 64⟩
def R.THM_CFG_NTCEN : Fld := ⟨0x30000, 24, 4, 0⟩
def R.THM_CFG_BETA : Fld := ⟨0x30000, 32, 16, 0xd6b⟩
def R.THM_CFG_RATE : Fld := ⟨0x30000, 48, 8, 50⟩
/-! THM_NTCMAP: spec/22_power_states_thermal.md, after R472. -/
def R.THM_NTCMAP_MAP0 : Fld := ⟨0x30010, 0, 16, 0⟩
def R.THM_NTCMAP_MAP1 : Fld := ⟨0x30010, 16, 16, 0⟩
def R.THM_NTCMAP_MAP2 : Fld := ⟨0x30010, 32, 16, 0⟩
def R.THM_NTCMAP_MAP3 : Fld := ⟨0x30010, 48, 16, 0⟩
/-! THM_STAT: spec/22_power_states_thermal.md, after R472. -/
def R.THM_STAT_REQ : Fld := ⟨0x30008, 0, 14, 0⟩
def R.THM_STAT_BROKEN : Fld := ⟨0x30008, 14, 14, 0⟩
def R.THM_STAT_GRACE_LEFT : Fld := ⟨0x30008, 48, 16, 0⟩
/-! THM_MEASk: spec/22_power_states_thermal.md, after R472. -/
def R.THM_MEAS_VALUE (n : Nat) : Fld := ⟨0x30100 + n * 8, 0, 16, 0⟩
def R.THM_MEAS_RATE (n : Nat) : Fld := ⟨0x30100 + n * 8, 16, 16, 0⟩
def R.THM_MEAS_RAW (n : Nat) : Fld := ⟨0x30100 + n * 8, 32, 12, 0⟩
/-! THM_ZONEk: spec/22_power_states_thermal.md, after R472. -/
def R.THM_ZONE_TREQ (n : Nat) : Fld := ⟨0x30200 + n * 8, 0, 16, 0⟩
def R.THM_ZONE_TREL (n : Nat) : Fld := ⟨0x30200 + n * 8, 16, 16, 0⟩
def R.THM_ZONE_TCRIT (n : Nat) : Fld := ⟨0x30200 + n * 8, 32, 16, 0⟩
def R.THM_ZONE_TSHUT (n : Nat) : Fld := ⟨0x30200 + n * 8, 48, 16, 0⟩
/-! THM_SLCn: spec/22_power_states_thermal.md, after R472. -/
def R.THM_SLC_VSCALE (n : Nat) : Fld := ⟨0x30400 + n * 8, 0, 17, 0x10000⟩
def R.THM_SLC_ISCALE (n : Nat) : Fld := ⟨0x30400 + n * 8, 32, 17, 0x10000⟩
/-! FLT_CFG: spec/23_fault_handling.md, after R464. -/
def R.FLT_CFG_FNSEV : Fld := ⟨0x40000, 0, 3, 4⟩
/-! FLT_STAT: spec/23_fault_handling.md, after R464. -/
def R.FLT_STAT_HIGHEST : Fld := ⟨0x40008, 0, 3, 0⟩
def R.FLT_STAT_FN : Fld := ⟨0x40008, 3, 1, 1⟩
def R.FLT_STAT_COUNT : Fld := ⟨0x40008, 16, 9, 0⟩
def R.FLT_STAT_HEAD : Fld := ⟨0x40008, 32, 8, 0⟩
def R.FLT_STAT_DROPPED : Fld := ⟨0x40008, 48, 16, 0⟩
/-! FLT_ACT: spec/23_fault_handling.md, after R464. -/
def R.FLT_ACT_AXF : Fld := ⟨0x40010, 0, 16, 0⟩
def R.FLT_ACT_BUSF : Fld := ⟨0x40010, 16, 4, 0⟩
def R.FLT_ACT_DIEF : Fld := ⟨0x40010, 20, 2, 0⟩
def R.FLT_ACT_MODF : Fld := ⟨0x40010, 22, 1, 0⟩
def R.FLT_ACT_GRPF : Fld := ⟨0x40010, 32, 32, 0⟩
/-! FLT_CMD: spec/23_fault_handling.md, after R464. -/
def R.FLT_CMD_CMD : Fld := ⟨0x40018, 0, 2, 0⟩
def R.FLT_CMD_SKIND : Fld := ⟨0x40018, 4, 3, 0⟩
def R.FLT_CMD_SINDEX : Fld := ⟨0x40018, 8, 8, 0⟩
def R.FLT_CMD_RESULT : Fld := ⟨0x40018, 16, 8, 0⟩
/-! FLT_CNT: spec/23_fault_handling.md, after R464. -/
def R.FLT_CNT_F2CNT : Fld := ⟨0x40020, 0, 16, 0⟩
def R.FLT_CNT_F3CNT : Fld := ⟨0x40020, 16, 16, 0⟩
def R.FLT_CNT_F4CNT : Fld := ⟨0x40020, 32, 16, 0⟩
def R.FLT_CNT_F5CNT : Fld := ⟨0x40020, 48, 16, 0⟩
/-! FLT_LOGkw: spec/23_fault_handling.md, after R464. -/
def R.FLT_LOG_ENTRY (n : Nat) (k : Nat) : Fld := ⟨0x41000 + n * 32 + k * 8, 0, 64, 0⟩

end Sys2Proof.Machine
end

