-- ==== Sys2Proof/Machine/State.lean ====
section
/-!
DEFINITION. Machine/State.lean: everything the spec gives the module to hold, as plain data, and its value after reset.
Register fields stand in one register file (State.regs); what no register holds stands in the structures below, one for each
chapter of the spec.
-/

namespace Sys2Proof.Machine

/-- A staged write to an L field (R7): the field, the value, its owning cycle and, where that has an index, the index. -/
structure Staged where
  fld : Fld
  val : Nat
  own : Own
  idx : Nat
deriving DecidableEq, Repr

/-- What the fault engine is told of a fault (R451, R464): code, severity 0 to 5, scope, the slice on which it arose (255 for
none), the cause's own detail, and the marks GROSS (R248) and LATE (R455). -/
structure FaultRec where
  code : Nat
  sev : Nat
  skind : Nat
  sindex : Nat
  origin : Nat := 255
  detail : Nat := 0
  gross : Bool := false
  late : Bool := false
deriving DecidableEq, Repr

/-- A latched fault (R452), with its cause's detail and the mark of a fault that took only one winding set of its axis (R300). -/
structure Latched where
  code : Nat
  sev : Nat
  skind : Nat
  sindex : Nat
  detail : Nat
  half : Bool
deriving DecidableEq, Repr

/-- One entry of the fault log (Table FLT.3); `at` is the Rind's own time of the entry, in units of 2^−32 ns, for the 1 s of R463. -/
structure LogEntry where
  code : Nat
  sev : Nat
  skind : Nat
  sindex : Nat
  origin : Nat
  merge : Nat
  gross : Bool
  preempt : Bool
  holdover : Bool
  late : Bool
  time : Nat
  number : Nat
  detail : Nat
  xcode : List Nat
  at_ : Nat
deriving DecidableEq, Repr

/-- The fault engine (R451 to R465): records not yet taken, latched faults, the log as (slot, entry) pairs, newest first, the
number of entries written since the Rind started, and the field die's queue while the field link is down (R455). -/
structure FaultDyn where
  inbox : List FaultRec
  latched : List Latched
  log : List (Nat × LogEntry)
  number : Nat
  fieldQueue : List FaultRec
deriving DecidableEq, Repr

/-- A die link (R12, R13): trained, and in each direction (C toward the control die, D toward the other) the sequence number expected next
and whether that flit has failed once. -/
structure LinkDyn where
  up : Bool
  expC : Nat
  failC : Bool
  expD : Nat
  failD : Bool
deriving DecidableEq, Repr

/-- What the last fabric access answered (R26, R27, R468). -/
inductive Answer where
  | none
  | data (bytes : List Nat)
  | done
  | refused
  | unmapped
  | error
deriving DecidableEq, Repr

/-- A right that a GRANT entry of the image gives (R77): the INIT number, whether it is to write, and the address range. -/
structure Grant where
  init : Nat
  write : Bool
  lo : Nat
  hi : Nat
deriving DecidableEq, Repr

/-- Links, partitions, scrubbers and the fabric's last answer (*Module architecture*). -/
structure ArcDyn where
  linkA : LinkDyn
  linkB : LinkDyn
  linkF : LinkDyn
  wdA : Bool
  wdB : Bool
  banks : List Nat
  grants : List Grant
  scrub : List Nat
  lcScrub : List Nat
  eccCorr : Nat
  answer : Answer
  hlCopy : List (Nat × Nat)
deriving DecidableEq, Repr

/-- A feed (R48, R50, R51): valid, stable, its path opened by the current limit, its loss told and its return not yet. -/
structure FeedDyn where
  valid : Bool
  stable : Bool
  isOpen : Bool
  lost : Bool
deriving DecidableEq, Repr

/-- The Rind's sequencers and what INTAKE holds (R41 to R62, R64 to R94): Rind running; the feeds; RESET_N recognised low; the power
sequencer's step (0 idle, 1 to 8 the domain switched on last, 9 complete), whether that domain is ready, failed retries, whether it waits
to retry or has failed for good; the causes of a leave sequence (removal, power-fail), the number of its log entry, departure notices
sent; FL_VDD on; the INTAKE step (0 none) and when it started, the slots still to try, the slot tried first and the present one; HALT with
recovery access; the slices still to start, the field groups enabled and whether units are starting; the update command in progress
with slot, offset, pages and ABORT; IMGID; the flash slots as the bytes that are not 0xFF; the test access port's instruction, the one
in effect, whether it is in Test-Logic-Reset, and the boundary-scan register. -/
structure BootDyn where
  rind : Bool
  feedA : FeedDyn
  feedB : FeedDyn
  resetLow : Bool
  seq : Nat
  ready : Bool
  retries : Nat
  waitRetry : Bool
  failed : Bool
  removed : Bool
  pfailed : Bool
  leaveEntry : Nat
  departed : Bool
  flOn : Bool
  step : Nat
  t0 : Nat
  order : List Nat
  first : Option Nat
  slot : Nat
  recovery : Bool
  slicesLeft : List Slice
  groupsDone : Nat
  starting : Bool
  updCmd : Nat
  updSlot : Nat
  updOff : Nat
  updPages : Nat
  updAbort : Bool
  imgId : Nat
  slotA : List Host.Cell
  slotB : List Host.Cell
  tapIr : Nat
  tapEff : Nat
  tapIdle : Bool
  bsr : List Bool
deriving DecidableEq, Repr


/-- Which stop an axis in STOPPING runs (Table STA.5, R103). -/
inductive StopKind where
  | none | stop | quick | f2
deriving DecidableEq, Repr

/-- An axis beside its registers: used by the image, its slice started (R58), the stop in progress (R103), the enable step's
leftovers (precharge done, angle found, waiting for the loop to close), and the mark that the die's link was lost since the last
ENABLE (R14), and a BRAKE output kept energised after a DISABLE with DISBRK (R398). -/
structure AxisDyn where
  used : Bool
  started : Bool
  stop : StopKind
  closing : Bool
  precharged : Bool
  linkLost : Bool
  brakeHold : Bool
deriving DecidableEq, Repr


/-- The flags N, Z, C, V and the sticky SAT of a loop core (Table PIP.1). -/
structure PipFlags where
  n : Bool
  z : Bool
  c : Bool
  v : Bool
  sat : Bool
deriving DecidableEq, Repr

/-- An active repeat level (R129, R130): first and last instruction of its body, and the passes still to run, the present one
included. -/
structure Level where
  start : Nat
  last : Nat
  left : Nat
deriving DecidableEq, Repr

/-- A load under way (R115): the registers it will write with their values (code, value), and the register half for LDH. -/
structure LoadDyn where
  writes : List (Nat × Nat)
  half : Option Bool
deriving DecidableEq, Repr

/-- A posted store not yet accepted (R115, R127): address, size in bytes, data. -/
structure StoreDyn where
  addr : Nat
  size : Nat
  data : Nat
deriving DecidableEq, Repr

/-- What a core waits for before it goes on (R127). -/
inductive CoreWait where
  | none | post (e : Nat) | done | fence
deriving DecidableEq, Repr

/-- The run in progress on a core: its pip, the tick of its dispatch, the earliest origin among its tokens (R147), and whether its
overrun has been counted (R157). -/
structure RunDyn where
  pip : Nat
  start : Nat
  origin : Nat
  counted : Bool
deriving DecidableEq, Repr

/-- A loop core (Table PIP.1, R109 to R139): registers, flags, program counter, cycles, repeat levels innermost first, loads under way,
posted stores oldest first, what it waits for, output edges posted, the run, a step that is due, a halt that BRK asks for, whether
SATWARN has been raised in this servo cycle, and the accumulators and registers that the instruction just before wrote (Table PIP.3). -/
structure CoreDyn where
  d : Vector Word 32
  a : Vector (BitVec 32) 8
  o : Vector Word 8
  acc : Vector (BitVec 96) 4
  flags : PipFlags
  pc : Nat
  cyc : Nat
  levels : List Level
  loads : List LoadDyn
  stores : List StoreDyn
  wait : CoreWait
  posted : Nat
  run : Option RunDyn
  stepArmed : Bool
  stopReq : Bool
  satWarned : Bool
  accBefore : List Nat
  loadedBefore : List Nat
deriving DecidableEq, Repr


/-- An event of a scheduler source kind (Table SCH.5) with its parameter and the payload it writes into the slot, in 64-bit words. -/
structure SrcEvent where
  kind : Nat
  param : Nat
  payload : List Nat
deriving DecidableEq, Repr

/-- What a core tells the scheduler (R133, R150): a posted edge OUTe, the end of its pip, or its abandon. -/
inductive CoreNote where
  | post (e : Nat) | done | abandoned
deriving DecidableEq, Repr

/-- An edge at run time (R145): its pending tokens as (slot, origin), oldest first, and the slots of producer and consumer. An edge with
nothing pending and no owner is not listed. -/
structure EdgeDyn where
  edge : Nat
  pending : List (Nat × Nat)
  producer : Option Nat
  consumer : Option Nat
deriving DecidableEq, Repr

/-- A pip in a priority queue or on the delay list (R150): its number, its priority, and the tick it became ready or falls due. -/
structure QueueDyn where
  pip : Nat
  prio : Nat
  tick : Nat
deriving DecidableEq, Repr

/-- An entry of the deadline list (R154): the pip, the tick of its deadline, and whether the miss has been recorded. -/
structure DeadlineDyn where
  pip : Nat
  due : Nat
  missed : Bool
deriving DecidableEq, Repr

/-- A pip that the scheduler holds for running (R153): its core, its number, and the origin of the tokens it posts (R147). -/
structure BusyDyn where
  core : Nat
  pip : Nat
  origin : Nat
deriving DecidableEq, Repr

/-- The cycles of a graph group (R155): whether a REF event has opened one, a miss in the present one, and the run of cycles with one. -/
structure GraphDyn where
  opened : Bool
  missed : Bool
  run : Nat
deriving DecidableEq, Repr

/-- The pip scheduler (R145 to R157): source events not yet taken, what the cores have told it, the edges, the queues in order of
ready time, the delay list, the deadline list, the pips that run, the core that last ran each pip, the events counted of each source, the cycles of the
32 groups, whether source 0 has opened a module current cycle, and whether the present one is unhealthy by an abandon, a miss or a
pause (R156). -/
structure SchedDyn where
  arrived : List SrcEvent
  notes : List (Nat × CoreNote)
  edges : List EdgeDyn
  queue : List QueueDyn
  delayed : List QueueDyn
  deadlines : List DeadlineDyn
  busy : List BusyDyn
  lastCore : List (Nat × Nat)
  counts : List Nat
  groups : List GraphDyn
  opened : Bool
  unhealthy : Bool
deriving DecidableEq, Repr

/-- Current sensing of a slice (R161 to R173): the last valid sample of each leg in converter LSB and whether there is one, the legs
found valid at the sample instant and that a conversion is awaited, the set delivered last (Q1.31), the sequence numbers, the runs of
SUM_ERR and STALE sets, of ceiling-clamped periods and of imbalance, the tripped legs that may be released (R172), the legs clamped to
the full period, and this slice's own values while the pair's set is formed (R293, R296). -/
structure SenseDyn where
  last : Tri Int
  have_ : Tri Bool
  legOk : Tri Bool
  waiting : Bool
  lastSet : Tri Int
  seq : Nat
  vseq : Nat
  sumRun : Nat
  staleRun : Nat
  clampRun : Nat
  imbRun : Nat
  releasable : Tri Bool
  own : Tri Int
  ownClip : Tri Bool
deriving DecidableEq, Repr

/-- The start sequencer (R177 to R181): latched direction, a start command still pending (R181), forced speed in 2^−32 Hz, time in the
phase in PWM steps, runs of lock at handover speed, of no lock and of low speed (in BRAKE: steps of low current), current cycles in
SYNC, the observer's last SEQ and the cycles since it advanced, IREF and the angle difference at the entry of BLEND, zero vector on in
BRAKE, that a stop before RUN keeps the current at zero, and that this attempt's raise was clamped. -/
structure StartDyn where
  dir : Int
  pending : Bool
  omegaF : Int
  t : Nat
  lockRun : Nat
  noLock : Nat
  lowRun : Nat
  syncCycles : Nat
  obsSeq : Nat
  obsAge : Nat
  iref0 : Nat
  diff0 : Int
  zeroVector : Bool
  holdZero : Bool
  clamped : Bool
deriving DecidableEq, Repr


/-- A shadow word waiting for its boundary: which leg or PER (0 LEGU, 1 LEGV, 2 LEGW, 3 PER), its value, its target boundary, the
current cycle of the write (R187), the write it came in (R189), whether it was late (R20), and whether it
came through LEAD1 or LEAD2 (R431). -/
structure Shadow where
  word : Nat
  val : Nat
  target : Nat
  cycle : Nat
  batch : Nat
  late : Bool
  lead : Bool
deriving DecidableEq, Repr

/-- The PWM timing of a slice (R184 to R203). -/
structure PwmDyn where
  running : Bool
  bnum : Nat
  sampled : Bool
  sampleBnd : Nat
  cycle : Nat
  shadows : List Shadow
  stage : List (Nat × Nat)
  batch : Nat
  commits : List (Nat × Nat × Nat × Nat)
  leg : Tri Nat
  per : Nat
  carry : Tri Int
  lowAge : Tri Nat
  low : Tri Nat
  prevFull : Tri Bool
  place : Nat
  splace : Nat
  cal : Nat
  calNew : Nat
  precharge : Option (Fin 3)
  bootHeld : Tri Nat
  frozen : Nat
  frozenOff : Bool
  claimHold : Bool
deriving DecidableEq, Repr

/-- A DC bus monitor (R204 to R209): chopper turn-on value, check made since turn-on, BUSUV already raised, in excess of VABS. -/
structure BusDyn where
  onValue : Nat
  checked : Bool
  uvRaised : Bool
deriving DecidableEq, Repr

/-- A feedback port (R212 to R238): raw count and reported position (Q40.24), direction of the last counted move (R216), the line levels,
the net edges of the window, window marks, the last valid Hall sector and its time, the run of SECTOR 7, the run of invalid captures, the
last delivered position and speed, whether the last capture was valid, the position at it, the jump an index reset made in the window,
the last sin/cos conversion, the serial extension and the homing shifts added to it (R284), a frame under way, the captures counted, corrections that wait for the servo boundary,
EV5 (0 off, 1 soft start, 2 in regulation, 3 waiting to retry, 4 off until CLEAR) with its retries in a row, EVWAIT elapsed, an index
event since slice start, and the last TLAST. -/
structure FbDyn where
  c : Int
  p : Int
  dir : Int
  lineA : Bool
  lineB : Bool
  net : Int
  bad : Bool
  idxEv : Bool
  wrapped : Bool
  lastSector : Nat
  sectorTime : Nat
  hallRun : Nat
  badRun : Nat
  lastP : Int
  lastV : Int
  lastOk : Bool
  some_ : Bool
  jump : Int
  conv : Option (Option Int)
  convSeen : Bool
  prevPos : Int
  ext : Option Int
  ofs : Int
  word : Nat
  frame : Bool
  seq : Nat
  corr : Option (Int × Int × Nat × Int)
  ev5 : Nat
  retries : Nat
  evWaited : Bool
  idxSeen : Bool
  tlast : Nat
deriving DecidableEq, Repr


/-- A position capture as the supervisor takes it (Table FBK.4): SEQ, VALID, p and v in Q40.24. -/
structure Capture where
  seq : Nat
  valid : Bool
  p : Int
  v : Int
deriving DecidableEq, Repr

/-- A ramp stop in progress (R255): the velocity reached and the ramp position, Q40.24. -/
structure Ramp where
  vr : Int
  pr : Int
deriving DecidableEq, Repr

/-- The supervisor of an axis (R247 to R257, R297): the latest capture and whether its SLC_SVCMD1 write has come, a pair of capture and
pcmd to judge, the last step's pcmd and its change, the direction of motion of the last step, the runs of overspeed, of captures
without a write, of standstill and of a low back-EMF (R180), the ramp with its deceleration and whether it has ended, that the axis was
enabled beyond its overtravel margin (R251), and the positions of load and motor when the loop closed. -/
structure SupDyn where
  cap : Option Capture
  written : Bool
  paired : Option (Capture × Int)
  prevP : Option Int
  lastV : Int
  moveDir : Int
  overRun : Nat
  stale : Nat
  still : Nat
  emfRun : Nat
  ramp : Option Ramp
  dec : Nat
  ended : Bool
  recover : Bool
  devLoad : Int
  devMotor : Int
deriving DecidableEq, Repr


/-- A move that waits on a start line (R266): the line, whether it has fired, the command (1 MOVE, 2 MOVE_REL, 3 JOG), its target or
distance or direction, and its probe mark. -/
structure ArmedMove where
  ssel : Nat
  fired : Bool
  cmd : Nat
  val : Int
  probe : Bool
deriving DecidableEq, Repr

/-- A homing sequence in progress (R282, R283): its method, its phase (1 toward, 2 stopping, 3 back, 4 on to the index, 5 stopping after
the reference, 6 returning), where it started, the reference position that waits for its shift, and what it restores at its end:
FESEL and the ILIM words of both banks (mantissa, exponent). -/
structure HomeDyn where
  method : Nat
  phase : Nat
  start : Int
  pref : Option Int
  savedFesel : Nat
  savedIlim : Option ((Nat × Nat) × (Nat × Nat))
deriving DecidableEq, Repr

/-- The generators and the homing sequencer of a slice: commanded position (Q40.24), velocity and acceleration (2^−160 counts), the plan
and a change of profile words that asks for a new one, the effective target, an armed move, DONE reached and the INPOS run (R263), a
probing move and one whose event has come (R285), homing, gearing, the sum of homing shifts and m of STEP (R277), whether the position has changed in the last cycle, a hold
current that is due and the amplitude in effect (R278), and the stall run with the age of SLC_STOBS (R280). -/
structure ProfDyn where
  pcmd : Int
  vel : Int
  acc : Int
  plan : Option Plan
  replan : Bool
  target : Int
  armed : Option ArmedMove
  done : Bool
  inposRun : Nat
  probe : Bool
  probeStop : Bool
  home : Option HomeDyn
  gear : GearDyn
  sofs : Int
  m : Nat
  moved : Bool
  holdDue : Bool
  amp : Nat
  stallRun : Nat
  obsSeq : Nat
  obsAge : Nat
deriving DecidableEq, Repr

/-- A path segment as accepted (Table MOT.2): lengths and positions in Q40.24, FEED in 2^−64 counts per cycle. -/
structure Seg where
  kind : Nat
  exact : Bool
  fin : Bool
  pi : Nat
  pj : Nat
  segid : Nat
  dur : Nat
  feed : Int
  ci : Int
  cj : Int
  pend : List Int
  vend : List Int
deriving DecidableEq, Repr

/-- A path group (R267 to R272): its accepted segments, the members' positions and velocities where the running segment starts (Q40.24),
the path parameter in the running segment (2^−64 counts, or 2^−64 servo cycles for PVT and DWELL), the planned path speed in 2^−64, the
ramp factor f in 2^−32, whether the ramp runs at 1/THOLDQ, the start line it waits on and whether that has fired, and the remainder, last
position and last rate of a leader time base. -/
structure GroupDyn where
  queue : List Seg
  start : List Int
  startV : List Int
  sigma : Int
  speed : Int
  f : Nat
  quick : Bool
  armed : Option (Nat × Bool)
  rem : Int
  last : Int
  rate : Int
deriving DecidableEq, Repr



/-- A notice of Table HPR.5 with its module-wide number, its kind, its compact time, its detail bytes and the resends made (R358). -/
structure Notice where
  seq : Nat
  kind : Nat
  time : Nat
  detail : List Nat
  resends : Nat
deriving DecidableEq, Repr

/-- What the module itself sends: a reply (type, session, sequence, code, DUP, body), a notice to a session, DEPART, PORTMOVE, a PTP
message, an ARP reply, a PAUSE or PFC frame (priorities named, quanta), a cyclic report, a frame of the acquisition engine (stream,
sequence, body). -/
inductive OwnMsg where
  | reply (type session seq code : Nat) (dup : Bool) (data : List Nat)
  | notice (session : Nat) (n : Notice)
  | depart (cause : Nat)
  | portMove (port : Nat)
  | ptp (kind : Nat) (body : List Nat)
  | arpReply (target : Nat)
  | pause (pfc : Bool) (enable : Nat) (quanta : List Nat)
  | report (session seq time : Nat) (words : List Nat)
  | acq (stream seq : Nat) (body : List Nat)
deriving DecidableEq, Repr


/-- What a queued frame is: a forwarded one as it leaves, or one of the module's own. -/
inductive FrameBody where
  | fwd (f : Frame)
  | own (m : OwnMsg)
deriving DecidableEq, Repr

/-- A frame in an egress queue: the ingress entry it holds (port, number) if any, its length in bytes, whether it left the internal
engines under HOLDOVER (Table HPR.1), and what it is. -/
structure QFrame where
  held : Option (Nat × Nat)
  length : Nat
  holdover : Bool
  body : FrameBody
deriving DecidableEq, Repr

/-- A frame that occupies ingress cells: its number, its cells, its queue class, and the egress copies that have not left yet. -/
structure IngressDyn where
  id : Nat
  cells : Nat
  cls : Nat
  copies : Nat
deriving DecidableEq, Repr

/-- A launch descriptor (R342): launch time in 2^−32 ns, the frame, DROPLATE, and whether it has been counted late. -/
structure LaunchDyn where
  time : Nat
  msg : OwnMsg
  dropLate : Bool
  counted : Bool
deriving DecidableEq, Repr

/-- A switch port (R304 to R316): its egress queues Q0 to Q3, the frame in transmission, the frames in its ingress buffer, MAC control
frames that wait, the classes in XOFF, the quanta of a received PAUSE and of a received PFC by priority, and its launch queue. -/
structure PortDyn where
  queues : List (List QFrame)
  sending : Option QFrame
  ingress : List IngressDyn
  control : List OwnMsg
  xoff : List Bool
  pauseQuanta : Nat
  pfcQuanta : List Nat
  launch : List LaunchDyn
deriving DecidableEq, Repr

/-- The switch: its ports, the learning table as (address, port), and the number of the next ingress entry. -/
structure NetDyn where
  ports : Vector PortDyn 3
  learn : List (Nat × Nat)
  nextId : Nat
deriving DecidableEq, Repr


/-- The time engine's clock and the Rind time base (R322 to R325): local time since the epoch in 2^−32 ns, whether it runs, the Rind's own
count in the same unit, whether the Rind holds a time that was set, and the time since the Rind started, which nothing sets. -/
structure ClockDyn where
  now : Nat
  running : Bool
  rind : Nat
  rindSet : Bool
  up : Nat
deriving DecidableEq, Repr

/-- The time engine (R327 to R343): the masters heard, the one selected (its source), Syncs that qualify it, the runs for LOCK and
against it, the last eight RATE values newest first, the mean path delay of each port and the residence of the last Sync that entered it
with its rateRatio, TIMEDRIFT raised in this holdover, a source time that has been found present (SYNC_IN, REF_IN) and for how many
pulses, whether HOLDOVER has cleared since the start, one-shot comparators that have fired, SYNC_OUT active, and the burst sets still due
on each slice. -/
structure TimeDyn where
  heard : List AnnounceRec
  master : Option Nat
  qual : Nat
  lockRun : Nat
  farRun : Nat
  rates : List Int
  delay : List Int
  relay : List (Int × Int)
  drifted : Bool
  present : Nat
  cleared : Bool
  spent : List Bool
  soutOn : Bool
  burst : List Nat
deriving DecidableEq, Repr


/-- The report configuration of a session (R361). -/
structure ReportCfg where
  cmp : Nat
  offset : Nat
  addrs : List Nat
deriving DecidableEq, Repr

/-- A session of the host protocol (R347 to R361): open, NOTIFY, port, source, over UDP, expected SEQ, module nonce, the replies kept as
(SEQ, type, code, body), unacknowledged notices, notices lost since the last acknowledgement, its report, the one that replaces it at the
next firing, and the report counter. -/
structure Session where
  isOpen : Bool
  notify : Bool
  port : Nat
  src : Nat
  udp : Bool
  expect : Nat
  nonce : Nat
  kept : List (Nat × Nat × Nat × List Nat)
  notices : List Notice
  lost : Nat
  report : Option ReportCfg
  nextReport : Option ReportCfg
  reports : Nat
deriving DecidableEq, Repr

/-- The host-protocol engine: session 0 is the recovery session (R349). `pendingState` is a change of SYS_STATE whose STATE notice has
not been sent (R483): the old STATE and the old overlay bits. `streams` holds the last ESEQ accepted of each setpoint stream. -/
structure HostDyn where
  sessions : List Session
  noticeSeq : Nat
  pendingState : Option (Nat × Nat)
  streams : List (Nat × Nat)
deriving DecidableEq, Repr


/-- A pending GAP of an acquisition clock (R368): cause bits, first row lost, rows lost, and the ring positions of the lost blocks. -/
structure GapDyn where
  cause : Nat
  first : Nat
  lost : Nat
  blocks : List Nat
deriving DecidableEq, Repr

/-- The open block of an acquisition clock (R366): number and time (2^−16 ns) of its first row, its rows, and its words in order. -/
structure BlockDyn where
  row : Nat
  time : Nat
  rows : Nat
  words : List Nat
deriving DecidableEq, Repr

/-- An acquisition clock (R363 to R368): events since RUN was set, number of the next row, event time of the row taken last, the open block,
the pending GAP. -/
structure AcqClock where
  events : Nat
  row : Nat
  last : Option Nat
  block : Option BlockDyn
  gap : Option GapDyn
deriving DecidableEq, Repr

/-- The trigger sequencer beside ACQ_TSTAT (R370 to R372): rows in the state, hysteresis armed, the values that the eight states' channels had
at the previous row (none after a COLL loss), number and time of the previous row, whether that row was evaluated in this state and failed
its condition, the point (ROW, FRAC, time) where the qualifying run began, a FORCE pending, and the EXT events not yet passed by a row
as (source, time). -/
structure TrigDyn where
  rows : Nat
  armed : Bool
  prev : Option (List Int)
  lastRow : Option (Nat × Nat)
  unmet : Bool
  point : Nat × Nat × Nat
  force : Bool
  ext : List (Nat × Nat)
deriving DecidableEq, Repr

/-- The acquisition engine (R363 to R373): its clocks, the latest capture of each channel's edge word, the ring position in bytes written,
the stream's record counter, whether a block has been formed since RUN was set, the sequencer, the queued marks, and the last burst set of
each slice in Q1.31 (R339). -/
structure AcqDyn where
  clocks : List AcqClock
  capt : List Nat
  wpos : Nat
  seq : Nat
  formed : Bool
  trig : TrigDyn
  marks : List (List Nat)
  burst : List (Tri Int)
deriving DecidableEq, Repr


/-- A CAN controller beside its registers and its entries in the block's memory (R379 to R390): running, the entry in transmission (64 for a
reference message), failed attempts and all attempts of each entry, the entries one of whose failed attempts was no acknowledgement error,
whether TXABT names the entry in transmission, the basic cycle of the last reference, the number and data bytes of the reference sent next,
a comparator firing whose reference is due (NS), the open window (column, KIND, entry, PENDING at its mark, frame started or miss counted),
and a wake-up pattern latched by the transceiver. -/
structure CanDyn where
  running : Bool
  sending : Option Nat
  fails : List Nat
  attempts : List Nat
  otherFail : Nat
  aborted : Bool
  cycle : Nat
  nextCycle : Nat
  refData : List Nat
  refDue : Option Nat
  window : Option (Nat × Nat × Nat × Bool × Bool)
  wake : Bool
deriving DecidableEq, Repr


/-- The field channels beside their registers (R392 to R405): groups of four enabled (bit i: FIO4i to FIO4i+3), groups that wait to return
after a supply's recovery, input events of each channel since INTAKE, the output levels at the moment row 4 of Table FIO.4 began, while it
holds, CMP pulses under way, when each channel's last latch ended (time since the Rind started; none before any latch), the field watchdog
running and restarted since it last ran out, and in a switchover gap the slices whose axes were ENABLED or STOPPING as it began (R432). -/
structure FioDyn where
  groups : Nat
  waiting : Nat
  seq : List Nat
  safe : Option Nat
  pulse : Nat
  freeAt : List (Option Nat)
  wdRun : Bool
  wdFed : Bool
  gap : Option Nat
deriving DecidableEq, Repr

/-- The STO logic (R408 to R416): the switch commands, the release step whose check is awaited (0 none, 2, 3, and 4 for the wait for
V_DRV), whether the check 150 µs after opening has passed since the switches were commanded open, whether INTAKE has reached step 10,
and the switch that the next off-pulse tests. -/
structure StoDyn where
  cmd1 : Bool
  cmd2 : Bool
  step : Nat
  proved : Bool
  step10 : Bool
  nextTest : Fin 2
deriving DecidableEq, Repr


/-- The twin redundancy logic beside its registers (R420 to R433), times counted since the Rind started: when the present gap began, until
its first commit; when the lease timer reaches zero; since when HOLD_IN has read released; when the last frame, the last carrying HOLDING
and the last carrying ORDERLY came; the token released by command, the holder's HANDOVER, the partner's RECLAIM and this member's own;
RUN due at the next event of source 0; SYNCED seen from the partner, and each TWINLOST already raised in its occurrence; the latest
record of each axis with its age in servo cycles, the latest of each group; the offset o and the run of pairs of each axis; the servo boundaries since the
last event of source 0, a frame due, and the frame sent last. -/
structure TwinDyn where
  gapStart : Option Nat
  leaseEnd : Nat
  released : Nat
  lastFrame : Option Nat
  lastHolding : Option Nat
  lastOrderly : Option Nat
  orderly : Bool
  handover : Bool
  pReclaim : Bool
  reclaim : Bool
  runDue : Bool
  pSyncedOnce : Bool
  silent : Bool
  unsynced : Bool
  recs : List (Nat × Nat × MirrorAxis)
  groups : List MirrorGroup
  offs : List (Option Int)
  runs : List Nat
  due : Nat
  sendDue : Bool
  sent : Option MirrorFrame
deriving DecidableEq, Repr

/-- A thermal zone (R444 to R448): its temperatures at the last samples, newest first, up to 17; the raw code and for how many samples it
has been identical; the valid samples since it broke; the samples since its last ladder step, while it is in request during enforcement,
and whether a step is due; and the factors it imposes (Q1.16). -/
structure ZoneDyn where
  temps : List Int
  raw : Nat
  same : Nat
  good : Nat
  since : Option Nat
  due : Bool
  v : Nat
  i : Nat
deriving DecidableEq, Repr

/-- Performance level, sleep, wake and thermal management (R436 to R448): the level that a change in progress goes to; the sleep state
slept in (0 awake) or being entered (0 none), when entry began, the wake sources enabled then (WSRC code and whether edge-type) with the
guard time in ms, which the Rind keeps, the event latched during entry (WSRC code, latched before the window, a
replayed edge); whether a sleep has been entered since INTAKE and whether the last wake needed a retry; the wake step in progress (0 none,
1 to 4) and whether a failed wake waits to restart; the zones; when grace ends; enforcement; the zone whose request began it; factors and
cap to return at the next servo boundary; and the time of the last sample (both times since the Rind started). -/
structure PwrDyn where
  goal : Nat
  sleep : Nat
  entry : Nat
  entryAt : Nat
  armed : List (Nat × Bool)
  guardMs : Nat
  early : Option (Nat × Bool × Bool)
  entered : Bool
  retried : Bool
  step : Nat
  waitRetry : Bool
  zones : List ZoneDyn
  graceEnd : Nat
  enforcing : Bool
  zone0 : Nat
  undo : Bool
  sampleAt : Nat
deriving DecidableEq, Repr

/-- A die link before it trains. -/
def LinkDyn.reset : LinkDyn := ⟨false, 0, false, 0, false⟩

def ArcDyn.reset : ArcDyn where
  linkA := LinkDyn.reset
  linkB := LinkDyn.reset
  linkF := LinkDyn.reset
  wdA := false
  wdB := false
  banks := List.replicate 48 0
  grants := []
  scrub := List.replicate 48 0
  lcScrub := List.replicate 8 0
  eccCorr := 0
  answer := .none
  hlCopy := []

def FaultDyn.reset : FaultDyn := ⟨[], [], [], 0, []⟩

def AxisDyn.reset : AxisDyn := ⟨false, false, .none, false, false, false, false⟩

def PwmDyn.reset : PwmDyn where
  running := false
  bnum := 0
  sampled := false
  sampleBnd := 0
  cycle := 0
  shadows := []
  stage := []
  batch := 0
  commits := []
  leg := ⟨0, 0, 0⟩
  per := 0
  carry := ⟨0, 0, 0⟩
  lowAge := ⟨0, 0, 0⟩
  low := ⟨0, 0, 0⟩
  prevFull := ⟨false, false, false⟩
  place := 0
  splace := 0
  cal := 0
  calNew := 0
  precharge := none
  bootHeld := ⟨0, 0, 0⟩
  frozen := 0
  frozenOff := false
  claimHold := false

def BusDyn.reset : BusDyn := ⟨0, false, false⟩

def SupDyn.reset : SupDyn where
  cap := none
  written := false
  paired := none
  prevP := none
  lastV := 0
  moveDir := 0
  overRun := 0
  stale := 0
  still := 0
  emfRun := 0
  ramp := none
  dec := 0
  ended := false
  recover := false
  devLoad := 0
  devMotor := 0

def GearDyn.reset : GearDyn := ⟨false, 0, 0, 0, 0, false⟩

def ProfDyn.reset : ProfDyn where
  pcmd := 0
  vel := 0
  acc := 0
  plan := none
  replan := false
  target := 0
  armed := none
  done := false
  inposRun := 0
  probe := false
  probeStop := false
  home := none
  gear := GearDyn.reset
  sofs := 0
  m := 0
  moved := false
  holdDue := false
  amp := 0
  stallRun := 0
  obsSeq := 0
  obsAge := 0

def GroupDyn.reset : GroupDyn where
  queue := []
  start := []
  startV := []
  sigma := 0
  speed := 0
  f := 0
  quick := false
  armed := none
  rem := 0
  last := 0
  rate := 0


def ClockDyn.reset : ClockDyn := ⟨0, false, 0, false, 0⟩

def Session.reset : Session := ⟨false, false, 0, 0, false, 0, 0, [], [], 0, none, none, 0⟩

def HostDyn.reset : HostDyn := ⟨List.replicate 5 Session.reset, 0, none, []⟩

def BootDyn.reset : BootDyn where
  rind := false
  feedA := ⟨false, false, false, false⟩
  feedB := ⟨false, false, false, false⟩
  resetLow := false
  seq := 0
  ready := false
  retries := 0
  waitRetry := false
  failed := false
  removed := false
  pfailed := false
  leaveEntry := 0
  departed := false
  flOn := false
  step := 0
  t0 := 0
  order := []
  first := none
  slot := 0
  recovery := false
  slicesLeft := []
  groupsDone := 0
  starting := false
  updCmd := 0
  updSlot := 0
  updOff := 0
  updPages := 0
  updAbort := false
  imgId := 0
  slotA := []
  slotB := []
  tapIr := 1
  tapEff := 1
  tapIdle := true
  bsr := []



def CoreDyn.reset : CoreDyn where
  d := Vector.replicate 32 0
  a := Vector.replicate 8 0
  o := Vector.replicate 8 0
  acc := Vector.replicate 4 0
  flags := ⟨false, false, false, false, false⟩
  pc := 0
  cyc := 0
  levels := []
  loads := []
  stores := []
  wait := .none
  posted := 0
  run := none
  stepArmed := false
  stopReq := false
  satWarned := false
  accBefore := []
  loadedBefore := []


def SchedDyn.reset : SchedDyn where
  arrived := []
  notes := []
  edges := []
  queue := []
  delayed := []
  deadlines := []
  busy := []
  lastCore := []
  counts := List.replicate 64 0
  groups := List.replicate 32 ⟨false, false, 0⟩
  opened := false
  unhealthy := false

def SenseDyn.reset : SenseDyn where
  last := ⟨0, 0, 0⟩
  have_ := ⟨false, false, false⟩
  legOk := ⟨false, false, false⟩
  waiting := false
  lastSet := ⟨0, 0, 0⟩
  seq := 0
  vseq := 0
  sumRun := 0
  staleRun := 0
  clampRun := 0
  imbRun := 0
  releasable := ⟨false, false, false⟩
  own := ⟨0, 0, 0⟩
  ownClip := ⟨false, false, false⟩

def StartDyn.reset : StartDyn where
  dir := 0
  pending := false
  omegaF := 0
  t := 0
  lockRun := 0
  noLock := 0
  lowRun := 0
  syncCycles := 0
  obsSeq := 0
  obsAge := 0
  iref0 := 0
  diff0 := 0
  zeroVector := false
  holdZero := false
  clamped := false


def FbDyn.reset : FbDyn where
  c := 0
  p := 0
  dir := 1
  lineA := false
  lineB := false
  net := 0
  bad := false
  idxEv := false
  wrapped := false
  lastSector := 7
  sectorTime := 0
  hallRun := 0
  badRun := 0
  lastP := 0
  lastV := 0
  lastOk := false
  some_ := false
  jump := 0
  conv := none
  convSeen := false
  prevPos := 0
  ext := none
  ofs := 0
  word := 0
  frame := false
  seq := 0
  corr := none
  ev5 := 0
  retries := 0
  evWaited := false
  idxSeen := false
  tlast := 0



def PortDyn.reset : PortDyn where
  queues := [[], [], [], []]
  sending := none
  ingress := []
  control := []
  xoff := [false, false, false, false]
  pauseQuanta := 0
  pfcQuanta := [0, 0, 0, 0, 0, 0, 0, 0]
  launch := []

def NetDyn.reset : NetDyn where
  ports := Vector.replicate 3 PortDyn.reset
  learn := []
  nextId := 0


def TimeDyn.reset : TimeDyn where
  heard := []
  master := none
  qual := 0
  lockRun := 0
  farRun := 0
  rates := []
  delay := [0, 0]
  relay := [(0, 0), (0, 0)]
  drifted := false
  present := 0
  cleared := false
  spent := List.replicate 16 false
  soutOn := false
  burst := List.replicate 16 0


def AcqClock.reset : AcqClock := ⟨0, 0, none, none, none⟩

def TrigDyn.reset : TrigDyn := ⟨0, true, none, none, false, (0, 0, 0), false, []⟩

def AcqDyn.reset : AcqDyn where
  clocks := List.replicate 4 AcqClock.reset
  capt := List.replicate 64 0
  wpos := 0
  seq := 0
  formed := false
  trig := TrigDyn.reset
  marks := []
  burst := List.replicate 16 ⟨0, 0, 0⟩


def CanDyn.reset : CanDyn where
  running := false
  sending := none
  fails := List.replicate 64 0
  attempts := List.replicate 64 0
  otherFail := 0
  aborted := false
  cycle := 0
  nextCycle := 0
  refData := []
  refDue := none
  window := none
  wake := false


def FioDyn.reset : FioDyn where
  groups := 0
  waiting := 0
  seq := List.replicate 24 0
  safe := none
  pulse := 0
  freeAt := List.replicate 24 none
  wdRun := false
  wdFed := false
  gap := none

def StoDyn.reset : StoDyn := ⟨false, false, 0, false, false, 1⟩


def TwinDyn.reset : TwinDyn where
  gapStart := none
  leaseEnd := 0
  released := 0
  lastFrame := none
  lastHolding := none
  lastOrderly := none
  orderly := false
  handover := false
  pReclaim := false
  reclaim := false
  runDue := false
  pSyncedOnce := false
  silent := false
  unsynced := false
  recs := []
  groups := []
  offs := List.replicate 16 none
  runs := List.replicate 16 0
  due := 0
  sendDue := false
  sent := none

def ZoneDyn.reset : ZoneDyn := ⟨[], 0, 0, 0, none, false, 65536, 65536⟩

def PwrDyn.reset : PwrDyn where
  goal := 0
  sleep := 0
  entry := 0
  entryAt := 0
  armed := []
  guardMs := 0
  early := none
  entered := false
  retried := false
  step := 0
  waitRetry := false
  zones := List.replicate 14 ZoneDyn.reset
  graceEnd := 0
  enforcing := false
  zone0 := 0
  undo := false
  sampleAt := 0

/-- The state of the module: the queue of waiting commands and everything the spec gives it to hold. -/
structure State where
  /-- the commands that wait, first in first out -/
  pending : List Instr
  /-- the model's own count of free values drawn (log entry 3) -/
  draws : Nat
  /-- register fields that do not stand at their reset value, by bit address -/
  regs : List (Nat × Nat)
  /-- memory bytes that are not zero, by address -/
  mem : List Host.Cell
  /-- staged L writes: bit address, low bits, value, owning cycle, index (R7) -/
  staged : List Staged
  /-- *Module architecture* -/
  arc : ArcDyn
  /-- *Fault handling* -/
  faults : FaultDyn
  /-- *Device states and axis modes* -/
  ax : Vector AxisDyn 16
  /-- *PWM generation* -/
  pwm : Vector PwmDyn 16
  /-- *DC bus* -/
  bus : Vector BusDyn 4
  /-- *Supervision* -/
  sup : Vector SupDyn 16
  /-- *Motion profiles* -/
  prof : Vector ProfDyn 16
  /-- *Path groups* -/
  grp : Vector GroupDyn 8
  /-- *Network time*: the local clock and the Rind time base -/
  clock : ClockDyn
  /-- *Host protocol* -/
  host : HostDyn
  /-- own frames waiting to enter an egress queue: port, queue, content (R311, R312) -/
  outbox : List (Nat × Nat × OwnMsg)
  /-- *Current sensing* -/
  sense : Vector SenseDyn 16
  /-- the start sequencers of *Sensorless start* -/
  startq : Vector StartDyn 16
  /-- *Pip scheduler* -/
  sched : SchedDyn
  /-- *Twin redundancy* -/
  twin : TwinDyn
  /-- the leave sequence of R60 has begun and the module has not started again -/
  leaving : Bool
  /-- *Safe torque off* -/
  sto : StoDyn
  /-- *Position feedback interfaces* -/
  fb : Vector FbDyn 16
  /-- *Performance levels, sleep, wake and thermal management* -/
  pw : PwrDyn
  /-- *Pip engines* -/
  core : Vector CoreDyn 8
  /-- *Ethernet ports, switch and flow control* -/
  net : NetDyn
  /-- *Network time*: the time engine -/
  time : TimeDyn
  /-- *Acquisition and triggers* -/
  acq : AcqDyn
  /-- *CAN FD* -/
  can : Vector CanDyn 2
  /-- *Field inputs and outputs* -/
  fio : FioDyn
  /-- *Power intake*, *Configuration image*, *Connectors, pins*: the Rind, INTAKE and the flash -/
  boot : BootDyn
deriving DecidableEq, Repr

/-- Why the module stops with a fault: never. Every fault of the spec is an event that the module logs and reacts to while it goes
on (R451), so this type has no constructor. -/
inductive Fault where
deriving DecidableEq, Repr

/-- Why a command is refused by the model. -/
inductive Refusal where
  /-- Raised by exec for a command that has no meaning in the model; safe: the run stops. -/
  | notModelled (mnemonic : String)
deriving DecidableEq, Repr

/-- The module before its first supply, its Rind not running (log entry 1): every register field at the reset value of its register table
(the register file lists only fields away from it), memory with nothing listed, nothing waiting. -/
def State.reset : State where
  pending := []
  draws := 0
  regs := []
  mem := []
  staged := []
  arc := ArcDyn.reset
  faults := FaultDyn.reset
  ax := Vector.replicate 16 AxisDyn.reset
  pwm := Vector.replicate 16 PwmDyn.reset
  bus := Vector.replicate 4 BusDyn.reset
  sup := Vector.replicate 16 SupDyn.reset
  prof := Vector.replicate 16 ProfDyn.reset
  grp := Vector.replicate 8 GroupDyn.reset
  clock := ClockDyn.reset
  host := HostDyn.reset
  outbox := []
  sense := Vector.replicate 16 SenseDyn.reset
  startq := Vector.replicate 16 StartDyn.reset
  sched := SchedDyn.reset
  twin := TwinDyn.reset
  leaving := false
  sto := StoDyn.reset
  fb := Vector.replicate 16 FbDyn.reset
  pw := PwrDyn.reset
  core := Vector.replicate 8 CoreDyn.reset
  net := NetDyn.reset
  time := TimeDyn.reset
  acq := AcqDyn.reset
  can := Vector.replicate 2 CanDyn.reset
  fio := FioDyn.reset
  boot := BootDyn.reset

end Sys2Proof.Machine
end

