-- ==== Sys2Proof/Machine/Ops.lean ====
section
/-!
DEFINITION. Machine/Ops.lean: the named operations over the register file, the memories, the slices, the staged writes and the
queues that several chapters share.
-/

namespace Sys2Proof.Machine

/-- The outcome of a step. -/
abbrev Out := Host.Outcome State Fault Refusal

/-! Register file (R3, R7, R8). -/

/-- The value listed for key `k`, or `d`. -/
def lookupD : List (Nat × Nat) → Nat → Nat → Nat
  | [], _, d => d
  | (a, v) :: t, k, d => if a = k then v else lookupD t k d

/-- A (key, value) pair put before the first larger key. -/
def ordInsert (k v : Nat) : List (Nat × Nat) → List (Nat × Nat)
  | [] => [(k, v)]
  | (a, w) :: t => if k < a then (k, v) :: (a, w) :: t else (a, w) :: ordInsert k v t

/-- A list without the entries of key `k`. -/
def dropKey (k : Nat) : List (Nat × Nat) → List (Nat × Nat)
  | [] => []
  | (a, w) :: t => if a = k then dropKey k t else (a, w) :: dropKey k t

/-- The value in effect of a register field (R8). -/
def State.get (s : State) (f : Fld) : Nat := lookupD s.regs f.key f.rst % 2 ^ f.w

/-- The state with a register field at a value, held to the field's width; a field at its reset value is not listed. -/
def State.set (s : State) (f : Fld) (v : Nat) : State :=
  { s with regs :=
      if v % 2 ^ f.w = f.rst then dropKey f.key s.regs
      else ordInsert f.key (v % 2 ^ f.w) (dropKey f.key s.regs) }

/-- The signed value of a field. -/
def State.getS (s : State) (f : Fld) : Int := toS f.w (s.get f)

/-- A field set to a signed value, wrapping. -/
def State.setS (s : State) (f : Fld) (v : Int) : State := s.set f (ofS f.w v)

/-- A one-bit field as a truth value. -/
def State.on (s : State) (f : Fld) : Bool := s.get f != 0

/-- A one-bit field set from a truth value. -/
def State.setB (s : State) (f : Fld) (b : Bool) : State := s.set f (b2n b)

/-- A counter field one higher, saturating at its width. -/
def State.bump (s : State) (f : Fld) : State :=
  s.set f (satN (2 ^ f.w - 1) (s.get f + 1))

/-- A counter field higher by `k`, saturating. -/
def State.bumpBy (s : State) (f : Fld) (k : Nat) : State :=
  s.set f (satN (2 ^ f.w - 1) (s.get f + k))

/-- Bit `i` of a field. -/
def State.bitOf (s : State) (f : Fld) (i : Nat) : Bool := bit (s.get f) i != 0

/-- Bit `i` of a field set or cleared. -/
def State.putBit (s : State) (f : Fld) (i : Nat) (b : Bool) : State :=
  s.set f (if b then setBit (s.get f) i else clrBit (s.get f) i)

/-- A register field back at its reset value. -/
def State.toReset (s : State) (f : Fld) : State := s.set f f.rst

/-- A fold over a list of indices. -/
def State.each {α : Type} (s : State) (l : List α) (f : State → α → State) : State := l.foldl f s

/-! Memory: bytes by address, nothing listed for a zero byte (log entry 2). -/

/-- The byte at an address of a memory list. -/
def cellAt : List Host.Cell → Nat → BitVec 8
  | [], _ => 0
  | (a, b) :: t, k => if a = k then b else cellAt t k

/-- A list without the cell at an address. -/
def dropCell (k : Nat) : List Host.Cell → List Host.Cell
  | [] => []
  | (a, b) :: t => if a = k then dropCell k t else (a, b) :: dropCell k t

/-- A cell put before the first larger address. -/
def insertCell (k : Nat) (b : BitVec 8) : List Host.Cell → List Host.Cell
  | [] => [(k, b)]
  | (a, c) :: t => if k < a then (k, b) :: (a, c) :: t else (a, c) :: insertCell k b t

/-- A byte written into a memory list. -/
def putCell (m : List Host.Cell) (k : Nat) (b : BitVec 8) : List Host.Cell :=
  if b = 0 then dropCell k m else insertCell k b (dropCell k m)

/-- One byte of memory. -/
def State.byte (s : State) (a : Nat) : Nat := (cellAt s.mem a).toNat

/-- One byte of memory written. -/
def State.putByte (s : State) (a v : Nat) : State := { s with mem := putCell s.mem a (BitVec.ofNat 8 v) }

/-- `n` bytes of memory from an address. -/
def State.bytes (s : State) (a : Nat) : Nat → List Nat
  | 0 => []
  | n + 1 => s.byte a :: s.bytes (a + 1) n

/-- Bytes written from an address up. -/
def State.putBytes (s : State) (a : Nat) : List Nat → State
  | [] => s
  | b :: t => (s.putByte a b).putBytes (a + 1) t

/-- A little-endian value of `n` bytes in memory (R3). -/
def State.rd (s : State) (a n : Nat) : Nat := ofLe (s.bytes a n)

/-- A little-endian value of `n` bytes written (R3). -/
def State.wr (s : State) (a n v : Nat) : State := s.putBytes a (leBytes n v)

/-- Bytes of a range back to zero: every cell in `[lo, hi)` dropped. -/
def State.zeroRange (s : State) (lo hi : Nat) : State :=
  { s with mem := s.mem.filter fun c => !(lo ≤ c.1 && c.1 < hi) }

/-! Per-index structures. -/

def State.modAx (s : State) (n : Slice) (f : AxisDyn → AxisDyn) : State := { s with ax := s.ax.set n (f s.ax[n]) }
def State.modPwm (s : State) (n : Slice) (f : PwmDyn → PwmDyn) : State := { s with pwm := s.pwm.set n (f s.pwm[n]) }
def State.modSup (s : State) (n : Slice) (f : SupDyn → SupDyn) : State := { s with sup := s.sup.set n (f s.sup[n]) }
def State.modProf (s : State) (n : Slice) (f : ProfDyn → ProfDyn) : State := { s with prof := s.prof.set n (f s.prof[n]) }
def State.modGrp (s : State) (g : Fin 8) (f : GroupDyn → GroupDyn) : State := { s with grp := s.grp.set g (f s.grp[g]) }
def State.modBus (s : State) (k : Fin 4) (f : BusDyn → BusDyn) : State := { s with bus := s.bus.set k (f s.bus[k]) }

/-- The three legs. -/
def legs : List (Fin 3) := [0, 1, 2]

/-! Free values: the count of draws (log entry 3). -/

/-- The free value that the next draw gives. -/
def State.free (s : State) : Nat := (Config.freeValue s.draws).toNat

/-- The state with one more free value drawn. -/
def State.drawn (s : State) : State := { s with draws := s.draws + 1 }

/-! Time (R322). -/

/-- One nanosecond of the local clock's count. -/
def nsUnit : Nat := 2 ^ 32

/-- One second of the local clock's count. -/
def secUnit : Nat := 1000000000 * 2 ^ 32

/-- The compact time of R322: NS in [29:0], the fraction in [47:32], the low 16 bits of SEC in [63:48]. -/
def compactOf (t : Nat) : Nat :=
  t / nsUnit % 1000000000 + (t % nsUnit / 2 ^ 16) * 2 ^ 32 + (t / secUnit % 2 ^ 16) * 2 ^ 48

/-- The time of a time stamp taken now: the local clock, or the Rind time base while that does not run (R344). -/
def State.stampNow (s : State) : Nat := if s.clock.running then s.clock.now else s.clock.rind

/-- That time in compact form. -/
def State.compact (s : State) : Nat := compactOf s.stampNow

/-- `d` of local time and `r` of Rind time pass (2^−32 ns). -/
def State.passBoth (s : State) (d r : Nat) : State :=
  { s with clock := { s.clock with now := if s.clock.running then s.clock.now + d else s.clock.now,
                                   rind := s.clock.rind + r, up := s.clock.up + r } }

/-- Time passes up to a Rind time since its start. -/
def State.passTo (s : State) (t : Nat) : State := if s.clock.up < t then s.passBoth (t - s.clock.up) (t - s.clock.up) else s

/-! Staged L writes (R7). -/

/-- An L write staged for its owning cycle. -/
def State.stage (s : State) (x : Staged) : State := { s with staged := s.staged ++ [x] }

/-- The staged writes of one owning cycle. -/
def State.stagedFor (s : State) (o : Own) (i : Nat) : List Staged :=
  s.staged.filter fun x => x.own == o && x.idx == i

/-- The state without the staged writes of one owning cycle. -/
def State.unstage (s : State) (o : Own) (i : Nat) : State :=
  { s with staged := s.staged.filter fun x => !(x.own == o && x.idx == i) }

/-- The last staged value of a field in a list, or none. -/
def stagedVal : List Staged → Fld → Option Nat
  | [], _ => none
  | x :: t, f =>
    match stagedVal t f with
    | some v => some v
    | none => if x.fld.key = f.key then some x.val else none

/-- Fields set in order, the last write to a field standing (R7). -/
def State.applyStaged (s : State) (l : List Staged) : State := s.each l fun s x => s.set x.fld x.val

/-! Fault records (R451): raising one hands it to the fault engine, which takes it at FAULT_RECORD. -/

/-- A fault record handed to the fault engine. -/
def State.raise (s : State) (r : FaultRec) : State :=
  { s with faults := { s.faults with inbox := s.faults.inbox ++ [r] } }

/-- A fault of module scope (SKIND 0). -/
def State.raiseMod (s : State) (code sev : Nat) (detail : Nat := 0) : State :=
  s.raise { code := code, sev := sev, skind := 0, sindex := 0, detail := detail }

/-- A fault of bus scope (SKIND 2). -/
def State.raiseBus (s : State) (code sev k : Nat) : State :=
  s.raise { code := code, sev := sev, skind := 2, sindex := k }

/-- A fault of die scope (SKIND 3). -/
def State.raiseDie (s : State) (code sev d : Nat) : State :=
  s.raise { code := code, sev := sev, skind := 3, sindex := d }

/-- A fault of graph-group scope (SKIND 4). -/
def State.raiseGraph (s : State) (code sev g : Nat) (detail : Nat := 0) : State :=
  s.raise { code := code, sev := sev, skind := 4, sindex := g, detail := detail }

/-- A fault of path-group scope (SKIND 5). -/
def State.raisePath (s : State) (code sev g : Nat) : State :=
  s.raise { code := code, sev := sev, skind := 5, sindex := g }

/-- A fault of zone scope (SKIND 6). -/
def State.raiseZone (s : State) (code sev z : Nat) : State :=
  s.raise { code := code, sev := sev, skind := 6, sindex := z, detail := z }

/-! Own frames and notices (R311, R358). -/

/-- The port on which a reply or a session's notice leaves (R319, R351, R358): its own, or in FAILOVER the active one while that link is
down. -/
def State.outPort (s : State) (p : Nat) : Nat :=
  if s.get R.NET_CFG_PMODE = 1 ∧ s.get (R.NET_PSTAT_LINK p) = 0 then s.get R.NET_FOSTAT_ACTIVE else p

/-- An own frame handed to the switch: port, queue, content. -/
def State.send (s : State) (port queue : Nat) (m : OwnMsg) : State :=
  { s with outbox := s.outbox ++ [(port, queue, m)] }

/-- The 4-byte big-endian count of an OVERFLOW notice (Table HPR.5). -/
def overflowDetail (lost : Nat) : List Nat := beBytes 4 lost

/-- A notice given to one session (R358): kept while fewer than 32 are unacknowledged, else dropped and counted, the newest turned
into an OVERFLOW notice. -/
def Session.take (x : Session) (n : Notice) : Session :=
  if x.notices.length < 32 then { x with notices := x.notices ++ [n] }
  else
    match x.notices.reverse with
    | [] => x
    | last :: t =>
      { x with lost := x.lost + 1,
               notices := (({ last with kind := 6, detail := overflowDetail (x.lost + 1) } : Notice) :: t).reverse }

/-- A notice of the given kind and detail to every session opened with NOTIFY (R358), on that session's port. -/
def State.notice (s : State) (kind : Nat) (detail : List Nat) : State :=
  let n : Notice := ⟨s.host.noticeSeq, kind, s.compact, detail, 0⟩
  let who := (upto 5).filter fun i =>
    match s.host.sessions[i]? with
    | some x => x.isOpen && x.notify
    | none => false
  let full := who.filter fun i => match s.host.sessions[i]? with | some x => x.notices.length ≥ 32 | none => false
  let s := who.foldl (fun s i =>
    match s.host.sessions[i]? with
    | some x =>
      let s := { s with host := { s.host with sessions := setNth s.host.sessions i (x.take n) } }
      if x.notices.length < 32 then s.send (s.outPort x.port) 2 (.notice i n) else s
    | none => s) s
  let s := full.foldl (fun s _ => s.bump R.NET_HPSTAT_NOTELOST) s
  { s with host := { s.host with noticeSeq := (s.host.noticeSeq + 1) % 2 ^ 32 } }

/-- An own message sent once on each linked port, with no session (DEPART, R359). -/
def State.broadcast (s : State) (m : OwnMsg) : State :=
  s.each [0, 1] fun s p => if s.on (R.NET_PSTAT_LINK p) then s.send p 2 m else s

/-! Source events (R148): they wait for the scheduler's next tick. -/

/-- An event of a source kind with its payload, for the next tick. -/
def State.arrive (s : State) (kind param : Nat) (payload : List Nat) : State :=
  { s with sched := { s.sched with arrived := s.sched.arrived ++ [⟨kind, param, payload⟩] } }

/-! Device state (Table STA.2, R483). -/

/-- The overlay bits [7:4] of SYS_STATE. -/
def State.overlay (s : State) : Nat :=
  s.get R.SYS_STATE_TORQUE_OFF + 2 * s.get R.SYS_STATE_HOLDOVER + 4 * s.get R.SYS_STATE_THROTTLE + 8 * s.get R.SYS_STATE_THR_ENF

/-- A change of SYS_STATE noted for its STATE notice, unless one already waits in this module current cycle (R483). -/
def State.noteState (s : State) : State :=
  match s.host.pendingState with
  | some _ => s
  | none => { s with host := { s.host with pendingState := some (s.get R.SYS_STATE_STATE, s.overlay) } }

/-- The waiting STATE notice sent, if SYS_STATE has changed (R483, Table HPR.5). -/
def State.flushState (s : State) : State :=
  match s.host.pendingState with
  | none => s
  | some (o, v) =>
    let s := { s with host := { s.host with pendingState := none } }
    if o = s.get R.SYS_STATE_STATE ∧ v = s.overlay then s
    else s.notice 3 [o, s.get R.SYS_STATE_STATE, v, s.overlay]

/-- Whether the scheduler runs (SCH_STAT.STATE 1): while it is stopped the module current cycle has no boundaries (R7, R158). -/
def State.schedRuns (s : State) : Bool := s.get R.SCH_STAT_STATE == 1

/-- A change made to SYS_STATE with its STATE notice: at once while no module current cycle runs, else at its next boundary. -/
def State.withState (s : State) (f : State → State) : State :=
  let s := f s.noteState
  if s.schedRuns then s else s.flushState

/-- The device state changed (Table STA.2). -/
def State.setDev (s : State) (v : Nat) : State := s.withState fun s => s.set R.SYS_STATE_STATE v

/-- An overlay bit set or cleared (Table STA.4). -/
def State.setOverlay (s : State) (f : Fld) (b : Bool) : State := s.withState fun s => s.setB f b

/-- The device state (0 INTAKE, 1 HOLD, 2 RUN, 3 SHADOW, 4 SERVICE, 5 HALT). -/
def State.dev (s : State) : Nat := s.get R.SYS_STATE_STATE

/-- Whether a switched domain of Table PWI.2 is on and ready: 0 FAB, 1 LCA, 2 LCB, 3 NET, 4 TWN, 5 FLD, 6 SNA, 7 SNB. -/
def State.domOn (s : State) (k : Nat) : Bool := s.bitOf R.PWR_STAT_DOM_ON k

/-! Cherry pairs (R288) and which slices an index names. -/

/-- The even slice of a slice's pair position. -/
def evenOf (n : Slice) : Slice := ⟨n.val / 2 * 2, by omega⟩

/-- The odd slice of a slice's pair position. -/
def oddOf (n : Slice) : Slice := ⟨n.val / 2 * 2 + 1, by omega⟩

/-- The pair function that governs a slice (Table CHY.1); 0 for none. -/
def State.pairFunc (s : State) (n : Slice) : Nat := s.get (R.SLC_CHYCFG_FUNC (n.val / 2 * 2))

/-- Whether a slice is the odd slice of a Cherry pair. -/
def State.oddInPair (s : State) (n : Slice) : Bool := n.val % 2 == 1 && s.pairFunc n != 0

/-- The slice whose registers govern the axis of a slice (R107): the even slice of a pair. -/
def State.lead (s : State) (n : Slice) : Slice := if s.pairFunc n != 0 then evenOf n else n

/-- A fault of axis scope (SKIND 1) that arises on slice n: the axis is the even slice of a pair (R299). -/
def State.raiseAx (s : State) (code sev : Nat) (n : Slice) (detail : Nat := 0) : State :=
  s.raise { code := code, sev := sev, skind := 1, sindex := (s.lead n).val, origin := n.val, detail := detail }

/-- The slices of an axis: both slices of a pair (R299). -/
def State.axisSlices (s : State) (n : Slice) : List Slice :=
  if s.pairFunc n != 0 then [evenOf n, oddOf n] else [n]

/-- The die of a slice: 0 slice die A, 1 slice die B. -/
def dieOf (n : Slice) : Nat := n.val / 8

/-- A register index as a slice. -/
def sliceOf (k : Nat) : Slice := ⟨k % 16, by omega⟩

/-- A hard-limit field as the slice dies and the field die hold it since the end of INTAKE (R29). -/
def State.hl (s : State) (f : Fld) : Nat := lookupD s.arc.hlCopy f.key f.rst % 2 ^ f.w

/-- The block-floating scalar of R244, mantissa and exponent, as a signed count of 2^−64: m × 2^(e − 31). -/
def scalar64 (m : Int) (e : Int) : Int :=
  let k := e - 31 + 64
  if k ≥ 0 then m * (2 ^ k.toNat : Nat) else Int.fdiv m (2 ^ (-k).toNat : Nat)

def State.modFb (s : State) (n : Slice) (f : FbDyn → FbDyn) : State := { s with fb := s.fb.set n (f s.fb[n]) }
def State.modSense (s : State) (n : Slice) (f : SenseDyn → SenseDyn) : State := { s with sense := s.sense.set n (f s.sense[n]) }
def State.modStart (s : State) (n : Slice) (f : StartDyn → StartDyn) : State := { s with startq := s.startq.set n (f s.startq[n]) }

end Sys2Proof.Machine
end

