-- ==== Sys2Proof/Machine/Cycle.lean ====
section
/-!
DEFINITION. Machine/Cycle.lean: the period of the module current cycle and the times measured in it (R148, R338, R426, R428).
-/

namespace Sys2Proof.Machine

/-- The period of a comparator, 2^−32 ns; 0 for one-shot. -/
def State.cmpPer (s : State) (k : Nat) : Nat := s.get (R.PTP_CMP2_PERNS k) * nsUnit + s.get (R.PTP_CMP2_PERSUB k) * 2 ^ 16

/-- Word 0 of a source entry (Table SCH.4). -/
def State.sourceWord (s : State) (i : Nat) : Nat := s.rd (0x660000 + i % 64 * 16) 8

/-- One Rind cycle, 976.562 5 ns, in 2^−32 ns. -/
def rindCycle : Nat := 15625 * 2 ^ 28

/-- The module current cycle period: that of the comparator of source 0 (*Token and lease*). -/
def State.mccPeriod (s : State) : Nat := s.cmpPer (bitsOf (s.sourceWord 0) 8 4)

/-- The lease in 2^−32 ns, in whole Rind cycles (R426). -/
def State.leaseTime (s : State) : Nat :=
  (s.get R.TWN_CFG_LEASE * s.mccPeriod + rindCycle - 1) / rindCycle * rindCycle

/-- When RCLM becomes true if nothing more happens (R428): one lease after HOLD_IN's release, the last HOLDING frame and the last ORDERLY
one. -/
def State.rclmAt (s : State) : Nat :=
  let t := s.twin
  max t.released (max (t.lastHolding.getD 0) (t.lastOrderly.getD 0)) + s.leaseTime

/-- RCLM (R428). -/
def State.rclm (s : State) : Bool := s.on R.TWN_CFG_EN && !s.on R.TWN_STAT_HOLD_IN && s.rclmAt ≤ s.clock.up

end Sys2Proof.Machine
end

