-- ==== Sys2Proof/Machine/AxisOps.lean ====
section
/-!
DEFINITION. Machine/AxisOps.lean: what several chapters do to an axis: the scopes of faults (Table FLT.2), leaving the enabled
states (Table STA.5), stops and ramp stops (R103, R255), feed holds (R271), followers and members (R105, R106).
-/

namespace Sys2Proof.Machine

/-! Modes and states by name. -/

/-- SLC_AXST.AXST of the axis of a slice: 0 DISABLED, 1 ENABLING, 2 ENABLED, 3 STOPPING, 4 FAULTED. -/
def State.axst (s : State) (n : Slice) : Nat := s.get (R.SLC_AXST_AXST n)

/-- SLC_MODE.MODE: 0 CURRENT, 1 VELOCITY, 2 POSITION, 3 PATH, 4 GEAR, 5 STEP. -/
def State.axmode (s : State) (n : Slice) : Nat := s.get (R.SLC_MODE_MODE n)

/-- Whether an axis is ENABLING, ENABLED or STOPPING. -/
def State.axOn (s : State) (n : Slice) : Bool := s.axst n == 1 || s.axst n == 2 || s.axst n == 3

/-- Whether every axis is DISABLED or FAULTED. -/
def State.axesOff (s : State) : Bool := slices.all fun n => !s.axOn n

/-- Whether a slice of a bus's scope is ENABLING, ENABLED or STOPPING (R209). -/
def State.busOnAny (s : State) (k : Nat) : Bool :=
  slices.any fun n => s.get (R.SLC_COMM_BUSSEL n) == k && s.axOn (s.lead n)

/-- A bus may raise BUSUV again once no slice of its scope is on (R209). -/
def State.rearmBusuv (s : State) : State :=
  s.each [0, 1, 2, 3] fun s k => if s.busOnAny k.val then s else s.modBus k fun b => { b with uvRaised := false }

/-- The performance level wanted (R437): the slower of REQ and the thermal cap, never slower than FLOOR while an axis runs. -/
def State.levelWanted (s : State) : Nat :=
  let k := max (s.get R.PWR_PLVL_REQ) (s.get R.PWR_PLVL_CAP)
  if s.axesOff then k else min k (s.get R.PWR_PLVL_FLOOR)

/-- A change of performance level starts when another level is wanted and none is in progress (R438). -/
def State.perfCheck (s : State) : State :=
  if s.on R.PWR_PLVL_BUSY || s.levelWanted == s.get R.PWR_PLVL_EFF then s
  else { (s.set R.PWR_PLVL_BUSY 1) with pw := { s.pw with goal := s.levelWanted } }

/-- An axis state written, with the AX_ON bit of each of its slices. -/
def State.setAxst (s : State) (n : Slice) (v : Nat) : State :=
  let s := (s.set (R.SLC_AXST_AXST n) v).each (s.axisSlices n) fun s m =>
    s.putBit R.SYS_STATE_AX_ON m.val (v == 1 || v == 2 || v == 3)
  (if v == 0 || v == 4 then s.rearmBusuv else s).perfCheck

/-- Whether an axis has feedback (R480): FBMODE not 0 or HALLEN set. -/
def State.hasFb (s : State) (n : Slice) : Bool := s.get (R.SLC_FBCFG_FBMODE n) != 0 || s.on (R.SLC_FBCFG_HALLEN n)

/-- The members of a path group, lowest slice first (*Path groups*). -/
def State.members (s : State) (g : Nat) : List Slice :=
  slices.filter fun n => s.ax[n].used && !s.oddInPair n && s.axmode n == 3 && s.get (R.SLC_MODE_GROUP n) == g

/-- Whether the supervisor of an axis runs (*Supervision*): ENABLED or STOPPING, not in SHADOW. -/
def State.supRuns (s : State) (n : Slice) : Bool := (s.axst n == 2 || s.axst n == 3) && s.dev != 3 && !s.oddInPair n

/-! Scopes (Table FLT.2). -/

/-- The AXES mask of a graph group (Table SCH.6). -/
def State.graphAxes (s : State) (g : Nat) : Nat := s.rd (0x660400 + g * 32) 2

/-- The slices of a thermal zone (Table PWR.6). -/
def State.zoneHas (s : State) (z : Nat) (n : Slice) : Bool :=
  if z < 3 then true
  else if z < 5 then n.val < 8
  else if z < 7 then 8 ≤ n.val
  else if z < 10 then true
  else if z = 10 then s.bitOf R.THM_NTCMAP_MAP0 n
  else if z = 11 then s.bitOf R.THM_NTCMAP_MAP1 n
  else if z = 12 then s.bitOf R.THM_NTCMAP_MAP2 n
  else if z = 13 then s.bitOf R.THM_NTCMAP_MAP3 n
  else false

/-! Throttle factors (R446, R447). -/

def State.modPw (s : State) (f : PwrDyn → PwrDyn) : State := { s with pw := f s.pw }

/-- The smallest velocity scale and current factor that any zone imposes on a slice (R446). -/
def State.zoneFactors (s : State) (n : Slice) : Nat × Nat :=
  (upto 14).foldl (fun (f : Nat × Nat) z =>
    if s.zoneHas z n then let x := nthD s.pw.zones z ZoneDyn.reset; (min f.1 x.v, min f.2 x.i) else f) (65536, 65536)

/-- The factors of a slice put into effect; its generator replans (R262, R446, R447). -/
def State.applyFactors (s : State) (n : Slice) : State :=
  let f := s.zoneFactors n
  let s := if f.1 = s.get (R.THM_SLC_VSCALE n) then s else s.modProf n fun p => { p with replan := true }
  (s.set (R.THM_SLC_VSCALE n) f.1).set (R.THM_SLC_ISCALE n) f.2

/-- What thermal management does at a servo boundary: factors act, and a cap that R447 removes goes. -/
def State.thermalBoundary (s : State) (n : Slice) : State :=
  let s := s.applyFactors n
  if s.pw.undo then ((s.modPw fun p => { p with undo := false }).set R.PWR_PLVL_CAP 0).perfCheck else s

/-- Whether a scope names a slice (Table FLT.2). -/
def State.scopeHas (s : State) (skind sindex : Nat) (n : Slice) : Bool :=
  match skind with
  | 0 => s.ax[n].used
  | 1 => (s.axisSlices (sliceOf sindex)).contains n && sindex < 16
  | 2 => s.get (R.SLC_COMM_BUSSEL n) == sindex && s.ax[n].used
  | 3 => dieOf n == sindex && s.ax[n].used
  | 4 => bit (s.graphAxes sindex) n != 0 && sindex < 32
  | 5 => (s.members sindex).contains n
  | 6 => s.zoneHas sindex n && s.ax[n].used
  | _ => false

/-- Whether a scope covers an axis: it names one of its slices (R299, R451). -/
def State.covers (s : State) (skind sindex : Nat) (n : Slice) : Bool :=
  (s.axisSlices n).any fun m => s.scopeHas skind sindex m

/-- The severity of the most severe latched fault whose reaction an axis is under; 0 for none (R452). A fault that took only one winding
set of the axis (R300) counts for nothing here. -/
def State.worst (s : State) (n : Slice) : Nat :=
  s.faults.latched.foldl (fun w l => if s.covers l.skind l.sindex n && !l.half && w < l.sev then l.sev else w) 0

/-- Whether a latched fault of any kind covers an axis (R452, enable check 0x03). -/
def State.covered (s : State) (n : Slice) : Bool := s.faults.latched.any fun l => s.covers l.skind l.sindex n

/-- The axes of the module: every used slice that leads its axis. -/
def State.axes (s : State) : List Slice := slices.filter fun n => s.ax[n].used && !s.oddInPair n

/-! Leaving motion. -/

/-- The ILIM words of both gain banks of a slice, mantissa and exponent. -/
def State.ilimWords (s : State) (n : Slice) : (Nat × Nat) × (Nat × Nat) :=
  ((s.get (R.SLC_GAIN_MANT n 0 6), s.get (R.SLC_GAIN_EXP n 0 6)), (s.get (R.SLC_GAIN_MANT n 1 6), s.get (R.SLC_GAIN_EXP n 1 6)))

/-- The ILIM words of both banks set. -/
def State.setIlim (s : State) (n : Slice) (w : (Nat × Nat) × (Nat × Nat)) : State :=
  let s := s.set (R.SLC_GAIN_MANT n 0 6) w.1.1
  let s := s.set (R.SLC_GAIN_EXP n 0 6) w.1.2
  let s := s.set (R.SLC_GAIN_MANT n 1 6) w.2.1
  s.set (R.SLC_GAIN_EXP n 1 6) w.2.2

/-- FESEL and ILIM given back after HARDSTOP homing (R248, R282). -/
def State.homeRestore (s : State) (n : Slice) (h : HomeDyn) : State :=
  if h.method != 3 then s else
  let s := s.set (R.SLC_SVCTL_FESEL n) h.savedFesel
  match h.savedIlim with
  | some w => s.setIlim n w
  | none => s

/-- The homing sequence of a slice ended (R282): FESEL and ILIM as before, HOMESUSP clear, PSTATE IDLE. -/
def State.endHoming (s : State) (n : Slice) : State :=
  match s.prof[n].home with
  | none => s
  | some h =>
    let s := s.homeRestore n h
    let s := s.set (R.SLC_SVSTAT_HOMESUSP n) 0
    let s := s.set (R.SLC_PRSTAT_PSTATE n) 0
    let s := s.set (R.SLC_PRSTAT_HSTEP n) 0
    s.modProf n fun p => { p with home := none, plan := none }

/-- A reference event of the homing sequencer at a position (R283): its shift waits for the next servo boundary; HOMESUSP ends (R282). -/
def State.homeRef (s : State) (n : Slice) (pos : Int) : State :=
  match s.prof[n].home with
  | some h =>
    if h.pref.isSome then s
    else (s.set (R.SLC_SVSTAT_HOMESUSP n) 0).modProf n fun p => { p with home := some { h with pref := some pos } }
  | none => s

/-- Whether the homing sequencer waits for an index event (methods 0 and 2). -/
def State.homeWantsIndex (s : State) (n : Slice) : Bool :=
  match s.prof[n].home with
  | some h => h.pref.isNone && ((h.method == 0 && h.phase == 1) || (h.method == 2 && h.phase == 4))
  | none => false

/-- The generator's plan dropped (R264): no move, jog, arming or homing is left. -/
def State.dropPlan (s : State) (n : Slice) : State :=
  let s := s.endHoming n
  let s := s.set (R.SLC_PRSTAT_PSTATE n) 0
  s.modProf n fun p =>
    { p with plan := none, replan := false, armed := none, probe := false, probeStop := false, vel := 0, acc := 0 }

/-- MODE OWN and no start under way. -/
def State.startRest (s : State) (n : Slice) : State :=
  let s := s.set (R.SLC_SLCMD_MODE n) 0
  { s with startq := s.startq.set n { s.startq[n] with pending := false, holdZero := false, zeroVector := false } }

/-- The start sequencer sent to IDLE (R180): before RUN a STOP or QUICK_STOP keeps MODE FORCED with IREF 0; in RUN it goes on under
MODE OWN; any other exit goes to IDLE with MODE OWN. -/
def State.seqIdle (s : State) (n : Slice) (byStop : Bool) : State :=
  let ph := s.get (R.SLC_SLSTAT_PHASE n)
  if ph = 0 then (if byStop then s else s.startRest n)
  else if byStop && ph == 7 then s
  else if byStop then
    let s := s.set (R.SLC_SLSTAT_PHASE n) 0
    let s := s.set (R.SLC_SLCMD_MODE n) 1
    let s := s.set (R.SLC_SLCMD_IREF n) 0
    { s with startq := s.startq.set n { s.startq[n] with pending := false, holdZero := true, zeroVector := false } }
  else
    let s := s.set (R.SLC_SLSTAT_PHASE n) 0
    s.startRest n
/-- All gates of an axis off (R194, R195, R203): carries zero, no precharge, and a freeze in progress keeps the gates low. -/
def State.gatesOff (s : State) (n : Slice) : State :=
  s.each (s.axisSlices n) fun s m =>
    s.modPwm m fun p => { p with carry := ⟨0, 0, 0⟩, precharge := none, frozenOff := p.frozenOff || s.on (R.SLC_PWMSTAT_FROZEN m) }

/-- The supervisor of an axis at rest: no ramp, no steps. -/
def State.supOff (s : State) (n : Slice) : State :=
  let s := s.set (R.SLC_SVREFV_RAMP n) 0
  s.modSup n fun u => { u with ramp := none, ended := false }

/-- A feed hold of a path group (Table MOT.4): from EXECUTING or STARVED to HOLDING, at 1/THOLDQ when quick; a quick one also
quickens a hold in progress. -/
def State.feedHold (s : State) (g : Nat) (quick : Bool) : State :=
  if h : g < 8 then
    let st := s.get (R.GRP_STAT_STATE g)
    if st = 2 ∨ st = 4 then
      (s.set (R.GRP_STAT_STATE g) 3).modGrp ⟨g, h⟩ fun x => { x with quick := quick }
    else if st = 3 ∧ quick then s.modGrp ⟨g, h⟩ fun x => { x with quick := true }
    else s
  else s

/-- DEC_STOP or DEC_QS as a Q40.24 velocity change per servo cycle (R255): the register is Q16.16. -/
def State.decOf (s : State) (n : Slice) (k : StopKind) : Nat :=
  match k with
  | .quick => s.get (R.SLC_SVSTOP_DEC_QS n) * 2 ^ 8
  | .f2 => s.get (R.SLC_SVSTOP_DEC_QS n) * 2 ^ 8
  | _ => s.get (R.SLC_SVSTOP_DEC_STOP n) * 2 ^ 8

/-- A ramp stop entered (R255): v0 is the commanded velocity of the last step, or v of the last valid capture in VELOCITY, CURRENT
and STEP; pr starts at the last pcmd, or p where there is none. A CURRENT axis with VLAW clear does not ramp. -/
def State.startRamp (s : State) (n : Slice) (k : StopKind) : State :=
  let u := s.sup[n]
  let mode := s.axmode n
  let (cv, cp) := match u.cap with
    | some c => (if c.valid then c.v else u.lastV, c.p)
    | none => (0, 0)
  let v0 := if mode == 0 || mode == 1 || mode == 5 then cv else u.lastV
  let p0 := if mode == 0 || mode == 1 then cp else match u.prevP with
    | some p => p
    | none => cp
  if mode == 0 && !s.on (R.SLC_SERVO_VLAW n) then
    s.modSup n fun u => { u with ramp := none, dec := 0, ended := false, still := 0 }
  else
    let s := s.set (R.SLC_SVREFV_RAMP n) 1
    let s := s.setS (R.SLC_SVREF_PR n) p0
    let s := s.setS (R.SLC_SVREFV_VR n) (v0 / 2 ^ 8)
    s.modSup n fun u => { u with ramp := some ⟨v0, p0⟩, dec := s.decOf n k, ended := false, still := 0 }

/-- An engaged follower whose leader left ENABLED by STOP, QUICK_STOP or DISABLE (R105): it decelerates at its own stop rate, stays
ENABLED and takes cause 0x04. -/
def State.followerStop (s : State) (m : Slice) : State :=
  let s := s.set (R.SLC_AXST_CAUSE m) 4
  let s := s.modProf m fun p => { p with gear := { p.gear with engaged := false } }
  s.startRamp m .stop

/-- The engaged followers of a leader (R105). -/
def State.followers (s : State) (n : Slice) : List Slice :=
  s.axes.filter fun m =>
    s.axst m == 2 && s.axmode m == 4 && s.prof[m].gear.engaged && s.get (R.SLC_MODE_LEADER m) == n.val

/-- Whether a follower tracks the leader's measured position and that leader's feedback is valid (R105). -/
def State.tracksMeasured (s : State) (m n : Slice) : Bool :=
  s.prof[m].gear.measured && s.on (R.SLC_FBSTAT_FBVALID n)

/-- How an axis leaves the enabled states, as its followers see it (R105). -/
inductive LeaveBy where
  | command | fault | other
deriving DecidableEq, Repr

/-- The stop of an axis begun (Table STA.5): STOPPING of the kind, the generator's plan dropped; a PATH axis holds its group instead of
ramping (R255, R271). -/
def State.beginStop (s : State) (n : Slice) (k : StopKind) : State :=
  let s := s.setAxst n 3
  let s := s.modAx n fun a => { a with stop := k }
  let s := s.seqIdle n true
  let s := s.dropPlan n
  if s.axmode n == 3 then
    (s.feedHold (s.get (R.SLC_MODE_GROUP n)) (k != .stop)).modSup n fun u => { u with still := 0, ended := false }
  else s.startRamp n k

/-- The F2 reaction on one axis (Table FLT.1, Table STA.5). -/
def State.reactF2 (s : State) (n : Slice) : State :=
  match s.axst n with
  | 1 =>
    let s := s.setAxst n 0
    let s := s.set (R.SLC_AXST_PHASE n) 0
    let s := s.set (R.SLC_AXST_CAUSE n) 3
    let s := s.modAx n fun a => { a with closing := false, precharged := false, stop := .none }
    ((s.seqIdle n false).gatesOff n).supOff n
  | 2 =>
    let s := s.set (R.SLC_AXST_CAUSE n) 3
    s.beginStop n .f2
  | 3 =>
    let s := s.modAx n fun a => { a with stop := .f2 }
    if s.axmode n == 3 then s.feedHold (s.get (R.SLC_MODE_GROUP n)) true
    else s.modSup n fun u => { u with dec := max u.dec (s.decOf n .f2) }
  | _ => s

/-- An axis leaves ENABLING, ENABLED or STOPPING for DISABLED (0) or FAULTED (4), with a cause where the rule names one (Table STA.5):
gates off, the plan and any ramp dropped (R264), the sequencer to IDLE; its path group holds (R106) and its followers react (R105). -/
def State.leave (s : State) (n : Slice) (dst : Nat) (cause : Option Nat) (by_ : LeaveBy) : State :=
  if !s.axOn n then s else
  let was := s.axst n
  let fol := if was == 1 then [] else s.followers n
  let mode := s.axmode n
  let g := s.get (R.SLC_MODE_GROUP n)
  let s := s.setAxst n dst
  let s := s.set (R.SLC_AXST_PHASE n) 0
  let s := match cause with
    | some c => s.set (R.SLC_AXST_CAUSE n) c
    | none => s
  let s := s.modAx n fun a => { a with stop := .none, closing := false, precharged := false }
  let s := s.gatesOff n
  let s := s.dropPlan n
  let s := s.supOff n
  let s := s.seqIdle n false
  let s := s.modProf n fun p => { p with gear := { p.gear with engaged := false } }
  let s := if was != 1 && mode == 3 then s.feedHold g true else s
  let s := if was != 1 && mode == 3 && dst == 4 then
      s.each ((s.members g).filter (· != n)) fun s m => s.reactF2 m
    else s
  match by_ with
  | .command => s.each fol fun s m => if s.tracksMeasured m n then s else s.followerStop m
  | .fault => s.each fol fun s m => if s.tracksMeasured m n then s else s.reactF2 m
  | .other => s

/-- The F3 to F5 reaction on one axis: gates off, FAULTED (Table FLT.1). -/
def State.reactF3 (s : State) (n : Slice) : State := s.leave n 4 (some 3) .fault

/-- The axes of a list in the order in which they react: one that is ENABLING first, as the F2 reaction of its path group (R106) would
take it to DISABLED and its own, more severe fault would find it off (Table FLT.1, R452). -/
def State.reactOrder (s : State) (l : List Slice) : List Slice := l.filter (fun n => s.axst n == 1) ++ l.filter fun n => s.axst n != 1

/-- STOP of an ENABLED axis: its followers stop too (R105). -/
def State.stopLeads (s : State) (n : Slice) (k : StopKind) : State :=
  let fol := s.followers n
  (s.beginStop n k).each fol fun s m => s.followerStop m

/-- The end of a stop at standstill (Table STA.5): STOP returns to ENABLED, QUICK_STOP goes DISABLED, an F2 stop FAULTED; the
generator takes the final position as pcmd and effective target (R264). -/
def State.standstill (s : State) (n : Slice) : State :=
  let s := s.modAx n fun a => { a with brakeHold := false }
  let fin := match s.sup[n].ramp with
    | some r => r.pr
    | none => s.prof[n].pcmd
  let s := s.modProf n fun p => { p with pcmd := fin, target := fin, vel := 0, acc := 0, done := true }
  if s.axst n != 3 then s else
  match s.ax[n].stop with
  | .quick => s.leave n 0 none .other
  | .f2 => s.leave n 4 (some 3) .fault
  | _ =>
    let s := s.setAxst n 2
    let s := s.set (R.SLC_SVREFV_RAMP n) 0
    let s := s.modAx n fun a => { a with stop := .none }
    s.modSup n fun u => { u with ramp := none, ended := false }

/-- TORQUE-OFF set (R99): the overlay, and every ENABLING, ENABLED or STOPPING axis to DISABLED with cause 0x02. -/
def State.torqueOff (s : State) : State :=
  (s.setOverlay R.SYS_STATE_TORQUE_OFF true).each slices fun s n => s.leave n 0 (some 2) .other

/-- The device leaves RUN or SERVICE (Table STA.5): every enabled axis DISABLED with the given cause. -/
def State.axesOut (s : State) (cause : Nat) : State :=
  s.each slices fun s n => s.leave n 0 (some cause) .other

end Sys2Proof.Machine
end

