-- ==== Sys2Proof/Machine/TimeOps.lean ====
section
/-!
DEFINITION. Machine/TimeOps.lean: the local clock, HOLDOVER and LOCK, and the choice of a master (R322 to R335, R344).
-/

namespace Sys2Proof.Machine

def State.modTime (s : State) (f : TimeDyn → TimeDyn) : State := { s with time := f s.time }

/-- The packed time of Table PTP.1, 16 bytes. -/
def packedTime (t : Nat) : List Nat :=
  leBytes 8 (t / nsUnit % 1000000000 + t % nsUnit / 2 ^ 16 * 2 ^ 32) ++ leBytes 8 (t / secUnit % 2 ^ 48)

/-- Packed time as a count of 2^−32 ns. -/
def unpackTime (w0 w1 : Nat) : Nat := w1 % 2 ^ 48 * secUnit + w0 % 2 ^ 30 * nsUnit + bitsOf w0 32 16 * 2 ^ 16

/-- The largest count of the clock, after which SEC wraps (R322). -/
def clockWrap : Nat := 2 ^ 48 * secUnit

/-- The clock at a time, if that is later (an event at a local time has its time; log entry 6). -/
def State.clockTo (s : State) (t : Nat) : State :=
  if s.clock.running && s.clock.now < t then s.passBoth (t - s.clock.now) (t - s.clock.now) else s

/-- The nominal cycle of the network island (Table ARC.3), in 2^−32 ns: 64 bit times of 10.312 5 GBd where a port is in 10GBASE-R mode, else
6.4 ns. -/
def State.netCycle (s : State) : Nat :=
  if s.get (R.NET_PCFG_MODE 0) = 3 ∨ s.get (R.NET_PCFG_MODE 1) = 3 then 1024 * 2 ^ 32 / 165 else 32 * 2 ^ 32 / 5

/-- One cycle of the network island with nothing commanded (R323, R344): the local clock moves by the cycle × (1 + RATE), RATE in 2^−16 ppb,
and the Rind's time base by the cycle (log entry 6). Without supply nothing moves. -/
def State.idle (s : State) : State :=
  if !s.boot.rind then s
  else
    let c := s.netCycle
    s.passBoth ((c : Int) + Int.fdiv (c * s.getS R.PTP_RATE_RATE) (65536 * 1000000000)).toNat c

/-- A rate clamped to ±RATEMAX (R323), in 2^−16 ppb. -/
def State.clampRate (s : State) (r : Int) : Int :=
  let m : Int := s.get R.PTP_STAT_RATEMAX * 65536
  clampI (-m) m r

/-- RATE in effect changed, clamped; the last eight values are kept for the held rate (R323, R332). -/
def State.setRate (s : State) (r : Int) : State :=
  let r := s.clampRate r
  (s.setS R.PTP_RATE_RATE r).modTime fun t => { t with rates := (r :: t.rates).take 8 }

/-- The held rate: the mean of the last 8 RATE values, zero before any (R332, R335). -/
def State.heldRate (s : State) : Int :=
  match s.time.rates with
  | [] => 0
  | l => Int.fdiv (l.foldl (· + ·) 0) (l.length : Int)

/-- ROLE of the ordinary clock: 0 follower, 1 grandmaster, 2 AUTO, 3 OFF. -/
def State.role (s : State) : Nat := s.get R.PTP_CFG_ROLE

/-- Whether the clock acts as grandmaster: by ROLE, or as master in AUTO (R327). -/
def State.isMaster (s : State) : Bool := s.role == 1 || s.role == 3 || (s.role == 2 && s.get R.PTP_STAT_RSTATE == 1)

/-- Whether the grandmaster takes its time from a pin (R335). -/
def State.pinTime (s : State) : Bool := s.isMaster && (s.on R.PTP_SRC_PPSDISC || s.on R.PTP_SRC_REFSEL)

/-- Entry into HOLDOVER (R332 to R335): overlay and HOLD, counted, F0; the clock runs at the held rate. -/
def State.enterHold (s : State) : State :=
  if s.on R.PTP_STAT_HOLD then s
  else
    let s := ((s.set R.PTP_STAT_HOLD 1).setOverlay R.SYS_STATE_HOLDOVER true).bump R.PTP_CNT_HOCNT
    let s := s.setS R.PTP_RATE_RATE (s.clampRate s.heldRate)
    (s.modTime fun t => { t with drifted := false, qual := 0 }).raiseMod 0x0D01 0

/-- HOLDOVER cleared. -/
def State.leaveHold (s : State) : State :=
  if s.on R.PTP_STAT_HOLD then (s.set R.PTP_STAT_HOLD 0).setOverlay R.SYS_STATE_HOLDOVER false else s

/-- LOCK set: HOLDOVER and DRIFT clear, the time counts as set (R325, R332, R334). -/
def State.setLock (s : State) : State :=
  let s := ((s.set R.PTP_STAT_LOCK 1).set R.PTP_STAT_DRIFT 0).set R.PTP_STAT_TIMESET 1
  (s.leaveHold).modTime fun t => { t with farRun := 0, cleared := true }

/-- LOCK cleared (R330, R333): as a follower, or on a pin's time, the clock enters HOLDOVER. -/
def State.loseLock (s : State) : State :=
  let s := (s.set R.PTP_STAT_LOCK 0).modTime fun t => { t with lockRun := 0, farRun := 0, qual := 0 }
  if !s.clock.running || (s.isMaster && !s.pinTime) then s else s.enterHold

/-- The clock started at INTAKE step 10 or a wake (R325, R332, R335): RATE zero, the Rind's time, in HOLDOVER as a follower or on a pin's
time. -/
def State.clockStart (s : State) : State :=
  let rs := match s.role with | 0 => 0 | 1 => 1 | 2 => 2 | _ => 3
  let s := { s with clock := { s.clock with now := s.clock.rind, running := true }, time := TimeDyn.reset }
  let s := ((s.set R.PTP_RATE_RATE 0).set R.PTP_STAT_LOCK 0).set R.PTP_STAT_DRIFT 0
  let s := (s.set R.PTP_STAT_RSTATE rs).setB R.PTP_STAT_TIMESET s.clock.rindSet
  if s.isMaster && !s.pinTime then s.leaveHold else s.enterHold

/-- The clock stopped (R344): in INTAKE, in HALT after it and in S1 and S2. -/
def State.clockStop (s : State) : State := { s with clock := { s.clock with running := false } }

/-! The best master (R327, R328). -/

/-- A data set in the order in which the default BMCA compares (IEEE 1588-2019, 9.3.4): the smaller wins. -/
def announceKey (r : AnnounceRec) : List Nat :=
  [r.priority1, r.clockClass, r.accuracy, r.variance, r.priority2, r.gmId, r.stepsRemoved, r.source]

/-- Lexicographic order. -/
def lexLt : List Nat → List Nat → Bool
  | [], [] => false
  | [], _ => true
  | _, [] => false
  | a :: t, b :: u => a < b || (a == b && lexLt t u)

/-- The best of the masters heard; among equal ones the one heard first, so that its port is kept (R328). -/
def bestMaster : List AnnounceRec → Option AnnounceRec
  | [] => none
  | r :: t =>
    match bestMaster t with
    | none => some r
    | some b => if lexLt (announceKey b) (announceKey r) then some b else some r

/-- The clock identity that the module's address gives (EUI-48 to EUI-64; log entry 35). -/
def State.ownClockId (s : State) : Nat :=
  let m := s.get R.NET_MAC_MAC
  m % 2 ^ 24 + 0xFFFE * 2 ^ 24 + m / 2 ^ 24 * 2 ^ 40

/-- clockClass as announced (R335). -/
def State.ownClass (s : State) : Nat := if s.on R.PTP_STAT_HOLD then 7 else s.get R.PTP_CFG_CLASS

/-- The module's own data set. -/
def State.ownKey (s : State) : List Nat :=
  [s.get R.PTP_CFG_PRIO1, s.get R.PTP_CFG_CLASS, 0xFE, 0xFFFF, s.get R.PTP_CFG_PRIO2, s.ownClockId, 0, 0]

/-- AUTO becomes master (R327, R332): HOLDOVER clears, or holds until a pin's time has been met (R335). -/
def State.becomeMaster (s : State) : State :=
  if s.get R.PTP_STAT_RSTATE = 1 then s
  else
    let s := ((s.set R.PTP_STAT_RSTATE 1).set R.PTP_STAT_LOCK 0).modTime fun t => { t with master := none, cleared := false, lockRun := 0 }
    if s.pinTime then s.enterHold else s.leaveHold

/-- A master selected: a new grandmaster identity or a change of receiving port clears LOCK (R333). -/
def State.follow (s : State) (r : AnnounceRec) : State :=
  let other := s.get R.PTP_GMID_GMID != r.gmId % 2 ^ 64 || s.get R.PTP_STAT_RXPORT != r.port.val || s.time.master.isNone
  let was := s.get R.PTP_STAT_RSTATE
  let s := (s.set R.PTP_STAT_RSTATE 0).modTime fun t => { t with master := some r.source }
  let s := (s.set R.PTP_GMID_GMID r.gmId).set R.PTP_STAT_RXPORT r.port.val
  if other || was == 1 then s.loseLock else s

/-- The choice of a master made again (R327, R328). -/
def State.chooseMaster (s : State) : State :=
  if s.role == 1 || s.role == 3 then s
  else
    let may := s.time.heard.filter fun r => s.get R.NET_CFG_PMODE == 0 || r.port.val == s.get R.NET_FOSTAT_ACTIVE
    match bestMaster may with
    | none =>
      if s.role == 2 && s.get R.PTP_STAT_RSTATE != 2 then s.becomeMaster
      else s.modTime fun t => { t with master := none }
    | some r => if s.role == 2 && lexLt s.ownKey (announceKey r) then s.becomeMaster else s.follow r

/-- The masters heard on a port forgotten: its link is down or its Announce timed out (R328, R333). -/
def State.forgetMasters (s : State) (p : Nat) : State :=
  let lost := s.clock.running && s.time.master.isSome && s.get R.PTP_STAT_RXPORT == p && !s.isMaster
  let s := s.modTime fun t => { t with heard := t.heard.filter fun r => r.port.val != p }
  if lost then (s.modTime fun t => { t with master := none }).loseLock.chooseMaster else s

end Sys2Proof.Machine
end

