-- ==== Sys2Proof/Machine/Net.lean ====
section
/-!
DEFINITION. Machine/Net.lean: ports, switch, egress queues, flow control, port redundancy and timed launch (R302 to R321, R329, R342, R343).
-/

namespace Sys2Proof.Machine

def State.modPort (s : State) (p : Fin 3) (f : PortDyn → PortDyn) : State :=
  { s with net := { s.net with ports := s.net.ports.set p (f s.net.ports[p]) } }

/-- An external port among the three. -/
def extPort (p : Fin 2) : Fin 3 := ⟨p.val, by omega⟩

/-- A port by number. -/
def portOf (p : Nat) : Fin 3 := ⟨p % 3, by omega⟩

/-- Whether the switch works: its domain on, and not in INTAKE before step 10 (R320). -/
def State.netRuns (s : State) : Bool := s.domOn 3 && (s.dev != 0 || s.boot.starting)

/-- Whether a port carries frames: an external one while its link is up. -/
def State.portUp (s : State) (p : Fin 3) : Bool := s.netRuns && (p == 2 || s.on (R.NET_PSTAT_LINK p))

/-- Cells of a frame (R305). -/
def cellsOf (length : Nat) : Nat := (length + 255) / 256

/-- Ingress cells of a port (R306). -/
def State.ingressLimit (s : State) (p : Fin 3) : Nat := if p = 2 then 2048 else s.get R.NET_FOSTAT_CELLS

/-- Ingress cells in use, in all or of one class. -/
def PortDyn.used (x : PortDyn) (cls : Option Nat) : Nat :=
  x.ingress.foldl (fun n i => match cls with | none => n + i.cells | some c => if i.cls = c then n + i.cells else n) 0

/-- Queue of a priority (NET_PRIMAP.MAP). -/
def State.queueOf (s : State) (pcp : Nat) : Nat := bitsOf (s.get ⟨R.NET_PRIMAP_MAP0.addr, 0, 16, 0xFA51⟩) (2 * (pcp % 8)) 2

/-! Flow control sent (R314, R315). -/

/-- XOFF and XON thresholds of a class in cells. -/
def State.classTh (s : State) (p q : Nat) : Nat × Nat :=
  let w := s.get (match q with
    | 0 => R.NET_PFCTH_XOFF0 p | 1 => R.NET_PFCTH_XOFF1 p | 2 => R.NET_PFCTH_XOFF2 p | _ => R.NET_PFCTH_XOFF3 p)
  let v := s.get (match q with
    | 0 => R.NET_PFCTH_XON0 p | 1 => R.NET_PFCTH_XON1 p | 2 => R.NET_PFCTH_XON2 p | _ => R.NET_PFCTH_XON3 p)
  (16 * w, 16 * v)

/-- Priorities that PFCEN enables and MAP places in a class. -/
def State.classPrios (s : State) (p q : Nat) : Nat :=
  (upto 8).foldl (fun m i => if s.bitOf (R.NET_PCFG_PFCEN p) i && s.queueOf i == q then m + 2 ^ i else m) 0

/-- The PFC frame for the classes whose state a list gives anew: its priorities with QUANTA in XOFF, else 0. -/
def State.pfcFrame (s : State) (p : Nat) (cls : List (Nat × Bool)) : OwnMsg :=
  let quanta := (upto 8).map fun i =>
    if cls.any (fun c => c.2 && bit (s.classPrios p c.1) i == 1) then s.get (R.NET_FCTH_QUANTA p) else 0
  .pause true (cls.foldl (fun m c => m ||| s.classPrios p c.1) 0) quanta

/-- The cell counts of a port compared with its thresholds (R314, R315): a PAUSE or PFC frame where a state changes. -/
def State.checkFlow (s : State) (p : Fin 3) : State :=
  if p = 2 then s else
  let x := s.net.ports[p]
  match s.get (R.NET_PCFG_FC p) with
  | 1 =>
    let n := x.used none
    let asserted := s.on (R.NET_PSTAT_XOFF p)
    if !asserted && s.get (R.NET_FCTH_XOFF p) < n then
      (s.set (R.NET_PSTAT_XOFF p) 1).modPort p fun x => { x with control := x.control ++ [.pause false 0 [s.get (R.NET_FCTH_QUANTA p)]] }
    else if asserted && n ≤ s.get (R.NET_FCTH_XON p) then
      (s.set (R.NET_PSTAT_XOFF p) 0).modPort p fun x => { x with control := x.control ++ [.pause false 0 [0]] }
    else s
  | 2 =>
    let changes := (upto 4).filterMap fun q =>
      let th := s.classTh p q
      let n := x.used (some q)
      let on := nthD x.xoff q false
      if !on && th.1 < n then some (q, true) else if on && n ≤ th.2 then some (q, false) else none
    if changes.isEmpty then s
    else
      let s := s.modPort p fun x =>
        { x with xoff := changes.foldl (fun l c => setNth l c.1 c.2) x.xoff, control := x.control ++ [s.pfcFrame p changes] }
      let x := s.net.ports[p]
      s.set (R.NET_PSTAT_PFCSENT p) ((upto 4).foldl (fun m q => if nthD x.xoff q false then m ||| s.classPrios p q else m) 0)
  | _ => s

/-! Egress (R310 to R312). -/

/-- The quota of an egress queue (NET_EQp); the internal port's cells serve as one quota. -/
def State.quota (s : State) (p : Fin 3) (q : Nat) : Nat :=
  if p = 2 then 2048
  else match q with
    | 0 => s.get (R.NET_EQ_QUOTA0 p)
    | 1 => s.get (R.NET_EQ_QUOTA1 p)
    | 2 => s.get (R.NET_EQ_QUOTA2 p)
    | _ => s.get (R.NET_EQ_QUOTA3 p)

/-- Cells of a queue. -/
def queueCells (l : List QFrame) : Nat := l.foldl (fun n f => n + cellsOf f.length) 0

/-- A frame appended to an egress queue. -/
def PortDyn.put (x : PortDyn) (q : Nat) (f : QFrame) : PortDyn := { x with queues := setNth x.queues q (nthD x.queues q [] ++ [f]) }

/-- Whether a frame of some cells fits a queue (R312). -/
def State.fits (s : State) (p : Fin 3) (q length : Nat) : Bool :=
  queueCells (nthD s.net.ports[p].queues q []) + cellsOf length ≤ s.quota p q

/-- Bytes of an own frame: Ethernet header, tag and FCS, IPv4 and UDP headers of a session over UDP, the header of Table HPR.1, the body and
the authentication tag; at least 64. -/
def State.ownLength (s : State) (m : OwnMsg) : Nat :=
  let eth := 18 + (if s.on R.NET_PRIMAP_TAGOWN then 4 else 0)
  let sess := fun i : Nat =>
    16 + (match s.host.sessions[i]? with | some x => if x.udp then 28 else 0 | none => 0) + (if s.on R.NET_HPCFG1_AUTH then 16 else 0)
  let n := match m with
    | .reply _ i _ _ _ d => eth + sess i + d.length
    | .notice i n => eth + sess i + 16 + n.detail.length
    | .depart _ => eth + 16 + 17
    | .portMove _ => eth + 16 + 17
    | .ptp _ b => eth + 34 + b.length
    | .arpReply _ => eth + 28
    | .pause _ _ _ => 64
    | .report i _ _ ws => eth + sess i + 8 + 8 * ws.length
    | .acq i _ b => eth + sess i + b.length
  if n < 64 then 64 else n

/-- Own frames that wait, placed in the queues of their ports in order as far as each queue has room (R312); a queue that has none holds
no other queue. -/
def State.admitFrom (s : State) (blocked : List (Nat × Nat)) : List (Nat × Nat × OwnMsg) → State
  | [] => s
  | (p, q, m) :: t =>
    let n := s.ownLength m
    if !blocked.contains (p, q) && s.fits (portOf p) q n then
      let f : QFrame := ⟨none, n, s.on R.SYS_STATE_HOLDOVER, .own m⟩
      (s.modPort (portOf p) fun x => x.put q f).admitFrom blocked t
    else { (s.admitFrom ((p, q) :: blocked) t) with outbox := (p, q, m) :: (s.admitFrom ((p, q) :: blocked) t).outbox }

def State.modAcq (s : State) (f : AcqDyn → AcqDyn) : State := { s with acq := f s.acq }

/-- The open session that receives the acquisition stream, with its port (R369). -/
def State.acqSession (s : State) : Option (Nat × Nat) :=
  let i := s.get R.ACQ_CTL_SESS
  match s.host.sessions[i]? with
  | some x => if i != 0 && x.isOpen then some (i, s.outPort x.port) else none
  | none => none

/-- A record of the acquisition stream put into a queue, if it fits and no other own frame waits for that queue (R311, R312). -/
def State.acqPut (s : State) (q : Nat) (body : List Nat) : Option State :=
  match s.acqSession with
  | none => none
  | some (i, p) =>
    let m := OwnMsg.acq i s.acq.seq body
    let n := s.ownLength m
    if s.outbox.any (fun x => x.1 == p && x.2.1 == q) || !s.fits (portOf p) q n then none
    else
      let f : QFrame := ⟨none, n, s.on R.SYS_STATE_HOLDOVER, .own m⟩
      some ((s.modPort (portOf p) fun x => x.put q f).modAcq fun a => { a with seq := (a.seq + 1) % 2 ^ 32 })

/-- The acquisition banks: first address and size in bytes (R76). -/
def State.acqRing (s : State) : Nat × Nat :=
  let l := (upto 48).filter fun b => nthD s.arc.banks b 0 == 2
  (0x10000000 + nthD l 0 0 * 0x80000, l.length * 0x80000)

/-- A pending GAP as a record (Table ACQ.1). -/
def State.gapRecord (s : State) (c : Nat) (g : GapDyn) : List Nat :=
  let r := s.acqRing
  let raddr := match g.blocks.filter fun b => s.acq.wpos - b ≤ r.2 with
    | b :: _ => r.1 + b % r.2
    | [] => 0
  leBytes 8 (2 + c * 2 ^ 8 + s.get R.SYS_STATE_HOLDOVER * 2 ^ 11 + g.cause * 2 ^ 16) ++ leBytes 8 g.first
    ++ leBytes 8 (g.lost % 2 ^ 32) ++ leBytes 8 raddr

/-- The pending GAP of a clock sent, if it fits (R368). -/
def State.offerGap (s : State) (c : Nat) : State :=
  let k := nthD s.acq.clocks c AcqClock.reset
  match k.gap with
  | none => s
  | some g =>
    match s.acqPut 0 (s.gapRecord c g) with
    | none => s
    | some s => (s.bump R.ACQ_STAT_GAPS).modAcq fun a => { a with clocks := setNth a.clocks c { k with gap := none } }

/-- Queued marks sent in order as far as Q3 has room (R372). -/
def State.sendMarks (s : State) : List (List Nat) → State
  | [] => s
  | m :: t =>
    match s.acqPut 3 m with
    | none => s
    | some s => (((s.bump R.ACQ_CNT_MARKS).modAcq fun a => { a with marks := t }).set R.ACQ_TSTAT_MQ t.length).sendMarks t

/-- What the acquisition engine holds back leaves as room comes: GAPs in Q0, marks in Q3 (R368, R372); without a session no GAP is kept
(R369). -/
def State.acqDrain (s : State) : State :=
  match s.acqSession with
  | none => s.modAcq fun a => { a with clocks := a.clocks.map fun k => { k with gap := none } }
  | some _ => ([0, 1, 2, 3].foldl (fun s c => s.offerGap c) s).sendMarks s.acq.marks

/-- Waiting own frames admitted to their queues. -/
def State.admitFrame (s : State) : State :=
  let l := s.outbox
  ({ s with outbox := [] }.admitFrom [] l).acqDrain

/-- One egress copy of an ingress frame gone: its cells are freed with the last (R314). -/
def State.releaseIngress (s : State) (held : Option (Nat × Nat)) : State :=
  match held with
  | none => s
  | some (p, id) =>
    let s := s.modPort (portOf p) fun x =>
      { x with ingress := (x.ingress.map fun i => if i.id == id then { i with copies := i.copies - 1 } else i).filter fun i => 0 < i.copies }
    s.checkFlow (portOf p)

/-! Switching (R305 to R310, R318, R319). -/

/-- The port on which an address was learned. -/
def State.learned (s : State) (mac : Nat) : Option Nat := (s.net.learn.find? fun e => e.1 == mac).map (·.2)

/-- A source address recorded or moved (R309); a full table learns none and sets TBLFULL. -/
def State.learnFrom (s : State) (mac : Nat) (p : Fin 3) : State :=
  if !s.on R.NET_CFG_LEARN || p = 2 then s
  else if (s.learned mac).isSome then
    { s with net := { s.net with learn := s.net.learn.map fun e => if e.1 == mac then (mac, p.val) else e } }
  else if s.net.learn.length ≥ 1024 then s.set R.NET_FOSTAT_TBLFULL 1
  else
    let s := { s with net := { s.net with learn := s.net.learn ++ [(mac, p.val)] } }
    s.set R.NET_FOSTAT_LEARNED s.net.learn.length

/-- The VLAN entry of a VID: MEMBER and UNTAG, or none (R310). -/
def State.vlanOf (s : State) (vid : Nat) : Option (Nat × Nat) :=
  (upto 64).findSome? fun k =>
    if s.on (R.NET_VLAN_VALID k) && s.get (R.NET_VLAN_VID k) == vid then some (s.get (R.NET_VLAN_MEMBER k), s.get (R.NET_VLAN_UNTAG k))
    else none

/-- The VID of a frame on its ingress port (R310). -/
def State.vidOf (s : State) (p : Fin 3) (f : Frame) : Nat :=
  if f.tagged && f.vid != 0 then f.vid else if p = 2 then s.get R.NET_PRIMAP_OWNVID else s.get (R.NET_PCFG_PVID p)

/-- The priority of a frame (R310). -/
def State.prioOf (s : State) (p : Fin 3) (f : Frame) : Nat :=
  if f.tagged then f.pcp else if p = 2 then 0 else s.get (R.NET_PCFG_DEFPCP p)

/-- Destinations by Table NET.3: forwarded to ports, consumed by the time engine too, discarded, or discarded and counted in RXERR. -/
inductive Route where
  | ports (l : List Nat)
  | time (l : List Nat)
  | drop
  | dropErr
deriving DecidableEq, Repr

/-- The other external port, where the switch bridges (R318, R319). -/
def State.across (s : State) (p : Fin 3) : List Nat :=
  if s.get R.NET_CFG_PMODE = 0 ∧ p.val < 2 then [1 - p.val] else []

/-- Whether the internal port accepts a frame (R308). -/
def State.internalTakes (f : Frame) : Bool := f.kind == .hostProtocol || f.kind == .udpHost || f.kind == .hostBroken || f.kind == .arp

/-- Whether a PTP message is forwarded (R329): peer-delay messages in P2P are answered per port and never forwarded. -/
def State.ptpForwards (s : State) (f : Frame) : Bool :=
  !(f.kind == .ptpPeer && (s.on R.PTP_CFG_P2P || s.on R.PTP_CFG_PROF))

/-- Table NET.3 for a frame received on an external port. -/
def State.route (s : State) (p : Fin 3) (f : Frame) : Route :=
  let ptp := f.kind == .ptpSync || f.kind == .ptpDelayReq || f.kind == .ptpPeer || f.kind == .ptpGeneral
  if f.etherType = 0x8808 ∨ f.dst = 0x0180C2000001 then .ports []
  else if 0x0180C2000000 ≤ f.dst ∧ f.dst ≤ 0x0180C200000F ∧ f.dst ≠ 0x0180C200000E then .drop
  else if ptp then .time (if s.ptpForwards f then s.across p else [])
  else if f.dst = s.get R.NET_MAC_MAC then (if State.internalTakes f then .ports [2] else .dropErr)
  else if f.dst = 2 ^ 48 - 1 then .ports ((if State.internalTakes f then [2] else []) ++ s.across p)
  else if f.dst / 2 ^ 40 % 2 = 1 then .ports (s.across p)
  else match s.learned f.dst with
    | some q => if q = p.val then .drop else .ports (s.across p)
    | none => .ports (s.across p)

/-- The length of a frame as it leaves a port: the tag added or removed (R310). -/
def State.leaves (s : State) (p : Fin 3) (f : Frame) (out : Nat) : Frame :=
  if !s.on R.NET_CFG_VLANEN then f
  else
    let vid := s.vidOf p f
    let un := match s.vlanOf vid with | some (_, u) => bit u out == 1 | none => false
    if un then { f with tagged := false, length := if f.tagged then f.length - 4 else f.length }
    else { f with tagged := true, vid := vid, pcp := s.prioOf p f, length := if f.tagged then f.length else f.length + 4 }

/-- A stored frame handed to its egress queues; a copy that does not fit is discarded and counted (R312). -/
def State.forward (s : State) (p : Fin 3) (id : Nat) (f : Frame) (q : Nat) (outs : List Nat) : State :=
  let s := s.each outs fun s o =>
    let g := s.leaves p f o
    if s.fits (portOf o) q g.length then
      let s := s.modPort p fun x => { x with ingress := x.ingress.map fun i => if i.id == id then { i with copies := i.copies + 1 } else i }
      s.modPort (portOf o) fun x => x.put q ⟨some (p.val, id), g.length, false, .fwd g⟩
    else if o < 2 then s.bump (R.NET_PCNT2_EQDROP o) else s
  s.modPort p fun x => { x with ingress := x.ingress.filter fun i => i.id != id || 0 < i.copies }

/-- A received frame checked, stored and forwarded or discarded (R305, R307 to R310); one for the host-protocol engine that fails R345 or R346
is counted. -/
def State.receive (s : State) (p : Fin 3) (f : Frame) : State :=
  if p.val = 2 then s
  else if !f.fcsOk || f.codeError || f.length < 64 then s.bump (R.NET_PCNT1_RXERR p)
  else if s.get (R.NET_PCFG_MAXFRM p) < f.length then s.bump (R.NET_PCNT1_OVERSIZE p)
  else if s.ingressLimit p < s.net.ports[p].used none + cellsOf f.length then s.bump (R.NET_PCNT1_RXOVF p)
  else
    let q := s.queueOf (s.prioOf p f)
    let id := s.net.nextId
    let s := (s.bump (R.NET_PCNT0_RXFRM p)).learnFrom f.src p
    let s := { s with net := { s.net with nextId := id + 1 } }
    let s := (s.modPort p fun x => { x with ingress := x.ingress ++ [⟨id, cellsOf f.length, q, 0⟩] }).checkFlow p
    let vlan := s.vlanOf (s.vidOf p f)
    let member := fun o : Nat =>
      !s.on R.NET_CFG_VLANEN || (match vlan with | some (m, _) => bit m p.val == 1 && bit m o == 1 | none => false)
    let s := match s.route p f with
      | .drop => s.forward p id f q []
      | .dropErr => (s.bump (R.NET_PCNT1_RXERR p)).forward p id f q []
      | .time outs => s.forward p id f 3 outs
      | .ports outs =>
        let ok := outs.filter member
        let s := if ok.isEmpty && !outs.isEmpty then s.bump (R.NET_PCNT1_VLANDROP p) else s
        let s := if f.kind == FrameKind.hostBroken && ok.contains 2 then s.bump R.NET_HPSTAT_BADFRM else s
        s.forward p id f q ok
    s.checkFlow p

/-- FRAME_RECEIVED (R305): on an external port a frame from the wire; on the internal port the module's own waiting frames enter their
queues. -/
def execFrameReceived (p : Fin 3) (f : Frame) (s : State) : Out :=
  if !s.portUp p then .next s else .next (s.admitFrame.receive p f)

/-! Transmission (R311, R329, R342). -/

/-- Whether a received PAUSE or PFC holds a queue of a port (R316). -/
def State.held (s : State) (p : Fin 3) (q : Nat) : Bool :=
  p.val < 2 && (s.on (R.NET_PSTAT_PAUSED p) || (upto 8).any fun i => s.bitOf (R.NET_PSTAT_PFCHELD p) i && s.queueOf i == q)

/-- Time on the wire of a frame with its preamble and gap, in 2^−32 ns, by NET_PSTATp.SPEED. -/
def wireTime (speed length : Nat) : Nat :=
  let bits := (length + 20) * 8
  match speed with
  | 1 => bits * 100 * nsUnit
  | 2 => bits * 10 * nsUnit
  | 3 => bits * nsUnit
  | 4 => bits * nsUnit * 2 / 5
  | 5 => bits * nsUnit / 10
  | _ => 0

/-- Whether a frame may start without reaching into the head descriptor's launch (R342). -/
def State.clearOfLaunch (s : State) (p : Fin 3) (length : Nat) : Bool :=
  match s.net.ports[p].launch with
  | [] => true
  | l :: _ => s.clock.now + wireTime (s.get (R.NET_PSTAT_SPEED p)) length ≤ l.time

/-- Picoseconds as 2^−16 ns. -/
def psStamp (ps : Int) : Int := ps * 65536 / 1000

/-- The ingress timestamp of a frame at its reference plane (R326). -/
def State.rxTime (s : State) (p : Nat) (stamp : Int) : Int := stamp - psStamp (s.get (R.PTP_PORT_RXOFS p))

/-- The egress timestamp of a frame at its reference plane (R326). -/
def State.txTime (s : State) (p : Nat) (stamp : Int) : Int := stamp + psStamp (s.get (R.PTP_PORT_TXOFS p))

/-- The transparent clock's change to a forwarded PTP message as it leaves (R329): with PROF the residence of a Sync is carried into the
general message that follows, scaled by rateRatio. The state and the frame as it leaves. -/
def State.correct (s : State) (p : Fin 3) (stamp : Int) (f : Frame) (from_ : Nat) : State × Frame :=
  if !s.on R.PTP_CFG_TCEN && !s.on R.PTP_CFG_PROF then (s, f)
  else
    let res := s.txTime p.val stamp - s.rxTime from_ f.stamp
    let link : Int := nthD s.time.delay from_ 0
    let ratio := (nthD s.time.relay from_ (0, 0)).2
    if s.on R.PTP_CFG_PROF then
      match f.kind with
      | .ptpSync => (s.modTime fun t => { t with relay := setNth t.relay from_ (res + link, ratio) }, f)
      | .ptpGeneral =>
        let r := (nthD s.time.relay from_ (0, 0)).1
        (s.modTime fun t => { t with relay := setNth t.relay from_ (0, ratio) }, { f with correction := f.correction + r + r * ratio / 2 ^ 41 })
      | _ => (s, f)
    else
      match f.kind with
      | .ptpSync => (s, { f with correction := f.correction + res + if s.on R.PTP_CFG_P2P then link else 0 })
      | .ptpDelayReq => (s, if s.on R.PTP_CFG_P2P then f else { f with correction := f.correction + res })
      | .ptpPeer => (s, { f with correction := f.correction + res })
      | _ => (s, f)

/-- The highest queue that holds a frame and is not held. -/
def State.nextQueue (s : State) (p : Fin 3) : Option (Nat × QFrame) :=
  [3, 2, 1, 0].findSome? fun q =>
    if s.held p q then none
    else match nthD s.net.ports[p].queues q [] with | f :: _ => some (q, f) | [] => none

/-- FRAME_TRANSMIT_START (R311): MAC control frames first, then the head of the highest queue not held; `stamp` is the egress timestamp. -/
def execFrameTransmitStart (p : Fin 3) (stamp : Stamp) (s : State) : Out :=
  if !s.portUp p || s.net.ports[p].sending.isSome then .next s else
  let s := s.admitFrame
  match s.net.ports[p].control with
  | m :: t =>
    if !s.clearOfLaunch p 64 then .next s
    else .next ((s.bump (R.NET_PCNT2_PAUSETX p)).modPort p fun x => { x with control := t, sending := some ⟨none, 64, false, .own m⟩ })
  | [] =>
    match s.nextQueue p with
    | none => .next s
    | some (q, f) =>
      if !s.clearOfLaunch p f.length then .next s
      else
        let s := s.modPort p fun x => { x with queues := setNth x.queues q ((nthD x.queues q []).drop 1) }
        let (s, f) := match f.body, f.held with
          | .fwd g, some (i, _) => let (s, g) := s.correct p stamp g i; (s, { f with body := FrameBody.fwd g })
          | _, _ => (s, f)
        .next (s.modPort p fun x => { x with sending := some f })

/-- FRAME_TRANSMITTED (R311): the frame is gone, its cells are freed. -/
def execFrameTransmitted (p : Fin 3) (s : State) : Out :=
  match s.net.ports[p].sending with
  | none => .next s
  | some f =>
    let s := s.modPort p fun x => { x with sending := none }
    let s := match f.body with
      | .own (.pause _ _ _) => s
      | _ => if p.val < 2 then s.bump (R.NET_PCNT0_TXFRM p) else s
    .next ((s.releaseIngress f.held).admitFrame)

/-! Flow control received and repeated (R314, R316). -/

/-- PAUSE_REFRESH (R314): half of QUANTA has passed above XON and the frame is repeated. -/
def execPauseRefresh (p : Fin 2) (s : State) : Out :=
  let q := extPort p
  let x := s.net.ports[q]
  let add := fun m : OwnMsg => s.modPort q fun x => { x with control := x.control ++ [m] }
  if !s.portUp q then .next s
  else if s.get (R.NET_PCFG_FC p) = 1 ∧ s.on (R.NET_PSTAT_XOFF p) then
    .next (add (.pause false 0 [s.get (R.NET_FCTH_QUANTA p)]))
  else
    let cls := (upto 4).filterMap fun c => if nthD x.xoff c false then some (c, true) else none
    if s.get (R.NET_PCFG_FC p) = 2 ∧ !cls.isEmpty then .next (add (s.pfcFrame p cls)) else .next s

/-- PAUSE_RECEIVED (R316): with RXPAUSE the hold is replaced by the new quanta, 0 ending it; else the frame is only counted. -/
def execPauseReceived (p : Fin 2) (r : PauseRec) (s : State) : Out :=
  let q := extPort p
  if !s.portUp q then .next s else
  let s := (s.bump (R.NET_PCNT2_PAUSERX p)).bump (R.NET_PCNT0_RXFRM p)
  if !s.on (R.NET_PCFG_RXPAUSE p) then .next s
  else if r.pfc then
    let named := fun i : Nat => bit r.enable i == 1
    let s := s.modPort q fun x =>
      { x with pfcQuanta := (upto 8).map fun i => if named i then nthD r.quanta i 0 else nthD x.pfcQuanta i 0 }
    let l := s.net.ports[q].pfcQuanta
    .next (s.set (R.NET_PSTAT_PFCHELD p) ((upto 8).foldl (fun m i => if nthD l i 0 != 0 then m + 2 ^ i else m) 0))
  else
    let n := nthD r.quanta 0 0
    .next ((s.modPort q fun x => { x with pauseQuanta := n }).setB (R.NET_PSTAT_PAUSED p) (n != 0))

/-- PAUSE_HOLD_EXPIRY (R316): the hold of a queue runs out: a PAUSE for all four queues, a PFC for the priorities of the queue. -/
def execPauseHoldExpiry (p : Fin 2) (q : Fin 4) (s : State) : Out :=
  let k := extPort p
  let s := (s.modPort k fun x =>
    { x with pauseQuanta := 0, pfcQuanta := (upto 8).map fun i => if s.queueOf i == q.val then 0 else nthD x.pfcQuanta i 0 })
  let s := s.set (R.NET_PSTAT_PAUSED p) 0
  let l := s.net.ports[k].pfcQuanta
  .next (s.set (R.NET_PSTAT_PFCHELD p) ((upto 8).foldl (fun m i => if nthD l i 0 != 0 then m + 2 ^ i else m) 0))

/-! Links and the active port (R304, R319). -/

/-- The active port changed (R319): counted, and one PORTMOVE notice on the new port. -/
def State.moveActive (s : State) (p : Nat) : State :=
  ((s.set R.NET_FOSTAT_ACTIVE p).bump R.NET_FOSTAT_FOCNT).send p 2 (.portMove p)

/-- LINK_UP (R304): in FAILOVER without a link the port becomes active (R319). -/
def execLinkUp (p : Fin 2) (speed : Nat) (pauseOk : Bool) (s : State) : Out :=
  if !s.netRuns || s.on (R.NET_PSTAT_LINK p) || (if s.boot.recovery then p != 0 else s.get (R.NET_PCFG_MODE p) == 0) then .next s else
  let first := !s.on (R.NET_PSTAT_LINK (1 - p.val))
  let s := ((s.set (R.NET_PSTAT_LINK p) 1).set (R.NET_PSTAT_SYNC p) 1).set (R.NET_PSTAT_SPEED p) speed
  let s := (s.setB (R.NET_PSTAT_PPAUSE p) pauseOk).set R.NET_FOSTAT_NOLINK 0
  .next (if s.get R.NET_CFG_PMODE = 1 ∧ first then s.set R.NET_FOSTAT_ACTIVE p else s)

/-- Frames of a port lost with its link (R304): the one in transmission and every queued one, counted; pause states cleared. -/
def State.dropPort (s : State) (p : Fin 3) : State :=
  let x := s.net.ports[p]
  let queued := x.queues.flatMap id
  let s := s.modPort p fun x => { x with queues := [[], [], [], []], sending := none, control := [], xoff := [false, false, false, false],
                                         pauseQuanta := 0, pfcQuanta := [0, 0, 0, 0, 0, 0, 0, 0] }
  let s := s.bumpBy (R.NET_PCNT2_EQDROP p) queued.length
  let s := s.each (queued ++ x.sending.toList) fun s f => s.releaseIngress f.held
  ((s.set (R.NET_PSTAT_PAUSED p) 0).set (R.NET_PSTAT_PFCHELD p) 0).set (R.NET_PSTAT_XOFF p) 0 |>.set (R.NET_PSTAT_PFCSENT p) 0

/-- LINK_DOWN (R304): in FAILOVER the other port, if up, becomes active with F1 (R319); its master is lost (R333). -/
def execLinkDown (p : Fin 2) (s : State) : Out :=
  if !s.on (R.NET_PSTAT_LINK p) then .next s else
  let s := s.admitFrame.dropPort (extPort p)
  let s := ((s.set (R.NET_PSTAT_LINK p) 0).set (R.NET_PSTAT_SYNC p) 0).set (R.NET_PSTAT_SPEED p) 0
  let s := ((s.set (R.NET_PSTAT_PPAUSE p) 0).set (R.NET_PSTAT_LDOWN p) 1).raiseMod 0x0C03 0 p.val
  let other := 1 - p.val
  let s :=
    if s.on (R.NET_PSTAT_LINK other) then
      if s.get R.NET_CFG_PMODE = 1 ∧ s.get R.NET_FOSTAT_ACTIVE = p.val then (s.moveActive other).raiseMod 0x0C01 1 p.val else s
    else s.set R.NET_FOSTAT_NOLINK 1
  .next (s.forgetMasters p.val)

/-- FAILOVER_REVERT (R319): 1 s after PREF's link came up the module returns to it. -/
def execFailoverRevert (s : State) : Out :=
  let p := s.get R.NET_CFG_PREF
  if s.get R.NET_CFG_PMODE = 1 ∧ s.on R.NET_CFG_REVERT ∧ s.on (R.NET_PSTAT_LINK p) ∧ s.get R.NET_FOSTAT_ACTIVE ≠ p then
    .next ((s.moveActive p).chooseMaster)
  else .next s

/-- SWITCH (R319): the other port active if its link is up; else nothing and an F0 notice. -/
def State.switchPort (s : State) : State :=
  let p := 1 - s.get R.NET_FOSTAT_ACTIVE
  if s.get R.NET_CFG_PMODE = 1 ∧ s.on (R.NET_PSTAT_LINK p) then (s.moveActive p).chooseMaster else s.raiseMod 0x0C02 0

def execSwitch (s : State) : Out := .next s.switchPort

/-- LEARN_AGEOUT (R309): an entry not refreshed within AGE goes; AGE 0 keeps it. -/
def execLearnAgeout (mac : Nat) (s : State) : Out :=
  if s.get R.NET_CFG_AGE = 0 then .next s
  else
    let s := { s with net := { s.net with learn := s.net.learn.filter fun e => e.1 != mac } }
    .next (s.set R.NET_FOSTAT_LEARNED s.net.learn.length)

/-- FLUSH (R309): the learning table emptied. -/
def State.flushTable (s : State) : State := { s with net := { s.net with learn := [] } }.set R.NET_FOSTAT_LEARNED 0

def execFlush (s : State) : Out := .next s.flushTable

/-- ARP_REQUEST (R308): a request for the module's IPv4 address is answered as RFC 826 sets out. -/
def execArpRequest (p : Fin 3) (f : Frame) (target : Nat) (s : State) : Out :=
  if !s.portUp p || p = 2 then .next s else
  let ip := s.get R.NET_HPCFG0_IPV4
  let s := s.admitFrame.receive p f
  if ip != 0 && target == ip && f.kind == .arp then .next (s.send (s.outPort p.val) 2 (.arpReply f.src)) else .next s

/-! Timed launch (R342, R343). -/

/-- A descriptor placed by launch time, ties in order of entry. -/
def launchIn (d : LaunchDyn) : List LaunchDyn → List LaunchDyn
  | [] => [d]
  | x :: t => if d.time < x.time then d :: x :: t else x :: launchIn d t

/-- A descriptor offered to a port's launch queue of 64; a full one refuses it (R343). -/
def State.offerLaunch (s : State) (p : Fin 3) (d : LaunchDyn) : State :=
  if s.net.ports[p].launch.length ≥ 64 then s.bump R.PTP_CNT_LQFULL
  else s.modPort p fun x => { x with launch := launchIn d x.launch }

/-- LAUNCH (R342, R343): the head's launch time is reached. Late where a received pause holds it or its time passed by more than 1 µs:
counted once, then discarded with DROPLATE, else sent when the hold ends or at once. -/
def execLaunch (p : Fin 2) (s : State) : Out :=
  let k := extPort p
  match s.net.ports[k].launch with
  | [] => .next s
  | d :: t =>
    if !s.portUp k then .next s else
    let s := s.clockTo d.time
    let held := s.held k 2
    let late := held || d.time + 1000 * nsUnit < s.clock.now
    let s := if late && !d.counted then (s.bump R.PTP_CNT_LLATE).bump (R.NET_PCNT2_TXLATE p) else s
    if late && d.dropLate then .next (s.modPort k fun x => { x with launch := t })
    else if held || s.net.ports[k].sending.isSome then
      .next (s.modPort k fun x => { x with launch := { d with counted := d.counted || late } :: t })
    else
      .next (s.modPort k fun x =>
        { x with launch := t, sending := some ⟨none, s.ownLength d.msg, s.on R.SYS_STATE_HOLDOVER, .own d.msg⟩ })

end Sys2Proof.Machine
end

