-- ==== Sys2Proof/Machine/RegTable.lean ====
section
/-!
DEFINITION. Machine/RegTable.lean: the register table: for each register its name, its place and its fields with access, update
class, owning cycle or block and permitted values, as the register tables of the chapters give them (R3 to R10, R467, R473).
-/

namespace Sys2Proof.Machine

/-- The registers by name (Table MAP.3); indices are held apart. -/
inductive RegName where
  | SYS_ID 
  | SYS_DLSTAT 
  | SYS_STRAP 
  | PWR_STAT 
  | PWR_FEED 
  | PWR_CNT 
  | SYS_FMAC 
  | IMG_STAT 
  | IMG_CTRL 
  | IMG_UPD 
  | IMG_RGEN 
  | IMG_KEYH 
  | SYS_STATE 
  | SYS_CMD 
  | SYS_CFG 
  | SLC_MODE 
  | SLC_AXCMD 
  | SLC_AXST 
  | LC_CTRL 
  | LC_STAT 
  | LC_FAULT 
  | LC_ECC 
  | LC_DBG 
  | SCH_STAT 
  | SCH_TICK 
  | SCH_CNT 
  | SCH_LAST 
  | SCH_LIM 
  | SCH_HLTH 
  | SLC_ISCFG 
  | SLC_ISOFF 
  | SLC_ISCNT 
  | SLC_OCLIM 
  | SLC_OCSTAT 
  | SLC_COMM 
  | SLC_SLCFG0 
  | SLC_SLCFG1 
  | SLC_SLCFG2 
  | SLC_SLCMD 
  | SLC_SLOBS 
  | SLC_SLSTAT 
  | SLC_AOFS 
  | SLC_PWMCFG 
  | SLC_PWMLIM 
  | SLC_PWMUPD 
  | SLC_PWMSTAT 
  | SLC_PWMCNT 
  | SLC_PWMEFF0 
  | SLC_PWMEFF1 
  | SLC_SHD0 
  | SLC_SHD1 
  | SLC_SHD2 
  | BUS_GDCFG 
  | BUS_STAT 
  | BUS_MEAS 
  | BUS_CNT 
  | BUS_VLIM 
  | BUS_CLIM 
  | SLC_FBCFG 
  | SLC_FBSER 
  | SLC_FBIDX 
  | SLC_FBCMD 
  | SLC_FBSC 
  | SLC_FBPOS 
  | SLC_FBSPD 
  | SLC_FBSTAT 
  | SLC_FBCNT 
  | SLC_FBLIM 
  | SLC_LATCFG 
  | SLC_LATPOS 
  | SLC_LATTIM 
  | SLC_GAIN 
  | SLC_SERVO 
  | SLC_SVFE0 
  | SLC_SVFE1 
  | SLC_SVGROSS 
  | SLC_SVTRAV0 
  | SLC_SVTRAV1 
  | SLC_SVTRAV2 
  | SLC_SVSTOP 
  | SLC_SVSTILL 
  | SLC_SVCTL 
  | SLC_SVCMD0 
  | SLC_SVCMD1 
  | SLC_SVREF 
  | SLC_SVREFV 
  | SLC_SVSTAT 
  | SLC_SVCNT 
  | SLC_PRCFG 
  | SLC_PRCMD 
  | SLC_PRTGT 
  | SLC_PRSTAT 
  | SLC_PRPAR 
  | SLC_GRRAT 
  | SLC_GRCAM 
  | SLC_HMCFG 
  | SLC_HMPOS 
  | SLC_HMDIST 
  | SLC_STCFG 
  | SLC_STLIM 
  | SLC_STOBS 
  | GRP_CFG 
  | GRP_PAR 
  | GRP_LEAD 
  | GRP_OVR 
  | GRP_CMD 
  | GRP_STAT 
  | GRP_SS 
  | GRP_STTAB 
  | SLC_CHYCFG 
  | SLC_CHYRAT 
  | SLC_CHYSTAT 
  | NET_CFG 
  | NET_MAC 
  | NET_PRIMAP 
  | NET_CMD 
  | NET_FOSTAT 
  | NET_PCFG 
  | NET_PSTAT 
  | NET_FCTH 
  | NET_PFCTH 
  | NET_EQ 
  | NET_PCNT0 
  | NET_PCNT1 
  | NET_PCNT2 
  | NET_VLAN 
  | PTP_CFG 
  | PTP_SERVO 
  | PTP_SRC 
  | PTP_TIME0 
  | PTP_TIME1 
  | PTP_ADJ 
  | PTP_SETSEC 
  | PTP_RATE 
  | PTP_STAT 
  | PTP_OFFS 
  | PTP_GMID 
  | PTP_EPOCH0 
  | PTP_EPOCH1 
  | PTP_SIN 
  | PTP_SOUT 
  | PTP_CNT 
  | PTP_PORT 
  | PTP_CMP0 
  | PTP_CMP1 
  | PTP_CMP2 
  | PTP_CMP3 
  | NET_HPCFG0 
  | NET_HPCFG1 
  | NET_HPKEY 
  | NET_HPSTAT 
  | NET_HPCNT 
  | ACQ_CFG 
  | ACQ_CTL 
  | ACQ_CLK 
  | ACQ_TCMD 
  | ACQ_TSTAT 
  | ACQ_STAT 
  | ACQ_CNT 
  | ACQ_RING 
  | ACQ_CH 
  | ACQ_TS 
  | ACQ_TLV 
  | CAN_CFG 
  | CAN_NBT 
  | CAN_DBT 
  | CAN_STAT 
  | CAN_CNT 
  | CAN_TXREQ 
  | CAN_TXABT 
  | CAN_TXPEND 
  | CAN_TXDONE 
  | CAN_RXFULL 
  | CAN_RXPTR 
  | CAN_TTCFG 
  | CAN_TTM 
  | CAN_FLT 
  | FIO_OUT 
  | FIO_IN 
  | FIO_WD 
  | FIO_WDKICK 
  | FIO_SUP 
  | FIO_CMD 
  | FIO_TIM 
  | FIO_CFG 
  | FIO_CHST 
  | FIO_PWM 
  | SAF_CFG 
  | SAF_STAT 
  | SAF_CNT 
  | TWN_CFG 
  | TWN_STAT 
  | TWN_EPOCH 
  | TWN_GAP 
  | TWN_CNT 
  | PWR_PLVL 
  | PWR_SLEEP 
  | PWR_WCFG 
  | PWR_WSTAT 
  | PWR_RET 
  | THM_CFG 
  | THM_NTCMAP 
  | THM_STAT 
  | THM_MEAS 
  | THM_ZONE 
  | THM_SLC 
  | FLT_CFG 
  | FLT_STAT 
  | FLT_ACT 
  | FLT_CMD 
  | FLT_CNT 
  | FLT_LOG
deriving DecidableEq, Repr

/-- SYS_ID -/
def regRow_SYS_ID : RegRow RegName := ⟨.SYS_ID, 0, [], false, [
  ⟨0, 8, 160, .ro, .none, .none, .any⟩,
  ⟨16, 16, 0x1624, .ro, .none, .none, .any⟩,
  ⟨32, 16, 0xa01, .ro, .none, .none, .any⟩,
  ⟨48, 16, 165, .ro, .none, .none, .any⟩]⟩
/-- SYS_DLSTAT -/
def regRow_SYS_DLSTAT : RegRow RegName := ⟨.SYS_DLSTAT, 64, [], false, [
  ⟨0, 1, 0, .ro, .none, .none, .any⟩,
  ⟨1, 1, 0, .ro, .none, .none, .any⟩,
  ⟨2, 1, 0, .ro, .none, .none, .any⟩,
  ⟨8, 16, 0, .ro, .none, .none, .any⟩,
  ⟨24, 16, 0, .ro, .none, .none, .any⟩,
  ⟨40, 16, 0, .ro, .none, .none, .any⟩,
  ⟨56, 4, 0, .ro, .none, .none, .any⟩]⟩
/-- SYS_STRAP -/
def regRow_SYS_STRAP : RegRow RegName := ⟨.SYS_STRAP, 80, [], false, [
  ⟨0, 4, 15, .ro, .none, .none, .any⟩,
  ⟨4, 1, 1, .ro, .none, .none, .any⟩,
  ⟨5, 1, 0, .ro, .none, .none, .any⟩,
  ⟨6, 1, 0, .ro, .none, .none, .any⟩,
  ⟨8, 4, 15, .ro, .none, .none, .any⟩,
  ⟨12, 1, 1, .ro, .none, .none, .any⟩,
  ⟨13, 1, 0, .w1c, .none, .none, .any⟩]⟩
/-- PWR_STAT -/
def regRow_PWR_STAT : RegRow RegName := ⟨.PWR_STAT, 0x10000, [], false, [
  ⟨0, 1, 0, .ro, .none, .none, .any⟩,
  ⟨1, 1, 0, .ro, .none, .none, .any⟩,
  ⟨2, 1, 0, .ro, .none, .none, .any⟩,
  ⟨3, 1, 0, .ro, .none, .none, .any⟩,
  ⟨4, 1, 0, .ro, .none, .none, .any⟩,
  ⟨5, 1, 0, .ro, .none, .none, .any⟩,
  ⟨6, 1, 0, .ro, .none, .none, .any⟩,
  ⟨8, 8, 0, .ro, .none, .none, .any⟩,
  ⟨16, 1, 0, .w1c, .none, .none, .any⟩,
  ⟨17, 1, 0, .w1c, .none, .none, .any⟩,
  ⟨18, 1, 0, .w1c, .none, .none, .any⟩,
  ⟨19, 1, 0, .w1c, .none, .none, .any⟩,
  ⟨24, 4, 0, .ro, .none, .none, .any⟩]⟩
/-- PWR_FEED -/
def regRow_PWR_FEED : RegRow RegName := ⟨.PWR_FEED, 0x10008, [], false, [
  ⟨0, 16, 0, .ro, .none, .none, .any⟩,
  ⟨16, 16, 0, .ro, .none, .none, .any⟩,
  ⟨32, 16, 0, .ro, .none, .none, .any⟩,
  ⟨48, 16, 0, .ro, .none, .none, .any⟩]⟩
/-- PWR_CNT -/
def regRow_PWR_CNT : RegRow RegName := ⟨.PWR_CNT, 0x10010, [], false, [
  ⟨0, 16, 0, .ro, .none, .none, .any⟩,
  ⟨16, 16, 0, .ro, .none, .none, .any⟩,
  ⟨32, 16, 0, .ro, .none, .none, .any⟩,
  ⟨48, 16, 0, .ro, .none, .none, .any⟩]⟩
/-- SYS_FMAC -/
def regRow_SYS_FMAC : RegRow RegName := ⟨.SYS_FMAC, 96, [], false, [
  ⟨0, 48, 0, .ro, .none, .none, .any⟩]⟩
/-- IMG_STAT -/
def regRow_IMG_STAT : RegRow RegName := ⟨.IMG_STAT, 0x20000, [], false, [
  ⟨0, 1, 0, .ro, .none, .none, .any⟩,
  ⟨1, 1, 0, .ro, .none, .none, .any⟩,
  ⟨2, 1, 0, .ro, .none, .none, .any⟩,
  ⟨3, 1, 0, .ro, .none, .none, .any⟩,
  ⟨4, 2, 0, .ro, .none, .none, .any⟩,
  ⟨8, 8, 0, .ro, .none, .none, .any⟩,
  ⟨16, 8, 254, .ro, .none, .none, .any⟩,
  ⟨24, 8, 254, .ro, .none, .none, .any⟩,
  ⟨32, 8, 0, .ro, .none, .none, .any⟩,
  ⟨40, 8, 0, .ro, .none, .none, .any⟩]⟩
/-- IMG_CTRL -/
def regRow_IMG_CTRL : RegRow RegName := ⟨.IMG_CTRL, 0x20008, [], false, [
  ⟨0, 2, 0, .rw, .hold, .image, .range 0 2⟩]⟩
/-- IMG_UPD -/
def regRow_IMG_UPD : RegRow RegName := ⟨.IMG_UPD, 0x20010, [], false, [
  ⟨0, 4, 0, .wo, .hold, .image, .among [1, 2, 3, 5, 6, 7]⟩,
  ⟨4, 1, 0, .wo, .hold, .image, .any⟩,
  ⟨8, 24, 0, .wo, .hold, .image, .any⟩,
  ⟨32, 9, 0, .wo, .hold, .image, .any⟩,
  ⟨48, 4, 0, .ro, .none, .none, .any⟩,
  ⟨52, 8, 0, .ro, .none, .none, .any⟩]⟩
/-- IMG_RGEN -/
def regRow_IMG_RGEN : RegRow RegName := ⟨.IMG_RGEN, 0x20018, [], false, [
  ⟨0, 64, 0, .ro, .none, .none, .any⟩]⟩
/-- IMG_KEYHk -/
def regRow_IMG_KEYH : RegRow RegName := ⟨.IMG_KEYH, 0x20020, [(4, 8)], false, [
  ⟨0, 64, 0, .ro, .none, .none, .any⟩]⟩
/-- SYS_STATE -/
def regRow_SYS_STATE : RegRow RegName := ⟨.SYS_STATE, 16, [], false, [
  ⟨0, 3, 0, .ro, .none, .none, .any⟩,
  ⟨4, 1, 0, .ro, .none, .none, .any⟩,
  ⟨5, 1, 0, .ro, .none, .none, .any⟩,
  ⟨6, 1, 0, .ro, .none, .none, .any⟩,
  ⟨7, 1, 0, .ro, .none, .none, .any⟩,
  ⟨8, 1, 0, .ro, .none, .none, .any⟩,
  ⟨9, 1, 0, .ro, .none, .none, .any⟩,
  ⟨16, 16, 0, .ro, .none, .none, .any⟩]⟩
/-- SYS_CMD -/
def regRow_SYS_CMD : RegRow RegName := ⟨.SYS_CMD, 24, [], false, [
  ⟨0, 4, 0, .wo, .live, .mcc, .among [1, 2, 3, 4, 5]⟩,
  ⟨8, 8, 0, .ro, .none, .none, .any⟩]⟩
/-- SYS_CFG -/
def regRow_SYS_CFG : RegRow RegName := ⟨.SYS_CFG, 32, [], false, [
  ⟨0, 2, 0, .rw, .image, .fixed, .range 0 2⟩]⟩
/-- SLC_MODE -/
def regRow_SLC_MODE : RegRow RegName := ⟨.SLC_MODE, 0x101800, [(16, 0x4000)], false, [
  ⟨0, 3, 0, .rw, .hold, .axis, .range 0 5⟩,
  ⟨4, 4, 0, .rw, .hold, .axis, .any⟩,
  ⟨8, 1, 0, .rw, .hold, .axis, .any⟩,
  ⟨12, 4, 15, .rw, .hold, .axis, .among [0, 1, 2, 3, 4, 5, 6, 7, 15]⟩]⟩
/-- SLC_AXCMD -/
def regRow_SLC_AXCMD : RegRow RegName := ⟨.SLC_AXCMD, 0x101808, [(16, 0x4000)], false, [
  ⟨0, 3, 0, .wo, .live, .servo, .among [1, 2, 3, 4, 5]⟩]⟩
/-- SLC_AXST -/
def regRow_SLC_AXST : RegRow RegName := ⟨.SLC_AXST, 0x101810, [(16, 0x4000)], false, [
  ⟨0, 3, 0, .ro, .none, .none, .any⟩,
  ⟨4, 4, 0, .ro, .none, .none, .any⟩,
  ⟨8, 8, 0, .ro, .none, .none, .any⟩,
  ⟨16, 8, 0, .ro, .none, .none, .any⟩]⟩
/-- LCn_CTRL -/
def regRow_LC_CTRL : RegRow RegName := ⟨.LC_CTRL, 0x90000, [(8, 0x1000)], false, [
  ⟨0, 2, 1, .rw, .image, .fixed, .range 1 3⟩,
  ⟨2, 1, 0, .rw, .image, .fixed, .any⟩]⟩
/-- LCn_STAT -/
def regRow_LC_STAT : RegRow RegName := ⟨.LC_STAT, 0x90008, [(8, 0x1000)], false, [
  ⟨0, 2, 3, .ro, .none, .none, .any⟩,
  ⟨2, 3, 0, .ro, .none, .none, .any⟩,
  ⟨8, 12, 0, .ro, .none, .none, .any⟩,
  ⟨32, 16, 0, .ro, .none, .none, .any⟩,
  ⟨48, 16, 0, .ro, .none, .none, .any⟩]⟩
/-- LCn_FAULT -/
def regRow_LC_FAULT : RegRow RegName := ⟨.LC_FAULT, 0x90010, [(8, 0x1000)], false, [
  ⟨0, 8, 0, .ro, .none, .none, .any⟩,
  ⟨8, 12, 0, .ro, .none, .none, .any⟩,
  ⟨20, 1, 0, .w1c, .none, .none, .any⟩,
  ⟨32, 32, 0, .ro, .none, .none, .any⟩]⟩
/-- LCn_ECC -/
def regRow_LC_ECC : RegRow RegName := ⟨.LC_ECC, 0x90018, [(8, 0x1000)], false, [
  ⟨0, 16, 0, .ro, .none, .none, .any⟩,
  ⟨16, 8, 0, .ro, .none, .none, .any⟩,
  ⟨32, 32, 0, .ro, .none, .none, .any⟩]⟩
/-- LCn_DBG -/
def regRow_LC_DBG : RegRow RegName := ⟨.LC_DBG, 0x90020, [(8, 0x1000)], false, [
  ⟨0, 1, 0, .rw, .live, .atOnce, .any⟩,
  ⟨1, 1, 0, .wo, .live, .atOnce, .any⟩,
  ⟨2, 1, 0, .rw, .live, .atOnce, .any⟩,
  ⟨8, 1, 0, .ro, .none, .none, .any⟩,
  ⟨32, 32, 0, .ro, .none, .none, .any⟩]⟩
/-- SCH_STAT -/
def regRow_SCH_STAT : RegRow RegName := ⟨.SCH_STAT, 0x80000, [], false, [
  ⟨0, 2, 0, .ro, .none, .none, .any⟩,
  ⟨8, 13, 0, .ro, .none, .none, .any⟩,
  ⟨24, 13, 0, .ro, .none, .none, .any⟩,
  ⟨40, 8, 0, .ro, .none, .none, .any⟩]⟩
/-- SCH_TICK -/
def regRow_SCH_TICK : RegRow RegName := ⟨.SCH_TICK, 0x80008, [], false, [
  ⟨0, 64, 0, .ro, .none, .none, .any⟩]⟩
/-- SCH_CNT -/
def regRow_SCH_CNT : RegRow RegName := ⟨.SCH_CNT, 0x80010, [], false, [
  ⟨0, 16, 0, .ro, .none, .none, .any⟩,
  ⟨16, 16, 0, .ro, .none, .none, .any⟩,
  ⟨32, 16, 0, .ro, .none, .none, .any⟩,
  ⟨48, 16, 0, .ro, .none, .none, .any⟩]⟩
/-- SCH_LAST -/
def regRow_SCH_LAST : RegRow RegName := ⟨.SCH_LAST, 0x80018, [], false, [
  ⟨0, 12, 0, .ro, .none, .none, .any⟩,
  ⟨16, 5, 0, .ro, .none, .none, .any⟩,
  ⟨24, 24, 0, .ro, .none, .none, .any⟩,
  ⟨48, 1, 0, .w1c, .none, .none, .any⟩]⟩
/-- SCH_LIM -/
def regRow_SCH_LIM : RegRow RegName := ⟨.SCH_LIM, 0x80020, [], true, [
  ⟨0, 24, 0, .rw, .image, .fixed, .range 1 16777215⟩]⟩
/-- SCH_HLTH -/
def regRow_SCH_HLTH : RegRow RegName := ⟨.SCH_HLTH, 0x80028, [], false, [
  ⟨0, 32, 0, .ro, .none, .none, .any⟩,
  ⟨32, 1, 0, .ro, .none, .none, .any⟩]⟩
/-- SLC_ISCFG -/
def regRow_SLC_ISCFG : RegRow RegName := ⟨.SLC_ISCFG, 0x100000, [(16, 0x4000)], false, [
  ⟨0, 2, 2, .rw, .hold, .axis, .range 0 2⟩,
  ⟨2, 1, 0, .rw, .hold, .axis, .any⟩,
  ⟨4, 8, 50, .rw, .hold, .axis, .range 10 200⟩,
  ⟨16, 12, 0x51f, .rw, .hold, .axis, .any⟩,
  ⟨32, 12, 0x51f, .rw, .hold, .axis, .any⟩,
  ⟨48, 8, 4, .rw, .hold, .axis, .range 1 255⟩,
  ⟨56, 8, 16, .rw, .hold, .axis, .range 1 255⟩]⟩
/-- SLC_ISOFF -/
def regRow_SLC_ISOFF : RegRow RegName := ⟨.SLC_ISOFF, 0x100008, [(16, 0x4000)], false, [
  ⟨0, 16, 0, .ro, .none, .none, .any⟩,
  ⟨16, 16, 0, .ro, .none, .none, .any⟩,
  ⟨32, 16, 0, .ro, .none, .none, .any⟩,
  ⟨48, 1, 0, .ro, .none, .none, .any⟩,
  ⟨49, 1, 0, .ro, .none, .none, .any⟩]⟩
/-- SLC_ISCNT -/
def regRow_SLC_ISCNT : RegRow RegName := ⟨.SLC_ISCNT, 0x100010, [(16, 0x4000)], false, [
  ⟨0, 16, 0, .ro, .none, .none, .any⟩,
  ⟨16, 16, 0, .ro, .none, .none, .any⟩,
  ⟨32, 16, 0, .ro, .none, .none, .any⟩,
  ⟨48, 16, 0, .ro, .none, .none, .any⟩]⟩
/-- SLC_OCLIM -/
def regRow_SLC_OCLIM : RegRow RegName := ⟨.SLC_OCLIM, 0x100018, [(16, 0x4000)], true, [
  ⟨0, 8, 0, .rw, .image, .fixed, .range 10 220⟩,
  ⟨8, 8, 0, .rw, .image, .fixed, .range 10 220⟩,
  ⟨16, 6, 0, .rw, .image, .fixed, .range 0 40⟩,
  ⟨24, 16, 0, .rw, .image, .fixed, .any⟩,
  ⟨40, 8, 0, .rw, .image, .fixed, .range 1 255⟩]⟩
/-- SLC_OCSTAT -/
def regRow_SLC_OCSTAT : RegRow RegName := ⟨.SLC_OCSTAT, 0x100020, [(16, 0x4000)], false, [
  ⟨0, 3, 0, .ro, .none, .none, .any⟩,
  ⟨3, 3, 0, .ro, .none, .none, .any⟩,
  ⟨6, 1, 0, .ro, .none, .none, .any⟩,
  ⟨8, 2, 0, .ro, .none, .none, .any⟩,
  ⟨16, 16, 0, .ro, .none, .none, .any⟩,
  ⟨32, 16, 0, .ro, .none, .none, .any⟩]⟩
/-- SLC_COMM -/
def regRow_SLC_COMM : RegRow RegName := ⟨.SLC_COMM, 0x101840, [(16, 0x4000)], false, [
  ⟨0, 2, 0, .rw, .hold, .axis, .any⟩,
  ⟨2, 6, 1, .rw, .hold, .axis, .range 1 63⟩,
  ⟨8, 1, 0, .rw, .hold, .axis, .any⟩,
  ⟨9, 2, 0, .rw, .hold, .axis, .any⟩,
  ⟨32, 32, 0, .rw, .hold, .axis, .any⟩]⟩
/-- SLC_SLCFG0 -/
def regRow_SLC_SLCFG0 : RegRow RegName := ⟨.SLC_SLCFG0, 0x101848, [(16, 0x4000)], false, [
  ⟨0, 16, 0, .rw, .hold, .axis, .any⟩,
  ⟨16, 16, 0, .rw, .hold, .axis, .any⟩,
  ⟨32, 16, 0, .rw, .hold, .axis, .any⟩,
  ⟨48, 8, 0, .rw, .hold, .axis, .range 0 100⟩,
  ⟨56, 3, 0, .rw, .hold, .axis, .any⟩]⟩
/-- SLC_SLCFG1 -/
def regRow_SLC_SLCFG1 : RegRow RegName := ⟨.SLC_SLCFG1, 0x101850, [(16, 0x4000)], false, [
  ⟨0, 16, 0, .rw, .hold, .axis, .any⟩,
  ⟨16, 16, 0, .rw, .hold, .axis, .any⟩,
  ⟨32, 16, 0, .rw, .hold, .axis, .any⟩,
  ⟨48, 16, 0, .rw, .hold, .axis, .any⟩]⟩
/-- SLC_SLCFG2 -/
def regRow_SLC_SLCFG2 : RegRow RegName := ⟨.SLC_SLCFG2, 0x101858, [(16, 0x4000)], false, [
  ⟨0, 8, 20, .rw, .hold, .axis, .range 1 255⟩,
  ⟨8, 8, 20, .rw, .hold, .axis, .any⟩,
  ⟨16, 8, 50, .rw, .hold, .axis, .any⟩,
  ⟨24, 8, 20, .rw, .hold, .axis, .any⟩,
  ⟨32, 8, 10, .rw, .hold, .axis, .any⟩,
  ⟨40, 8, 10, .rw, .hold, .axis, .any⟩,
  ⟨48, 8, 20, .rw, .hold, .axis, .any⟩,
  ⟨56, 8, 32, .rw, .hold, .axis, .range 1 255⟩]⟩
/-- SLC_SLCMD -/
def regRow_SLC_SLCMD : RegRow RegName := ⟨.SLC_SLCMD, 0x101860, [(16, 0x4000)], false, [
  ⟨0, 32, 0, .ro, .none, .none, .any⟩,
  ⟨32, 16, 0, .ro, .none, .none, .any⟩,
  ⟨48, 4, 0, .ro, .none, .none, .any⟩,
  ⟨56, 8, 0, .ro, .none, .none, .any⟩]⟩
/-- SLC_SLOBS -/
def regRow_SLC_SLOBS : RegRow RegName := ⟨.SLC_SLOBS, 0x101868, [(16, 0x4000)], false, [
  ⟨0, 32, 0, .rw, .live, .current, .any⟩,
  ⟨32, 16, 0, .rw, .live, .current, .any⟩,
  ⟨48, 1, 0, .rw, .live, .current, .any⟩,
  ⟨56, 8, 0, .rw, .live, .current, .any⟩]⟩
/-- SLC_SLSTAT -/
def regRow_SLC_SLSTAT : RegRow RegName := ⟨.SLC_SLSTAT, 0x101870, [(16, 0x4000)], false, [
  ⟨0, 4, 0, .ro, .none, .none, .any⟩,
  ⟨4, 3, 0, .ro, .none, .none, .any⟩,
  ⟨7, 1, 0, .ro, .none, .none, .any⟩,
  ⟨8, 16, 0, .ro, .none, .none, .any⟩,
  ⟨24, 8, 0, .ro, .none, .none, .any⟩,
  ⟨32, 16, 0, .ro, .none, .none, .any⟩,
  ⟨48, 16, 0, .ro, .none, .none, .any⟩]⟩
/-- SLC_AOFS -/
def regRow_SLC_AOFS : RegRow RegName := ⟨.SLC_AOFS, 0x101878, [(16, 0x4000)], false, [
  ⟨0, 32, 0, .ro, .none, .none, .any⟩,
  ⟨32, 1, 0, .ro, .none, .none, .any⟩]⟩
/-- SLC_PWMCFG -/
def regRow_SLC_PWMCFG : RegRow RegName := ⟨.SLC_PWMCFG, 0x100800, [(16, 0x4000)], false, [
  ⟨0, 2, 0, .rw, .hold, .axis, .range 0 2⟩,
  ⟨2, 3, 0, .rw, .hold, .axis, .any⟩,
  ⟨5, 1, 0, .rw, .hold, .axis, .any⟩,
  ⟨8, 8, 0, .rw, .image, .fixed, .any⟩,
  ⟨16, 12, 150, .rw, .hold, .axis, .range 30 3000⟩,
  ⟨32, 32, 0x1f400, .rw, .hold, .axis, .range 32000 1600000⟩]⟩
/-- SLC_PWMLIM -/
def regRow_SLC_PWMLIM : RegRow RegName := ⟨.SLC_PWMLIM, 0x100808, [(16, 0x4000)], true, [
  ⟨0, 16, 0, .rw, .image, .fixed, .range 256 25600⟩,
  ⟨16, 16, 0, .rw, .image, .fixed, .range 640 25600⟩,
  ⟨32, 17, 0, .rw, .image, .fixed, .range 4096 65536⟩,
  ⟨49, 7, 0, .rw, .image, .fixed, .range 1 100⟩,
  ⟨56, 1, 0, .rw, .image, .fixed, .any⟩,
  ⟨57, 7, 0, .rw, .image, .fixed, .any⟩]⟩
/-- SLC_PWMUPD -/
def regRow_SLC_PWMUPD : RegRow RegName := ⟨.SLC_PWMUPD, 0x100810, [(16, 0x4000)], false, [
  ⟨0, 1, 0, .wo, .live, .carrier, .any⟩,
  ⟨1, 2, 0, .wo, .live, .carrier, .range 0 2⟩]⟩
/-- SLC_PWMSTAT -/
def regRow_SLC_PWMSTAT : RegRow RegName := ⟨.SLC_PWMSTAT, 0x100818, [(16, 0x4000)], false, [
  ⟨0, 1, 0, .ro, .none, .none, .any⟩,
  ⟨1, 1, 0, .ro, .none, .none, .any⟩,
  ⟨2, 3, 0, .ro, .none, .none, .any⟩,
  ⟨5, 1, 0, .w1c, .none, .none, .any⟩,
  ⟨6, 1, 0, .w1c, .none, .none, .any⟩,
  ⟨48, 16, 0, .ro, .none, .none, .any⟩]⟩
/-- SLC_PWMCNT -/
def regRow_SLC_PWMCNT : RegRow RegName := ⟨.SLC_PWMCNT, 0x100820, [(16, 0x4000)], false, [
  ⟨0, 16, 0, .ro, .none, .none, .any⟩,
  ⟨16, 16, 0, .ro, .none, .none, .any⟩,
  ⟨32, 16, 0, .ro, .none, .none, .any⟩,
  ⟨48, 16, 0, .ro, .none, .none, .any⟩]⟩
/-- SLC_PWMEFF0 -/
def regRow_SLC_PWMEFF0 : RegRow RegName := ⟨.SLC_PWMEFF0, 0x100828, [(16, 0x4000)], false, [
  ⟨0, 32, 0, .ro, .none, .none, .any⟩,
  ⟨32, 32, 0, .ro, .none, .none, .any⟩]⟩
/-- SLC_PWMEFF1 -/
def regRow_SLC_PWMEFF1 : RegRow RegName := ⟨.SLC_PWMEFF1, 0x100830, [(16, 0x4000)], false, [
  ⟨0, 32, 0, .ro, .none, .none, .any⟩,
  ⟨32, 32, 0, .ro, .none, .none, .any⟩]⟩
/-- SLC_SHD0 -/
def regRow_SLC_SHD0 : RegRow RegName := ⟨.SLC_SHD0, 0x100900, [(16, 0x4000), (4, 32)], false, [
  ⟨0, 32, 0, .wo, .live, .carrier, .any⟩,
  ⟨32, 32, 0, .wo, .live, .carrier, .any⟩]⟩
/-- SLC_SHD1 -/
def regRow_SLC_SHD1 : RegRow RegName := ⟨.SLC_SHD1, 0x100908, [(16, 0x4000), (4, 32)], false, [
  ⟨0, 32, 0, .wo, .live, .carrier, .any⟩]⟩
/-- SLC_SHD2 -/
def regRow_SLC_SHD2 : RegRow RegName := ⟨.SLC_SHD2, 0x100910, [(16, 0x4000), (4, 32)], false, [
  ⟨0, 32, 0, .wo, .live, .carrier, .any⟩]⟩
/-- BUS_GDCFG -/
def regRow_BUS_GDCFG : RegRow RegName := ⟨.BUS_GDCFG, 0x200000, [], true, [
  ⟨0, 2, 0, .rw, .image, .fixed, .range 0 2⟩,
  ⟨2, 2, 0, .rw, .image, .fixed, .range 0 2⟩]⟩
/-- BUS_STAT -/
def regRow_BUS_STAT : RegRow RegName := ⟨.BUS_STAT, 0x200008, [], false, [
  ⟨0, 4, 0, .ro, .none, .none, .any⟩,
  ⟨4, 4, 0, .w1c, .none, .none, .any⟩,
  ⟨8, 4, 0, .ro, .none, .none, .any⟩,
  ⟨12, 4, 0, .ro, .none, .none, .any⟩,
  ⟨16, 4, 0, .ro, .none, .none, .any⟩,
  ⟨20, 4, 0, .ro, .none, .none, .any⟩,
  ⟨24, 1, 0, .ro, .none, .none, .any⟩,
  ⟨25, 1, 0, .ro, .none, .none, .any⟩,
  ⟨26, 1, 0, .ro, .none, .none, .any⟩]⟩
/-- BUS_MEAS -/
def regRow_BUS_MEAS : RegRow RegName := ⟨.BUS_MEAS, 0x200010, [], false, [
  ⟨0, 16, 0, .ro, .none, .none, .any⟩,
  ⟨16, 16, 0, .ro, .none, .none, .any⟩,
  ⟨32, 16, 0, .ro, .none, .none, .any⟩,
  ⟨48, 16, 0, .ro, .none, .none, .any⟩]⟩
/-- BUS_CNT -/
def regRow_BUS_CNT : RegRow RegName := ⟨.BUS_CNT, 0x200018, [], false, [
  ⟨0, 16, 0, .ro, .none, .none, .any⟩,
  ⟨16, 16, 0, .ro, .none, .none, .any⟩,
  ⟨32, 16, 0, .ro, .none, .none, .any⟩,
  ⟨48, 16, 0, .ro, .none, .none, .any⟩]⟩
/-- BUS_VLIMk -/
def regRow_BUS_VLIM : RegRow RegName := ⟨.BUS_VLIM, 0x200040, [(4, 16)], true, [
  ⟨0, 16, 0, .rw, .image, .fixed, .any⟩,
  ⟨16, 16, 0, .rw, .image, .fixed, .any⟩,
  ⟨32, 16, 0, .rw, .image, .fixed, .any⟩,
  ⟨48, 16, 0, .rw, .image, .fixed, .any⟩]⟩
/-- BUS_CLIMk -/
def regRow_BUS_CLIM : RegRow RegName := ⟨.BUS_CLIM, 0x200048, [(4, 16)], true, [
  ⟨0, 16, 0, .rw, .image, .fixed, .range 0 7500⟩,
  ⟨16, 16, 0, .rw, .image, .fixed, .any⟩,
  ⟨32, 8, 0, .rw, .image, .fixed, .range 1 250⟩,
  ⟨40, 8, 0, .rw, .image, .fixed, .any⟩,
  ⟨48, 8, 0, .rw, .image, .fixed, .range 10 100⟩,
  ⟨56, 1, 0, .rw, .image, .fixed, .any⟩,
  ⟨57, 1, 0, .rw, .image, .fixed, .any⟩]⟩
/-- SLC_FBCFG -/
def regRow_SLC_FBCFG : RegRow RegName := ⟨.SLC_FBCFG, 0x101000, [(16, 0x4000)], false, [
  ⟨0, 3, 0, .rw, .hold, .axis, .range 0 4⟩,
  ⟨3, 1, 0, .rw, .hold, .axis, .any⟩,
  ⟨4, 1, 1, .rw, .hold, .axis, .any⟩,
  ⟨5, 1, 0, .rw, .hold, .axis, .any⟩,
  ⟨6, 1, 0, .rw, .hold, .axis, .any⟩,
  ⟨7, 1, 1, .rw, .hold, .axis, .any⟩,
  ⟨8, 8, 4, .rw, .hold, .axis, .range 1 255⟩,
  ⟨16, 2, 0, .rw, .hold, .axis, .range 0 2⟩,
  ⟨18, 3, 0, .rw, .hold, .axis, .range 0 4⟩,
  ⟨21, 1, 0, .rw, .hold, .axis, .any⟩,
  ⟨22, 1, 0, .rw, .hold, .axis, .any⟩,
  ⟨23, 1, 0, .rw, .live, .servo, .any⟩,
  ⟨32, 32, 1, .rw, .hold, .axis, .range 1 4294967295⟩]⟩
/-- SLC_FBSER -/
def regRow_SLC_FBSER : RegRow RegName := ⟨.SLC_FBSER, 0x101008, [(16, 0x4000)], false, [
  ⟨0, 6, 32, .rw, .hold, .axis, .range 8 48⟩,
  ⟨6, 2, 2, .rw, .hold, .axis, .range 0 2⟩,
  ⟨8, 4, 6, .rw, .hold, .axis, .among [0, 6]⟩,
  ⟨12, 1, 0, .rw, .hold, .axis, .any⟩,
  ⟨13, 1, 0, .rw, .hold, .axis, .any⟩,
  ⟨14, 1, 0, .rw, .hold, .axis, .any⟩,
  ⟨16, 8, 9, .rw, .hold, .axis, .range 9 249⟩,
  ⟨24, 6, 3, .rw, .hold, .axis, .any⟩,
  ⟨32, 8, 20, .rw, .hold, .axis, .range 1 40⟩,
  ⟨40, 4, 0, .rw, .hold, .axis, .any⟩,
  ⟨48, 16, 0, .rw, .hold, .axis, .any⟩]⟩
/-- SLC_FBIDX -/
def regRow_SLC_FBIDX : RegRow RegName := ⟨.SLC_FBIDX, 0x101010, [(16, 0x4000)], false, [
  ⟨0, 40, 0, .rw, .hold, .axis, .any⟩,
  ⟨48, 16, 0, .rw, .hold, .axis, .any⟩]⟩
/-- SLC_FBCMD -/
def regRow_SLC_FBCMD : RegRow RegName := ⟨.SLC_FBCMD, 0x101018, [(16, 0x4000)], false, [
  ⟨0, 1, 0, .wo, .live, .atOnce, .any⟩,
  ⟨1, 1, 0, .wo, .live, .atOnce, .any⟩]⟩
/-- SLC_FBSC -/
def regRow_SLC_FBSC : RegRow RegName := ⟨.SLC_FBSC, 0x101020, [(16, 0x4000)], false, [
  ⟨0, 16, 0, .ro, .none, .none, .any⟩,
  ⟨16, 16, 0, .ro, .none, .none, .any⟩,
  ⟨32, 16, 0x4000, .ro, .none, .none, .any⟩,
  ⟨48, 16, 0, .ro, .none, .none, .any⟩]⟩
/-- SLC_FBPOS -/
def regRow_SLC_FBPOS : RegRow RegName := ⟨.SLC_FBPOS, 0x101028, [(16, 0x4000)], false, [
  ⟨0, 64, 0, .ro, .none, .none, .any⟩]⟩
/-- SLC_FBSPD -/
def regRow_SLC_FBSPD : RegRow RegName := ⟨.SLC_FBSPD, 0x101030, [(16, 0x4000)], false, [
  ⟨0, 64, 0, .ro, .none, .none, .any⟩]⟩
/-- SLC_FBSTAT -/
def regRow_SLC_FBSTAT : RegRow RegName := ⟨.SLC_FBSTAT, 0x101038, [(16, 0x4000)], false, [
  ⟨0, 1, 0, .ro, .none, .none, .any⟩,
  ⟨1, 1, 0, .ro, .none, .none, .any⟩,
  ⟨2, 1, 0, .ro, .none, .none, .any⟩,
  ⟨3, 1, 0, .w1c, .none, .none, .any⟩,
  ⟨4, 1, 1, .ro, .none, .none, .any⟩,
  ⟨5, 1, 0, .ro, .none, .none, .any⟩,
  ⟨6, 1, 0, .ro, .none, .none, .any⟩,
  ⟨7, 1, 0, .ro, .none, .none, .any⟩,
  ⟨8, 3, 0, .ro, .none, .none, .any⟩,
  ⟨11, 3, 7, .ro, .none, .none, .any⟩,
  ⟨14, 1, 0, .w1c, .none, .none, .any⟩,
  ⟨15, 1, 0, .ro, .none, .none, .any⟩,
  ⟨16, 1, 0, .ro, .none, .none, .any⟩,
  ⟨17, 1, 0, .w1c, .none, .none, .any⟩,
  ⟨18, 1, 0, .w1c, .none, .none, .any⟩,
  ⟨19, 1, 0, .w1c, .none, .none, .any⟩,
  ⟨32, 16, 0, .ro, .none, .none, .any⟩]⟩
/-- SLC_FBCNT -/
def regRow_SLC_FBCNT : RegRow RegName := ⟨.SLC_FBCNT, 0x101040, [(16, 0x4000)], false, [
  ⟨0, 16, 0, .ro, .none, .none, .any⟩,
  ⟨16, 16, 0, .ro, .none, .none, .any⟩,
  ⟨32, 16, 0, .ro, .none, .none, .any⟩,
  ⟨48, 16, 0, .ro, .none, .none, .any⟩]⟩
/-- SLC_FBLIM -/
def regRow_SLC_FBLIM : RegRow RegName := ⟨.SLC_FBLIM, 0x101048, [(16, 0x4000)], false, [
  ⟨0, 8, 3, .rw, .hold, .axis, .range 1 255⟩,
  ⟨8, 8, 3, .rw, .hold, .axis, .range 1 255⟩,
  ⟨16, 8, 50, .rw, .hold, .axis, .any⟩,
  ⟨32, 18, 0x1d850, .rw, .hold, .axis, .any⟩]⟩
/-- SLC_LATCFG -/
def regRow_SLC_LATCFG : RegRow RegName := ⟨.SLC_LATCFG, 0x101050, [(16, 0x4000)], false, [
  ⟨0, 2, 0, .rw, .hold, .axis, .any⟩,
  ⟨2, 5, 0, .rw, .hold, .axis, .range 0 23⟩,
  ⟨7, 1, 0, .rw, .hold, .axis, .any⟩,
  ⟨8, 2, 0, .rw, .hold, .axis, .any⟩,
  ⟨10, 5, 0, .rw, .hold, .axis, .range 0 23⟩,
  ⟨15, 1, 0, .rw, .hold, .axis, .any⟩]⟩
/-- SLC_LATPOSk -/
def regRow_SLC_LATPOS : RegRow RegName := ⟨.SLC_LATPOS, 0x101060, [(16, 0x4000), (2, 16)], false, [
  ⟨0, 64, 0, .ro, .none, .none, .any⟩]⟩
/-- SLC_LATTIMk -/
def regRow_SLC_LATTIM : RegRow RegName := ⟨.SLC_LATTIM, 0x101068, [(16, 0x4000), (2, 16)], false, [
  ⟨0, 30, 0, .ro, .none, .none, .any⟩,
  ⟨32, 16, 0, .ro, .none, .none, .any⟩,
  ⟨48, 16, 0, .ro, .none, .none, .any⟩]⟩
/-- SLC_GAINb -/
def regRow_SLC_GAIN : RegRow RegName := ⟨.SLC_GAIN, 0x101900, [(16, 0x4000), (2, 0x100), (32, 8)], false, [
  ⟨0, 32, 0, .rw, .live, .servo, .any⟩,
  ⟨32, 8, 0, .rw, .live, .servo, .any⟩]⟩
/-- SLC_SERVO -/
def regRow_SLC_SERVO : RegRow RegName := ⟨.SLC_SERVO, 0x101880, [(16, 0x4000)], false, [
  ⟨0, 7, 1, .rw, .image, .fixed, .range 1 64⟩,
  ⟨8, 1, 0, .rw, .image, .fixed, .any⟩,
  ⟨9, 3, 0, .rw, .image, .fixed, .range 0 4⟩,
  ⟨16, 1, 0, .rw, .live, .servo, .any⟩,
  ⟨17, 1, 0, .ro, .none, .none, .any⟩]⟩
/-- SLC_SVFE0 -/
def regRow_SLC_SVFE0 : RegRow RegName := ⟨.SLC_SVFE0, 0x103000, [(16, 0x4000)], true, [
  ⟨0, 32, 0, .rw, .image, .fixed, .range 1 4294967295⟩,
  ⟨32, 16, 0, .rw, .image, .fixed, .range 1 65535⟩]⟩
/-- SLC_SVFE1 -/
def regRow_SLC_SVFE1 : RegRow RegName := ⟨.SLC_SVFE1, 0x103008, [(16, 0x4000)], true, [
  ⟨0, 32, 0, .rw, .image, .fixed, .range 1 4294967295⟩,
  ⟨32, 16, 0, .rw, .image, .fixed, .range 1 65535⟩]⟩
/-- SLC_SVGROSS -/
def regRow_SLC_SVGROSS : RegRow RegName := ⟨.SLC_SVGROSS, 0x103010, [(16, 0x4000)], true, [
  ⟨0, 32, 0, .rw, .image, .fixed, .any⟩,
  ⟨32, 32, 0, .rw, .image, .fixed, .range 1 4294967295⟩]⟩
/-- SLC_SVTRAV0 -/
def regRow_SLC_SVTRAV0 : RegRow RegName := ⟨.SLC_SVTRAV0, 0x103018, [(16, 0x4000)], true, [
  ⟨0, 64, 0, .rw, .image, .fixed, .any⟩]⟩
/-- SLC_SVTRAV1 -/
def regRow_SLC_SVTRAV1 : RegRow RegName := ⟨.SLC_SVTRAV1, 0x103020, [(16, 0x4000)], true, [
  ⟨0, 64, 0, .rw, .image, .fixed, .any⟩]⟩
/-- SLC_SVTRAV2 -/
def regRow_SLC_SVTRAV2 : RegRow RegName := ⟨.SLC_SVTRAV2, 0x103028, [(16, 0x4000)], true, [
  ⟨0, 1, 0, .rw, .image, .fixed, .any⟩,
  ⟨8, 24, 0, .rw, .image, .fixed, .any⟩,
  ⟨32, 1, 0, .rw, .image, .fixed, .any⟩,
  ⟨33, 5, 0, .rw, .image, .fixed, .range 0 23⟩,
  ⟨38, 1, 0, .rw, .image, .fixed, .any⟩,
  ⟨40, 1, 0, .rw, .image, .fixed, .any⟩,
  ⟨41, 5, 0, .rw, .image, .fixed, .range 0 23⟩,
  ⟨46, 1, 0, .rw, .image, .fixed, .any⟩]⟩
/-- SLC_SVSTOP -/
def regRow_SLC_SVSTOP : RegRow RegName := ⟨.SLC_SVSTOP, 0x103030, [(16, 0x4000)], false, [
  ⟨0, 32, 0, .rw, .hold, .axis, .range 1 4294967295⟩,
  ⟨32, 32, 0, .rw, .hold, .axis, .any⟩]⟩
/-- SLC_SVSTILL -/
def regRow_SLC_SVSTILL : RegRow RegName := ⟨.SLC_SVSTILL, 0x103038, [(16, 0x4000)], false, [
  ⟨0, 32, 0x100, .rw, .hold, .axis, .any⟩,
  ⟨32, 16, 0, .rw, .image, .fixed, .range 1 65535⟩]⟩
/-- SLC_SVCTL -/
def regRow_SLC_SVCTL : RegRow RegName := ⟨.SLC_SVCTL, 0x103040, [(16, 0x4000)], false, [
  ⟨0, 1, 0, .rw, .live, .servo, .any⟩,
  ⟨8, 8, 2, .rw, .hold, .axis, .range 1 255⟩,
  ⟨32, 32, 0, .rw, .live, .servo, .any⟩]⟩
/-- SLC_SVCMD0 -/
def regRow_SLC_SVCMD0 : RegRow RegName := ⟨.SLC_SVCMD0, 0x103048, [(16, 0x4000)], false, [
  ⟨0, 64, 0, .rw, .live, .servo, .any⟩]⟩
/-- SLC_SVCMD1 -/
def regRow_SLC_SVCMD1 : RegRow RegName := ⟨.SLC_SVCMD1, 0x103050, [(16, 0x4000)], false, [
  ⟨0, 16, 0, .wo, .live, .servo, .any⟩]⟩
/-- SLC_SVREF -/
def regRow_SLC_SVREF : RegRow RegName := ⟨.SLC_SVREF, 0x103058, [(16, 0x4000)], false, [
  ⟨0, 64, 0, .ro, .none, .none, .any⟩]⟩
/-- SLC_SVREFV -/
def regRow_SLC_SVREFV : RegRow RegName := ⟨.SLC_SVREFV, 0x103060, [(16, 0x4000)], false, [
  ⟨0, 32, 0, .ro, .none, .none, .any⟩,
  ⟨32, 1, 0, .ro, .none, .none, .any⟩]⟩
/-- SLC_SVSTAT -/
def regRow_SLC_SVSTAT : RegRow RegName := ⟨.SLC_SVSTAT, 0x103068, [(16, 0x4000)], false, [
  ⟨0, 32, 0, .ro, .none, .none, .any⟩,
  ⟨32, 1, 0, .ro, .none, .none, .any⟩,
  ⟨33, 1, 0, .ro, .none, .none, .any⟩,
  ⟨34, 1, 0, .ro, .none, .none, .any⟩,
  ⟨35, 1, 0, .ro, .none, .none, .any⟩,
  ⟨36, 1, 0, .ro, .none, .none, .any⟩,
  ⟨37, 1, 0, .ro, .none, .none, .any⟩,
  ⟨38, 1, 0, .ro, .none, .none, .any⟩,
  ⟨39, 1, 0, .ro, .none, .none, .any⟩,
  ⟨40, 16, 0, .ro, .none, .none, .any⟩]⟩
/-- SLC_SVCNT -/
def regRow_SLC_SVCNT : RegRow RegName := ⟨.SLC_SVCNT, 0x103070, [(16, 0x4000)], false, [
  ⟨0, 16, 0, .ro, .none, .none, .any⟩,
  ⟨16, 16, 0, .ro, .none, .none, .any⟩,
  ⟨32, 16, 0, .ro, .none, .none, .any⟩,
  ⟨48, 16, 0, .ro, .none, .none, .any⟩]⟩
/-- SLC_PRCFG -/
def regRow_SLC_PRCFG : RegRow RegName := ⟨.SLC_PRCFG, 0x102000, [(16, 0x4000)], false, [
  ⟨0, 1, 0, .rw, .image, .fixed, .any⟩,
  ⟨1, 1, 0, .rw, .hold, .axis, .any⟩,
  ⟨2, 1, 0, .rw, .hold, .axis, .any⟩,
  ⟨8, 8, 4, .rw, .hold, .axis, .range 1 255⟩,
  ⟨16, 16, 0x100, .rw, .live, .servo, .any⟩,
  ⟨32, 32, 0, .rw, .live, .servo, .any⟩]⟩
/-- SLC_PRCMD -/
def regRow_SLC_PRCMD : RegRow RegName := ⟨.SLC_PRCMD, 0x102008, [(16, 0x4000)], false, [
  ⟨0, 3, 0, .wo, .live, .servo, .range 1 5⟩,
  ⟨3, 1, 0, .wo, .live, .servo, .any⟩,
  ⟨4, 1, 0, .wo, .live, .servo, .any⟩,
  ⟨5, 2, 0, .wo, .live, .servo, .any⟩,
  ⟨7, 1, 0, .wo, .live, .servo, .any⟩]⟩
/-- SLC_PRTGT -/
def regRow_SLC_PRTGT : RegRow RegName := ⟨.SLC_PRTGT, 0x102010, [(16, 0x4000)], false, [
  ⟨0, 64, 0, .rw, .live, .servo, .any⟩]⟩
/-- SLC_PRSTAT -/
def regRow_SLC_PRSTAT : RegRow RegName := ⟨.SLC_PRSTAT, 0x102018, [(16, 0x4000)], false, [
  ⟨0, 3, 0, .ro, .none, .none, .any⟩,
  ⟨3, 1, 0, .ro, .none, .none, .any⟩,
  ⟨4, 1, 0, .ro, .none, .none, .any⟩,
  ⟨5, 1, 1, .ro, .none, .none, .any⟩,
  ⟨6, 1, 0, .w1c, .none, .none, .any⟩,
  ⟨7, 1, 0, .w1c, .none, .none, .any⟩,
  ⟨8, 4, 0, .ro, .none, .none, .any⟩,
  ⟨12, 1, 0, .w1c, .none, .none, .any⟩,
  ⟨16, 8, 0, .ro, .none, .none, .any⟩,
  ⟨32, 16, 0, .ro, .none, .none, .any⟩]⟩
/-- SLC_PRPAR -/
def regRow_SLC_PRPAR : RegRow RegName := ⟨.SLC_PRPAR, 0x102040, [(16, 0x4000), (7, 8)], false, [
  ⟨0, 32, 0, .rw, .live, .prpar, .any⟩,
  ⟨32, 8, 0, .rw, .live, .prpar, .any⟩]⟩
/-- SLC_GRRAT -/
def regRow_SLC_GRRAT : RegRow RegName := ⟨.SLC_GRRAT, 0x102080, [(16, 0x4000)], false, [
  ⟨0, 32, 1, .rw, .live, .servo, .any⟩,
  ⟨32, 32, 1, .rw, .live, .servo, .range 1 4294967295⟩]⟩
/-- SLC_GRCAM -/
def regRow_SLC_GRCAM : RegRow RegName := ⟨.SLC_GRCAM, 0x102088, [(16, 0x4000)], false, [
  ⟨0, 32, 0, .rw, .hold, .axis, .any⟩,
  ⟨32, 32, 0, .rw, .live, .servo, .any⟩]⟩
/-- SLC_HMCFG -/
def regRow_SLC_HMCFG : RegRow RegName := ⟨.SLC_HMCFG, 0x102100, [(16, 0x4000)], false, [
  ⟨0, 3, 0, .rw, .hold, .homing, .range 0 4⟩,
  ⟨3, 1, 0, .rw, .hold, .homing, .any⟩,
  ⟨4, 1, 0, .rw, .hold, .homing, .any⟩,
  ⟨5, 1, 0, .rw, .hold, .homing, .any⟩,
  ⟨6, 5, 0, .rw, .hold, .homing, .range 0 23⟩,
  ⟨11, 1, 0, .rw, .hold, .homing, .any⟩,
  ⟨16, 16, 0, .rw, .hold, .homing, .any⟩,
  ⟨32, 16, 50, .rw, .hold, .homing, .range 1 65535⟩]⟩
/-- SLC_HMPOS -/
def regRow_SLC_HMPOS : RegRow RegName := ⟨.SLC_HMPOS, 0x102108, [(16, 0x4000)], false, [
  ⟨0, 64, 0, .rw, .hold, .homing, .any⟩]⟩
/-- SLC_HMDIST -/
def regRow_SLC_HMDIST : RegRow RegName := ⟨.SLC_HMDIST, 0x102110, [(16, 0x4000)], false, [
  ⟨0, 64, 0, .rw, .hold, .homing, .any⟩]⟩
/-- SLC_STCFG -/
def regRow_SLC_STCFG : RegRow RegName := ⟨.SLC_STCFG, 0x102180, [(16, 0x4000)], false, [
  ⟨0, 2, 0, .rw, .live, .servo, .any⟩,
  ⟨2, 1, 0, .rw, .hold, .axis, .any⟩,
  ⟨3, 1, 1, .rw, .hold, .axis, .any⟩,
  ⟨8, 8, 8, .rw, .hold, .axis, .range 1 255⟩,
  ⟨16, 16, 0, .rw, .live, .servo, .any⟩,
  ⟨32, 16, 0, .rw, .live, .servo, .any⟩,
  ⟨48, 16, 100, .rw, .hold, .axis, .any⟩]⟩
/-- SLC_STLIM -/
def regRow_SLC_STLIM : RegRow RegName := ⟨.SLC_STLIM, 0x102188, [(16, 0x4000)], false, [
  ⟨0, 16, 0x200, .rw, .hold, .axis, .any⟩,
  ⟨16, 16, 200, .rw, .hold, .axis, .any⟩,
  ⟨32, 16, 200, .rw, .hold, .axis, .range 1 65535⟩,
  ⟨48, 16, 0x100, .rw, .hold, .axis, .any⟩]⟩
/-- SLC_STOBS -/
def regRow_SLC_STOBS : RegRow RegName := ⟨.SLC_STOBS, 0x102190, [(16, 0x4000)], false, [
  ⟨0, 16, 0, .rw, .live, .servo, .any⟩,
  ⟨16, 16, 0, .rw, .live, .servo, .any⟩,
  ⟨48, 16, 0, .rw, .live, .servo, .any⟩]⟩
/-- GRP_CFGg -/
def regRow_GRP_CFG : RegRow RegName := ⟨.GRP_CFG, 0x210000, [(8, 0x100)], false, [
  ⟨0, 32, 0, .rw, .image, .fixed, .any⟩,
  ⟨32, 1, 0, .rw, .hold, .group, .any⟩,
  ⟨48, 8, 20, .rw, .hold, .group, .range 1 255⟩]⟩
/-- GRP_PARg -/
def regRow_GRP_PAR : RegRow RegName := ⟨.GRP_PAR, 0x210008, [(8, 0x100), (3, 8)], false, [
  ⟨0, 32, 0, .rw, .hold, .group, .any⟩,
  ⟨32, 8, 0, .rw, .hold, .group, .any⟩]⟩
/-- GRP_LEADg -/
def regRow_GRP_LEAD : RegRow RegName := ⟨.GRP_LEAD, 0x210020, [(8, 0x100)], false, [
  ⟨0, 32, 1, .rw, .hold, .group, .any⟩,
  ⟨32, 32, 1, .rw, .hold, .group, .range 1 4294967295⟩]⟩
/-- GRP_OVRg -/
def regRow_GRP_OVR : RegRow RegName := ⟨.GRP_OVR, 0x210028, [(8, 0x100)], false, [
  ⟨0, 17, 0x10000, .rw, .live, .group, .any⟩,
  ⟨48, 16, 200, .rw, .hold, .group, .range 1 65535⟩]⟩
/-- GRP_CMDg -/
def regRow_GRP_CMD : RegRow RegName := ⟨.GRP_CMD, 0x210030, [(8, 0x100)], false, [
  ⟨0, 3, 0, .wo, .live, .group, .range 1 5⟩,
  ⟨3, 1, 0, .wo, .live, .group, .any⟩,
  ⟨4, 2, 0, .wo, .live, .group, .any⟩,
  ⟨16, 11, 0, .wo, .live, .group, .any⟩]⟩
/-- GRP_STATg -/
def regRow_GRP_STAT : RegRow RegName := ⟨.GRP_STAT, 0x210038, [(8, 0x100)], false, [
  ⟨0, 3, 0, .ro, .none, .none, .any⟩,
  ⟨8, 8, 0, .ro, .none, .none, .any⟩,
  ⟨16, 10, 0, .ro, .none, .none, .any⟩,
  ⟨32, 11, 0, .ro, .none, .none, .any⟩,
  ⟨48, 16, 0, .ro, .none, .none, .any⟩]⟩
/-- GRP_SSk -/
def regRow_GRP_SS : RegRow RegName := ⟨.GRP_SS, 0x210800, [(4, 8)], false, [
  ⟨0, 2, 0, .rw, .image, .fixed, .range 0 2⟩,
  ⟨2, 5, 0, .rw, .image, .fixed, .any⟩,
  ⟨7, 1, 0, .rw, .image, .fixed, .any⟩,
  ⟨8, 1, 0, .wo, .live, .atOnce, .any⟩,
  ⟨16, 16, 0, .ro, .none, .none, .any⟩,
  ⟨32, 16, 0, .ro, .none, .none, .any⟩]⟩
/-- GRP_STTAB -/
def regRow_GRP_STTAB : RegRow RegName := ⟨.GRP_STTAB, 0x210900, [], false, [
  ⟨0, 32, 0, .rw, .image, .fixed, .any⟩]⟩
/-- SLC_CHYCFG -/
def regRow_SLC_CHYCFG : RegRow RegName := ⟨.SLC_CHYCFG, 0x101820, [(16, 0x4000)], false, [
  ⟨0, 3, 0, .rw, .image, .fixed, .any⟩,
  ⟨3, 1, 0, .rw, .image, .fixed, .any⟩,
  ⟨4, 1, 0, .rw, .image, .fixed, .any⟩,
  ⟨5, 1, 0, .rw, .image, .fixed, .any⟩,
  ⟨8, 8, 8, .rw, .image, .fixed, .range 1 255⟩,
  ⟨16, 16, 0x51f, .rw, .image, .fixed, .any⟩,
  ⟨32, 24, 0, .rw, .image, .fixed, .any⟩]⟩
/-- SLC_CHYRAT -/
def regRow_SLC_CHYRAT : RegRow RegName := ⟨.SLC_CHYRAT, 0x101828, [(16, 0x4000)], false, [
  ⟨0, 32, 1, .rw, .image, .fixed, .any⟩,
  ⟨32, 32, 1, .rw, .image, .fixed, .range 1 4294967295⟩]⟩
/-- SLC_CHYSTAT -/
def regRow_SLC_CHYSTAT : RegRow RegName := ⟨.SLC_CHYSTAT, 0x101830, [(16, 0x4000)], false, [
  ⟨0, 1, 0, .ro, .none, .none, .any⟩,
  ⟨1, 1, 0, .ro, .none, .none, .any⟩,
  ⟨16, 16, 0, .ro, .none, .none, .any⟩,
  ⟨32, 24, 0, .ro, .none, .none, .any⟩]⟩
/-- NET_CFG -/
def regRow_NET_CFG : RegRow RegName := ⟨.NET_CFG, 0x300000, [], false, [
  ⟨0, 2, 0, .rw, .image, .fixed, .range 0 1⟩,
  ⟨2, 1, 1, .rw, .image, .fixed, .any⟩,
  ⟨3, 1, 0, .rw, .image, .fixed, .any⟩,
  ⟨4, 1, 0, .rw, .image, .fixed, .any⟩,
  ⟨5, 1, 0, .rw, .image, .fixed, .any⟩,
  ⟨8, 12, 0x12c, .rw, .image, .fixed, .orZero 10 4095⟩]⟩
/-- NET_MAC -/
def regRow_NET_MAC : RegRow RegName := ⟨.NET_MAC, 0x300008, [], false, [
  ⟨0, 48, 0, .rw, .image, .fixed, .any⟩]⟩
/-- NET_PRIMAP -/
def regRow_NET_PRIMAP : RegRow RegName := ⟨.NET_PRIMAP, 0x300010, [], false, [
  ⟨0, 2, 1, .rw, .image, .fixed, .any⟩,
  ⟨2, 2, 0, .rw, .image, .fixed, .any⟩,
  ⟨4, 2, 1, .rw, .image, .fixed, .any⟩,
  ⟨6, 2, 1, .rw, .image, .fixed, .any⟩,
  ⟨8, 2, 2, .rw, .image, .fixed, .any⟩,
  ⟨10, 2, 2, .rw, .image, .fixed, .any⟩,
  ⟨12, 2, 3, .rw, .image, .fixed, .any⟩,
  ⟨14, 2, 3, .rw, .image, .fixed, .any⟩,
  ⟨16, 3, 6, .rw, .image, .fixed, .any⟩,
  ⟨19, 3, 5, .rw, .image, .fixed, .any⟩,
  ⟨22, 3, 1, .rw, .image, .fixed, .any⟩,
  ⟨25, 1, 0, .rw, .image, .fixed, .any⟩,
  ⟨32, 12, 1, .rw, .image, .fixed, .range 1 4094⟩]⟩
/-- NET_CMD -/
def regRow_NET_CMD : RegRow RegName := ⟨.NET_CMD, 0x300018, [], false, [
  ⟨0, 1, 0, .wo, .live, .atOnce, .any⟩,
  ⟨1, 1, 0, .wo, .live, .atOnce, .any⟩]⟩
/-- NET_FOSTAT -/
def regRow_NET_FOSTAT : RegRow RegName := ⟨.NET_FOSTAT, 0x300020, [], false, [
  ⟨0, 1, 0, .ro, .none, .none, .any⟩,
  ⟨1, 1, 1, .ro, .none, .none, .any⟩,
  ⟨2, 1, 0, .w1c, .none, .none, .any⟩,
  ⟨16, 16, 0, .ro, .none, .none, .any⟩,
  ⟨32, 11, 0, .ro, .none, .none, .any⟩,
  ⟨48, 16, 0x1000, .ro, .none, .none, .any⟩]⟩
/-- NET_PCFGp -/
def regRow_NET_PCFG : RegRow RegName := ⟨.NET_PCFG, 0x300100, [(2, 0x100)], false, [
  ⟨0, 3, 0, .rw, .image, .fixed, .range 0 4⟩,
  ⟨3, 1, 1, .rw, .image, .fixed, .any⟩,
  ⟨4, 2, 0, .rw, .image, .fixed, .range 0 2⟩,
  ⟨6, 1, 1, .rw, .image, .fixed, .any⟩,
  ⟨8, 8, 0, .rw, .image, .fixed, .any⟩,
  ⟨16, 12, 1, .rw, .image, .fixed, .range 1 4094⟩,
  ⟨28, 3, 0, .rw, .image, .fixed, .any⟩,
  ⟨32, 14, 0x5f2, .rw, .image, .fixed, .range 64 9216⟩,
  ⟨46, 4, 8, .rw, .image, .fixed, .any⟩,
  ⟨50, 3, 0, .rw, .image, .fixed, .range 0 6⟩]⟩
/-- NET_PSTATp -/
def regRow_NET_PSTAT : RegRow RegName := ⟨.NET_PSTAT, 0x300108, [(2, 0x100)], false, [
  ⟨0, 1, 0, .ro, .none, .none, .any⟩,
  ⟨1, 1, 0, .ro, .none, .none, .any⟩,
  ⟨2, 3, 0, .ro, .none, .none, .any⟩,
  ⟨5, 1, 0, .ro, .none, .none, .any⟩,
  ⟨6, 1, 0, .ro, .none, .none, .any⟩,
  ⟨7, 1, 0, .ro, .none, .none, .any⟩,
  ⟨8, 8, 0, .ro, .none, .none, .any⟩,
  ⟨16, 8, 0, .ro, .none, .none, .any⟩,
  ⟨24, 1, 0, .w1c, .none, .none, .any⟩]⟩
/-- NET_FCTHp -/
def regRow_NET_FCTH : RegRow RegName := ⟨.NET_FCTH, 0x300110, [(2, 0x100)], false, [
  ⟨0, 16, 0xc00, .rw, .image, .fixed, .any⟩,
  ⟨16, 16, 0x800, .rw, .image, .fixed, .any⟩,
  ⟨32, 16, 0xffff, .rw, .image, .fixed, .range 1 65535⟩]⟩
/-- NET_PFCTHp -/
def regRow_NET_PFCTH : RegRow RegName := ⟨.NET_PFCTH, 0x300118, [(2, 0x100)], false, [
  ⟨0, 8, 0, .rw, .image, .fixed, .any⟩,
  ⟨8, 8, 0, .rw, .image, .fixed, .any⟩,
  ⟨16, 8, 0, .rw, .image, .fixed, .any⟩,
  ⟨24, 8, 0, .rw, .image, .fixed, .any⟩,
  ⟨32, 8, 0, .rw, .image, .fixed, .any⟩,
  ⟨40, 8, 0, .rw, .image, .fixed, .any⟩,
  ⟨48, 8, 0, .rw, .image, .fixed, .any⟩,
  ⟨56, 8, 0, .rw, .image, .fixed, .any⟩]⟩
/-- NET_EQp -/
def regRow_NET_EQ : RegRow RegName := ⟨.NET_EQ, 0x300120, [(2, 0x100)], false, [
  ⟨0, 16, 0x500, .rw, .image, .fixed, .any⟩,
  ⟨16, 16, 0x600, .rw, .image, .fixed, .any⟩,
  ⟨32, 16, 0x400, .rw, .image, .fixed, .any⟩,
  ⟨48, 16, 0x100, .rw, .image, .fixed, .any⟩]⟩
/-- NET_PCNT0p -/
def regRow_NET_PCNT0 : RegRow RegName := ⟨.NET_PCNT0, 0x300128, [(2, 0x100)], false, [
  ⟨0, 32, 0, .ro, .none, .none, .any⟩,
  ⟨32, 32, 0, .ro, .none, .none, .any⟩]⟩
/-- NET_PCNT1p -/
def regRow_NET_PCNT1 : RegRow RegName := ⟨.NET_PCNT1, 0x300130, [(2, 0x100)], false, [
  ⟨0, 16, 0, .ro, .none, .none, .any⟩,
  ⟨16, 16, 0, .ro, .none, .none, .any⟩,
  ⟨32, 16, 0, .ro, .none, .none, .any⟩,
  ⟨48, 16, 0, .ro, .none, .none, .any⟩]⟩
/-- NET_PCNT2p -/
def regRow_NET_PCNT2 : RegRow RegName := ⟨.NET_PCNT2, 0x300138, [(2, 0x100)], false, [
  ⟨0, 16, 0, .ro, .none, .none, .any⟩,
  ⟨16, 16, 0, .ro, .none, .none, .any⟩,
  ⟨32, 16, 0, .ro, .none, .none, .any⟩,
  ⟨48, 16, 0, .ro, .none, .none, .any⟩]⟩
/-- NET_VLANk -/
def regRow_NET_VLAN : RegRow RegName := ⟨.NET_VLAN, 0x300800, [(64, 8)], false, [
  ⟨0, 12, 0, .rw, .image, .fixed, .any⟩,
  ⟨12, 1, 0, .rw, .image, .fixed, .any⟩,
  ⟨13, 3, 0, .rw, .image, .fixed, .any⟩,
  ⟨16, 3, 0, .rw, .image, .fixed, .any⟩]⟩
/-- PTP_CFG -/
def regRow_PTP_CFG : RegRow RegName := ⟨.PTP_CFG, 0x310000, [], false, [
  ⟨0, 2, 0, .rw, .image, .fixed, .any⟩,
  ⟨2, 1, 0, .rw, .image, .fixed, .any⟩,
  ⟨3, 1, 0, .rw, .image, .fixed, .any⟩,
  ⟨4, 2, 0, .rw, .image, .fixed, .range 0 2⟩,
  ⟨6, 1, 1, .rw, .image, .fixed, .any⟩,
  ⟨8, 8, 0, .rw, .image, .fixed, .range 0 127⟩,
  ⟨16, 8, 128, .rw, .image, .fixed, .any⟩,
  ⟨24, 8, 128, .rw, .image, .fixed, .any⟩,
  ⟨32, 8, 248, .rw, .image, .fixed, .any⟩,
  ⟨40, 4, 13, .rw, .image, .fixed, .among [9, 10, 11, 12, 13, 14, 15, 0, 1]⟩,
  ⟨44, 4, 1, .rw, .image, .fixed, .among [13, 14, 15, 0, 1, 2, 3]⟩,
  ⟨48, 4, 3, .rw, .image, .fixed, .range 2 15⟩,
  ⟨52, 4, 0, .rw, .image, .fixed, .among [9, 10, 11, 12, 13, 14, 15, 0, 1, 2, 3, 4, 5]⟩]⟩
/-- PTP_SERVO -/
def regRow_PTP_SERVO : RegRow RegName := ⟨.PTP_SERVO, 0x310008, [], false, [
  ⟨0, 16, 10, .rw, .image, .fixed, .range 1 65535⟩,
  ⟨16, 16, 100, .rw, .image, .fixed, .range 1 65535⟩,
  ⟨32, 8, 16, .rw, .image, .fixed, .range 1 255⟩,
  ⟨40, 8, 4, .rw, .image, .fixed, .range 1 255⟩,
  ⟨48, 16, 60, .rw, .image, .fixed, .range 1 65535⟩]⟩
/-- PTP_SRC -/
def regRow_PTP_SRC : RegRow RegName := ⟨.PTP_SRC, 0x310010, [], false, [
  ⟨0, 1, 0, .rw, .image, .fixed, .any⟩,
  ⟨1, 1, 0, .rw, .image, .fixed, .any⟩,
  ⟨2, 1, 0, .rw, .image, .fixed, .any⟩,
  ⟨8, 8, 37, .rw, .live, .atOnce, .any⟩]⟩
/-- PTP_TIME0 -/
def regRow_PTP_TIME0 : RegRow RegName := ⟨.PTP_TIME0, 0x310018, [], false, [
  ⟨0, 30, 0, .ro, .none, .none, .any⟩,
  ⟨32, 16, 0, .ro, .none, .none, .any⟩]⟩
/-- PTP_TIME1 -/
def regRow_PTP_TIME1 : RegRow RegName := ⟨.PTP_TIME1, 0x310020, [], false, [
  ⟨0, 48, 0, .ro, .none, .none, .any⟩]⟩
/-- PTP_ADJ -/
def regRow_PTP_ADJ : RegRow RegName := ⟨.PTP_ADJ, 0x310028, [], false, [
  ⟨0, 40, 0, .wo, .live, .atOnce, .any⟩,
  ⟨48, 1, 0, .wo, .live, .atOnce, .any⟩]⟩
/-- PTP_SETSEC -/
def regRow_PTP_SETSEC : RegRow RegName := ⟨.PTP_SETSEC, 0x310030, [], false, [
  ⟨0, 48, 0, .wo, .live, .second, .any⟩]⟩
/-- PTP_RATE -/
def regRow_PTP_RATE : RegRow RegName := ⟨.PTP_RATE, 0x310038, [], false, [
  ⟨0, 48, 0, .rw, .live, .atOnce, .any⟩]⟩
/-- PTP_STAT -/
def regRow_PTP_STAT : RegRow RegName := ⟨.PTP_STAT, 0x310040, [], false, [
  ⟨0, 1, 0, .ro, .none, .none, .any⟩,
  ⟨1, 1, 0, .ro, .none, .none, .any⟩,
  ⟨2, 1, 0, .ro, .none, .none, .any⟩,
  ⟨3, 1, 0, .ro, .none, .none, .any⟩,
  ⟨4, 2, 0, .ro, .none, .none, .any⟩,
  ⟨6, 1, 0, .ro, .none, .none, .any⟩,
  ⟨7, 1, 0, .ro, .none, .none, .any⟩,
  ⟨8, 1, 0, .ro, .none, .none, .any⟩,
  ⟨32, 32, 0, .ro, .none, .none, .any⟩]⟩
/-- PTP_OFFS -/
def regRow_PTP_OFFS : RegRow RegName := ⟨.PTP_OFFS, 0x310048, [], false, [
  ⟨0, 32, 0, .ro, .none, .none, .any⟩,
  ⟨32, 32, 0, .ro, .none, .none, .any⟩]⟩
/-- PTP_GMID -/
def regRow_PTP_GMID : RegRow RegName := ⟨.PTP_GMID, 0x310050, [], false, [
  ⟨0, 64, 0, .ro, .none, .none, .any⟩]⟩
/-- PTP_EPOCH0 -/
def regRow_PTP_EPOCH0 : RegRow RegName := ⟨.PTP_EPOCH0, 0x310058, [], false, [
  ⟨0, 30, 0, .rw, .image, .fixed, .range 0 999999999⟩,
  ⟨32, 16, 0, .rw, .image, .fixed, .range 0 0⟩]⟩
/-- PTP_EPOCH1 -/
def regRow_PTP_EPOCH1 : RegRow RegName := ⟨.PTP_EPOCH1, 0x310060, [], false, [
  ⟨0, 48, 0, .rw, .image, .fixed, .any⟩]⟩
/-- PTP_SIN -/
def regRow_PTP_SIN : RegRow RegName := ⟨.PTP_SIN, 0x310068, [], false, [
  ⟨0, 64, 0, .ro, .none, .none, .any⟩]⟩
/-- PTP_SOUT -/
def regRow_PTP_SOUT : RegRow RegName := ⟨.PTP_SOUT, 0x310070, [], false, [
  ⟨0, 4, 0, .rw, .image, .fixed, .any⟩,
  ⟨4, 1, 0, .rw, .image, .fixed, .any⟩,
  ⟨5, 1, 0, .rw, .image, .fixed, .any⟩,
  ⟨8, 24, 1, .rw, .image, .fixed, .range 1 16777215⟩]⟩
/-- PTP_CNT -/
def regRow_PTP_CNT : RegRow RegName := ⟨.PTP_CNT, 0x310078, [], false, [
  ⟨0, 16, 0, .ro, .none, .none, .any⟩,
  ⟨16, 16, 0, .ro, .none, .none, .any⟩,
  ⟨32, 16, 0, .ro, .none, .none, .any⟩,
  ⟨48, 16, 0, .ro, .none, .none, .any⟩]⟩
/-- PTP_PORTp -/
def regRow_PTP_PORT : RegRow RegName := ⟨.PTP_PORT, 0x310100, [(2, 0x100)], false, [
  ⟨0, 16, 0, .rw, .image, .fixed, .any⟩,
  ⟨16, 16, 0, .rw, .image, .fixed, .any⟩,
  ⟨32, 32, 0, .rw, .image, .fixed, .any⟩]⟩
/-- PTP_CMPk0 -/
def regRow_PTP_CMP0 : RegRow RegName := ⟨.PTP_CMP0, 0x310400, [(16, 32)], false, [
  ⟨0, 30, 0, .rw, .hold, .comparator, .range 0 999999999⟩,
  ⟨32, 16, 0, .rw, .hold, .comparator, .any⟩]⟩
/-- PTP_CMPk1 -/
def regRow_PTP_CMP1 : RegRow RegName := ⟨.PTP_CMP1, 0x310408, [(16, 32)], false, [
  ⟨0, 48, 0, .rw, .hold, .comparator, .any⟩]⟩
/-- PTP_CMPk2 -/
def regRow_PTP_CMP2 : RegRow RegName := ⟨.PTP_CMP2, 0x310410, [(16, 32)], false, [
  ⟨0, 30, 0, .rw, .hold, .comparator, .any⟩,
  ⟨32, 16, 0, .rw, .hold, .comparator, .any⟩]⟩
/-- PTP_CMPk3 -/
def regRow_PTP_CMP3 : RegRow RegName := ⟨.PTP_CMP3, 0x310418, [(16, 32)], false, [
  ⟨0, 1, 0, .rw, .live, .atOnce, .any⟩,
  ⟨1, 1, 0, .w1c, .none, .none, .any⟩,
  ⟨2, 1, 0, .w1c, .none, .none, .any⟩,
  ⟨16, 16, 0, .rw, .hold, .comparator, .any⟩,
  ⟨32, 12, 0, .rw, .hold, .comparator, .any⟩,
  ⟨48, 16, 0, .ro, .none, .none, .any⟩]⟩
/-- NET_HPCFG0 -/
def regRow_NET_HPCFG0 : RegRow RegName := ⟨.NET_HPCFG0, 0x301000, [], false, [
  ⟨0, 16, 0x88b5, .rw, .image, .fixed, .any⟩,
  ⟨16, 16, 0xca26, .rw, .image, .fixed, .any⟩,
  ⟨32, 32, 0, .rw, .image, .fixed, .any⟩]⟩
/-- NET_HPCFG1 -/
def regRow_NET_HPCFG1 : RegRow RegName := ⟨.NET_HPCFG1, 0x301008, [], false, [
  ⟨0, 1, 0, .rw, .image, .fixed, .any⟩,
  ⟨1, 1, 0, .rw, .hold, .hostEngine, .any⟩,
  ⟨8, 8, 10, .rw, .hold, .hostEngine, .range 1 255⟩,
  ⟨16, 4, 5, .rw, .hold, .hostEngine, .range 1 15⟩,
  ⟨32, 16, 60, .rw, .image, .fixed, .range 1 65535⟩,
  ⟨48, 16, 100, .rw, .image, .fixed, .any⟩]⟩
/-- NET_HPKEYk -/
def regRow_NET_HPKEY : RegRow RegName := ⟨.NET_HPKEY, 0x301010, [(4, 8)], false, [
  ⟨0, 64, 0, .wo, .image, .fixed, .any⟩]⟩
/-- NET_HPSTAT -/
def regRow_NET_HPSTAT : RegRow RegName := ⟨.NET_HPSTAT, 0x301030, [], false, [
  ⟨0, 4, 0, .ro, .none, .none, .any⟩,
  ⟨4, 4, 0, .ro, .none, .none, .any⟩,
  ⟨16, 16, 0, .ro, .none, .none, .any⟩,
  ⟨32, 16, 0, .ro, .none, .none, .any⟩,
  ⟨48, 16, 0, .ro, .none, .none, .any⟩]⟩
/-- NET_HPCNT -/
def regRow_NET_HPCNT : RegRow RegName := ⟨.NET_HPCNT, 0x301038, [], false, [
  ⟨0, 16, 0, .ro, .none, .none, .any⟩,
  ⟨16, 16, 0, .ro, .none, .none, .any⟩,
  ⟨32, 16, 0, .ro, .none, .none, .any⟩,
  ⟨48, 16, 0, .ro, .none, .none, .any⟩]⟩
/-- ACQ_CFG -/
def regRow_ACQ_CFG : RegRow RegName := ⟨.ACQ_CFG, 0x320000, [], false, [
  ⟨0, 1, 0, .rw, .image, .fixed, .any⟩,
  ⟨2, 2, 0, .rw, .hold, .acq, .any⟩,
  ⟨8, 14, 0x800, .rw, .hold, .acq, .multiple 8 256 8192⟩,
  ⟨32, 16, 0x3e8, .rw, .hold, .acq, .range 10 65535⟩]⟩
/-- ACQ_CTL -/
def regRow_ACQ_CTL : RegRow RegName := ⟨.ACQ_CTL, 0x320008, [], false, [
  ⟨0, 1, 0, .rw, .live, .atOnce, .any⟩,
  ⟨1, 3, 0, .rw, .live, .atOnce, .range 0 4⟩]⟩
/-- ACQ_CLKc -/
def regRow_ACQ_CLK : RegRow RegName := ⟨.ACQ_CLK, 0x320010, [(4, 8)], false, [
  ⟨0, 2, 0, .rw, .hold, .acq, .any⟩,
  ⟨2, 14, 0, .rw, .hold, .acq, .any⟩,
  ⟨16, 16, 0, .rw, .hold, .acq, .any⟩]⟩
/-- ACQ_TCMD -/
def regRow_ACQ_TCMD : RegRow RegName := ⟨.ACQ_TCMD, 0x320030, [], false, [
  ⟨0, 1, 0, .wo, .live, .atOnce, .any⟩,
  ⟨1, 1, 0, .wo, .live, .atOnce, .any⟩,
  ⟨2, 1, 0, .wo, .live, .atOnce, .any⟩]⟩
/-- ACQ_TSTAT -/
def regRow_ACQ_TSTAT : RegRow RegName := ⟨.ACQ_TSTAT, 0x320038, [], false, [
  ⟨0, 1, 0, .ro, .none, .none, .any⟩,
  ⟨1, 3, 0, .ro, .none, .none, .any⟩,
  ⟨8, 14, 0, .ro, .none, .none, .any⟩,
  ⟨32, 16, 0, .ro, .none, .none, .any⟩,
  ⟨48, 9, 0, .ro, .none, .none, .any⟩]⟩
/-- ACQ_STAT -/
def regRow_ACQ_STAT : RegRow RegName := ⟨.ACQ_STAT, 0x320040, [], false, [
  ⟨0, 16, 0, .ro, .none, .none, .any⟩,
  ⟨16, 16, 0, .ro, .none, .none, .any⟩,
  ⟨32, 16, 0, .ro, .none, .none, .any⟩,
  ⟨48, 16, 0, .ro, .none, .none, .any⟩]⟩
/-- ACQ_CNT -/
def regRow_ACQ_CNT : RegRow RegName := ⟨.ACQ_CNT, 0x320048, [], false, [
  ⟨0, 32, 0, .ro, .none, .none, .any⟩,
  ⟨32, 32, 0, .ro, .none, .none, .any⟩]⟩
/-- ACQ_RING -/
def regRow_ACQ_RING : RegRow RegName := ⟨.ACQ_RING, 0x320050, [], false, [
  ⟨0, 32, 0, .ro, .none, .none, .any⟩,
  ⟨32, 32, 0, .ro, .none, .none, .any⟩]⟩
/-- ACQ_CHk -/
def regRow_ACQ_CH : RegRow RegName := ⟨.ACQ_CH, 0x320100, [(64, 8)], false, [
  ⟨0, 1, 0, .rw, .hold, .acq, .any⟩,
  ⟨1, 2, 0, .rw, .hold, .acq, .any⟩,
  ⟨3, 1, 0, .rw, .hold, .acq, .any⟩,
  ⟨4, 1, 0, .rw, .hold, .acq, .any⟩,
  ⟨32, 32, 0, .rw, .hold, .acq, .any⟩]⟩
/-- ACQ_TSk -/
def regRow_ACQ_TS : RegRow RegName := ⟨.ACQ_TS, 0x320400, [(8, 16)], false, [
  ⟨0, 3, 0, .rw, .hold, .acq, .any⟩,
  ⟨3, 6, 0, .rw, .hold, .acq, .any⟩,
  ⟨9, 1, 0, .rw, .hold, .acq, .any⟩,
  ⟨10, 1, 0, .rw, .hold, .acq, .any⟩,
  ⟨11, 1, 0, .rw, .hold, .acq, .any⟩,
  ⟨12, 3, 0, .rw, .hold, .acq, .any⟩,
  ⟨15, 3, 0, .rw, .hold, .acq, .any⟩,
  ⟨18, 14, 1, .rw, .hold, .acq, .range 1 16383⟩,
  ⟨32, 32, 0, .rw, .hold, .acq, .any⟩]⟩
/-- ACQ_TLVk -/
def regRow_ACQ_TLV : RegRow RegName := ⟨.ACQ_TLV, 0x320408, [(8, 16)], false, [
  ⟨0, 32, 0, .rw, .hold, .acq, .any⟩,
  ⟨32, 32, 0, .rw, .hold, .acq, .any⟩]⟩
/-- CANc_CFG -/
def regRow_CAN_CFG : RegRow RegName := ⟨.CAN_CFG, 0x330200, [(2, 0x200)], false, [
  ⟨0, 1, 0, .rw, .image, .fixed, .any⟩,
  ⟨1, 1, 0, .rw, .image, .fixed, .any⟩,
  ⟨2, 1, 0, .rw, .image, .fixed, .any⟩,
  ⟨3, 1, 0, .rw, .image, .fixed, .any⟩,
  ⟨4, 2, 0, .rw, .image, .fixed, .range 0 1⟩,
  ⟨6, 1, 0, .rw, .image, .fixed, .any⟩,
  ⟨8, 4, 0, .rw, .image, .fixed, .any⟩,
  ⟨16, 8, 0, .rw, .image, .fixed, .any⟩]⟩
/-- CANc_NBT -/
def regRow_CAN_NBT : RegRow RegName := ⟨.CAN_NBT, 0x330208, [(2, 0x200)], false, [
  ⟨0, 8, 0, .rw, .image, .fixed, .any⟩,
  ⟨8, 8, 0, .rw, .image, .fixed, .range 1 255⟩,
  ⟨16, 7, 0, .rw, .image, .fixed, .any⟩,
  ⟨24, 7, 0, .rw, .image, .fixed, .any⟩]⟩
/-- CANc_DBT -/
def regRow_CAN_DBT : RegRow RegName := ⟨.CAN_DBT, 0x330210, [(2, 0x200)], false, [
  ⟨0, 5, 0, .rw, .image, .fixed, .any⟩,
  ⟨8, 5, 0, .rw, .image, .fixed, .any⟩,
  ⟨16, 4, 0, .rw, .image, .fixed, .any⟩,
  ⟨24, 4, 0, .rw, .image, .fixed, .any⟩,
  ⟨28, 1, 0, .rw, .image, .fixed, .any⟩,
  ⟨32, 7, 0, .rw, .image, .fixed, .any⟩]⟩
/-- CANc_STAT -/
def regRow_CAN_STAT : RegRow RegName := ⟨.CAN_STAT, 0x330218, [(2, 0x200)], false, [
  ⟨0, 2, 0, .ro, .none, .none, .any⟩,
  ⟨2, 1, 0, .ro, .none, .none, .any⟩,
  ⟨3, 1, 0, .ro, .none, .none, .any⟩,
  ⟨4, 1, 0, .w1c, .none, .none, .any⟩,
  ⟨8, 8, 0, .ro, .none, .none, .any⟩,
  ⟨16, 8, 0, .ro, .none, .none, .any⟩,
  ⟨24, 8, 0, .ro, .none, .none, .any⟩,
  ⟨32, 7, 0, .ro, .none, .none, .any⟩]⟩
/-- CANc_CNT -/
def regRow_CAN_CNT : RegRow RegName := ⟨.CAN_CNT, 0x330220, [(2, 0x200)], false, [
  ⟨0, 16, 0, .ro, .none, .none, .any⟩,
  ⟨16, 16, 0, .ro, .none, .none, .any⟩,
  ⟨32, 16, 0, .ro, .none, .none, .any⟩,
  ⟨48, 16, 0, .ro, .none, .none, .any⟩]⟩
/-- CANc_TXREQ -/
def regRow_CAN_TXREQ : RegRow RegName := ⟨.CAN_TXREQ, 0x330228, [(2, 0x200)], false, [
  ⟨0, 64, 0, .wo, .live, .atOnce, .any⟩]⟩
/-- CANc_TXABT -/
def regRow_CAN_TXABT : RegRow RegName := ⟨.CAN_TXABT, 0x330230, [(2, 0x200)], false, [
  ⟨0, 64, 0, .wo, .live, .atOnce, .any⟩]⟩
/-- CANc_TXPEND -/
def regRow_CAN_TXPEND : RegRow RegName := ⟨.CAN_TXPEND, 0x330238, [(2, 0x200)], false, [
  ⟨0, 64, 0, .ro, .none, .none, .any⟩]⟩
/-- CANc_TXDONE -/
def regRow_CAN_TXDONE : RegRow RegName := ⟨.CAN_TXDONE, 0x330240, [(2, 0x200)], false, [
  ⟨0, 64, 0, .w1c, .none, .none, .any⟩]⟩
/-- CANc_RXFULLh -/
def regRow_CAN_RXFULL : RegRow RegName := ⟨.CAN_RXFULL, 0x330248, [(2, 0x200), (2, 8)], false, [
  ⟨0, 64, 0, .w1c, .none, .none, .any⟩]⟩
/-- CANc_RXPTR -/
def regRow_CAN_RXPTR : RegRow RegName := ⟨.CAN_RXPTR, 0x330258, [(2, 0x200)], false, [
  ⟨0, 7, 0, .ro, .none, .none, .any⟩,
  ⟨8, 8, 0, .ro, .none, .none, .any⟩]⟩
/-- CANc_TTCFG -/
def regRow_CAN_TTCFG : RegRow RegName := ⟨.CAN_TTCFG, 0x330260, [(2, 0x200)], false, [
  ⟨0, 6, 0, .rw, .image, .fixed, .any⟩,
  ⟨8, 3, 0, .rw, .image, .fixed, .any⟩,
  ⟨16, 16, 0, .rw, .image, .fixed, .any⟩,
  ⟨32, 29, 0, .rw, .image, .fixed, .any⟩,
  ⟨61, 1, 0, .rw, .image, .fixed, .any⟩]⟩
/-- CANc_TTMk -/
def regRow_CAN_TTM : RegRow RegName := ⟨.CAN_TTM, 0x330280, [(2, 0x200), (16, 8)], false, [
  ⟨0, 16, 0, .rw, .image, .fixed, .any⟩,
  ⟨16, 16, 0, .rw, .image, .fixed, .any⟩,
  ⟨32, 16, 0, .rw, .image, .fixed, .any⟩,
  ⟨48, 16, 0, .rw, .image, .fixed, .any⟩]⟩
/-- CANc_FLTk -/
def regRow_CAN_FLT : RegRow RegName := ⟨.CAN_FLT, 0x330300, [(2, 0x200), (32, 8)], false, [
  ⟨0, 29, 0, .rw, .image, .fixed, .any⟩,
  ⟨29, 1, 0, .rw, .image, .fixed, .any⟩,
  ⟨30, 1, 0, .rw, .image, .fixed, .any⟩,
  ⟨31, 1, 0, .rw, .image, .fixed, .any⟩,
  ⟨32, 29, 0, .rw, .image, .fixed, .any⟩]⟩
/-- FIO_OUT -/
def regRow_FIO_OUT : RegRow RegName := ⟨.FIO_OUT, 0x340000, [], false, [
  ⟨0, 24, 0, .rw, .live, .atOnce, .any⟩]⟩
/-- FIO_IN -/
def regRow_FIO_IN : RegRow RegName := ⟨.FIO_IN, 0x340008, [], false, [
  ⟨0, 24, 0, .ro, .none, .none, .any⟩,
  ⟨24, 24, 0, .ro, .none, .none, .any⟩]⟩
/-- FIO_WD -/
def regRow_FIO_WD : RegRow RegName := ⟨.FIO_WD, 0x340010, [], true, [
  ⟨0, 10, 0, .rw, .image, .fixed, .range 1 1000⟩,
  ⟨10, 1, 0, .rw, .image, .fixed, .any⟩]⟩
/-- FIO_WDKICK -/
def regRow_FIO_WDKICK : RegRow RegName := ⟨.FIO_WDKICK, 0x340018, [], false, [
  ⟨0, 8, 0, .wo, .live, .atOnce, .among [90]⟩]⟩
/-- FIO_SUP -/
def regRow_FIO_SUP : RegRow RegName := ⟨.FIO_SUP, 0x340020, [], false, [
  ⟨0, 1, 0, .ro, .none, .none, .any⟩,
  ⟨1, 1, 1, .ro, .none, .none, .any⟩,
  ⟨2, 1, 0, .ro, .none, .none, .any⟩,
  ⟨3, 1, 1, .ro, .none, .none, .any⟩,
  ⟨4, 1, 0, .ro, .none, .none, .any⟩,
  ⟨16, 16, 0, .ro, .none, .none, .any⟩,
  ⟨32, 16, 0, .ro, .none, .none, .any⟩]⟩
/-- FIO_CMD -/
def regRow_FIO_CMD : RegRow RegName := ⟨.FIO_CMD, 0x340028, [], false, [
  ⟨0, 24, 0, .wo, .live, .atOnce, .any⟩,
  ⟨24, 1, 0, .wo, .live, .atOnce, .any⟩]⟩
/-- FIO_TIM -/
def regRow_FIO_TIM : RegRow RegName := ⟨.FIO_TIM, 0x340030, [], true, [
  ⟨0, 16, 0, .rw, .image, .fixed, .range 10 65535⟩,
  ⟨16, 16, 0, .rw, .image, .fixed, .range 100 10000⟩,
  ⟨32, 10, 0, .rw, .image, .fixed, .range 100 1000⟩]⟩
/-- FIO_CFGk -/
def regRow_FIO_CFG : RegRow RegName := ⟨.FIO_CFG, 0x340100, [(24, 8)], false, [
  ⟨0, 2, 0, .rw, .image, .fixed, .range 0 2⟩,
  ⟨2, 2, 0, .rw, .image, .fixed, .range 0 2⟩,
  ⟨4, 2, 0, .rw, .image, .fixed, .any⟩,
  ⟨6, 4, 0, .rw, .image, .fixed, .any⟩,
  ⟨10, 3, 0, .rw, .image, .fixed, .range 0 4⟩,
  ⟨13, 1, 0, .rw, .image, .fixed, .any⟩,
  ⟨14, 1, 0, .rw, .image, .fixed, .any⟩,
  ⟨15, 1, 0, .rw, .image, .fixed, .any⟩,
  ⟨16, 2, 0, .rw, .image, .fixed, .range 0 2⟩,
  ⟨32, 16, 0, .rw, .live, .atOnce, .any⟩]⟩
/-- FIO_CHSTk -/
def regRow_FIO_CHST : RegRow RegName := ⟨.FIO_CHST, 0x340200, [(24, 8)], false, [
  ⟨0, 1, 0, .ro, .none, .none, .any⟩,
  ⟨1, 1, 0, .ro, .none, .none, .any⟩,
  ⟨2, 3, 0, .ro, .none, .none, .any⟩,
  ⟨5, 1, 0, .ro, .none, .none, .any⟩,
  ⟨16, 16, 0, .ro, .none, .none, .any⟩]⟩
/-- FIO_PWMk -/
def regRow_FIO_PWM : RegRow RegName := ⟨.FIO_PWM, 0x340300, [(16, 8)], false, [
  ⟨0, 32, 250, .rw, .live, .pwmPeriod, .range 250 4294967295⟩,
  ⟨32, 32, 0, .rw, .live, .pwmPeriod, .any⟩]⟩
/-- SAF_CFG -/
def regRow_SAF_CFG : RegRow RegName := ⟨.SAF_CFG, 0x350000, [], true, [
  ⟨0, 10, 0, .rw, .image, .fixed, .range 0 1000⟩]⟩
/-- SAF_STAT -/
def regRow_SAF_STAT : RegRow RegName := ⟨.SAF_STAT, 0x350008, [], false, [
  ⟨0, 1, 0, .ro, .none, .none, .any⟩,
  ⟨1, 1, 0, .ro, .none, .none, .any⟩,
  ⟨2, 1, 1, .ro, .none, .none, .any⟩,
  ⟨3, 1, 1, .ro, .none, .none, .any⟩,
  ⟨4, 1, 0, .ro, .none, .none, .any⟩,
  ⟨5, 1, 0, .ro, .none, .none, .any⟩,
  ⟨6, 1, 0, .ro, .none, .none, .any⟩,
  ⟨7, 1, 0, .ro, .none, .none, .any⟩,
  ⟨8, 1, 0, .ro, .none, .none, .any⟩,
  ⟨9, 1, 0, .ro, .none, .none, .any⟩,
  ⟨12, 3, 0, .ro, .none, .none, .any⟩]⟩
/-- SAF_CNT -/
def regRow_SAF_CNT : RegRow RegName := ⟨.SAF_CNT, 0x350010, [], false, [
  ⟨0, 16, 0, .ro, .none, .none, .any⟩,
  ⟨16, 16, 0, .ro, .none, .none, .any⟩,
  ⟨32, 32, 0, .ro, .none, .none, .any⟩]⟩
/-- TWN_CFG -/
def regRow_TWN_CFG : RegRow RegName := ⟨.TWN_CFG, 0x360000, [], true, [
  ⟨0, 1, 0, .rw, .image, .fixed, .any⟩,
  ⟨1, 7, 8, .rw, .image, .fixed, .range 2 64⟩,
  ⟨8, 2, 1, .rw, .image, .fixed, .range 0 2⟩,
  ⟨10, 1, 0, .rw, .image, .fixed, .any⟩,
  ⟨16, 10, 50, .rw, .image, .fixed, .range 1 600⟩,
  ⟨32, 8, 4, .rw, .image, .fixed, .range 1 255⟩]⟩
/-- TWN_STAT -/
def regRow_TWN_STAT : RegRow RegName := ⟨.TWN_STAT, 0x360008, [], false, [
  ⟨0, 3, 0, .ro, .none, .none, .any⟩,
  ⟨3, 1, 0, .ro, .none, .none, .any⟩,
  ⟨4, 1, 0, .ro, .none, .none, .any⟩,
  ⟨5, 1, 0, .ro, .none, .none, .any⟩,
  ⟨6, 1, 0, .ro, .none, .none, .any⟩,
  ⟨7, 1, 0, .ro, .none, .none, .any⟩,
  ⟨8, 1, 0, .ro, .none, .none, .any⟩,
  ⟨9, 1, 0, .ro, .none, .none, .any⟩,
  ⟨10, 1, 0, .ro, .none, .none, .any⟩,
  ⟨11, 1, 0, .ro, .none, .none, .any⟩,
  ⟨12, 1, 0, .ro, .none, .none, .any⟩,
  ⟨13, 1, 0, .ro, .none, .none, .any⟩,
  ⟨16, 16, 0, .ro, .none, .none, .any⟩,
  ⟨32, 16, 0, .ro, .none, .none, .any⟩]⟩
/-- TWN_EPOCH -/
def regRow_TWN_EPOCH : RegRow RegName := ⟨.TWN_EPOCH, 0x360010, [], false, [
  ⟨0, 32, 0, .ro, .none, .none, .any⟩,
  ⟨32, 32, 0, .ro, .none, .none, .any⟩]⟩
/-- TWN_GAP -/
def regRow_TWN_GAP : RegRow RegName := ⟨.TWN_GAP, 0x360018, [], false, [
  ⟨0, 32, 0, .ro, .none, .none, .any⟩,
  ⟨32, 32, 0, .ro, .none, .none, .any⟩]⟩
/-- TWN_CNT -/
def regRow_TWN_CNT : RegRow RegName := ⟨.TWN_CNT, 0x360020, [], false, [
  ⟨0, 16, 0, .ro, .none, .none, .any⟩,
  ⟨16, 16, 0, .ro, .none, .none, .any⟩,
  ⟨32, 16, 0, .ro, .none, .none, .any⟩,
  ⟨48, 16, 0, .ro, .none, .none, .any⟩]⟩
/-- PWR_PLVL -/
def regRow_PWR_PLVL : RegRow RegName := ⟨.PWR_PLVL, 0x10020, [], false, [
  ⟨0, 2, 0, .rw, .live, .mcc, .any⟩,
  ⟨2, 2, 0, .rw, .image, .fixed, .any⟩,
  ⟨4, 2, 0, .ro, .none, .none, .any⟩,
  ⟨6, 2, 0, .ro, .none, .none, .any⟩,
  ⟨8, 1, 0, .ro, .none, .none, .any⟩]⟩
/-- PWR_SLEEP -/
def regRow_PWR_SLEEP : RegRow RegName := ⟨.PWR_SLEEP, 0x10028, [], false, [
  ⟨0, 2, 0, .wo, .live, .mcc, .range 0 3⟩,
  ⟨8, 8, 0, .ro, .none, .none, .any⟩,
  ⟨32, 32, 0, .rw, .live, .mcc, .any⟩]⟩
/-- PWR_WCFG -/
def regRow_PWR_WCFG : RegRow RegName := ⟨.PWR_WCFG, 0x10030, [], false, [
  ⟨0, 1, 0, .rw, .live, .mcc, .any⟩,
  ⟨1, 1, 0, .rw, .live, .mcc, .any⟩,
  ⟨2, 1, 0, .rw, .live, .mcc, .any⟩,
  ⟨3, 1, 0, .rw, .live, .mcc, .any⟩,
  ⟨4, 1, 0, .rw, .live, .mcc, .any⟩,
  ⟨8, 8, 0, .rw, .live, .mcc, .any⟩]⟩
/-- PWR_WSTAT -/
def regRow_PWR_WSTAT : RegRow RegName := ⟨.PWR_WSTAT, 0x10038, [], false, [
  ⟨0, 4, 0, .ro, .none, .none, .any⟩,
  ⟨4, 1, 0, .ro, .none, .none, .any⟩,
  ⟨5, 1, 0, .ro, .none, .none, .any⟩,
  ⟨6, 1, 0, .ro, .none, .none, .any⟩,
  ⟨7, 1, 0, .ro, .none, .none, .any⟩,
  ⟨8, 3, 0, .ro, .none, .none, .any⟩,
  ⟨11, 2, 0, .ro, .none, .none, .any⟩,
  ⟨16, 2, 0, .ro, .none, .none, .any⟩,
  ⟨32, 16, 0, .ro, .none, .none, .any⟩]⟩
/-- PWR_RET -/
def regRow_PWR_RET : RegRow RegName := ⟨.PWR_RET, 0x10040, [], false, [
  ⟨0, 48, 0, .rw, .image, .fixed, .any⟩]⟩
/-- THM_CFG -/
def regRow_THM_CFG : RegRow RegName := ⟨.THM_CFG, 0x30000, [], true, [
  ⟨0, 16, 0x7d0, .rw, .image, .fixed, .range 100 10000⟩,
  ⟨16, 8, 64, .rw, .image, .fixed, .range 1 255⟩,
  ⟨24, 4, 0, .rw, .image, .fixed, .any⟩,
  ⟨32, 16, 0xd6b, .rw, .image, .fixed, .any⟩,
  ⟨48, 8, 50, .rw, .image, .fixed, .any⟩]⟩
/-- THM_NTCMAP -/
def regRow_THM_NTCMAP : RegRow RegName := ⟨.THM_NTCMAP, 0x30010, [], false, [
  ⟨0, 16, 0, .rw, .image, .fixed, .any⟩,
  ⟨16, 16, 0, .rw, .image, .fixed, .any⟩,
  ⟨32, 16, 0, .rw, .image, .fixed, .any⟩,
  ⟨48, 16, 0, .rw, .image, .fixed, .any⟩]⟩
/-- THM_STAT -/
def regRow_THM_STAT : RegRow RegName := ⟨.THM_STAT, 0x30008, [], false, [
  ⟨0, 14, 0, .ro, .none, .none, .any⟩,
  ⟨14, 14, 0, .ro, .none, .none, .any⟩,
  ⟨48, 16, 0, .ro, .none, .none, .any⟩]⟩
/-- THM_MEASk -/
def regRow_THM_MEAS : RegRow RegName := ⟨.THM_MEAS, 0x30100, [(20, 8)], false, [
  ⟨0, 16, 0, .ro, .none, .none, .any⟩,
  ⟨16, 16, 0, .ro, .none, .none, .any⟩,
  ⟨32, 12, 0, .ro, .none, .none, .any⟩]⟩
/-- THM_ZONEk -/
def regRow_THM_ZONE : RegRow RegName := ⟨.THM_ZONE, 0x30200, [(14, 8)], true, [
  ⟨0, 16, 0, .rw, .image, .fixed, .any⟩,
  ⟨16, 16, 0, .rw, .image, .fixed, .any⟩,
  ⟨32, 16, 0, .rw, .image, .fixed, .any⟩,
  ⟨48, 16, 0, .rw, .image, .fixed, .any⟩]⟩
/-- THM_SLCn -/
def regRow_THM_SLC : RegRow RegName := ⟨.THM_SLC, 0x30400, [(16, 8)], false, [
  ⟨0, 17, 0x10000, .ro, .none, .none, .any⟩,
  ⟨32, 17, 0x10000, .ro, .none, .none, .any⟩]⟩
/-- FLT_CFG -/
def regRow_FLT_CFG : RegRow RegName := ⟨.FLT_CFG, 0x40000, [], true, [
  ⟨0, 3, 4, .rw, .image, .fixed, .range 1 5⟩]⟩
/-- FLT_STAT -/
def regRow_FLT_STAT : RegRow RegName := ⟨.FLT_STAT, 0x40008, [], false, [
  ⟨0, 3, 0, .ro, .none, .none, .any⟩,
  ⟨3, 1, 1, .ro, .none, .none, .any⟩,
  ⟨16, 9, 0, .ro, .none, .none, .any⟩,
  ⟨32, 8, 0, .ro, .none, .none, .any⟩,
  ⟨48, 16, 0, .ro, .none, .none, .any⟩]⟩
/-- FLT_ACT -/
def regRow_FLT_ACT : RegRow RegName := ⟨.FLT_ACT, 0x40010, [], false, [
  ⟨0, 16, 0, .ro, .none, .none, .any⟩,
  ⟨16, 4, 0, .ro, .none, .none, .any⟩,
  ⟨20, 2, 0, .ro, .none, .none, .any⟩,
  ⟨22, 1, 0, .ro, .none, .none, .any⟩,
  ⟨32, 32, 0, .ro, .none, .none, .any⟩]⟩
/-- FLT_CMD -/
def regRow_FLT_CMD : RegRow RegName := ⟨.FLT_CMD, 0x40018, [], false, [
  ⟨0, 2, 0, .wo, .live, .atOnce, .range 1 1⟩,
  ⟨4, 3, 0, .wo, .live, .atOnce, .any⟩,
  ⟨8, 8, 0, .wo, .live, .atOnce, .any⟩,
  ⟨16, 8, 0, .ro, .none, .none, .any⟩]⟩
/-- FLT_CNT -/
def regRow_FLT_CNT : RegRow RegName := ⟨.FLT_CNT, 0x40020, [], false, [
  ⟨0, 16, 0, .ro, .none, .none, .any⟩,
  ⟨16, 16, 0, .ro, .none, .none, .any⟩,
  ⟨32, 16, 0, .ro, .none, .none, .any⟩,
  ⟨48, 16, 0, .ro, .none, .none, .any⟩]⟩
/-- FLT_LOGkw -/
def regRow_FLT_LOG : RegRow RegName := ⟨.FLT_LOG, 0x41000, [(256, 32), (4, 8)], false, [
  ⟨0, 64, 0, .ro, .none, .none, .any⟩]⟩

/-- The registers of the SYS block. -/
def regRowsSYS : List (RegRow RegName) := [regRow_SYS_ID, regRow_SYS_DLSTAT, regRow_SYS_STRAP, regRow_SYS_FMAC, regRow_SYS_STATE, regRow_SYS_CMD, regRow_SYS_CFG]

/-- The registers of the PWR block. -/
def regRowsPWR : List (RegRow RegName) := [regRow_PWR_STAT, regRow_PWR_FEED, regRow_PWR_CNT, regRow_PWR_PLVL, regRow_PWR_SLEEP, regRow_PWR_WCFG, regRow_PWR_WSTAT, regRow_PWR_RET]

/-- The registers of the IMG block. -/
def regRowsIMG : List (RegRow RegName) := [regRow_IMG_STAT, regRow_IMG_CTRL, regRow_IMG_UPD, regRow_IMG_RGEN, regRow_IMG_KEYH]

/-- The registers of the SLC block. -/
def regRowsSLC : List (RegRow RegName) := [regRow_SLC_MODE, regRow_SLC_AXCMD, regRow_SLC_AXST, regRow_SLC_ISCFG, regRow_SLC_ISOFF, regRow_SLC_ISCNT, regRow_SLC_OCLIM, regRow_SLC_OCSTAT, regRow_SLC_COMM, regRow_SLC_SLCFG0, regRow_SLC_SLCFG1, regRow_SLC_SLCFG2, regRow_SLC_SLCMD, regRow_SLC_SLOBS, regRow_SLC_SLSTAT, regRow_SLC_AOFS, regRow_SLC_PWMCFG, regRow_SLC_PWMLIM, regRow_SLC_PWMUPD, regRow_SLC_PWMSTAT, regRow_SLC_PWMCNT, regRow_SLC_PWMEFF0, regRow_SLC_PWMEFF1, regRow_SLC_SHD0, regRow_SLC_SHD1, regRow_SLC_SHD2, regRow_SLC_FBCFG, regRow_SLC_FBSER, regRow_SLC_FBIDX, regRow_SLC_FBCMD, regRow_SLC_FBSC, regRow_SLC_FBPOS, regRow_SLC_FBSPD, regRow_SLC_FBSTAT, regRow_SLC_FBCNT, regRow_SLC_FBLIM, regRow_SLC_LATCFG, regRow_SLC_LATPOS, regRow_SLC_LATTIM, regRow_SLC_GAIN, regRow_SLC_SERVO, regRow_SLC_SVFE0, regRow_SLC_SVFE1, regRow_SLC_SVGROSS, regRow_SLC_SVTRAV0, regRow_SLC_SVTRAV1, regRow_SLC_SVTRAV2, regRow_SLC_SVSTOP, regRow_SLC_SVSTILL, regRow_SLC_SVCTL, regRow_SLC_SVCMD0, regRow_SLC_SVCMD1, regRow_SLC_SVREF, regRow_SLC_SVREFV, regRow_SLC_SVSTAT, regRow_SLC_SVCNT, regRow_SLC_PRCFG, regRow_SLC_PRCMD, regRow_SLC_PRTGT, regRow_SLC_PRSTAT, regRow_SLC_PRPAR, regRow_SLC_GRRAT, regRow_SLC_GRCAM, regRow_SLC_HMCFG, regRow_SLC_HMPOS, regRow_SLC_HMDIST, regRow_SLC_STCFG, regRow_SLC_STLIM, regRow_SLC_STOBS, regRow_SLC_CHYCFG, regRow_SLC_CHYRAT, regRow_SLC_CHYSTAT]

/-- The registers of the LC block. -/
def regRowsLC : List (RegRow RegName) := [regRow_LC_CTRL, regRow_LC_STAT, regRow_LC_FAULT, regRow_LC_ECC, regRow_LC_DBG]

/-- The registers of the SCH block. -/
def regRowsSCH : List (RegRow RegName) := [regRow_SCH_STAT, regRow_SCH_TICK, regRow_SCH_CNT, regRow_SCH_LAST, regRow_SCH_LIM, regRow_SCH_HLTH]

/-- The registers of the BUS block. -/
def regRowsBUS : List (RegRow RegName) := [regRow_BUS_GDCFG, regRow_BUS_STAT, regRow_BUS_MEAS, regRow_BUS_CNT, regRow_BUS_VLIM, regRow_BUS_CLIM]

/-- The registers of the GRP block. -/
def regRowsGRP : List (RegRow RegName) := [regRow_GRP_CFG, regRow_GRP_PAR, regRow_GRP_LEAD, regRow_GRP_OVR, regRow_GRP_CMD, regRow_GRP_STAT, regRow_GRP_SS, regRow_GRP_STTAB]

/-- The registers of the NET block. -/
def regRowsNET : List (RegRow RegName) := [regRow_NET_CFG, regRow_NET_MAC, regRow_NET_PRIMAP, regRow_NET_CMD, regRow_NET_FOSTAT, regRow_NET_PCFG, regRow_NET_PSTAT, regRow_NET_FCTH, regRow_NET_PFCTH, regRow_NET_EQ, regRow_NET_PCNT0, regRow_NET_PCNT1, regRow_NET_PCNT2, regRow_NET_VLAN, regRow_NET_HPCFG0, regRow_NET_HPCFG1, regRow_NET_HPKEY, regRow_NET_HPSTAT, regRow_NET_HPCNT]

/-- The registers of the PTP block. -/
def regRowsPTP : List (RegRow RegName) := [regRow_PTP_CFG, regRow_PTP_SERVO, regRow_PTP_SRC, regRow_PTP_TIME0, regRow_PTP_TIME1, regRow_PTP_ADJ, regRow_PTP_SETSEC, regRow_PTP_RATE, regRow_PTP_STAT, regRow_PTP_OFFS, regRow_PTP_GMID, regRow_PTP_EPOCH0, regRow_PTP_EPOCH1, regRow_PTP_SIN, regRow_PTP_SOUT, regRow_PTP_CNT, regRow_PTP_PORT, regRow_PTP_CMP0, regRow_PTP_CMP1, regRow_PTP_CMP2, regRow_PTP_CMP3]

/-- The registers of the ACQ block. -/
def regRowsACQ : List (RegRow RegName) := [regRow_ACQ_CFG, regRow_ACQ_CTL, regRow_ACQ_CLK, regRow_ACQ_TCMD, regRow_ACQ_TSTAT, regRow_ACQ_STAT, regRow_ACQ_CNT, regRow_ACQ_RING, regRow_ACQ_CH, regRow_ACQ_TS, regRow_ACQ_TLV]

/-- The registers of the CAN block. -/
def regRowsCAN : List (RegRow RegName) := [regRow_CAN_CFG, regRow_CAN_NBT, regRow_CAN_DBT, regRow_CAN_STAT, regRow_CAN_CNT, regRow_CAN_TXREQ, regRow_CAN_TXABT, regRow_CAN_TXPEND, regRow_CAN_TXDONE, regRow_CAN_RXFULL, regRow_CAN_RXPTR, regRow_CAN_TTCFG, regRow_CAN_TTM, regRow_CAN_FLT]

/-- The registers of the FIO block. -/
def regRowsFIO : List (RegRow RegName) := [regRow_FIO_OUT, regRow_FIO_IN, regRow_FIO_WD, regRow_FIO_WDKICK, regRow_FIO_SUP, regRow_FIO_CMD, regRow_FIO_TIM, regRow_FIO_CFG, regRow_FIO_CHST, regRow_FIO_PWM]

/-- The registers of the SAF block. -/
def regRowsSAF : List (RegRow RegName) := [regRow_SAF_CFG, regRow_SAF_STAT, regRow_SAF_CNT]

/-- The registers of the TWN block. -/
def regRowsTWN : List (RegRow RegName) := [regRow_TWN_CFG, regRow_TWN_STAT, regRow_TWN_EPOCH, regRow_TWN_GAP, regRow_TWN_CNT]

/-- The registers of the THM block. -/
def regRowsTHM : List (RegRow RegName) := [regRow_THM_CFG, regRow_THM_NTCMAP, regRow_THM_STAT, regRow_THM_MEAS, regRow_THM_ZONE, regRow_THM_SLC]

/-- The registers of the FLT block. -/
def regRowsFLT : List (RegRow RegName) := [regRow_FLT_CFG, regRow_FLT_STAT, regRow_FLT_ACT, regRow_FLT_CMD, regRow_FLT_CNT, regRow_FLT_LOG]

end Sys2Proof.Machine
end

