-- ==== Sys2Proof/Machine/RegRead.lean ====
section
/-!
DEFINITION. Machine/RegRead.lean: the address space, which initiator may reach which part of it, and what a read returns (R6, R8, R26, R77,
R136, R141, R466 to R471).
-/

namespace Sys2Proof.Machine

/-! The address space (Table MAP.1). -/

/-- What an address belongs to: a register block with its base and size, a core's local memory, graph memory, an SRAM bank, the SRAM
window beyond the banks, or nothing. -/
inductive Place where
  | block (base size : Nat)
  | localMem (k : Nat)
  | graph
  | bank (b : Nat)
  | beyond
  | unmapped
deriving DecidableEq, Repr

/-- The bases of the register blocks of 64 KiB (Table MAP.1). -/
def blocks64K : List Nat :=
  [0x000000, 0x010000, 0x020000, 0x030000, 0x040000, 0x080000, 0x200000, 0x210000, 0x300000, 0x310000, 0x320000, 0x330000, 0x340000,
   0x350000, 0x360000]

/-- The place of an address. -/
def placeOf (a : Nat) : Place :=
  if blocks64K.contains (a / 0x10000 * 0x10000) then .block (a / 0x10000 * 0x10000) 0x10000
  else if 0x090000 ≤ a && a < 0x098000 then .block (a / 0x1000 * 0x1000) 0x1000
  else if 0x100000 ≤ a && a < 0x140000 then .block (a / 0x4000 * 0x4000) 0x4000
  else if 0x400000 ≤ a && a < 0x600000 then .localMem ((a - 0x400000) / 0x40000)
  else if 0x600000 ≤ a && a < 0x680000 then .graph
  else if 0x10000000 ≤ a && a < 0x11800000 then .bank ((a - 0x10000000) / 0x80000)
  else if 0x11800000 ≤ a && a < 0x20000000 then .beyond
  else .unmapped

/-- The slice whose block holds an address. -/
def sliceAt (a : Nat) : Option Slice :=
  if 0x100000 ≤ a ∧ a < 0x140000 then some (sliceOf ((a - 0x100000) / 0x4000)) else none

/-- The register rows of the block that holds an address (Table MAP.3). -/
def rowsAt (a : Nat) : List (RegRow RegName) :=
  match a / 0x10000 with
  | 0x00 => regRowsSYS
  | 0x01 => regRowsPWR
  | 0x02 => regRowsIMG
  | 0x03 => regRowsTHM
  | 0x04 => regRowsFLT
  | 0x08 => regRowsSCH
  | 0x09 => regRowsLC
  | 0x10 => regRowsSLC
  | 0x11 => regRowsSLC
  | 0x12 => regRowsSLC
  | 0x13 => regRowsSLC
  | 0x20 => regRowsBUS
  | 0x21 => regRowsGRP
  | 0x30 => regRowsNET
  | 0x31 => regRowsPTP
  | 0x32 => regRowsACQ
  | 0x33 => regRowsCAN
  | 0x34 => regRowsFIO
  | 0x35 => regRowsSAF
  | 0x36 => regRowsTWN
  | _ => []

/-- The register that stands at an 8-byte-aligned address, with its indices. -/
def regAt (a : Nat) : Option (RegRow RegName × List Nat) :=
  (rowsAt a).findSome? fun r => (r.at? a).map fun i => (r, i)

/-! What a register reads (R8). -/

/-- A log entry in the words of Table FLT.3. -/
def LogEntry.word (e : LogEntry) (w : Nat) : Nat :=
  match w with
  | 0 => e.code % 2 ^ 16 + e.sev % 8 * 2 ^ 16 + e.skind % 8 * 2 ^ 20 + e.sindex % 256 * 2 ^ 24 + e.origin % 256 * 2 ^ 32
      + satN 255 e.merge * 2 ^ 40 + b2n e.gross * 2 ^ 48 + b2n e.preempt * 2 ^ 49 + b2n e.holdover * 2 ^ 50 + b2n e.late * 2 ^ 51
  | 1 => e.time % 2 ^ 64
  | 2 => e.number % 2 ^ 32 + e.detail % 2 ^ 32 * 2 ^ 32
  | _ => (upto 4).foldl (fun v i => v + nthD e.xcode i 0 % 2 ^ 16 * 2 ^ (16 * i)) 0

/-- The log entry of a slot. -/
def State.logSlot (s : State) (k : Nat) : Option LogEntry := (s.faults.log.find? fun x => x.1 == k).map (·.2)

/-- The highest severity latched, 0 for none (FLT_STAT.HIGHEST). -/
def State.highest (s : State) : Nat := s.faults.latched.foldl (fun m l => if m < l.sev then l.sev else m) 0

/-- Whether FAULT_N is asserted (R457, Table PIN.10). -/
def State.faultN (s : State) : Bool :=
  s.dev == 0 || s.dev == 5 || s.leaving || s.boot.failed || (0 < s.highest && s.get R.FLT_CFG_FNSEV ≤ s.highest)

/-- A mask of the indices below n that satisfy f. -/
def maskOf (n : Nat) (f : Nat → Bool) : Nat := (upto n).foldl (fun m i => if f i then m + 2 ^ i else m) 0

/-- Whether a latched fault of a scope exists. -/
def State.latchedAt (s : State) (skind sindex : Nat) : Bool :=
  s.faults.latched.any fun l => l.skind == skind && (skind == 0 || l.sindex == sindex)

/-- FLT_ACT as it stands. -/
def State.fltAct (s : State) : Nat :=
  maskOf 16 (fun n => s.faults.latched.any fun l => s.covers l.skind l.sindex (sliceOf n))
    + maskOf 4 (s.latchedAt 2) * 2 ^ 16 + maskOf 2 (s.latchedAt 3) * 2 ^ 20 + b2n (s.latchedAt 0 0) * 2 ^ 22
    + maskOf 32 (s.latchedAt 4) * 2 ^ 32

/-- Armed moves and groups that wait on a start line (GRP_SS.ARMCNT). -/
def State.armCount (s : State) (k : Nat) : Nat :=
  (slices.filter fun n => match s.prof[n].armed with | some a => a.ssel == k && !a.fired | none => false).length
    + ((upto 8).filter fun g => match s.grp[(⟨g % 8, by omega⟩ : Fin 8)].armed with | some a => a.1 == k && !a.2 | none => false).length

/-- The fields of a register put together from the register file; WO fields read zero. -/
def State.rawWord (s : State) (fs : List FDef) (a : Nat) : Nat :=
  fs.foldl (fun v f => if f.acc == .wo then v else v + s.get (f.fld a) * 2 ^ f.lo) 0

/-- The fields that no register-file entry holds, put over the word (Table FLT.4 ff., SCH_STAT, LCn_STAT, PTP_TIME0, GRP_SSk,
IMG_STAT, SYS_FMAC, TWN_STAT). -/
def State.liveWord (s : State) (n : RegName) (idx : List Nat) (v : Nat) : Nat :=
  let i := nthD idx 0 0
  match n with
  | .FLT_STAT =>
    let v := putBits v 0 3 s.highest
    let v := putBits v 3 1 (b2n s.faultN)
    let v := putBits v 16 9 s.faults.log.length
    putBits v 32 8 (match s.faults.log with | x :: _ => x.1 | [] => 0)
  | .FLT_ACT => s.fltAct
  | .FLT_LOG => match s.logSlot i with | some e => e.word (nthD idx 1 0) | none => 0
  | .SCH_STAT => putBits (putBits v 8 13 s.sched.queue.length) 24 13 s.sched.delayed.length
  | .LC_STAT => putBits v 2 3 s.core[(⟨i % 8, by omega⟩ : Core)].levels.length
  | .PTP_TIME0 => s.clock.now / nsUnit % 1000000000 + s.clock.now % nsUnit / 2 ^ 16 * 2 ^ 32
  | .GRP_SS => putBits v 32 16 (s.armCount i)
  | .IMG_STAT => putBits v 3 1 (b2n ((upto 4).any fun k => s.get (R.IMG_KEYH_KEYH k) != 0))
  | .SYS_FMAC => Config.factoryMac % 2 ^ 48
  | .TWN_STAT => putBits v 5 1 (b2n s.rclm)
  | _ => v

/-- A register word as it reads at an 8-byte-aligned address in a block: 0 at a reserved address (R468); the reset value in a slice that
the image does not use (R471); the even slice's SLC_MODE and SLC_CHYCFG in the odd slice of a pair (R107, R288). -/
def State.regWord (s : State) (a : Nat) : Nat :=
  match regAt a with
  | none => 0
  | some (r, idx) =>
    match sliceAt a with
    | some n =>
      if !s.ax[n].used then r.fields.foldl (fun v f => if f.acc == .wo then v else v + f.rst * 2 ^ f.lo) 0
      else if s.oddInPair n && (r.name == .SLC_MODE || r.name == .SLC_CHYCFG) then s.rawWord r.fields (a - 0x4000)
      else s.liveWord r.name idx (s.rawWord r.fields a)
    | none => s.liveWord r.name idx (s.rawWord r.fields a)

/-! Rights (R26, R77, R112, R113). -/

/-- The INIT number of a GRANT entry for an initiator (R77), none for those with fixed grants only. -/
def grantNo : Init → Option Nat
  | .core c => some c.val
  | .host => some 8
  | .acq => some 9
  | _ => none

/-- Whether a GRANT entry gives an initiator `n` bytes from an address. -/
def State.granted (s : State) (who : Init) (write : Bool) (a n : Nat) : Bool :=
  match grantNo who with
  | none => false
  | some i => s.arc.grants.any fun g => g.init == i && g.write == write && g.lo ≤ a && a + n ≤ g.hi + 1

/-- The PART code of a bank (R76); 0 for unassigned. -/
def State.bankUse (s : State) (b : Nat) : Nat := nthD s.arc.banks b 0

/-- The update staging window (R76). -/
def inStaging (a n : Nat) : Bool := 0x11780000 ≤ a && a + n ≤ 0x11790000

/-- The fixed grants (R77). -/
def State.fixedGrant (s : State) (who : Init) (write : Bool) (a n : Nat) : Bool :=
  match who, placeOf a with
  | .core c, .localMem k => k == c.val
  | .sched, .graph => true
  | .sliceA, .block _ _ => 0x100000 ≤ a && a < 0x140000
  | .sliceB, .block _ _ => 0x100000 ≤ a && a < 0x140000
  | .fieldLink, .block b _ => b == 0x340000 || b == 0x350000 || b == 0x200000 || b == 0x330000
  | .sliceA, .bank b => s.bankUse b != 0
  | .sliceB, .bank b => s.bankUse b != 0
  | .fieldLink, .bank b => s.bankUse b != 0
  | .network, .bank b => s.bankUse b == 1
  | .harso, .bank b => s.bankUse b == 3
  | .acq, .bank b => s.bankUse b == 2
  | .imageReader, .block b _ => s.dev == 0 || b == 0x020000
  | .imageReader, .bank _ => s.dev == 0 || inStaging a n
  | .imageReader, .localMem _ => s.dev == 0
  | .imageReader, .graph => s.dev == 0
  | .host, .block _ _ => !write || (a / 8 * 8 == 0x18 || a / 8 * 8 == 0x40018)
  | .host, .bank b => s.bankUse b != 0 && (!write || inStaging a n)
  | _, _ => false

/-- Whether an initiator may read or write `n` bytes from an address that some unit backs (R26): an unassigned bank is nobody's. -/
def State.mayReach (s : State) (who : Init) (write : Bool) (a n : Nat) : Bool :=
  match placeOf a with
  | .bank b => (s.bankUse b != 0 || who == .imageReader) && (s.fixedGrant who write a n || s.granted who write a n)
  | .localMem k =>
    match who with
    | .core c => c.val == k
    | _ => s.fixedGrant who write a n || s.get R.SYS_STATE_STATE == 4
  | .graph => true
  | _ => s.fixedGrant who write a n || s.granted who write a n

/-! Reads. -/

/-- Whether the fabric may read a core's local memory now (R136): in SERVICE with SVCMODE 2. -/
def State.fullSvc (s : State) : Bool := s.dev == 4 && s.get R.SYS_CFG_SVCMODE == 2

/-- The outcome of a read of `n` bytes (4, 8 or 16) by an initiator, as a code of Table HPR.3: 0 served, 2 RESERVED, 6 PARTITION, 7 STATE
(R26, R136, R141, R468). -/
def State.readCode (s : State) (who : Init) (a n : Nat) : Nat :=
  match placeOf a with
  | .unmapped => 2
  | .beyond => if who == .host then 0 else 6
  | .localMem _ =>
    if s.mayReach who false a n then
      (match who with
       | .core _ => 0
       | .imageReader => 0
       | _ => if s.fullSvc then 0 else 7)
    else if who == .host then 7 else 6
  | .graph =>
    match who with
    | .sched => 0
    | .imageReader => 0
    | _ => if who == .host || s.granted who false a n then (if 0x660800 ≤ a + n - 1 && s.dev != 4 then 7 else 0) else 6
  | _ => if s.mayReach who false a n then 0 else 6

/-- The 64-bit word that an 8-byte-aligned address reads as, where the read is served. The runtime state of the scheduler has no layout
in the spec: its words are free values (log entry 33). -/
def State.wordAt (s : State) (a : Nat) : Nat :=
  match placeOf a with
  | .block _ _ => if 0x331000 ≤ a && a < 0x340000 then s.rd a 8 else s.regWord a
  | .beyond => 0
  | .unmapped => 0
  | .graph => if 0x660800 ≤ a then s.free else s.rd a 8
  | _ => s.rd a 8

/-- `n` bytes read at an address aligned to `n` (4, 8 or 16), little-endian (R469). -/
def State.readVal (s : State) (a n : Nat) : Nat :=
  if n = 16 then s.wordAt a + s.wordAt (a + 8) * 2 ^ 64
  else if n = 4 then (if a % 8 = 0 then s.wordAt a % 2 ^ 32 else s.wordAt (a - 4) / 2 ^ 32 % 2 ^ 32)
  else s.wordAt a

/-- The one side effect of a read (R324, R469): one that covers bits [29:0] of PTP_TIME0 latches PTP_TIME1; a free value read is drawn. -/
def State.afterRead (s : State) (a n : Nat) : State :=
  let s := if a ≤ 0x310018 && 0x310018 < a + n then s.set R.PTP_TIME1_SEC (s.clock.now / secUnit) else s
  if 0x660800 ≤ a && a < 0x680000 then s.drawn else s

end Sys2Proof.Machine
end

