-- ==== Sys2Proof/Machine/Acq.lean ====
section
/-!
DEFINITION. Machine/Acq.lean: the acquisition engine: rows, blocks and their ring, gaps, the trigger sequencer and its marks (R363 to
R374).
-/

namespace Sys2Proof.Machine

/-- A clock of the engine. -/
def State.acqClock (s : State) (c : Nat) : AcqClock := nthD s.acq.clocks c AcqClock.reset

def State.modClock (s : State) (c : Nat) (f : AcqClock → AcqClock) : State :=
  s.modAcq fun a => { a with clocks := setNth a.clocks c (f (nthD a.clocks c AcqClock.reset)) }

def State.modTrig (s : State) (f : TrigDyn → TrigDyn) : State := s.modAcq fun a => { a with trig := f a.trig }

/-- Whether the engine works: its domain on and the device in HOLD, RUN, SHADOW or SERVICE (R373), with RUN set. -/
def State.acqRuns (s : State) : Bool :=
  s.domOn 3 && (s.dev == 1 || s.dev == 2 || s.dev == 3 || s.dev == 4) && s.on R.ACQ_CTL_RUN

/-! Losses (R368, R369). -/

/-- Rows lost with a cause (bit 0 QFULL, 1 COLL, 2 ECC): the clock's GAP grows; without a session none is kept. -/
def State.lose (s : State) (c cause first rows : Nat) (block : Option Nat) : State :=
  if s.acqSession.isNone then s
  else s.modClock c fun k =>
    match k.gap with
    | none => { k with gap := some ⟨cause, first, rows, block.toList⟩ }
    | some g => { k with gap := some ⟨g.cause ||| cause, g.first, g.lost + rows, g.blocks ++ block.toList⟩ }

/-! Blocks (R366, R367). -/

/-- Bytes written into the ring from a position, wrapping at the end of the acquisition banks. -/
def State.ringWrite (s : State) (pos : Nat) : List Nat → State
  | [] => s
  | b :: t =>
    let r := s.acqRing
    (s.putByte (r.1 + pos % r.2) b).ringWrite (pos + 1) t

/-- A DATA record (Table ACQ.1). -/
def State.dataRecord (s : State) (c : Nat) (b : BlockDyn) : List Nat :=
  let r := s.acqRing
  let nw := if b.rows = 0 then 0 else b.words.length / b.rows
  let w0 := 1 + c * 2 ^ 8 + b2n (!s.acq.formed) * 2 ^ 10 + s.get R.SYS_STATE_HOLDOVER * 2 ^ 11 + b.rows % 2 ^ 16 * 2 ^ 16 + nw % 256 * 2 ^ 32
  leBytes 8 w0 ++ leBytes 8 b.row ++ leBytes 8 (compactOf (b.time * 65536)) ++ leBytes 8 (r.1 + s.acq.wpos % r.2)
    ++ b.words.flatMap (leBytes 4)

/-- The open block of a clock closed (R366): written at the next 256-byte boundary of the ring and offered to Q0 behind the clock's GAP; an
uncorrectable error in the ring as it is read for sending loses it (R368). -/
def State.closeBlock (s : State) (c : Nat) (ecc : EccSeen) : State :=
  match (s.acqClock c).block with
  | none => s
  | some b =>
    let body := s.dataRecord c b
    let pos := s.acq.wpos
    let r := s.acqRing
    let s := if r.2 = 0 then s else s.ringWrite pos body
    let next := pos + (body.length + 255) / 256 * 256
    let s := (s.modAcq fun a => { a with wpos := next, formed := true }).modClock c fun k => { k with block := none }
    let s := (s.set R.ACQ_RING_BASE r.1).set R.ACQ_RING_WPTR (if r.2 = 0 then r.1 else r.1 + next % r.2)
    if s.acqSession.isNone then s
    else if ecc = .double then
      ((s.lose c 4 b.row b.rows (some pos)).bump R.ACQ_STAT_BLKDROP).raiseMod 0x1401 0
    else
      let s := if ecc = .single then { s with arc := { s.arc with eccCorr := s.arc.eccCorr + 1 } } else s
      let s := s.offerGap c
      match (if (s.acqClock c).gap.isSome then none else s.acqPut 0 body) with
      | some s => s.bump R.ACQ_CNT_BLKSENT
      | none => (s.lose c 1 b.row b.rows (some pos)).bump R.ACQ_STAT_BLKDROP

/-! Channels (R364). -/

/-- Channel k as it reads now: its edge word's latest capture, or the word at ADDR where the engine is granted it; else 0. -/
def State.chanVal (s : State) (k : Nat) : Nat :=
  let w := if s.on (R.ACQ_CH_W64 k) then 64 else 32
  let a := s.get (R.ACQ_CH_LOC k)
  let n := w / 8
  if !s.on (R.ACQ_CH_SRC k) then nthD s.acq.capt k 0 % 2 ^ w
  else if a % n = 0 && s.readCode .acq a n = 0 then s.readVal a n % 2 ^ w
  else 0

/-- The value of channel k that the sequencer tests (R370): signed 32 bits, or bits [63:32] of a 64-bit channel. -/
def State.chanX (s : State) (k : Nat) : Int :=
  let v := s.chanVal k
  toS 32 (if s.on (R.ACQ_CH_W64 k) then v / 2 ^ 32 else v)

/-- The channels of a clock, ascending. -/
def State.chansOf (s : State) (c : Nat) : List Nat :=
  (upto 64).filter fun k => s.on (R.ACQ_CH_EN k) && s.get (R.ACQ_CH_CLK k) == c

/-- The words of a row: its channels, or iu, iv and iw of the burst set (R363). -/
def State.rowWords (s : State) (c : Nat) : List Nat :=
  if s.get (R.ACQ_CLK_KIND c) = 3 then
    let b := nthD s.acq.burst (s.get (R.ACQ_CLK_PARAM c) % 16) ⟨0, 0, 0⟩
    [ofS 32 b.u, ofS 32 b.v, ofS 32 b.w]
  else (s.chansOf c).flatMap fun k =>
    let v := s.chanVal k
    if s.on (R.ACQ_CH_W64 k) then [v % 2 ^ 32, v / 2 ^ 32] else [v]

/-! The trigger sequencer (R370 to R372). -/

/-- A state entered (R370): count and timer zero, hysteresis armed. -/
def State.enterTrig (s : State) (k : Nat) : State :=
  let s := (s.set R.ACQ_TSTAT_STATE k).set R.ACQ_TSTAT_CNT 0
  s.modTrig fun t => { t with rows := 0, armed := true, unmet := false, force := false }

/-- The sequencer to IDLE. -/
def State.trigIdle (s : State) : State :=
  ((s.enterTrig 0).set R.ACQ_TSTAT_ACTIVE 0).modTrig fun t => { t with ext := [] }

/-- The present state left on completion: NEXT, or IDLE with END. -/
def State.trigNext (s : State) (k : Nat) : State :=
  if s.on (R.ACQ_TS_END k) then s.trigIdle else s.enterTrig (s.get (R.ACQ_TS_NEXT k))

/-- The state to which the timer leads taken, if the rows in the state have reached TIMER (Table ACQ.3). -/
def State.trigTimer (s : State) : State :=
  let k := s.get R.ACQ_TSTAT_STATE
  let tm := s.get (R.ACQ_TS_TIMER k)
  if s.on R.ACQ_TSTAT_ACTIVE && tm != 0 && tm ≤ s.acq.trig.rows then s.enterTrig (s.get (R.ACQ_TS_TONEXT k)) else s

/-- Whether the mark queue has room (R372). -/
def State.markRoom (s : State) : Bool := s.acq.marks.length < 256

/-- A mark queued (R367, R372): ROW, FRAC, trigger time in 2^−16 ns. -/
def State.mark (s : State) (k : Nat) (p : Nat × Nat × Nat) (forced ext : Bool) : State :=
  let w0 := 3 + s.get R.ACQ_CFG_TCLK * 2 ^ 8 + s.get R.SYS_STATE_HOLDOVER * 2 ^ 11 + s.get R.ACQ_TSTAT_MSEQ * 2 ^ 16 + k * 2 ^ 32
    + b2n forced * 2 ^ 35 + b2n ext * 2 ^ 36 + p.2.1 % 256 * 2 ^ 40
  let body := leBytes 8 w0 ++ leBytes 8 p.1 ++ leBytes 8 (compactOf (p.2.2 * 65536)) ++ leBytes 8 0
  let s := s.modAcq fun a => { a with marks := a.marks ++ [body] }
  (s.set R.ACQ_TSTAT_MSEQ (s.get R.ACQ_TSTAT_MSEQ + 1)).set R.ACQ_TSTAT_MQ s.acq.marks.length

/-- The point where a level lies between two rows (R372): FRAC exact, clamped to 0 to 255, and the trigger time to the nearest 2^−16 ns. -/
def crossing (level x0 x1 : Int) (row t0 t1 : Nat) : Nat × Nat × Nat :=
  let f := if x1 = x0 then 0 else (clampI 0 255 (Int.fdiv (256 * (level - x0)) (x1 - x0))).toNat
  (row, f, t0 + (f * (t1 - t0) + 128) / 256)

/-- The level that a consecutive-row condition's run crossed from a value that failed it (R372). -/
def runLevel (cmp : Nat) (a b x0 x1 : Int) : Int :=
  match cmp with
  | 5 => if x0 < min a b then min a b else max a b
  | 6 => if x1 < min a b then min a b else max a b
  | _ => a

/-- Whether a consecutive-row condition is met (Table ACQ.2). -/
def runMet (cmp : Nat) (a b x : Int) : Bool :=
  match cmp with
  | 0 => true
  | 1 => a < x
  | 2 => x < a
  | 5 => min a b ≤ x && x ≤ max a b
  | _ => !(min a b ≤ x && x ≤ max a b)

/-- The place of an EXT event among the rows (R372). -/
def extPoint (last : Option (Nat × Nat)) (row t tev : Nat) : Nat × Nat × Nat :=
  match last with
  | none => (row, 0, t)
  | some (r0, t0) =>
    if tev ≥ t then (row, 0, t)
    else
      let f := if t = t0 then 0 else (clampI 0 255 ((256 * (tev - t0) / (t - t0) : Nat) : Int)).toNat
      (r0, f, t0 + (f * (t - t0) + 128) / 256)

/-- The row's outcome in state k (R371): completion with a count reached at a point, else the new count; a full mark queue blocks. -/
def State.trigCount (s : State) (k cnt : Nat) (done : Option (Nat × Nat × Nat)) (ext : Bool) : State :=
  match done with
  | none => (s.set R.ACQ_TSTAT_CNT cnt).modTrig fun t => { t with rows := t.rows + 1 }
  | some p =>
    if s.on (R.ACQ_TS_MARK k) && !s.markRoom then
      ((s.bump R.ACQ_STAT_TRGBLK).set R.ACQ_TSTAT_CNT (s.get (R.ACQ_TS_COUNT k) - 1)).modTrig fun t => { t with rows := t.rows + 1 }
    else
      let s := if s.on (R.ACQ_TS_MARK k) then s.mark k p false ext else s
      s.trigNext k

/-- One row of TCLK evaluated in the present state (R370 to R372). -/
def State.trigRow (s : State) (row t : Nat) (xs : List Int) : State :=
  let s := s.trigTimer
  let k := s.get R.ACQ_TSTAT_STATE
  let g := s.acq.trig
  if !s.on R.ACQ_TSTAT_ACTIVE then s
  else if g.force then
    if s.markRoom then (s.mark k (row, 0, t) true false).trigNext k else s
  else
    let cmp := s.get (R.ACQ_TS_CMP k)
    let a := s.getS (R.ACQ_TLV_LEVA k)
    let b := s.getS (R.ACQ_TLV_LEVB k)
    let x := nthD xs k 0
    let cnt := s.get R.ACQ_TSTAT_CNT
    let need := s.get (R.ACQ_TS_COUNT k)
    match cmp with
    | 3 =>
      let hit := match g.prev, g.lastRow with
        | some l, some _ => g.armed && nthD l k 0 < a && a ≤ x
        | _, _ => false
      let x0 := match g.prev with | some l => nthD l k 0 | none => 0
      let (r0, t0) := g.lastRow.getD (row, t)
      let s := s.modTrig fun g => { g with armed := (g.armed && !hit) || x ≤ a - b.natAbs }
      let n := if hit then cnt + 1 else cnt
      s.trigCount k n (if hit && need ≤ n then some (crossing a x0 x r0 t0 t) else none) false
    | 4 =>
      let hit := match g.prev, g.lastRow with
        | some l, some _ => g.armed && a < nthD l k 0 && x ≤ a
        | _, _ => false
      let x0 := match g.prev with | some l => nthD l k 0 | none => 0
      let (r0, t0) := g.lastRow.getD (row, t)
      let s := s.modTrig fun g => { g with armed := (g.armed && !hit) || a + b.natAbs ≤ x }
      let n := if hit then cnt + 1 else cnt
      s.trigCount k n (if hit && need ≤ n then some (crossing a x0 x r0 t0 t) else none) false
    | 7 =>
      let src := s.get (R.ACQ_TS_CH k) + (if s.on (R.ACQ_TS_EXTEDGE k) && s.get (R.ACQ_TS_CH k) < 32 then 64 else 0)
      let hits := g.ext.filter fun e => e.1 == src && e.2 ≤ t
      let done := if need ≤ cnt + hits.length then hits[need - cnt - 1]? else none
      s.trigCount k (cnt + hits.length) (done.map fun e => extPoint g.lastRow row t e.2) true
    | _ =>
      if runMet cmp a b x then
        let here := (row, 0, t)
        let begin_ := match g.prev, g.lastRow with
          | some l, some (r0, t0) =>
            if cmp != 0 && g.unmet then crossing (runLevel cmp a b (nthD l k 0) x) (nthD l k 0) x r0 t0 t else here
          | _, _ => here
        let p := if cmp = 0 then here else if cnt = 0 then begin_ else g.point
        let s := s.modTrig fun g => { g with point := p, unmet := false }
        s.trigCount k (cnt + 1) (if need ≤ cnt + 1 then some p else none) false
      else (s.modTrig fun g => { g with unmet := true }).trigCount k 0 none false

/-- A row of TCLK (R370): evaluated; EXT events up to it are past. -/
def State.trigTake (s : State) (row t : Nat) : State :=
  let xs := (upto 8).map fun k => s.chanX (s.get (R.ACQ_TS_CH k))
  let s := if s.on R.ACQ_TSTAT_ACTIVE then s.trigRow row t xs else s
  s.modTrig fun g => { g with prev := some xs, lastRow := some (row, t), ext := g.ext.filter fun e => t < e.2 }

/-- A row of TCLK lost with cause COLL (R370). -/
def State.trigColl (s : State) : State :=
  let cmp := s.get (R.ACQ_TS_CMP (s.get R.ACQ_TSTAT_STATE))
  let s := if cmp = 3 || cmp = 4 || cmp = 7 then s else s.set R.ACQ_TSTAT_CNT 0
  s.modTrig fun g => { g with prev := none, unmet := false }

/-- An event that an EXT condition may wait for (Table ACQ.2): a field-input edge (k, or 64 + k falling) or a comparator (32 + k), at a time
in 2^−16 ns. -/
def State.extEvent (s : State) (src t : Nat) : State :=
  if s.on R.ACQ_TSTAT_ACTIVE then s.modTrig fun g => { g with ext := g.ext ++ [(src, t)] } else s

/-! Rows (R363 to R366). -/

/-- A row added to the open block of its clock, which closes when one more would take it beyond BLKMAX (R366). -/
def State.addRow (s : State) (c t : Nat) (ecc : EccSeen) : State :=
  let k := s.acqClock c
  let ws := s.rowWords c
  let b := match k.block with
    | some b => { b with rows := b.rows + 1, words := b.words ++ ws }
    | none => ⟨k.row, t, 1, ws⟩
  let row := k.row
  let s := s.modClock c fun k => { k with row := k.row + 1, last := some t, block := some b }
  let s := if s.get R.ACQ_CFG_TCLK = c then s.trigTake row t else s
  if 32 + 4 * (b.words.length + ws.length) > s.get R.ACQ_CFG_BLKMAX || b.rows ≥ 65535 then s.closeBlock c ecc else s

/-- ACQ_ROW_TAKEN (R363, R365): an event of clock c's kind at a time; every (DIV + 1)-th takes a row, unless it comes within 6 000 ns of
the row before (COLL; BURST clocks are exempt). `ecc` is what a block read back for sending shows. -/
def execAcqRowTaken (c : Fin 4) (stamp : Stamp) (ecc : EccSeen) (s : State) : Out :=
  if !s.acqRuns || s.get (R.ACQ_CLK_KIND c) = 0 then .next s else
  let k := s.acqClock c
  let s := s.modClock c fun k => { k with events := k.events + 1 }
  if (k.events + 1) % (s.get (R.ACQ_CLK_DIV c) + 1) ≠ 0 then .next s
  else
    let close := match k.last with | some t => stamp < t + 6000 * 65536 | none => false
    if close && s.get (R.ACQ_CLK_KIND c) != 3 then
      let s := (s.lose c 2 k.row 1 none).bump R.ACQ_STAT_COLL
      let s := s.modClock c fun k => { k with row := k.row + 1 }
      .next (if s.get R.ACQ_CFG_TCLK = c then s.trigColl else s)
    else .next ((s.addRow c stamp ecc).acqDrain)

/-- ACQ_FLUSH_TIMEOUT (R366): FLUSHT after its first row the open block closes. -/
def execAcqFlushTimeout (c : Fin 4) (ecc : EccSeen) (s : State) : Out := .next (s.closeBlock c ecc)

/-! Commands (R371, R373). -/

/-- TRIGGER_TIMER (Table ACQ.3): the rows in the state have reached TIMER and the sequencer goes to TONEXT. -/
def execTriggerTimer (s : State) : Out := .next s.trigTimer

/-- ARM of ACQ_TCMD: from IDLE to S0 with RUN set and TCLK not off. -/
def State.acqArm (s : State) : State :=
  if s.on R.ACQ_TSTAT_ACTIVE || !s.acqRuns || s.get (R.ACQ_CLK_KIND (s.get R.ACQ_CFG_TCLK)) = 0 then s
  else (s.set R.ACQ_TSTAT_ACTIVE 1).enterTrig 0

def execAcqArm (s : State) : Out := .next s.acqArm

/-- STOP of ACQ_TCMD: to IDLE from any state; marks already queued are sent. -/
def execAcqStop (s : State) : Out := .next s.trigIdle

/-- FORCE of ACQ_TCMD: the present state completes with a FORCED mark at the next row. -/
def State.acqForce (s : State) : State := if s.on R.ACQ_TSTAT_ACTIVE then s.modTrig fun t => { t with force := true } else s

def execAcqForce (s : State) : Out := .next s.acqForce

/-- RUN set (R363, R367): refused while EN is clear; rows count from 0, the clocks from their next event. -/
def State.acqStart (s : State) : State :=
  if !s.on R.ACQ_CFG_EN || s.on R.ACQ_CTL_RUN then s
  else
    let s := (s.set R.ACQ_CTL_RUN 1).set R.ACQ_TSTAT_MSEQ 0
    let s := s.modAcq fun a =>
      { a with formed := false, trig := TrigDyn.reset, clocks := a.clocks.map fun k => { AcqClock.reset with gap := k.gap } }
    let r := s.acqRing
    (s.set R.ACQ_RING_BASE r.1).set R.ACQ_RING_WPTR (if r.2 = 0 then r.1 else r.1 + s.acq.wpos % r.2)

def execAcqRunStart (s : State) : Out :=
  .next (if s.domOn 3 && (s.dev == 1 || s.dev == 2 || s.dev == 3 || s.dev == 4) then s.acqStart else s)

/-- RUN cleared (R371, R373): the sequencer goes to IDLE, an open block closes and is offered, marks already queued are sent. -/
def State.acqStopRun (s : State) : State :=
  if !s.on R.ACQ_CTL_RUN then s
  else (([0, 1, 2, 3].foldl (fun s c => s.closeBlock c .clean) (s.trigIdle)).set R.ACQ_CTL_RUN 0).acqDrain

def execAcqRunStop (s : State) : Out := .next s.acqStopRun

end Sys2Proof.Machine
end

