-- ==== Sys2Proof/Machine/Gates.lean ====
section
/-!
DEFINITION. Machine/Gates.lean: what drives the gates of a slice at any moment (R15, R195 and the rules they name). The gate outputs
are computed from the state; no field holds them.
-/

namespace Sys2Proof.Machine

/-- What drives the six gates of a slice. -/
inductive Drive where
  | low
  | run
  | lowSides
  | precharge (leg : Fin 3)
  | frozen (levels : Nat)
deriving DecidableEq, Repr

/-- Bus of a slice (SLC_COMM.BUSSEL). -/
def State.busOf (s : State) (n : Slice) : Nat := s.get (R.SLC_COMM_BUSSEL n)

/-- Whether step 4 of the bus ladder is in force for the slices of a die (R456). -/
def State.shortOnDie (s : State) (d : Nat) : Bool :=
  slices.any fun n => dieOf n == d && s.ax[n].used && s.bitOf R.BUS_STAT_SHORT (s.busOf n)

/-- Whether a latched F4 or F5 of module scope is present (Table FLT.1). -/
def State.modF4 (s : State) : Bool := s.faults.latched.any fun l => l.skind == 0 && 4 ≤ l.sev

/-- Whether the lease lets a twin member drive its gates (R426): HOLDING with HOLD_OUT asserted and HOLD_IN released. -/
def State.leaseDrives (s : State) : Bool :=
  !s.on R.TWN_CFG_EN || (s.get R.TWN_STAT_LSTATE == 2 && s.on R.TWN_STAT_HOLD_OUT && !s.on R.TWN_STAT_HOLD_IN)

/-- GATE_EN of a die (R15, R426, Table FLT.1, R456): driven in RUN and SERVICE while no F4 or F5 of module scope is latched, kept by a
step 4 in force on that die's slices, released by the lease and by the leave sequence. -/
def State.gateEn (s : State) (d : Nat) : Bool :=
  !s.leaving && s.leaseDrives && (s.shortOnDie d || ((s.dev == 2 || s.dev == 4) && !s.modF4))

/-- Gate-driver supply of a die present (R15, R197): V_DRV above its undervoltage level. -/
def State.vdrvOk (s : State) (d : Nat) : Bool :=
  if d = 0 then s.on R.BUS_STAT_VDRV_OK_A else s.on R.BUS_STAT_VDRV_OK_B

/-- Link watchdog of a die expired (R14). -/
def State.wdExpired (s : State) (d : Nat) : Bool := if d = 0 then s.arc.wdA else s.arc.wdB

/-- Whether a slice holds a trip or a failed switch-node check (R171, R173). -/
def State.ownTrip (s : State) (n : Slice) : Bool := s.get (R.SLC_OCSTAT_TRIP n) != 0 || s.on (R.SLC_OCSTAT_SWFAULT n)

/-- DUAL3 with DEG set: the two slices' trip lines are apart (R299). -/
def State.degPair (s : State) (n : Slice) : Bool := s.pairFunc n == 1 && s.on (R.SLC_CHYCFG_DEG (evenOf n))

/-- Whether a trip holds a slice's gates low: its own, or one of its pair (R21, R299). -/
def State.tripped (s : State) (n : Slice) : Bool :=
  if s.degPair n then s.ownTrip n else (s.axisSlices n).any fun m => s.ownTrip m

/-- Whether a slice is the lost winding set of a DUAL3 pair (R300). -/
def State.lostSet (s : State) (n : Slice) : Bool :=
  s.pairFunc n == 1 && (if n.val % 2 = 0 then s.on (R.SLC_CHYSTAT_LOST_E (evenOf n)) else s.on (R.SLC_CHYSTAT_LOST_O (evenOf n)))

/-- Whether the odd slice of a pair has no bridge of its own (Table CHY.1, R290). -/
def State.unusedOdd (s : State) (n : Slice) : Bool := s.oddInPair n && (s.pairFunc n == 4 || s.pairFunc n == 5)

/-- What drives the gates of a slice, by R15, R195, R201, R206, Table CMT.8 and R290, the first that applies. -/
def State.drive (s : State) (n : Slice) : Drive :=
  let a := s.lead n
  let ph := s.get (R.SLC_SLSTAT_PHASE a)
  if !s.ax[n].started || s.on R.SYS_STATE_TORQUE_OFF || !s.vdrvOk (dieOf n) || s.wdExpired (dieOf n) || !s.gateEn (dieOf n)
      || s.ax[n].linkLost || s.tripped n || s.lostSet n || s.unusedOdd n then .low
  else if s.bitOf R.BUS_STAT_ABS (s.busOf n) then .low
  else if s.bitOf R.BUS_STAT_SHORT (s.busOf n) then .lowSides
  else if s.on (R.SLC_PWMSTAT_FROZEN n) then (if s.pwm[n].frozenOff then .low else .frozen s.pwm[n].frozen)
  else match s.pwm[n].precharge with
    | some leg => .precharge leg
    | none =>
      if s.pwm[n].claimHold then .low
      else if ph == 1 || ph == 8 then .low
      else if ph == 2 then (if s.startq[a].zeroVector then .lowSides else .low)
      else if s.axst a == 2 || s.axst a == 3 || (s.axst a == 1 && s.ax[a].precharged) then .run
      else .low

/-- Whether a leg's high side may follow its effective time: BOOTUV holds it low (R198). -/
def State.highHeld (s : State) (n : Slice) (leg : Fin 3) : Bool := s.bitOf (R.SLC_PWMSTAT_BOOTUV n) leg

end Sys2Proof.Machine
end

