-- ==== Sys2Proof/Machine/Pwm.lean ====
section
/-!
DEFINITION. Machine/Pwm.lean: carrier timing, shadow commits, effective times, gate supply and bootstrap events, freeze and resume
(R184 to R203), with the pair rules R290 to R294.
-/

namespace Sys2Proof.Machine

/-! Shadow words (R187, R188). -/

/-- Whether a write to a slice's shadow windows is taken: not while frozen (R201), not while the start sequencer drives the gates
(Table CMT.8), and not to an odd-slice window that Table CHY.1 does not list (R290). -/
def State.shadowOpen (s : State) (n : Slice) : Bool :=
  let ph := s.get (R.SLC_SLSTAT_PHASE (s.lead n))
  s.pwm[n].running && !s.on (R.SLC_PWMSTAT_FROZEN n) && !(ph == 1 || ph == 2 || ph == 8)
    && !(s.oddInPair n && (s.pairFunc n == 2 || s.pairFunc n == 4 || s.pairFunc n == 5))

/-- The boundary that a window names (Table PWM.2) for a write that completes now; an IMM write, and a LEAD write before the first
sample set, take the next boundary. -/
def targetOf (p : PwmDyn) (window : Nat) : Nat :=
  if window = 0 ∨ p.sampled = false then p.bnum + 1 else p.sampleBnd + window

/-- A shadow word as it waits (R20, R187): a target already past is late and takes the next boundary. -/
def shadowFor (p : PwmDyn) (window word val : Nat) : Shadow :=
  let t := targetOf p window
  if t ≤ p.bnum then ⟨word, val, p.bnum + 1, p.cycle, p.batch, true, window != 0⟩
  else ⟨word, val, t, p.cycle, p.batch, false, window != 0⟩

/-- A word put among the waiting ones: a waiting word of the same kind and target gives way to it (R187, R7). -/
def PwmDyn.put (p : PwmDyn) (x : Shadow) : PwmDyn :=
  { p with shadows := (p.shadows.filter fun y => !(y.word == x.word && y.target == x.target)) ++ [x] }

/-- A shadow write of one or more words, one write as R189 counts them. -/
def PwmDyn.write (p : PwmDyn) (window : Nat) (ws : List (Nat × Nat)) : PwmDyn :=
  let p := { p with batch := p.batch + 1 }
  ws.foldl (fun p (w : Nat × Nat) => p.put (shadowFor p window w.1 w.2)) p

/-- A word put into the staging set (Table PWM.2, STAGE). -/
def PwmDyn.stageWord (p : PwmDyn) (word val : Nat) : PwmDyn :=
  { p with stage := (p.stage.filter fun y => y.1 != word) ++ [(word, val)] }

/-- The staging set of a slice moved into the shadow in one write (R188). -/
def PwmDyn.commitStage (p : PwmDyn) (window : Nat) : PwmDyn :=
  let st := p.stage
  ({ p with stage := [] }).write window st

/-- SHADOW_WRITE (R187): one word through IMM, LEAD1 or LEAD2. -/
def execShadowWrite (n : Slice) (window : Fin 3) (word : Fin 4) (value : Nat) (s : State) : Out :=
  if s.shadowOpen n then
    .next (s.modPwm n fun p => p.write window [(word.val, value % 2 ^ 32)])
  else .next s

/-- SHADOW_STAGE_WRITE (R187): one word through STAGE. -/
def execShadowStageWrite (n : Slice) (word : Fin 4) (value : Nat) (s : State) : Out :=
  if s.shadowOpen n then .next (s.modPwm n fun p => p.stageWord word (value % 2 ^ 32)) else .next s

/-- COMMIT written to SLC_PWMUPD of a slice (R188): on the even slice of a pair it commits the odd slice's staging set too. -/
def State.commitAt (s : State) (n : Slice) (tgt : Nat) : State :=
  let one (s : State) (m : Slice) : State :=
    if s.shadowOpen m then s.modPwm m fun p => p.commitStage tgt else s
  let s := one s n
  if n.val % 2 = 0 && s.pairFunc n != 0 then one s (oddOf n) else s

/-- COMMIT (R188). -/
def execCommit (n : Slice) (tgt : Fin 3) (s : State) : Out := .next (s.commitAt n tgt)

/-! Effective times (R190 to R194). -/

/-- The least period that dead time and minimum pulse allow, and the range of R186. -/
def perLow (td tm : Nat) : Nat := max 32000 (2 * (td + tm))

/-- One leg's effective high-side time, low-side time, dropped mark and carry out (Table PWM.3). -/
def legTimes (T td tm a : Nat) : Nat × Nat × Bool × Int :=
  if a = 0 then (0, T, false, 0)
  else if a < tm then (0, T, true, a)
  else if a + 2 * td + tm ≤ T then (a, T - a - 2 * td, false, 0)
  else if a < T then (T, 0, true, (a : Int) - T)
  else (T, 0, false, 0)

/-- The refresh of R193: where the low side would stay off for a whole period and has been off for REFMAX, a low-side pulse of tm. -/
def refreshTimes (T td tm a : Nat) : Nat × Nat × Bool × Int :=
  (T - 2 * td - tm, tm, false, (a : Int) - (T - 2 * td - tm : Nat))

/-- The voltage ceiling of R192 on one on-time x: m + (x − m) × VCEIL × T / (hi − lo), rounded toward m = (hi + lo)/2; VCEIL is Q1.16. -/
def vceilMove (T vceil hi lo x : Nat) : Nat :=
  let d : Int := 2 ^ 16 * ((hi : Int) - lo)
  let k : Int := (2 * (x : Int) - (hi + lo)) * (vceil * T)
  let num : Int := (hi + lo : Nat) * d + k
  (if k ≥ 0 then Int.fdiv num (2 * d) else -(Int.fdiv (-num) (2 * d))).toNat

/-- Whether R192 acts: hi − lo exceeds VCEIL × T. -/
def vceilActs (T vceil hi lo : Nat) : Bool := (hi - lo) * 2 ^ 16 > vceil * T

/-- Full scale of the current range in µV (SLC_ISCFG.RANGE). -/
def State.fullScale (s : State) (n : Slice) : Nat := 50000 * 2 ^ (s.get (R.SLC_ISCFG_RANGE n))

/-- The effective ceiling of a slice, in 4 µV units × 2^16 × 100 (R170): CEIL times ISCALE, times RGCEIL of a bus in REGEN (R206). -/
def State.ceilOf (s : State) (n : Slice) : Nat :=
  let k := s.busOf n
  let f := if s.bitOf R.BUS_STAT_REGEN k then min 100 (s.hl (R.BUS_CLIM_RGCEIL k)) else 100
  s.hl (R.SLC_OCLIM_CEIL n) * min 65536 (s.get (R.THM_SLC_ISCALE n)) * f

/-- The ceiling's clamp on a leg (R170): 1 to zero on-time, 2 to the full period, 0 none. The sample is in converter LSB. -/
def State.ceilClamp (s : State) (n : Slice) (leg : Fin 3) : Nat :=
  let x := s.sense[n].last.leg leg
  if !(s.sense[n].have_.leg leg) then 0
  else if (x.natAbs * s.fullScale n) * (65536 * 100) > 4 * 32768 * s.ceilOf n then (if x > 0 then 1 else 2)
  else 0

/-- The ceiling clamps of a slice, with those of the other slice of a PARALLEL pair (R294). -/
def State.ceilClamps (s : State) (n : Slice) : Tri Nat :=
  let own := fun leg =>
    let a := s.ceilClamp n leg
    if a = 0 && s.pairFunc n == 2 then s.ceilClamp (oddOf n) leg else a
  ⟨own 0, own 1, own 2⟩

/-- The period of the carrier that begins (R185, R186): CPER with the grid trim of at most 32 steps in CENTRE, PER clamped otherwise;
and whether PER was clamped. -/
def State.periodOf (s : State) (n : Slice) (per : Nat) (trim : Int) : Nat × Bool :=
  if s.get (R.SLC_PWMCFG_CTYPE n) = 0 then
    (((s.get (R.SLC_PWMCFG_CPER n) : Int) + clampI (-32) 32 trim).toNat, false)
  else
    let lo := perLow (s.hl (R.SLC_PWMLIM_TD n)) (s.hl (R.SLC_PWMLIM_TMIN n))
    if per < lo then (lo, true) else if per > 1600000 then (1600000, true) else (per, false)

/-- The adjusted request of a leg (R190, step 3): on-time plus carry, held to 0 to T; a COFF leg's on-time is PER − f. -/
def State.request (s : State) (n : Slice) (T leg : Nat) (carry : Int) : Nat :=
  let a : Int := if s.get (R.SLC_PWMCFG_CTYPE n) = 2 then (T : Int) - leg else leg
  (clampI 0 T (a + (if s.on (R.SLC_PWMCFG_CARRY n) then carry else 0))).toNat

/-- The result of R190 for one leg: effective high and low times, dropped, refreshed, carry out. -/
structure LegOut where
  hi : Nat
  lo : Nat
  dropped : Bool
  refreshed : Bool
  carry : Int
deriving DecidableEq, Repr

/-- Dead time, minimum pulse and refresh on one leg (R190, step 6). -/
def State.legOut (s : State) (n : Slice) (T a age : Nat) : LegOut :=
  let td := s.hl (R.SLC_PWMLIM_TD n)
  let tm := s.hl (R.SLC_PWMLIM_TMIN n)
  let (h, l, d, c) := legTimes T td tm a
  if h = T && T ≠ 0 && l = 0 && age ≥ s.hl (R.SLC_PWMLIM_REFMAX n) * 128000 then
    let (h, l, _, c) := refreshTimes T td tm a
    ⟨h, l, false, true, c⟩
  else ⟨h, l, d, false, c⟩

/-- Steps since the end of the leg's last low-side pulse, at the next boundary (R193). -/
def ageAfter (ctype T td : Nat) (age : Nat) (o : LegOut) : Nat :=
  if o.lo = 0 then age + T
  else if o.lo = T then 0
  else if ctype = 0 then o.hi / 2 + td
  else td

/-! Commits (R189, R190 step 1). -/

/-- The word a shadow belongs to: LEGU and LEGV are one word, LEGW the next, PER the third. -/
def wordGroup (w : Nat) : Nat := if w < 2 then 0 else w - 1

/-- The shadow words of a slice that are due at boundary b. -/
def PwmDyn.due (p : PwmDyn) (b : Nat) : List Shadow := p.shadows.filter fun x => x.target ≤ b

/-- Whether a due word of cycle c was preceded by another word of that cycle at an earlier boundary (R189), in a slice's commits. -/
def splitBy (commits : List (Nat × Nat × Nat × Nat)) (b : Nat) (x : Shadow) : Bool :=
  commits.any fun (g, c, bb, ba) => g != wordGroup x.word && c == x.cycle && bb != b && ba != x.batch

/-- A held word taken (R190, step 1). -/
def PwmDyn.takeWord (p : PwmDyn) (x : Shadow) : PwmDyn :=
  match x.word with
  | 0 => { p with leg := { p.leg with u := x.val } }
  | 1 => { p with leg := { p.leg with v := x.val } }
  | 2 => { p with leg := { p.leg with w := x.val } }
  | _ => { p with per := x.val }

/-- The words due at a boundary taken, with their late and split marks (R20, R189, R292). -/
def State.commitDue (s : State) (n : Slice) (b : Nat) : State :=
  let p := s.pwm[n]
  let due := p.due b
  let other := if s.pairFunc n == 1 then (s.pwm[if n.val % 2 = 0 then oddOf n else evenOf n]).commits else []
  let late := (due.filter (·.late)).length
  let split := due.any fun x => splitBy p.commits b x
  let pairSplit := due.any fun x => other.any fun (_, c, bb, _) => c == x.cycle && bb != b
  let s := s.modPwm n fun p =>
    let p := due.foldl PwmDyn.takeWord p
    { p with
      shadows := p.shadows.filter fun x => !(x.target ≤ b)
      commits := (p.commits ++ due.map fun x => (wordGroup x.word, x.cycle, b, x.batch)).filter fun e => p.cycle ≤ e.2.1 + 2
      claimHold := p.claimHold && !(due.any fun x => x.lead) }
  let s := if late = 0 then s else
    ((s.set (R.SLC_PWMSTAT_LATE n) 1).bumpBy (R.SLC_PWMCNT_LATECNT n) late).raiseAx 0x070B 1 n
  let mark (s : State) (m : Slice) : State :=
    ((s.set (R.SLC_PWMSTAT_SPLIT m) 1).bump (R.SLC_PWMCNT_SPLITCNT m)).raiseAx 0x070C 0 m
  if pairSplit then mark (mark s (evenOf n)) (oddOf n) else if split then mark s n else s

/-- The longest switchover gap and the last one recorded, at the first commit after a claim (R431, TWN_GAP). -/
def State.gapCommit (s : State) : State :=
  match s.twin.gapStart with
  | none => s
  | some t =>
    let g := satN (2 ^ 32 - 1) ((s.clock.up - t) / nsUnit)
    let s := s.set R.TWN_GAP_LAST g
    let s := s.set R.TWN_GAP_MAX (max g (s.get R.TWN_GAP_MAX))
    { s with twin := { s.twin with gapStart := none } }

/-- The effective times of a slice formed for the period that begins (R190, steps 2 to 6), written to its read-back registers; with
them the counts and faults of the clamps (R28, R170, R192), drops, refreshes and carries (R191 to R194). -/
def State.formTimes (s : State) (n : Slice) (trim : Int) : State :=
  let p := s.pwm[n]
  let (T, perClamped) := s.periodOf n p.per trim
  let cc := s.ceilClamps n
  let one (leg : Nat) (carry : Int) (c : Nat) : Nat :=
    let a := s.request n T leg carry
    if c = 1 then 0 else if c = 2 then T else a
  let au := one p.leg.u p.carry.u cc.u
  let av := one p.leg.v p.carry.v cc.v
  let aw := one p.leg.w p.carry.w cc.w
  let hi := max au (max av aw)
  let lo := min au (min av aw)
  let vc := s.hl (R.SLC_PWMLIM_VCEIL n)
  let acts := vceilActs T vc hi lo
  let mv (x : Nat) : Nat := if acts then vceilMove T vc hi lo x else x
  let ou := s.legOut n T (mv au) p.lowAge.u
  let ov := s.legOut n T (mv av) p.lowAge.v
  let ow := s.legOut n T (mv aw) p.lowAge.w
  let ct := s.get (R.SLC_PWMCFG_CTYPE n)
  let td := s.hl (R.SLC_PWMLIM_TD n)
  let keep := s.on (R.SLC_PWMCFG_CARRY n)
  let clamps := b2n (cc.u != 0) + b2n (cc.v != 0) + b2n (cc.w != 0)
  let drops := b2n ou.dropped + b2n ov.dropped + b2n ow.dropped
  let refs := b2n ou.refreshed + b2n ov.refreshed + b2n ow.refreshed
  let run := if clamps = 0 then 0 else s.sense[n].clampRun + 1
  let s := s.modPwm n fun p =>
    { p with
      carry := if keep then ⟨ou.carry, ov.carry, ow.carry⟩ else ⟨0, 0, 0⟩
      prevFull := p.low.map fun l => l == s.get (R.SLC_PWMEFF1_EFFT n) && l != 0
      low := ⟨ou.lo, ov.lo, ow.lo⟩
      lowAge := ⟨ageAfter ct T td p.lowAge.u ou, ageAfter ct T td p.lowAge.v ov, ageAfter ct T td p.lowAge.w ow⟩ }
  let hit := clamps ≠ 0 ∧ s.hl (R.SLC_OCLIM_CEIL_N n) ≤ run
  let s := s.modSense n fun x => { x with clampRun := if hit then 0 else run }
  let s := s.set (R.SLC_PWMEFF0_EFFU n) ou.hi
  let s := s.set (R.SLC_PWMEFF0_EFFV n) ov.hi
  let s := s.set (R.SLC_PWMEFF1_EFFW n) ow.hi
  let s := s.set (R.SLC_PWMEFF1_EFFT n) T
  let s := s.bumpBy (R.SLC_PWMCNT_DROPCNT n) drops
  let s := s.bumpBy (R.SLC_PWMCNT_REFCNT n) refs
  let s := if perClamped then (s.bump (R.SLC_PWMSTAT_CLAMPCNT n)).raiseAx 0x070E 0 n else s
  let s := if acts then (s.bump (R.SLC_PWMSTAT_CLAMPCNT n)).raiseAx 0x070E 0 n else s
  let s := if clamps = 0 then s else (s.bumpBy (R.SLC_OCSTAT_CEILCNT n) clamps).raiseAx 0x060D 0 n
  if hit then s.raiseAx 0x0603 3 n else s

/-- The odd slice of a PARALLEL pair places its edges from the even slice's effective times (R294). -/
def State.copyTimes (s : State) (n : Slice) : State :=
  if n.val % 2 = 0 && s.pairFunc n == 2 then
    let o := oddOf n
    let s := s.set (R.SLC_PWMEFF0_EFFU o) (s.get (R.SLC_PWMEFF0_EFFU n))
    let s := s.set (R.SLC_PWMEFF0_EFFV o) (s.get (R.SLC_PWMEFF0_EFFV n))
    let s := s.set (R.SLC_PWMEFF1_EFFW o) (s.get (R.SLC_PWMEFF1_EFFW n))
    let s := s.set (R.SLC_PWMEFF1_EFFT o) (s.get (R.SLC_PWMEFF1_EFFT n))
    let e := s.pwm[n]
    s.modPwm o fun p => { p with low := e.low, leg := e.leg, per := e.per }
  else s

/-- In BRAKE the zero vector is on for a period that begins with every leg's last valid sample below I_BRAKE (R179). -/
def State.brakeVector (s : State) (n : Slice) : State :=
  if s.get (R.SLC_SLSTAT_PHASE n) = 2 then
    let lim := s.get (R.SLC_SLCFG0_I_BRAKE n)
    let x := s.sense[n].last
    s.modStart n fun q => { q with zeroVector := x.u.natAbs < lim && x.v.natAbs < lim && x.w.natAbs < lim }
  else s

/-- OFFSET_CALIBRATION (R167): the outcome of 32 carrier periods on one slice; true when the step is complete. -/
def State.calibrate (s : State) (n : Slice) (o : EnableObs) : State × Bool :=
  let lim : Int := s.get (R.SLC_ISCFG_OFFLIM n)
  let spread := legs.all fun k => o.spread.leg k ≤ 64
  let inside := legs.all fun k => ((o.mean.leg k).natAbs : Int) ≤ lim
  if !spread then (((s.set (R.SLC_ISOFF_OFF_KEPT n) 1).raiseAx 0x060C 0 n), true)
  else if inside then
    let s := s.setS (R.SLC_ISOFF_OFFU n) o.mean.u
    let s := s.setS (R.SLC_ISOFF_OFFV n) o.mean.v
    let s := s.setS (R.SLC_ISOFF_OFFW n) o.mean.w
    ((s.set (R.SLC_ISOFF_CAL_OK n) 1).set (R.SLC_ISOFF_OFF_KEPT n) 0, true)
  else (s.raiseAx 0x0604 3 n, false)

/-- CARRIER_BOUNDARY (R190): a running, unfrozen carrier passes its next boundary; L fields of the carrier and, at the first period of
a current cycle, of the axis current cycle take effect (R7), a waiting delay-line calibration is taken (R184), the due words commit
and the effective times of the period are formed. In SHADOW `cal` is what a repetition of the offset calibration that ends here has
measured; it is due every 1 024 carrier periods (R423). -/
def execCarrierBoundary (n : Slice) (trim : Int) (cal : Option EnableObs) (s : State) : Out :=
  if !s.pwm[n].running || s.on (R.SLC_PWMSTAT_FROZEN n) then .next s else
  let b := s.pwm[n].bnum + 1
  let place := (s.pwm[n].place + 1) % (s.get (R.SLC_PWMCFG_NCUR n) + 1)
  let held := s.pwm[n].claimHold
  let s := (s.applyStaged (s.stagedFor .carrier n)).unstage .carrier n
  let s := if place = 0 then (s.applyStaged (s.stagedFor .current n)).unstage .current n else s
  let s := s.modPwm n fun p => { p with bnum := b, place := place, cal := p.calNew }
  let s := s.brakeVector n
  let s := match cal with
    | some o => if s.dev == 3 && s.ax[n].used && b % 1024 == 0 then (s.calibrate n o).1 else s
    | none => s
  if s.oddInPair n && s.pairFunc n == 2 then .next s
  else
    let s := s.commitDue n b
    let s := s.formTimes n trim
    let s := s.copyTimes n
    .next (if held && !s.pwm[n].claimHold then s.gapCommit else s)

/-- DELAY_LINE_CALIBRATION (R184): a new calibration of a die's delay lines waits for each slice's next carrier boundary. -/
def execDelayLineCalibration (die : Fin 2) (s : State) : Out :=
  .next (s.each (slices.filter fun n => dieOf n == die.val) fun s n => s.modPwm n fun p => { p with calNew := p.calNew + 1 })

/-! Gate supply and bootstraps (R197 to R199). -/

/-- V_DRV of a die, its OK bit. -/
def vdrvFld (die : Fin 2) : Fld := if die = 0 then R.BUS_STAT_VDRV_OK_A else R.BUS_STAT_VDRV_OK_B

/-- VDRV_UNDERVOLTAGE (R197): the die's gates go low; an F4 of the die's slices unless TORQUE-OFF is present or the backstop holds. -/
def execVdrvUndervoltage (die : Fin 2) (s : State) : Out :=
  let s := s.setB (vdrvFld die) false
  let s := s.each (slices.filter fun n => dieOf n == die.val) fun s n =>
    s.modPwm n fun p => { p with frozenOff := p.frozenOff || s.on (R.SLC_PWMSTAT_FROZEN n) }
  .next (if s.on R.SYS_STATE_TORQUE_OFF || s.on R.BUS_STAT_BACKSTOP then s else s.raiseDie 0x0704 4 die)

/-- VDRV_RECOVERED (R197): V_DRV is above its rising level. -/
def execVdrvRecovered (die : Fin 2) (s : State) : Out := .next (s.setB (vdrvFld die) true)

/-- BOOTSTRAP_UNDERVOLTAGE (R198): the leg's high side is held low, BOOTUV set, an F0 logged. -/
def execBootstrapUndervoltage (n : Slice) (leg : Fin 3) (s : State) : Out :=
  .next ((s.putBit (R.SLC_PWMSTAT_BOOTUV n) leg true).raiseAx 0x070D 0 n leg)

/-- BOOTSTRAP_RECOVERED (R198): the hold ends; time held while ENABLED or STOPPING adds to the leg's total. -/
def execBootstrapRecovered (n : Slice) (leg : Fin 3) (heldUs : Nat) (s : State) : Out :=
  let s := s.putBit (R.SLC_PWMSTAT_BOOTUV n) leg false
  let a := s.lead n
  .next (if s.axst a == 2 || s.axst a == 3 then
    s.modPwm n fun p => { p with bootHeld := p.bootHeld.put leg (p.bootHeld.leg leg + heldUs) } else s)

/-- BOOTUV_PERSISTENT (R198): a leg's total reaches 1 ms while its axis is ENABLED or STOPPING; F3 of axis scope. -/
def execBootuvPersistent (n : Slice) (leg : Fin 3) (s : State) : Out :=
  let a := s.lead n
  .next (if s.axst a == 2 || s.axst a == 3 then
    (s.modPwm n fun p => { p with bootHeld := p.bootHeld.put leg (max 1000 (p.bootHeld.leg leg)) }).raiseAx 0x0702 3 n leg
  else s)

/-! Freeze, HALT_GUARD and resume (R200 to R203). -/

/-- The level of a leg's high side at step `x` of its period (Table PWM.1). -/
def highAt (ctype T hi x : Nat) : Bool :=
  if hi = T then hi != 0
  else if ctype = 0 then x < (hi + 1) / 2 || T - hi / 2 ≤ x
  else x < hi

/-- The level of a leg's low side at step `x` of its period (Table PWM.1). -/
def lowAt (ctype T hi lo td x : Nat) : Bool :=
  if lo = 0 then false
  else if lo = T then true
  else if ctype = 0 then (hi + 1) / 2 + td ≤ x && x < T - hi / 2 - td
  else hi + td ≤ x && x < T - td

/-- The six gate levels of a slice at step `x` of its period, bits 0 to 2 the high sides and 3 to 5 the low sides. -/
def State.levelsAt (s : State) (n : Slice) (x : Nat) : Nat :=
  match s.drive n with
  | .run =>
    let ct := s.get (R.SLC_PWMCFG_CTYPE n)
    let T := s.get (R.SLC_PWMEFF1_EFFT n)
    let td := s.hl (R.SLC_PWMLIM_TD n)
    let hs : Tri Nat := ⟨s.get (R.SLC_PWMEFF0_EFFU n), s.get (R.SLC_PWMEFF0_EFFV n), s.get (R.SLC_PWMEFF1_EFFW n)⟩
    let drop := s.pairFunc n == 3
    legs.foldl (fun v leg =>
      if drop && leg == 2 then v else
      v + b2n (highAt ct T (hs.leg leg) x && !s.highHeld n leg) * 2 ^ leg.val
        + b2n (lowAt ct T (hs.leg leg) (s.pwm[n].low.leg leg) td x) * 2 ^ (leg.val + 3)) 0
  | .lowSides => 0x38
  | .precharge leg => 2 ^ (leg.val + 3)
  | .frozen l => l
  | .low => 0

/-- A slice frozen where its carrier stands (R201): it holds its levels; the carry is zero (R194), HG_FIRED starts clear. -/
def State.freeze (s : State) (n : Slice) (place : Nat) : State :=
  if s.on (R.SLC_PWMSTAT_FROZEN n) || !s.pwm[n].running then s else
  let lv := s.levelsAt n place
  let s := s.modPwm n fun p => { p with frozen := lv, frozenOff := false, carry := ⟨0, 0, 0⟩ }
  let s := s.set (R.SLC_PWMSTAT_HG_FIRED n) 0
  s.set (R.SLC_PWMSTAT_FROZEN n) 1

/-- HALT_GUARD (R202, R299): with HG_EN set, a freeze that lasts HG_TIME drives the gates of the axis low, sets HG_FIRED, F3. -/
def execHaltGuard (n : Slice) (s : State) : Out :=
  if s.on (R.SLC_PWMSTAT_FROZEN n) && s.hl (R.SLC_PWMLIM_HG_EN n) != 0 then
    let s := s.each (s.axisSlices n) fun s m => s.modPwm m fun p => { p with frozenOff := true }
    let s := s.set (R.SLC_PWMSTAT_HG_FIRED n) 1
    .next (s.raiseAx 0x0703 3 n)
  else .next s

/-- Whether a core named in a slice's FRZMASK is debug-halted (R200, R203). -/
def State.frzCore (s : State) (n : Slice) : Bool :=
  cores.any fun c => s.bitOf (R.SLC_PWMCFG_FRZMASK n) c && s.on (R.LC_DBG_HALTED c)

/-- SLICE_RESUME (R203): no core of FRZMASK is halted any more; the slice starts a period with the values in effect. In CENTRE the
grid points passed during the freeze count as periods; in CON and COFF the count goes on. -/
def execSliceResume (n : Slice) (passed : Nat) (s : State) : Out :=
  if s.on (R.SLC_PWMSTAT_FROZEN n) && !s.frzCore n then
    let k := if s.get (R.SLC_PWMCFG_CTYPE n) = 0 then passed + 1 else 1
    let nc := s.get (R.SLC_PWMCFG_NCUR n) + 1
    let s := s.set (R.SLC_PWMSTAT_FROZEN n) 0
    let s := s.modPwm n fun p => { p with bnum := p.bnum + k, place := (p.place + k) % nc, splace := p.splace + (p.place + k) / nc }
    let s := s.modSup (s.lead n) fun u => { u with stale := 0 }
    let s := s.set (R.SLC_SVSTAT_FECNT (s.lead n)) 0
    .next (s.set (R.SLC_SVSTAT_FETMR (s.lead n)) 0)
  else .next s

end Sys2Proof.Machine
end

