-- ==== Sys2Proof/Machine/Sense.lean ====
section
/-!
DEFINITION. Machine/Sense.lean: current samples and their delivery, phase voltages, trips and the switch-node check (R161 to R173),
with the pair rules R292 to R296.
-/

namespace Sys2Proof.Machine

/-! Sample instant and validity (R163, R164, R479). Times in steps of 78.125 ps from the start of the period, doubled so that midpoints
are whole. -/

/-- The interval in which a leg's low side conducts in the present period, doubled steps; none where it never does. A leg low for the
whole period reaches back before it when the period before was low as well. -/
def State.lowSpan (s : State) (n : Slice) (leg : Fin 3) : Option (Int × Int) :=
  let T := s.get (R.SLC_PWMEFF1_EFFT n)
  let td := s.hl (R.SLC_PWMLIM_TD n)
  let hi := if leg = 0 then s.get (R.SLC_PWMEFF0_EFFU n) else if leg = 1 then s.get (R.SLC_PWMEFF0_EFFV n) else s.get (R.SLC_PWMEFF1_EFFW n)
  let lo := s.pwm[n].low.leg leg
  let before : Int := if s.pwm[n].prevFull.leg leg then -(2 * T : Nat) else 0
  match s.drive n with
  | .lowSides => some (before, 2 * T)
  | .run =>
    if s.pairFunc n == 3 && leg == 2 then none
    else if lo = 0 then none
    else if lo = T then some (before, 2 * T)
    else if s.get (R.SLC_PWMCFG_CTYPE n) = 0 then
      some (2 * (((hi + 1) / 2 + td : Nat) : Int), 2 * ((T : Int) - (hi / 2 : Nat) - td))
    else some (2 * ((hi + td : Nat) : Int), 2 * ((T : Int) - td))
  | _ => none

/-- The largest of the starts and the smallest of the ends of the legs' low-side intervals (R479). -/
def spanMeet : List (Option (Int × Int)) → Option (Int × Int)
  | [] => none
  | none :: t => spanMeet t
  | some a :: t =>
    match spanMeet t with
    | none => some a
    | some b => some (max a.1 b.1, min a.2 b.2)

/-- The sample instant of a slice in its present period, doubled steps (Table CMT.2, R479). -/
def State.sampleInstant (s : State) (n : Slice) : Int :=
  let T : Int := s.get (R.SLC_PWMEFF1_EFFT n)
  let m := spanMeet [s.lowSpan n 0, s.lowSpan n 1, s.lowSpan n 2]
  match s.get (R.SLC_PWMCFG_CTYPE n) with
  | 1 => match m with
    | some (_, e) => e - 2 * 640
    | none => 2 * T - 2 * 640
  | 2 => match m with
    | some (b, e) => (max b 0 + e) / 2
    | none => T
  | _ => T

/-- Whether a leg's low side conducts from TBLANK before the sample instant to 50 ns after it (R164). -/
def State.legValid (s : State) (n : Slice) (leg : Fin 3) : Bool :=
  let ts := s.sampleInstant n
  match s.lowSpan n leg with
  | some (b, e) => b ≤ ts - 2 * (s.get (R.SLC_ISCFG_TBLANK n) * 128 : Nat) && ts + 2 * 640 ≤ e
  | none => false

/-- The validity of a slice's legs taken at its sample instant; the conversion is awaited. -/
def State.closeHold (s : State) (n : Slice) : State :=
  let ok : Tri Bool := ⟨s.legValid n 0, s.legValid n 1, s.legValid n 2⟩
  s.modSense n fun x => { x with legOk := ok, waiting := true }

/-- A sample instant as the shadow rules see it: targets and tags count from it (Table PWM.2, R187). -/
def State.tagCycle (s : State) (n : Slice) (cycle : Nat) : State :=
  s.modPwm n fun p => { p with sampled := true, sampleBnd := p.bnum, cycle := cycle }

/-- CURRENT_SAMPLE (R163): at the sample instant of the first period of a current cycle the slice closes its three sample-and-holds; a
pair that samples as one does so on the even slice's row (R293, R296). In DUAL3 the even slice's instant tags both slices' words
(R292). A frozen slice takes no sample (R203). -/
def execCurrentSample (n : Slice) (s : State) : Out :=
  if !s.pwm[n].running || s.on (R.SLC_PWMSTAT_FROZEN n) || s.pwm[n].place != 0 then .next s
  else
    let f := s.pairFunc n
    if s.oddInPair n then
      if f == 1 then .next (s.closeHold n)
      else if f == 2 || f == 3 then .next s
      else .next ((s.closeHold n).tagCycle n (s.pwm[n].cycle + 1))
    else
      let c := s.pwm[n].cycle + 1
      let s := (s.closeHold n).tagCycle n c
      if f == 1 then .next (s.tagCycle (oddOf n) c)
      else if f == 2 || f == 3 then .next ((s.closeHold (oddOf n)).tagCycle (oddOf n) c)
      else .next s

/-! Delivery (R162, R165, R166). -/

/-- The calibrated offset of a leg in LSB. -/
def State.offsetOf (s : State) (n : Slice) (leg : Fin 3) : Int :=
  if leg = 0 then s.getS (R.SLC_ISOFF_OFFU n) else if leg = 1 then s.getS (R.SLC_ISOFF_OFFV n) else s.getS (R.SLC_ISOFF_OFFW n)

/-- A conversion with its offset and sign, in LSB (R162). -/
def State.signedLsb (s : State) (n : Slice) (leg : Fin 3) (code : Int) : Int :=
  let d := code - s.offsetOf n leg
  if s.on (R.SLC_ISCFG_POL n) then d else -d

/-- LSB as Q1.31 of full scale, saturated (R162). -/
def lsbQ31 (d : Int) : Int := satS 32 (d * 65536)

/-- Whether a conversion stands at an end of the converter's range (R165). -/
def clipped (code : Int) : Bool := code ≥ 32767 || code ≤ -32768

/-- A set as R165 delivers it: values, reconstructed leg, STALE and SUM_ERR. -/
structure SetOut where
  i : Tri Int
  recLeg : Option (Fin 3)
  stale : Bool
  sumErr : Bool
deriving DecidableEq, Repr

/-- The set formed from values, validity and clips (R165): three legs as converted, two with the third reconstructed, else the set
delivered last. -/
def formSet (v : Tri Int) (ok clip : Tri Bool) (last : Tri Int) (sumlim : Nat) : SetOut :=
  match ok.u, ok.v, ok.w with
  | true, true, true => ⟨v, none, false, decide ((v.u + v.v + v.w).natAbs > sumlim * 65536)⟩
  | true, true, false =>
    if clip.u || clip.v then ⟨last, none, true, false⟩ else ⟨{ v with w := satS 32 (-(v.u + v.v)) }, some 2, false, false⟩
  | true, false, true =>
    if clip.u || clip.w then ⟨last, none, true, false⟩ else ⟨{ v with v := satS 32 (-(v.u + v.w)) }, some 1, false, false⟩
  | false, true, true =>
    if clip.v || clip.w then ⟨last, none, true, false⟩ else ⟨{ v with u := satS 32 (-(v.v + v.w)) }, some 0, false, false⟩
  | _, _, _ => ⟨last, none, true, false⟩

/-- Three flags as bits 0 to 2. -/
def triBits (t : Tri Bool) : Nat := b2n t.u + 2 * b2n t.v + 4 * b2n t.w

/-- The payload of an ISAMPLE token (Table CMT.3). -/
def samplePayload (o : SetOut) (ok clip : Tri Bool) (trip : Bool) (seq : Nat) : List Nat :=
  [ofS 32 o.i.u + ofS 32 o.i.v * 2 ^ 32,
   ofS 32 o.i.w + triBits ok * 2 ^ 32 + b2n o.recLeg.isSome * 2 ^ 35
    + (match o.recLeg with | some l => l.val | none => 0) * 2 ^ 36
    + b2n o.stale * 2 ^ 38 + b2n o.sumErr * 2 ^ 39 + triBits clip * 2 ^ 40 + b2n trip * 2 ^ 43 + seq % 65536 * 2 ^ 48]

/-- Whether a slice is being driven, so that its sets count toward ISUM and ISTALE (log entry 20). -/
def State.switching (s : State) (n : Slice) : Bool := s.drive n == .run

/-- A set delivered on slice n (R165, R166): SLC_ISCNT, the runs of SUM_ERR and STALE sets, and the ISAMPLE event. -/
def State.deliver (s : State) (n : Slice) (v : Tri Int) (ok clip : Tri Bool) (checkSum : Bool) : State :=
  let o := formSet v ok clip s.sense[n].lastSet (s.get (R.SLC_ISCFG_SUMLIM n))
  let o := if checkSum then o else { o with sumErr := false }
  let trip := (s.axisSlices n).any fun m => s.get (R.SLC_OCSTAT_TRIP m) != 0
  let run := s.switching n
  let sumRun := if run && o.sumErr then s.sense[n].sumRun + 1 else 0
  let staleRun := if run && o.stale then s.sense[n].staleRun + 1 else 0
  let sumHit := sumRun != 0 && s.get (R.SLC_ISCFG_SUM_N n) ≤ sumRun
  let staleHit := staleRun != 0 && s.get (R.SLC_ISCFG_STALE_LIM n) ≤ staleRun
  let q := s.sense[n].seq
  let s := s.modSense n fun x =>
    { x with lastSet := o.i, seq := (q + 1) % 65536, sumRun := if sumHit then 0 else sumRun, staleRun := if staleHit then 0 else staleRun,
             waiting := false }
  let s := if o.recLeg.isSome then s.bump (R.SLC_ISCNT_REC n) else s
  let s := if o.stale then s.bump (R.SLC_ISCNT_STALE n) else s
  let s := if o.sumErr then s.bump (R.SLC_ISCNT_SUMERR n) else s
  let s := if clip.u || clip.v || clip.w then s.bump (R.SLC_ISCNT_CLIP n) else s
  let s := s.arrive 2 n (samplePayload o ok clip trip q)
  let s := if sumHit then s.raiseAx 0x0605 3 n else s
  if staleHit then s.raiseAx 0x0606 3 n else s

/-- A slice's own conversions taken: last valid samples (R170) and its values kept for the pair. -/
def State.takeConv (s : State) (n : Slice) (conv : Tri Int) : State :=
  let d : Tri Int := ⟨s.signedLsb n 0 conv.u, s.signedLsb n 1 conv.v, s.signedLsb n 2 conv.w⟩
  s.modSense n fun x =>
    { x with
      last := ⟨if x.legOk.u then d.u else x.last.u, if x.legOk.v then d.v else x.last.v, if x.legOk.w then d.w else x.last.w⟩
      have_ := ⟨x.have_.u || x.legOk.u, x.have_.v || x.legOk.v, x.have_.w || x.legOk.w⟩
      own := d
      ownClip := conv.map clipped }

/-- Two flags, leg by leg. -/
def triAnd (a b : Tri Bool) : Tri Bool := ⟨a.u && b.u, a.v && b.v, a.w && b.w⟩
def triOr (a b : Tri Bool) : Tri Bool := ⟨a.u || b.u, a.v || b.v, a.w || b.w⟩

/-- The mean of two Q1.31 values, ties to even (R293). -/
def meanQ31 (a b : Int) : Int :=
  let t := a + b
  if t % 2 = 0 then t / 2 else (if t / 2 % 2 = 0 then t / 2 else t / 2 + 1)

/-- The imbalance check of a PARALLEL pair (R295): on valid legs |a − b| against IMBLIM, in LSB. -/
def State.imbalance (s : State) (n : Slice) (a b : Tri Int) (ok : Tri Bool) : State :=
  let lim := s.get (R.SLC_CHYCFG_IMBLIM n)
  let far := (ok.u && (a.u - b.u).natAbs > lim) || (ok.v && (a.v - b.v).natAbs > lim) || (ok.w && (a.w - b.w).natAbs > lim)
  if !(ok.u || ok.v || ok.w) then s
  else if !far then s.modSense n fun x => { x with imbRun := 0 }
  else
    let run := s.sense[n].imbRun + 1
    let s := s.bump (R.SLC_CHYSTAT_IMBCNT n)
    if s.get (R.SLC_CHYCFG_IMB_N n) ≤ run then
      (s.modSense n fun x => { x with imbRun := 0 }).raiseAx 0x0B01 3 n
    else s.modSense n fun x => { x with imbRun := run }

/-- ISAMPLE_SET (R165): the conversion of a sample set completes; `conv` holds the three converter codes. In PARALLEL and BIPOLAR2 the
odd slice's row brings its codes and the even slice's row delivers the pair's one set (R293, R296); in DUALFB and WIDE the odd slice
delivers none (Table CHY.1). -/
def execIsampleSet (n : Slice) (conv : Tri Int) (s : State) : Out :=
  if !s.sense[n].waiting then .next s else
  let f := s.pairFunc n
  let s := s.takeConv n conv
  if (f == 2 || f == 3) && n.val % 2 = 1 then .next s
  else if (f == 4 || f == 5) && n.val % 2 = 1 then .next (s.modSense n fun x => { x with waiting := false })
  else if f == 2 then
    let a := s.sense[n]
    let b := s.sense[oddOf n]
    let ok := triAnd a.legOk b.legOk
    let v : Tri Int := ⟨meanQ31 (lsbQ31 a.own.u) (lsbQ31 b.own.u), meanQ31 (lsbQ31 a.own.v) (lsbQ31 b.own.v),
      meanQ31 (lsbQ31 a.own.w) (lsbQ31 b.own.w)⟩
    let s := s.imbalance n a.own b.own ok
    let s := s.modSense (oddOf n) fun x => { x with waiting := false }
    .next (s.deliver n v ok (triOr a.ownClip b.ownClip) true)
  else if f == 3 then
    let pick (x : SenseDyn) : Int × Bool :=
      if x.legOk.u then (lsbQ31 x.own.u, true) else if x.legOk.v then (satS 32 (-(lsbQ31 x.own.v)), true) else (0, false)
    let a := pick s.sense[n]
    let b := pick s.sense[oddOf n]
    let good := a.2 && b.2
    let clip : Tri Bool := ⟨s.sense[n].ownClip.u, s.sense[oddOf n].ownClip.u, false⟩
    let s := s.modSense (oddOf n) fun x => { x with waiting := false }
    if good then
      -- R296: iA and iB, iw zero and its VALID clear; no sum is checked and nothing is reconstructed
      let s := s.modSense n fun x => { x with lastSet := ⟨a.1, b.1, 0⟩ }
      let q := s.sense[n].seq
      let trip := s.get (R.SLC_OCSTAT_TRIP n) != 0 || s.get (R.SLC_OCSTAT_TRIP (oddOf n)) != 0
      let s := s.modSense n fun x => { x with seq := (q + 1) % 65536, staleRun := 0, sumRun := 0, waiting := false }
      let s := if clip.u || clip.v then s.bump (R.SLC_ISCNT_CLIP n) else s
      .next (s.arrive 2 n (samplePayload ⟨⟨a.1, b.1, 0⟩, none, false, false⟩ ⟨true, true, false⟩ clip trip q))
    else .next (s.deliver n ⟨0, 0, 0⟩ ⟨false, false, false⟩ clip false)
  else
    .next (s.deliver n (s.sense[n].own.map lsbQ31) s.sense[n].legOk (conv.map clipped) true)

/-- VSAMPLE_SET (R168): after a carrier boundary the slice delivers the period averages in Q1.31 of 84 V with their count. -/
def execVsampleSet (n : Slice) (avg : Tri Nat) (count : Nat) (s : State) : Out :=
  if !s.pwm[n].running || s.on (R.SLC_PWMSTAT_FROZEN n) then .next s else
  let q := s.sense[n].vseq
  let s := s.modSense n fun x => { x with vseq := (q + 1) % 65536 }
  .next (s.arrive 3 n
    [avg.u % 2 ^ 32 + avg.v % 2 ^ 32 * 2 ^ 32, avg.w % 2 ^ 32 + count % 128 * 2 ^ 32 + q % 65536 * 2 ^ 48])

/-! Trips and the switch-node check (R171 to R173). -/

/-- The slices whose gates go low with a trip on slice n (R21, R299): a freeze in progress keeps them low. -/
def State.tripGates (s : State) (n : Slice) : State :=
  s.each (if s.degPair n then [n] else s.axisSlices n) fun s m =>
    s.modPwm m fun p => { p with carry := ⟨0, 0, 0⟩, frozenOff := p.frozenOff || s.on (R.SLC_PWMSTAT_FROZEN m) }

/-- OVERCURRENT_TRIP (R171): the leg's comparator has seen a voltage beyond a threshold for longer than FILT: TRIP and TPOL latch, the
gates go low (State.drive), F3. -/
def execOvercurrentTrip (n : Slice) (leg : Fin 3) (negative : Bool) (s : State) : Out :=
  let s := s.modSense n fun x => { x with releasable := x.releasable.put leg false }
  if !s.domOn (6 + dieOf n) || s.bitOf (R.SLC_OCSTAT_TRIP n) leg then .next s else
  let s := s.putBit (R.SLC_OCSTAT_TRIP n) leg true
  let s := s.putBit (R.SLC_OCSTAT_TPOL n) leg negative
  let s := s.bump (R.SLC_OCSTAT_TRIPCNT n)
  .next ((s.tripGates n).raiseAx 0x0601 3 n leg)

/-- TRIP_RELEASE_QUALIFIED (R172): the tripped leg's shunt voltage has stayed within half of both thresholds for 1 ms. -/
def execTripReleaseQualified (n : Slice) (leg : Fin 3) (s : State) : Out :=
  .next (if s.bitOf (R.SLC_OCSTAT_TRIP n) leg then s.modSense n fun x => { x with releasable := x.releasable.put leg true } else s)

/-- Bus voltage of a slice as its monitor last measured it, 10 mV units. -/
def State.busMeas (s : State) (n : Slice) : Nat := s.get ⟨R.BUS_MEAS_V0.addr, 16 * s.busOf n, 16, 0⟩

/-- SWITCH_NODE_CHECK_FAIL (R173): a switch node has not crossed half of the bus within 1 µs of a turn-on; skipped below 10 V. -/
def execSwitchNodeCheckFail (n : Slice) (leg : Fin 3) (s : State) : Out :=
  if s.busMeas n < 1000 || s.on (R.SLC_OCSTAT_SWFAULT n) || s.drive n == .low then .next s else
  let s := s.set (R.SLC_OCSTAT_SWFAULT n) 1
  let s := s.set (R.SLC_OCSTAT_SWLEG n) leg
  .next ((s.tripGates n).raiseAx 0x0602 3 n leg)

end Sys2Proof.Machine
end

