-- ==== Sys2Proof/Machine/StartSeq.lean ====
section
/-!
DEFINITION. Machine/StartSeq.lean: the start sequencer of a sensorless axis (R174 to R181, Tables CMT.7 and CMT.8).
Times count in PWM steps of 78.125 ps, 12 800 000 in a millisecond; speeds in 2^−32 Hz electrical.
-/

namespace Sys2Proof.Machine

/-- PWM steps in a millisecond. -/
def stepsMs : Nat := 12800000

/-- A current cycle of a slice in PWM steps, by its present period. -/
def State.cycleSteps (s : State) (n : Slice) : Nat := (s.get (R.SLC_PWMCFG_NCUR n) + 1) * s.get (R.SLC_PWMEFF1_EFFT n)

/-- Phases of SLC_SLSTAT.PHASE. -/
def phIDLE : Nat := 0
def phLISTEN : Nat := 1
def phBRAKE : Nat := 2
def phSYNC : Nat := 3
def phALIGN : Nat := 4
def phFORCED : Nat := 5
def phBLEND : Nat := 6
def phRUN : Nat := 7
def phCOAST : Nat := 8
def phFAIL : Nat := 9

/-- The sequencer's phase. -/
def State.slPhase (s : State) (n : Slice) : Nat := s.get (R.SLC_SLSTAT_PHASE n)

/-- A phase entered: its time starts at zero. -/
def State.enterPhase (s : State) (n : Slice) (ph : Nat) : State :=
  (s.set (R.SLC_SLSTAT_PHASE n) ph).modStart n fun q =>
    { q with t := 0, lockRun := 0, noLock := 0, lowRun := 0, syncCycles := 0, zeroVector := false }

/-- The observer's lock (R176): LOCK set and SEQ advanced within the last 4 current cycles. -/
def State.obsLock (s : State) (n : Slice) : Bool := s.on (R.SLC_SLOBS_LOCK n) && s.startq[n].obsAge < 4

/-- 90 % of the effective ceiling in Q1.15 of full scale (R178). -/
def State.ceil90 (s : State) (n : Slice) : Nat := s.ceilOf n * 4 * 32768 * 90 / (65536 * 100 * 100 * s.fullScale n)

/-- The current of the present attempt (R178): base × (1 + RETRY × RAISE/100), held to 90 % of the effective ceiling; and whether the
clamp limited a raise. -/
def State.attemptCurrent (s : State) (n : Slice) (base : Nat) : Nat × Bool :=
  let k := s.get (R.SLC_SLSTAT_RETRY n)
  let i := base * (100 + k * s.get (R.SLC_SLCFG0_RAISE n)) / 100
  let lim := s.ceil90 n
  if i > lim then (lim, k != 0 && s.get (R.SLC_SLCFG0_RAISE n) != 0) else (i, false)

/-- A clamped raise is warned of once in an attempt (R178). -/
def State.warnClamp (s : State) (n : Slice) (hit : Bool) : State :=
  if hit && !s.startq[n].clamped then (s.modStart n fun q => { q with clamped := true }).raiseAx 0x060B 1 n else s

/-- LISTEN entered: gates off (State.drive), a new attempt. -/
def State.enterListen (s : State) (n : Slice) : State :=
  let s := s.set (R.SLC_SLCMD_MODE n) 0
  (s.enterPhase n phLISTEN).modStart n fun q => { q with clamped := false, holdZero := false, pending := false }

/-- ALIGN entered: MODE FORCED at θ = 0 with the current starting from zero. -/
def State.enterAlign (s : State) (n : Slice) : State :=
  let s := s.set (R.SLC_SLCMD_THETA n) 0
  let s := s.set (R.SLC_SLCMD_IREF n) 0
  let s := s.set (R.SLC_SLCMD_MODE n) 1
  s.enterPhase n phALIGN

/-- RUN entered from SYNC or BLEND: MODE OWN, a completed start. -/
def State.enterRun (s : State) (n : Slice) : State :=
  let s := s.set (R.SLC_SLCMD_MODE n) 0
  let s := s.set (R.SLC_SLSTAT_FALLBACK n) 0
  (s.bump (R.SLC_SLSTAT_STARTS n)).enterPhase n phRUN

/-- FAIL entered with a cause (Table CMT.7): counted, an F3 of axis scope raised; the next current cycle goes to IDLE. -/
def State.startFail (s : State) (n : Slice) (cause : Nat) : State :=
  let s := s.set (R.SLC_SLSTAT_CAUSE n) cause
  let s := s.bump (R.SLC_SLSTAT_FAILS n)
  (s.enterPhase n phFAIL).raiseAx (0x0606 + cause) 3 n

/-- A failed attempt (Table CMT.7): COAST with one retry more, or FAIL with cause START when none is left. -/
def State.attemptFailed (s : State) (n : Slice) : State :=
  let r := s.get (R.SLC_SLSTAT_RETRY n)
  if r < s.get (R.SLC_SLCFG0_RETRIES n) then
    let s := s.set (R.SLC_SLSTAT_RETRY n) (r + 1)
    (s.set (R.SLC_SLCMD_MODE n) 0).enterPhase n phCOAST
  else s.startFail n 1

/-- SYNC entered with an angle and a seed (Tables CMT.7 and CMT.8); R181 enters it with the mirrored angle. -/
def State.enterSync (s : State) (n : Slice) (theta seed : Nat) : State :=
  let s := s.set (R.SLC_SLCMD_THETA n) theta
  let s := s.set (R.SLC_SLCMD_IREF n) seed
  let s := s.set (R.SLC_SLCMD_MODE n) 2
  s.enterPhase n phSYNC

/-- VSEED from a line-to-line amplitude in mV: amplitude/√3 over Vbus/2, Q1.15, with the sign of the speed (log entry 21). -/
def State.vseed (s : State) (n : Slice) (amp : Nat) (w : Int) : Nat :=
  let vbus := s.busMeas n * 10
  let v := if vbus = 0 then 0 else min 32767 (isqrt (amp * amp * 65536 * 65536 / (3 * vbus * vbus)))
  ofS 16 (if w < 0 then -(v : Int) else v)

/-- The forced angle after one current cycle at the forced speed. -/
def angleStep (theta : Nat) (omega : Int) (steps : Nat) : Nat :=
  ofS 32 ((theta : Int) + divRound (omega * steps) (1000 * stepsMs))

/-- The speed toward which the forced speed moves, 2^−32 Hz (R177): dir × W_HO in a start; in a fallback the command clamped to ±W_HO,
or the sign of iq* × W_HO in CURRENT. -/
def State.forcedTarget (s : State) (n : Slice) (cmd : Int) : Int :=
  let w : Int := s.get (R.SLC_SLCFG1_W_HO n)
  let t := if !s.on (R.SLC_SLSTAT_FALLBACK n) then s.startq[n].dir * w
    else if s.axmode n == 0 then sgn cmd * w
    else clampI (-w) w cmd
  t * 2 ^ 32

/-- Whether the forced speed stands at W_HO in size. -/
def State.atHandover (s : State) (n : Slice) : Bool :=
  s.startq[n].omegaF.natAbs == s.get (R.SLC_SLCFG1_W_HO n) * 2 ^ 32

/-- ALIGN in one current cycle: id* ramps to I_k over T_RAMP (Table CMT.7). -/
def State.cycleAlign (s : State) (n : Slice) : State :=
  let (ik, hit) := s.attemptCurrent n (s.get (R.SLC_SLCFG0_I_ALIGN n))
  let ramp := s.get (R.SLC_SLCFG2_T_RAMP n) * stepsMs
  let t := s.startq[n].t
  let s := s.set (R.SLC_SLCMD_IREF n) (if ramp ≤ t then ik else ik * t / ramp)
  s.warnClamp n hit

/-- FORCED in one current cycle: the forced speed moves at ACC, the angle follows it. -/
def State.cycleForced (s : State) (n : Slice) (o : StartObs) (steps : Nat) : State :=
  let tgt := s.forcedTarget n o.command
  let w := s.startq[n].omegaF
  let d : Int := divRound ((s.get (R.SLC_SLCFG1_ACC n) : Int) * 2 ^ 32 * steps) (1000 * stepsMs)
  let w' := if w < tgt then min tgt (w + d) else max tgt (w - d)
  let s := s.modStart n fun q => { q with omegaF := w' }
  let s := s.set (R.SLC_SLCMD_THETA n) (angleStep (s.get (R.SLC_SLCMD_THETA n)) w' steps)
  let s := if s.on (R.SLC_SLSTAT_FALLBACK n) then s
    else
      let (ik, hit) := s.attemptCurrent n (s.get (R.SLC_SLCFG0_I_GO n))
      (s.set (R.SLC_SLCMD_IREF n) ik).warnClamp n hit
  s.modStart n fun q => { q with lockRun := if s.atHandover n && s.obsLock n then q.lockRun + 1 else 0 }

/-- BLEND in one current cycle: THETA moves linearly to the observer's angle and IREF to zero over T_BLEND; lost lock ends the attempt. -/
def State.cycleBlend (s : State) (n : Slice) : State :=
  if !s.obsLock n then s.attemptFailed n else
  let total := s.get (R.SLC_SLCFG2_T_BLEND n) * stepsMs
  let t := min total s.startq[n].t
  let left := total - t
  let th : Int := s.get (R.SLC_SLOBS_THETA_EST n)
  let k := if total = 0 then 0 else divRound (s.startq[n].diff0 * left) total
  let s := s.set (R.SLC_SLCMD_THETA n) (ofS 32 (th + k))
  s.set (R.SLC_SLCMD_IREF n) (if total = 0 then 0 else s.startq[n].iref0 * left / total)

/-- RUN in one current cycle: runs of low speed and of no lock. -/
def State.cycleRun (s : State) (n : Slice) : State :=
  let w := (s.getS (R.SLC_SLOBS_OMEGA_EST n)).natAbs
  let low := w < s.get (R.SLC_SLCFG1_W_LOW n)
  let lock := s.obsLock n
  s.modStart n fun q => { q with lowRun := if low then q.lowRun + 1 else 0, noLock := if lock then 0 else q.noLock + 1 }

/-- BRAKE in one current cycle (Table CMT.7): a measured speed below W_CATCH, one reversed through zero (R179), or a current below 2 % of
full scale for 1/W_CATCH, goes to ALIGN. -/
def State.cycleBrake (s : State) (n : Slice) (o : StartObs) (steps : Nat) : State :=
  let wc := s.get (R.SLC_SLCFG1_W_CATCH n)
  let run := if o.current * 100 < 2 * 32768 then s.startq[n].lowRun + steps else 0
  let s := s.modStart n fun q => { q with lowRun := run }
  if (o.measured && (o.speed.natAbs < wc || o.speed * s.startq[n].dir > 0)) || (wc != 0 && 1000 * stepsMs ≤ run * wc) then
    s.enterAlign n
  else s

/-- Whether a slice's axis starts without sensors. -/
def State.sensorless (s : State) (n : Slice) : Bool := s.get (R.SLC_COMM_ASRC n) == 3

/-- START_SEQUENCER_CYCLE (R177): once per current cycle. SLC_SLCMD.SEQ advances, the observer's SEQ is watched (R176), and the phase
acts; IDLE takes a start command of an ENABLED axis. -/
def execStartSequencerCycle (n : Slice) (o : StartObs) (s : State) : Out :=
  if s.oddInPair n || !s.pwm[n].running then .next s else
  let steps := s.cycleSteps n
  let s := s.set (R.SLC_SLCMD_SEQ n) (s.get (R.SLC_SLCMD_SEQ n) + 1)
  let sq := s.get (R.SLC_SLOBS_SEQ n)
  let s := s.modStart n fun q =>
    if sq = q.obsSeq then { q with obsAge := satN 255 (q.obsAge + 1), t := q.t + steps }
    else { q with obsSeq := sq, obsAge := 0, t := q.t + steps }
  match s.slPhase n with
  | 0 =>
    if s.sensorless n && s.axst n == 2 && (o.command != 0 || s.startq[n].pending) then
      let s := s.modStart n fun q => { q with dir := if o.command = 0 then q.dir else sgn o.command }
      let s := s.set (R.SLC_SLSTAT_RETRY n) 0
      .next ((s.set (R.SLC_SLSTAT_FALLBACK n) 0).enterListen n)
    else .next s
  | 2 => .next (s.cycleBrake n o steps)
  | 3 => .next (s.modStart n fun q => { q with syncCycles := q.syncCycles + 1 })
  | 4 => .next (s.cycleAlign n)
  | 5 => .next (s.cycleForced n o steps)
  | 6 => .next (s.cycleBlend n)
  | 7 => .next (s.cycleRun n)
  | 9 => .next ((s.set (R.SLC_SLSTAT_PHASE n) 0).startRest n)
  | _ => .next s

/-- LISTEN_ELAPSED (Table CMT.7): by the amplitude against the bus and the measured speed to FAIL, ALIGN, SYNC or BRAKE. -/
def execListenElapsed (n : Slice) (o : StartObs) (s : State) : Out :=
  if s.slPhase n != phLISTEN then .next s else
  let w : Int := if o.amplitude < 500 || o.crossings < 2 then 0 else o.speed
  let wc : Int := s.get (R.SLC_SLCFG1_W_CATCH n)
  let dir := s.startq[n].dir
  let vb := 95 * s.busMeas n * 10
  let s := s.setS (R.SLC_SLSTAT_OMEGA_M n) (satS 16 w)
  if (200 * o.amplitude) * (200 * o.amplitude) > 3 * vb * vb then .next (s.startFail n 2)
  else if (w.natAbs : Int) < wc then .next (s.enterAlign n)
  else if wc ≤ w * dir then .next (s.enterSync n o.angle (s.vseed n o.amplitude w))
  else .next (s.enterPhase n phBRAKE)

/-- BRAKE_TIME (Table CMT.7): T_BRAKE elapses in BRAKE. -/
def execBrakeTime (n : Slice) (s : State) : Out := .next (if s.slPhase n == phBRAKE then s.startFail n 3 else s)

/-- SYNC_CYCLES_COMPLETE (Table CMT.7): after 16 current cycles in SYNC, RUN with lock, else a failed attempt. -/
def execSyncCyclesComplete (n : Slice) (s : State) : Out :=
  if s.slPhase n == phSYNC && 16 ≤ s.startq[n].syncCycles then
    .next (if s.obsLock n then s.enterRun n else s.attemptFailed n)
  else .next s

/-- ALIGN_COMPLETE (Table CMT.7): T_RAMP + T_ALIGN have elapsed; FORCED from rest with the attempt's I_GO. An alignment of enable step 3
(R174) is ended by ENABLE_STEP_DONE instead. -/
def execAlignComplete (n : Slice) (s : State) : Out :=
  if s.slPhase n == phALIGN && s.axst n != 1 then
    let s := (s.enterPhase n phFORCED).modStart n fun q => { q with omegaF := 0 }
    let s := s.set (R.SLC_SLCMD_MODE n) 1
    let (ik, hit) := s.attemptCurrent n (s.get (R.SLC_SLCFG0_I_GO n))
    .next ((s.set (R.SLC_SLCMD_IREF n) ik).warnClamp n hit)
  else .next s

/-- FORCED_LOCK_HELD (Table CMT.7): at W_HO with lock held for 64 current cycles; BLEND. -/
def execForcedLockHeld (n : Slice) (s : State) : Out :=
  if s.slPhase n == phFORCED && s.atHandover n && 64 ≤ s.startq[n].lockRun then
    let th : Int := s.get (R.SLC_SLCMD_THETA n)
    let d := toS 32 (ofS 32 (th - s.get (R.SLC_SLOBS_THETA_EST n)))
    let i := s.get (R.SLC_SLCMD_IREF n)
    let s := (s.enterPhase n phBLEND).modStart n fun q => { q with diff0 := d, iref0 := i }
    .next (s.set (R.SLC_SLCMD_MODE n) 3)
  else .next s

/-- LOCK_TIMEOUT (Table CMT.7): T_LOCK has elapsed at W_HO without lock. -/
def execLockTimeout (n : Slice) (s : State) : Out :=
  .next (if s.slPhase n == phFORCED && s.atHandover n && !s.obsLock n then s.attemptFailed n else s)

/-- BLEND_COMPLETE (Table CMT.7): T_BLEND has elapsed; RUN, or a failed attempt if lock is lost. -/
def execBlendComplete (n : Slice) (s : State) : Out :=
  .next (if s.slPhase n == phBLEND then (if s.obsLock n then s.enterRun n else s.attemptFailed n) else s)

/-- FALLBACK (Table CMT.7): the observer's speed has stayed below W_LOW for 8 current cycles; FORCED from the observer's angle and
speed with I_GO. -/
def execFallback (n : Slice) (s : State) : Out :=
  if s.slPhase n == phRUN && 8 ≤ s.startq[n].lowRun then
    let w := s.getS (R.SLC_SLOBS_OMEGA_EST n)
    let s := (s.enterPhase n phFORCED).modStart n fun q => { q with omegaF := w * 2 ^ 32 }
    let s := s.set (R.SLC_SLSTAT_FALLBACK n) 1
    let s := s.set (R.SLC_SLCMD_THETA n) (s.get (R.SLC_SLOBS_THETA_EST n))
    let s := s.set (R.SLC_SLCMD_IREF n) (s.get (R.SLC_SLCFG0_I_GO n))
    .next (s.set (R.SLC_SLCMD_MODE n) 1)
  else .next s

/-- OBS_LOSS (Table CMT.7): no lock for N_LOSS current cycles at or above W_LOW in RUN. -/
def execObsLoss (n : Slice) (s : State) : Out :=
  let w := (s.getS (R.SLC_SLOBS_OMEGA_EST n)).natAbs
  .next (if s.slPhase n == phRUN && s.get (R.SLC_SLCFG2_N_LOSS n) ≤ s.startq[n].noLock && s.get (R.SLC_SLCFG1_W_LOW n) ≤ w then
    s.startFail n 4 else s)

/-- COAST_COMPLETE (Table CMT.7): T_COAST has elapsed; LISTEN again. -/
def execCoastComplete (n : Slice) (s : State) : Out := .next (if s.slPhase n == phCOAST then s.enterListen n else s)

/-- SLOBS_STALE (R176): SLC_SLOBS.SEQ has not advanced for 4 current cycles; the observer counts as not locked. -/
def execSlobsStale (n : Slice) (s : State) : Out :=
  .next (if s.get (R.SLC_SLOBS_SEQ n) = s.startq[n].obsSeq then s.modStart n fun q => { q with obsAge := max 4 q.obsAge } else s)

end Sys2Proof.Machine
end

