-- ==== Sys2Proof/Machine/Trig.lean ====
section
/-!
DEFINITION. Machine/Trig.lean: sine, cosine and angle in fixed point, for the references of SINCOS and VLIM, the sin/cos interpolation
(R222) and path arcs. Values count in 2^−120; the results are accurate far beyond any width the module delivers.
-/

namespace Sys2Proof.Machine

/-- 2^120, one in this fixed point. -/
def qOne : Int := 2 ^ 120

/-- π in units of 2^−120. -/
def qPi : Int := 4175892906503776358876826457663557747

/-- Product in this fixed point. -/
def qMul (a b : Int) : Int := a * b / 2 ^ 120

/-- Terms of an alternating power series: acc + term − term·x²/((k+1)(k+2)) + …, `fuel` terms. -/
def qSeries (x2 : Int) : Nat → Nat → Int → Int → Int
  | 0, _, _, acc => acc
  | fuel + 1, k, term, acc =>
    qSeries x2 fuel (k + 2) (-(qMul term x2) / (((k + 1) * (k + 2) : Nat) : Int)) (acc + term)

/-- Sine and cosine of an angle in 2^−120 rad of at most about one. -/
def qSin (x : Int) : Int := qSeries (qMul x x) 18 1 x 0
def qCos (x : Int) : Int := qSeries (qMul x x) 18 0 qOne 0

/-- Cosine and sine of the fraction `a`/2^w of a turn. -/
def qTurn (w a : Nat) : Int × Int :=
  let a := a % 2 ^ w
  let oct := a * 8 / 2 ^ w
  let quad := (oct + 1) / 2
  let r : Int := ((a : Int) * 4 - (quad * 2 ^ w : Nat)) * (qPi / 2) / (2 ^ w : Nat)
  let c := qCos r
  let s := qSin r
  match quad % 4 with
  | 0 => (c, s)
  | 1 => (-s, c)
  | 2 => (-c, -s)
  | _ => (s, -c)

/-- Bisection for the angle of (a, b), both not negative, within a quarter turn: the largest fraction t of 2^w of a turn, by bits from
`n − 1` down, with b cos t ≥ a sin t. -/
def qAngleAux (w : Nat) (a b : Int) : Nat → Nat → Nat
  | 0, t => t
  | n + 1, t =>
    let cs := qTurn w (t + 2 ^ n)
    if b * cs.1 - a * cs.2 ≥ 0 then qAngleAux w a b n (t + 2 ^ n) else qAngleAux w a b n t

/-- The angle of the vector (a, b) as a fraction of 2^w of a turn, rounded down; 0 for the zero vector. -/
def qAngle (w : Nat) (a b : Int) : Nat :=
  let q := 2 ^ (w - 2)
  if a > 0 ∧ b ≥ 0 then qAngleAux w a b (w - 2) 0
  else if a ≤ 0 ∧ b > 0 then q + qAngleAux w b (-a) (w - 2) 0
  else if a < 0 ∧ b ≤ 0 then 2 * q + qAngleAux w (-a) (-b) (w - 2) 0
  else if a ≥ 0 ∧ b < 0 then 3 * q + qAngleAux w (-b) a (w - 2) 0
  else 0

end Sys2Proof.Machine
end

