-- ==== Sys2Proof/Machine/Feedback.lean ====
section
/-!
DEFINITION. Machine/Feedback.lean: the feedback ports: counting, index, Hall inputs, sin/cos interpolation, serial frames, captures,
latches and the encoder supply (R212 to R240, R480).
-/

namespace Sys2Proof.Machine

/-- A position held to Q40.24, modulo 2^64 (R231). -/
def wrapPos (x : Int) : Int := toS 64 (ofS 64 x)

/-- Port mode of a slice (Table FBK.1). -/
def State.fbMode (s : State) (n : Slice) : Nat := s.get (R.SLC_FBCFG_FBMODE n)

/-- The sign DIRINV gives every count (R212). -/
def State.fbSign (s : State) (n : Slice) : Int := if s.on (R.SLC_FBCFG_DIRINV n) then -1 else 1

/-! Latches (R236, R237). -/

/-- Source, parameter and edge fields of latch k. -/
def latSrc (n k : Nat) : Fld := if k = 0 then R.SLC_LATCFG_SRC0 n else R.SLC_LATCFG_SRC1 n
def latPar (n k : Nat) : Fld := if k = 0 then R.SLC_LATCFG_PAR0 n else R.SLC_LATCFG_PAR1 n
def latEdge (n k : Nat) : Fld := if k = 0 then R.SLC_LATCFG_EDGE0 n else R.SLC_LATCFG_EDGE1 n
def latV (n k : Nat) : Fld := if k = 0 then R.SLC_FBSTAT_LATV0 n else R.SLC_FBSTAT_LATV1 n

/-- Latch 0 set in a probe move (R285): PRBHIT, and the generator replans to stop PRBDIST beyond the latched position in the direction of
motion. -/
def State.probeHit (s : State) (n : Slice) (pos : Int) : State :=
  if !s.prof[n].probe then s else
  let d := sgn s.prof[n].vel * (s.get (R.SLC_PRCFG_PRBDIST n) * 2 ^ 24 : Nat)
  (s.set (R.SLC_PRSTAT_PRBHIT n) 1).modProf n fun p =>
    { p with probe := false, probeStop := true, replan := true, target := wrapPos (pos + d) }

/-- An event recorded by latch k of a slice, if its LATV is clear: position, time and LATV (R236). -/
def State.latch (s : State) (n : Slice) (k : Nat) (pos : Int) (stamp : Stamp) : State :=
  if s.on (latV n k) then s else
  let t := compactOf (stamp * 2 ^ 16)
  let s := s.set (R.SLC_LATPOS_POS n k) (ofS 64 pos)
  let s := s.set (R.SLC_LATTIM_NS n k) (t % 2 ^ 30)
  let s := s.set (R.SLC_LATTIM_SUBNS n k) (t / 2 ^ 32)
  let s := s.set (R.SLC_LATTIM_SEC n k) (t / 2 ^ 48)
  let s := s.set (latV n k) 1
  if k = 0 then s.probeHit n pos else s

/-- The servo period of a slice in PWM steps (R241). -/
def State.servoSteps (s : State) (n : Slice) : Nat := s.get (R.SLC_SERVO_SDIV n) * s.cycleSteps n

/-- The position at an event's own time: p at arrival less v × (arrival − event) / servo period; in SINCOS p at arrival (R236). Time in
2^−16 ns; a PWM step is 5/64 ns. -/
def State.posAt (s : State) (n : Slice) (stamp : Stamp) : Int :=
  let p := s.fb[n].p
  if s.fbMode n == 2 then p else
  let per := s.servoSteps n * 5 * 1024
  if per = 0 then p
  else
    let dt : Int := (s.clock.now / 2 ^ 16 : Nat) - (stamp : Int)
    wrapPos (p - divRound (s.fb[n].lastV * dt) per)

/-- An edge of a field input or a comparator firing offered to every latch that has it as its source (R236). -/
def State.latchEvent (s : State) (src par : Nat) (falling : Bool) (stamp : Stamp) : State :=
  s.each slices fun s n =>
    s.each [0, 1] fun s k =>
      if s.ax[n].started && s.get (latSrc n k) == src && s.get (latPar n k) == par && (src != 2 || s.on (latEdge n k) == falling) then
        s.latch n k (s.posAt n stamp) stamp
      else s

/-! Counting (R214 to R219). -/

/-- The place of a pair of line levels in the cycle 00, 10, 11, 01, in which A leads B. -/
def quadPlace (a b : Bool) : Nat := if a then (if b then 2 else 1) else (if b then 3 else 0)

/-- Position of a port after a counted edge, with the hysteresis of R216 where it applies. -/
def FbDyn.count (x : FbDyn) (d : Int) (hyst : Bool) : FbDyn :=
  let c := wrapPos (x.c + d * 2 ^ 24)
  let wr := c != x.c + d * 2 ^ 24
  let x := { x with c := c, net := x.net + d, wrapped := x.wrapped || wr }
  if !hyst then { x with p := c }
  else if d = x.dir then { x with p := c }
  else if (c - x.p).natAbs ≥ 2 * 2 ^ 24 then { x with p := c, dir := d }
  else x

/-- QUADRATURE_EDGE (R215): the filtered lines as a feedback clock finds them; one line changed is one count (R216), both changed is an
illegal transition. In SINCOS the comparators count quarter periods the same way (R222). -/
def execQuadratureEdge (n : Slice) (a b : Bool) (s : State) : Out :=
  let m := s.fbMode n
  if !s.ax[n].started || !(m == 1 || m == 2) then .next s else
  let d := (quadPlace a b + 4 - quadPlace s.fb[n].lineA s.fb[n].lineB) % 4
  let s := s.modFb n fun x => { x with lineA := a, lineB := b }
  if d = 0 then .next s
  else if d = 2 then
    let s := s.bump (R.SLC_FBCNT_QERR n)
    let s := s.set (R.SLC_FBSTAT_POSLOST n) 1
    .next (s.modFb n fun x => { x with bad := true })
  else
    let e : Int := if d = 1 then s.fbSign n else -(s.fbSign n)
    if m == 1 then .next (s.modFb n fun x => x.count e (s.on (R.SLC_FBCFG_HYST n)))
    else .next (s.modFb n fun x => { x with c := wrapPos (x.c + e * 2 ^ 24) })

/-- The count set to IDXVAL by an index reset (R217): the speed of the window does not see the jump. -/
def State.indexReset (s : State) (n : Slice) : State :=
  let v := s.getS (R.SLC_FBIDX_IDXVAL n) * 2 ^ 24
  let s := s.set (R.SLC_FBSTAT_POSLOST n) 0
  s.modFb n fun x => { x with jump := x.jump + (v - x.p), c := v, p := v }

/-- INDEX_EVENT (R217 to R219): a rising edge of the gated index: the index latches, then the reset by IDXMODE. -/
def execIndexEvent (n : Slice) (stamp : Stamp) (s : State) : Out :=
  let m := s.fbMode n
  if !s.ax[n].started || !(m == 1 || m == 2) then .next s else
  let at_ := if m == 2 then s.fb[n].p else s.fb[n].c
  let s := s.each [0, 1] fun s k => if s.get (latSrc n k) == 1 then s.latch n k at_ stamp else s
  let s := if s.homeWantsIndex (s.lead n) then s.homeRef (s.lead n) at_ else s
  let first := !s.fb[n].idxSeen
  let c := s.fb[n].c
  let s := s.modFb n fun x => { x with idxEv := true, idxSeen := true }
  match s.get (R.SLC_FBCFG_IDXMODE n) with
  | 1 =>
    let v := s.getS (R.SLC_FBIDX_IDXVAL n) * 2 ^ 24
    let cpt : Int := s.get (R.SLC_FBCFG_CPT n) * 2 ^ 24
    let tol := s.get (R.SLC_FBIDX_IDXTOL n) * 2 ^ 24
    let off := tol != 0 && !first && (c - (v + cpt)).natAbs > tol && (c - (v - cpt)).natAbs > tol
    let s := if off then (s.bump (R.SLC_FBCNT_IDXERR n)).raiseAx 0x0806 0 n else s
    .next (s.indexReset n)
  | 2 =>
    if s.on (R.SLC_FBSTAT_ARMED n) then
      let s := s.set (R.SLC_FBSTAT_ARMED n) 0
      let s := s.set (R.SLC_FBSTAT_IDXSEEN n) 1
      .next (s.indexReset n)
    else .next s
  | _ => .next s

/-- ARM (R217). -/
def execArm (n : Slice) (s : State) : Out := .next (s.set (R.SLC_FBSTAT_ARMED n) 1)

/-- DISARM (R217). -/
def execDisarm (n : Slice) (s : State) : Out := .next (s.set (R.SLC_FBSTAT_ARMED n) 0)

/-! Hall inputs (R220, R221). -/

/-- The sector that HALLMAP gives a Hall state; 7 for 0 and 7. -/
def State.hallSector (s : State) (n : Slice) (h : Nat) : Nat :=
  if h = 0 ∨ h = 7 then 7 else bitsOf (s.get (R.SLC_FBLIM_HALLMAP n)) (3 * h - 3) 3

/-- HALL_CHANGE (R220, R221): a filtered change of the Hall state. -/
def execHallChange (n : Slice) (h : Fin 8) (s : State) : Out :=
  if !s.ax[n].started then .next s else
  let s := s.set (R.SLC_FBSTAT_HALL n) h
  if !s.on (R.SLC_FBCFG_HALLEN n) then .next s else
  let k := s.hallSector n h
  let s := s.set (R.SLC_FBSTAT_SECTOR n) k
  if k = 7 then .next (s.bump (R.SLC_FBCNT_HALLERR n))
  else
    let last := s.fb[n].lastSector
    let now := s.clock.now
    let s := s.modFb n fun x => { x with lastSector := k, sectorTime := now }
    if last = 7 ∨ last = k then .next s
    else if k = (last + 1) % 6 ∨ last = (k + 1) % 6 then
      if s.fbMode n == 0 then
        let d : Int := if k = (last + 1) % 6 then s.fbSign n else -(s.fbSign n)
        .next (s.modFb n fun x => x.count d false)
      else .next s
    else .next (s.bump (R.SLC_FBCNT_HALLERR n))

/-- WIRE_FAULT (R232, R233): a receiver in use shows a near-zero differential for 1 µs. -/
def execWireFault (n : Slice) (s : State) : Out :=
  let m := s.fbMode n
  if !s.ax[n].started || m == 0 then .next s else
  let s := s.set (R.SLC_FBSTAT_WIRE n) 1
  let s := if m == 1 || m == 2 then s.set (R.SLC_FBSTAT_POSLOST n) 1 else s
  .next (if m == 1 then s.modFb n fun x => { x with bad := true } else s)

/-! Sin/cos interpolation (R222 to R224). Voltages in 10 µV. -/

/-- Two conversions corrected for offset, gain ratio and phase error, in 2^−120 of 10 µV (R223, log entry 22). -/
def State.scCorrect (s : State) (n : Slice) (a b : Int) : Int × Int :=
  let a1 := (a - s.getS (R.SLC_FBSC_OFFA n)) * qOne
  let b1 := (b - s.getS (R.SLC_FBSC_OFFB n)) * qOne * 16384 / (max 1 (s.get (R.SLC_FBSC_GAIN n)) : Nat)
  let ph := s.getS (R.SLC_FBSC_PHASE n)
  let cs := qTurn 64 (ofS 64 (ph * 2 ^ 64 / 360000))
  let b2 := (b1 - qMul a1 cs.2) * qOne / cs.1
  (a1, if s.on (R.SLC_FBCFG_DIRINV n) then -b2 else b2)

/-- A conversion that gives no position: counted, and the capture it serves is invalid (R222, R224). -/
def State.scInvalid (s : State) (n : Slice) : State :=
  (s.bump (R.SLC_FBCNT_FRMERR n)).modFb n fun x => { x with conv := some none }

/-- SINCOS_CONVERSION (R222, R224): the fine phase of a conversion against the quarter-period count. The last conversion before a
capture is the one whose sample instant is the servo instant. -/
def execSincosConversion (n : Slice) (a b : Int) (s : State) : Out :=
  if !s.ax[n].started || s.fbMode n != 2 then .next s else
  let (x, y) := s.scCorrect n a b
  let r2 := x / qOne * (x / qOne) + y / qOne * (y / qOne)
  if r2 < 20000 * 20000 || r2 > 80000 * 80000 then .next ((s.set (R.SLC_FBSTAT_AMP n) 1).scInvalid n)
  else
    let s := s.set (R.SLC_FBSTAT_AMP n) 0
    let st := qAngle 14 x y
    let quad : Int := st / 4096
    let q0 := s.fb[n].c / 2 ^ 24
    let q0 := if s.fb[n].convSeen then q0 else quad
    let s := s.modFb n fun z => { z with convSeen := true }
    let d := (quad - q0) % 4
    if d = 2 then .next ((s.set (R.SLC_FBSTAT_POSLOST n) 1).scInvalid n)
    else
      let q := if d = 1 then q0 + 1 else if d = 3 then q0 - 1 else q0
      let pos := wrapPos ((q / 4 * 4 + quad) * 2 ^ 24 + (st % 4096 : Nat) * 2 ^ 12)
      .next (s.modFb n fun z =>
        { z with c := wrapPos (q * 2 ^ 24), p := pos, conv := some (some pos), wrapped := z.wrapped || (pos - z.p).natAbs ≥ 2 ^ 63 })

/-- A correction value moved toward its estimate: by at most a quarter of the distance, a share that the spec leaves open (a free
value); held at its limit where the estimate passes it (R223). -/
def corrMove (old est lo hi : Int) (free : Nat) : Int × Bool :=
  if est < lo then (lo, true)
  else if est > hi then (hi, true)
  else
    let d := est - old
    (old + sgn d * ((d.natAbs / 4 * (free % 1025) / 1024 : Nat) : Int), false)

/-- SINCOS_CORRECTION_UPDATE (R223): the estimates over 64 signal periods; the new values wait for the servo boundary. -/
def execSincosCorrectionUpdate (n : Slice) (offA offB : Int) (gain : Nat) (phase : Int) (s : State) : Out :=
  if !s.ax[n].started || s.fbMode n != 2 || !s.on (R.SLC_FBCFG_CORR_EN n) || s.on (R.SLC_FBCFG_CFRZ n) then .next s else
  let f := s.free
  let s := s.drawn
  let a := corrMove (s.getS (R.SLC_FBSC_OFFA n)) offA (-10000) 10000 f
  let b := corrMove (s.getS (R.SLC_FBSC_OFFB n)) offB (-10000) 10000 f
  let g := corrMove (s.get (R.SLC_FBSC_GAIN n)) gain 13107 20480 f
  let h := corrMove (s.getS (R.SLC_FBSC_PHASE n)) phase (-10000) 10000 f
  let s := s.modFb n fun x => { x with corr := some (a.1, b.1, g.1.toNat, h.1) }
  if a.2 || b.2 || g.2 || h.2 then .next ((s.set (R.SLC_FBSTAT_CORRHOLD n) 1).raiseAx 0x0804 1 n) else .next s

/-- Corrections that wait take effect at a servo boundary (R223). -/
def State.corrApply (s : State) (n : Slice) : State :=
  match s.fb[n].corr with
  | none => s
  | some (a, b, g, h) =>
    let s := s.setS (R.SLC_FBSC_OFFA n) a
    let s := s.setS (R.SLC_FBSC_OFFB n) b
    let s := s.set (R.SLC_FBSC_GAIN n) g
    let s := s.setS (R.SLC_FBSC_PHASE n) h
    s.modFb n fun x => { x with corr := none }

/-! Captures (R229 to R234). -/

/-- The payload of an FBCAP token (Table FBK.4). -/
def capturePayload (p v : Int) (valid extrap idx wrap : Bool) (h : Nat) (lost : Bool) (sector tlast seq : Nat) : List Nat :=
  [ofS 64 p, ofS 64 v,
   b2n valid + 2 * b2n extrap + 4 * b2n idx + 8 * b2n wrap + h * 16 + b2n lost * 128 + sector * 256 + tlast * 65536,
   seq]

/-- A run that reached its limit raises an F3 and starts again. -/
def hitRun (run lim : Nat) : Bool := run != 0 && lim ≤ run

/-- A brake kept energised after a DISABLE with DISBRK ends at standstill: 8 consecutive valid captures below VSTILL (R256, R398). -/
def State.brakeStill (s : State) (n : Slice) (ok : Bool) (v : Int) : State :=
  if !s.ax[n].brakeHold || !s.hasFb n then s
  else
    let slow := v.natAbs < s.get (R.SLC_SVSTILL_VSTILL n) * 2 ^ 8
    let k := if !ok then s.sup[n].still else if slow then s.sup[n].still + 1 else 0
    let s := s.modSup n fun u => { u with still := k }
    if 8 ≤ k then s.modAx n fun a => { a with brakeHold := false } else s

/-- A capture delivered (R229 to R234): `ok` with its position and change over the window, else extrapolated. -/
def State.capture (s : State) (n : Slice) (ok : Bool) (pos chg : Int) : State :=
  let x := s.fb[n]
  let none_ := s.fbMode n == 0 && !s.on (R.SLC_FBCFG_HALLEN n)
  let v := if none_ then 0 else if ok && x.lastOk then chg else x.lastV
  let p := if none_ then 0 else if ok then pos else wrapPos (x.lastP + x.lastV)
  let extrap := !none_ && !(ok && x.lastOk)
  let seq := if s.oddInPair n && s.pairFunc n == 4 then s.fb[evenOf n].seq - 1 else x.seq
  let badRun := if ok then 0 else x.badRun + 1
  let badHit := hitRun badRun (s.get (R.SLC_FBLIM_FBERR_N n))
  let sect := s.get (R.SLC_FBSTAT_SECTOR n)
  let hallRun := if s.on (R.SLC_FBCFG_HALLEN n) && sect == 7 then x.hallRun + 1 else 0
  let hallHit := hitRun hallRun (s.get (R.SLC_FBLIM_HALL_N n))
  let wrap := x.wrapped && ok
  let lost := s.on (R.SLC_FBSTAT_POSLOST n)
  let s := s.set (R.SLC_FBPOS_POS n) (ofS 64 p)
  let s := s.set (R.SLC_FBSPD_SPD n) (ofS 64 v)
  let s := s.setB (R.SLC_FBSTAT_EXTRAP n) extrap
  let s := if wrap then s.set (R.SLC_FBSTAT_WRAP n) 1 else s
  let s := if ok && x.evWaited then s.set (R.SLC_FBSTAT_FBVALID n) 1 else s
  let s := s.modFb n fun y =>
    { y with seq := (seq + 1) % 65536, badRun := if badHit then 0 else badRun, hallRun := if hallHit then 0 else hallRun,
             lastP := p, lastV := v, lastOk := ok, prevPos := pos, net := 0, bad := false, idxEv := false, wrapped := false, jump := 0,
             conv := none, some_ := true }
  let s := s.arrive 4 n (capturePayload p v ok extrap x.idxEv wrap (s.get (R.SLC_FBSTAT_HALL n)) lost sect x.tlast (seq % 65536))
  let miss := s.supRuns n && s.sup[n].cap.isSome && !s.sup[n].written
  let s := s.modSup n fun u =>
    { u with cap := some ⟨seq % 65536, ok, p, v⟩, written := false, stale := if miss then u.stale + 1 else u.stale }
  let s := s.brakeStill n ok v
  let s := if ok then s else s.raiseAx 0x0805 0 n
  let s := if badHit then s.raiseAx 0x0801 3 n else s
  if hallHit then s.raiseAx 0x0802 3 n else s

/-- SERVO_CAPTURE (R229): at the servo instant the slice captures position, speed and status; in BISS and SSI it starts a frame (R225),
which in SHADOW it does not (R235). -/
def execServoCapture (n : Slice) (o : CaptureObs) (s : State) : Out :=
  if !s.ax[n].started || s.on (R.SLC_PWMSTAT_FROZEN n) then .next s else
  let m := s.fbMode n
  let s := s.setB (R.SLC_FBSTAT_WIRE n) (o.wire && m != 0)
  let s := s.modFb n fun x => { x with tlast := satN 65535 o.edgeAge }
  let x := s.fb[n]
  match m with
  | 1 =>
    let s := if o.wire then s.set (R.SLC_FBSTAT_POSLOST n) 1 else s
    .next (s.capture n (!x.bad && !o.wire) x.p (x.net * 2 ^ 24))
  | 2 =>
    match x.conv with
    | some (some pos) => .next (s.capture n true pos (wrapPos (pos - x.prevPos - x.jump)))
    | _ => .next (s.capture n false x.prevPos 0)
  | 3 => .next (if s.dev == 3 then s else s.modFb n fun y => { y with frame := true })
  | 4 => .next (if s.dev == 3 then s else s.modFb n fun y => { y with frame := true })
  | _ =>
    let ok := !s.on (R.SLC_FBCFG_HALLEN n) || s.get (R.SLC_FBSTAT_SECTOR n) != 7
    .next (s.capture n ok x.p (x.net * 2 ^ 24))

/-! Serial frames (R225 to R228). -/

/-- Gray code of w bits as binary. -/
def ofGray : Nat → Nat → Nat → Nat
  | 0, _, acc => acc
  | n + 1, g, acc => ofGray n g (acc * 2 + (acc % 2 + bit g n) % 2)

/-- CRC-6 register over the bits of v from bit n − 1 down, polynomial x⁶ + poly (Table FBK.3). -/
def crc6 (poly v : Nat) : Nat → Nat → Nat
  | 0, r => r
  | n + 1, r =>
    let fb := (bit r 5 + bit v n) % 2
    crc6 poly v n (if fb = 1 then Nat.xor (r * 2 % 64) (poly % 64) else r * 2 % 64)

/-- The number of status bits and the position word's width. -/
def State.errb (s : State) (n : Slice) : Nat := s.get (R.SLC_FBSER_ERRB n)
def State.posw (s : State) (n : Slice) : Nat := s.get (R.SLC_FBSER_POSW n)

/-- Whether a frame's check fails: the CRC in BISS, parity and the second reading in SSI (R228). -/
def State.frameCheckFails (s : State) (n : Slice) (r : SerialFrame) : Bool :=
  let e := s.errb n
  let w := s.posw n
  let data := (r.position % 2 ^ w) * 2 ^ e + r.status % 2 ^ e
  if s.fbMode n == 3 then
    s.get (R.SLC_FBSER_CRCLEN n) == 6 && Nat.xor (crc6 (s.get (R.SLC_FBSER_POLY n)) data (w + e) 0) 63 != r.crc % 64
  else
    (s.on (R.SLC_FBSER_PAR n) && (popcount (w + e) data + r.parity) % 2 == 1)
      || (s.on (R.SLC_FBSER_DBL n) && r.second % 2 ^ w != r.position % 2 ^ w)

/-- The word of a frame extended to the 40-bit integer part (R227). -/
def FbDyn.extend (x : FbDyn) (w word : Nat) : Int :=
  match x.ext with
  | none => word
  | some e =>
    let d : Int := (word : Int) - x.word
    let half : Int := 2 ^ (w - 1)
    let d := if d > half then d - 2 ^ w else if d < -half then d + 2 ^ w else d
    toS 40 (ofS 40 (e + d))

/-- SERIAL_FRAME_COMPLETE (R225 to R228): the frame is checked, extended and delivered as the capture of its servo instant. -/
def execSerialFrameComplete (n : Slice) (r : SerialFrame) (s : State) : Out :=
  let m := s.fbMode n
  if !s.ax[n].started || !(m == 3 || m == 4) || !s.fb[n].frame then .next s else
  let s := s.modFb n fun x => { x with frame := false }
  let s := if m == 3 then s.set (R.SLC_FBSTAT_LINEDLY n) (satN 65535 r.lineDelay) else s
  let e := s.errb n
  let w := s.posw n
  let word := if m == 4 && s.on (R.SLC_FBSER_GRAY n) then ofGray w (r.position % 2 ^ w) 0 else r.position % 2 ^ w
  let nE := e != 0 && bit r.status (e - 1) == 0
  let nW := e == 2 && bit r.status 0 == 0
  let x := s.fb[n]
  let ext := x.extend w word
  let pos := wrapPos (s.fbSign n * ext * 2 ^ 24 + x.ofs)
  let jl := s.get (R.SLC_FBSER_JUMPLIM n)
  let jumped := jl != 0 && x.some_ && (wrapPos (pos - (x.lastP + x.lastV))).natAbs > jl * 2 ^ 24
  let bad := r.late || r.lineLow || s.frameCheckFails n r || nE || jumped
  let s := if nW && !r.late then (s.set (R.SLC_FBSTAT_EWARN n) 1).raiseAx 0x0807 0 n else s
  if bad then .next ((s.bump (R.SLC_FBCNT_FRMERR n)).capture n false x.prevPos 0)
  else
    let wr := (pos - x.prevPos).natAbs ≥ 2 ^ 63
    let s := s.modFb n fun y => { y with ext := some ext, word := word, p := pos, c := pos, wrapped := y.wrapped || (wr && y.ext.isSome) }
    .next (s.capture n true pos (wrapPos (pos - x.prevPos)))

/-! FBVALID and the encoder supply (R234, R238). -/

/-- FBVALID_WAIT_ELAPSED (R234): EVWAIT has elapsed since EV5 came into regulation, or since slice start with EV5EN clear. -/
def execFbvalidWaitElapsed (n : Slice) (s : State) : Out :=
  .next (if s.ax[n].started && (!s.on (R.SLC_FBCFG_EV5EN n) || s.on (R.SLC_FBSTAT_EVON n)) then
    s.modFb n fun x => { x with evWaited := true } else s)

/-- FBVALID_TIMEOUT (R234): FBVALID still clear 100 ms into enable step 3; F3 FBLOSS. -/
def execFbvalidTimeout (n : Slice) (s : State) : Out :=
  .next (if s.axst n == 1 && s.get (R.SLC_AXST_PHASE n) == 3 && !s.on (R.SLC_FBSTAT_FBVALID n) then s.raiseAx 0x0801 3 n else s)

/-- EV5_IN_REGULATION (R234, R238): the soft start has completed. -/
def execEv5InRegulation (n : Slice) (s : State) : Out :=
  if s.ax[n].started && s.fb[n].ev5 == 1 then
    let s := s.set (R.SLC_FBSTAT_EVON n) 1
    let s := s.set (R.SLC_FBSTAT_EVFAULT n) 0
    .next (s.modFb n fun x => { x with ev5 := 2, retries := 0, evWaited := false })
  else .next s

/-- EV5_CURRENT_LIMIT (R238): EV5 has stayed in current limit for 2 ms: off, EVFAULT, FBVALID clear; after the third failed retry in a
row it stays off, F3 EVSUPPLY. -/
def execEv5CurrentLimit (n : Slice) (s : State) : Out :=
  if s.ax[n].started && (s.fb[n].ev5 == 1 || s.fb[n].ev5 == 2) then
    let s := s.set (R.SLC_FBSTAT_EVON n) 0
    let s := s.set (R.SLC_FBSTAT_EVFAULT n) 1
    let s := s.set (R.SLC_FBSTAT_FBVALID n) 0
    if 3 ≤ s.fb[n].retries then
      .next ((s.modFb n fun x => { x with ev5 := 4, evWaited := false }).raiseAx 0x0803 3 n)
    else .next (s.modFb n fun x => { x with ev5 := 3, evWaited := false })
  else .next s

/-- EV5_RETRY (R238): 100 ms after it was turned off, EV5 starts again. -/
def execEv5Retry (n : Slice) (s : State) : Out :=
  .next (if s.fb[n].ev5 == 3 then s.modFb n fun x => { x with ev5 := 1, retries := x.retries + 1 } else s)

/-- A feedback port at its slice's start (R216, R233, R234, R238, R240). -/
def State.fbStart (s : State) (n : Slice) : State :=
  let s := { s with fb := s.fb.set n { FbDyn.reset with ev5 := if s.on (R.SLC_FBCFG_EV5EN n) then 1 else 0 } }
  let m := s.fbMode n
  let s := s.setB (R.SLC_FBSTAT_POSLOST n) (!(m == 3 || m == 4))
  let s := s.each [R.SLC_FBSTAT_FBVALID n, R.SLC_FBSTAT_EXTRAP n, R.SLC_FBSTAT_ARMED n, R.SLC_FBSTAT_WIRE n, R.SLC_FBSTAT_AMP n,
    R.SLC_FBSTAT_CORRHOLD n, R.SLC_FBSTAT_EVON n, R.SLC_FBSTAT_EVFAULT n, R.SLC_FBSTAT_SECTOR n, R.SLC_FBSC_OFFA n, R.SLC_FBSC_OFFB n,
    R.SLC_FBSC_GAIN n, R.SLC_FBSC_PHASE n, R.SLC_LATPOS_POS n 0, R.SLC_LATPOS_POS n 1] State.toReset
  s.each [0, 1] fun s k =>
    s.each [R.SLC_LATTIM_NS n k, R.SLC_LATTIM_SUBNS n k, R.SLC_LATTIM_SEC n k] State.toReset

end Sys2Proof.Machine
end

