-- ==== Sys2Proof/Machine/FaultOps.lean ====
section
/-!
DEFINITION. Machine/FaultOps.lean: when a latched fault is present, and the CLEAR of an axis (R458, R459, R475).
-/

namespace Sys2Proof.Machine

/-- Whether a latched fault counts as present (R458): a condition that its own rule names is still in force (log entry 25). -/
def State.present (s : State) (l : Latched) : Bool :=
  match l.code with
  | 0x0101 => s.wdExpired l.sindex
  | 0x0601 => (s.axisSlices (sliceOf l.sindex)).any fun m =>
      legs.any fun leg => s.bitOf (R.SLC_OCSTAT_TRIP m) leg && !s.sense[m].releasable.leg leg
  | 0x0704 => !s.vdrvOk l.sindex
  | 0x0705 => s.bitOf R.BUS_STAT_CHFAULT l.sindex
  | 0x0707 => s.bitOf R.BUS_STAT_SHORT l.sindex
  | 0x0708 => s.bitOf R.BUS_STAT_ABS l.sindex
  | 0x0709 => s.on R.BUS_STAT_BACKSTOP
  | 0x0F01 => s.on R.FIO_SUP_WDEXP
  | 0x0F02 => s.on (R.FIO_CHST_LATCHED l.detail)
  | 0x0F03 => s.on (R.FIO_CHST_LATCHED l.detail)
  | 0x0F04 => s.on (R.FIO_CHST_LATCHED l.detail)
  | 0x0F05 => s.on (R.FIO_CHST_LATCHED l.detail)
  | 0x0F06 => s.on (R.FIO_CHST_LATCHED l.detail)
  | 0x0F07 => s.on (R.FIO_CHST_LATCHED l.detail)
  | 0x0F08 => if l.detail = 0 then s.on R.FIO_SUP_CUTOFF_A else s.on R.FIO_SUP_CUTOFF_B
  | 0x1002 => s.on R.SAF_STAT_DIAG
  | 0x1104 => s.get R.TWN_STAT_LSTATE == 3 && s.on R.TWN_STAT_HOLD_IN
  | _ => false

/-- Whether a latched fault has exactly the given scope. -/
def Latched.ofScope (l : Latched) (skind sindex : Nat) : Bool := l.skind == skind && l.sindex == sindex

/-- The latched faults of one scope dropped. -/
def State.dropLatched (s : State) (skind sindex : Nat) : State :=
  { s with faults := { s.faults with latched := s.faults.latched.filter fun l => !l.ofScope skind sindex } }

/-- The outcome of a CLEAR recorded (R475): RESULT, and an F0 CMDREF for every outcome but OK. -/
def State.clearResult (s : State) (skind sindex code : Nat) : State :=
  let s := s.set R.FLT_CMD_RESULT code
  if code = 0 then s
  else
    let k := if code = 4 then 0 else skind
    let i := if code = 4 then 0 else sindex
    s.raise { code := 0x0401, sev := 0, skind := k, sindex := i, detail := code }

/-- The outcome of an axis CLEAR (R459, R475): VALUE first, else the lowest code that applies. -/
def State.clearAxisCode (s : State) (n : Nat) : Nat :=
  if 16 ≤ n then 4
  else
    let a := sliceOf n
    let mine := s.faults.latched.filter fun l => l.ofScope 1 n
    if !s.ax[a].used || s.oddInPair a then 4
    else if mine.any s.present then 1
    else if s.axst a == 3 && s.ax[a].stop == .f2 && s.covered a then 2
    else if mine.any fun l => l.sev == 5 then 3
    else if s.faults.latched.any (fun l => s.covers l.skind l.sindex a && !l.ofScope 1 n) then 5
    else 0

/-- What an accepted CLEAR releases on a slice: its trips, its switch-node fault (R172, R173) and an EV5 kept off (R238). -/
def State.clearSlice (s : State) (n : Slice) : State :=
  let s := s.set (R.SLC_OCSTAT_TRIP n) 0
  let s := s.set (R.SLC_OCSTAT_TPOL n) 0
  let s := s.set (R.SLC_OCSTAT_SWFAULT n) 0
  let s := s.set (R.SLC_OCSTAT_SWLEG n) 0
  let s := s.modSense n fun x => { x with releasable := ⟨false, false, false⟩ }
  if s.fb[n].ev5 == 4 then (s.set (R.SLC_FBSTAT_EVFAULT n) 0).modFb n fun x => { x with ev5 := 1, retries := 0 } else s

/-- A CLEAR of axis scope (R459, R475). -/
def State.clearAxis (s : State) (n : Nat) : State :=
  let code := s.clearAxisCode n
  if code != 0 then s.clearResult 1 n code
  else
    let a := sliceOf n
    let s := s.dropLatched 1 n
    let s := if s.axst a == 4 then s.setAxst a 0 else s
    (s.each (s.axisSlices a) fun s m => s.clearSlice m).clearResult 1 n 0

/-- CLEAR of an axis (R459), as SLC_AXCMD commands it. -/
def execClear (n : Slice) (s : State) : Out := .next (s.clearAxis n)

end Sys2Proof.Machine
end

