-- ==== Sys2Proof/Machine/Can.lean ====
section
/-!
DEFINITION. Machine/Can.lean: the CAN FD controllers: entries, transmission, reception, fault confinement, time-triggered operation (R375 to
R391).
-/

namespace Sys2Proof.Machine

def State.modCan (s : State) (c : Fin 2) (f : CanDyn → CanDyn) : State := { s with can := s.can.set c (f s.can[c]) }

/-- Address of a transmit entry. -/
def txEntry (c e : Nat) : Nat := 0x332000 + c * 0x2000 + e * 0x80

/-- Address of a receive entry. -/
def rxEntry (c e : Nat) : Nat := 0x336000 + c * 0x4000 + e * 0x80

/-- The cell of basic cycle b and column j. -/
def State.ttCell (s : State) (c b j : Nat) : Nat := s.rd (0x331000 + c * 0x800 + b * 0x80 + j * 2) 2

/-- Whether a controller takes part in the bus. -/
def State.canOn (s : State) (c : Fin 2) : Bool := s.on (R.CAN_CFG_EN c) && s.can[c].running && s.domOn 5

/-- Whether it may send more than acknowledgements (R390). -/
def State.canSends (s : State) (c : Fin 2) : Bool := s.canOn c && !s.on (R.CAN_STAT_RESTR c) && s.get (R.CAN_STAT_STATE c) != 3

/-- Whether it is the time master now (R389, R390). -/
def State.ttMaster (s : State) (c : Fin 2) : Bool := s.get (R.CAN_CFG_TTROLE c) == 1 && !s.on (R.CAN_STAT_RESTR c)

/-- An integrating controller that has met the idle bus takes part (ISO 11898-1). -/
def State.canJoin (s : State) (c : Fin 2) : State :=
  if s.get (R.CAN_STAT_STATE c) = 0 then s.set (R.CAN_STAT_STATE c) 1 else s

/-- A CAN fault of module scope with the controller as its detail. -/
def State.raiseCan (s : State) (code sev : Nat) (c : Fin 2) : State := s.raiseMod code sev c.val

/-! Fault confinement (R384, R385). -/

/-- The counters taken as given, with the state they lead to. -/
def State.confine (s : State) (c : Fin 2) (tec rec_ : Nat) : State :=
  let st := s.get (R.CAN_STAT_STATE c)
  let s := s.set (R.CAN_STAT_REC c) (satN 255 rec_)
  if st = 3 then s
  else if tec ≥ 256 then
    (((s.set (R.CAN_STAT_TEC c) 255).set (R.CAN_STAT_STATE c) 3).bump (R.CAN_CNT_BOCNT c)).raiseCan 0x0E03 1 c
  else
    let s := s.set (R.CAN_STAT_TEC c) tec
    if st ≠ 2 && (128 ≤ tec || 128 ≤ rec_) then
      ((s.set (R.CAN_STAT_STATE c) 2).bump (R.CAN_CNT_EPCNT c)).raiseCan 0x0E02 0 c
    else if st = 2 && tec < 128 && rec_ < 128 then s.set (R.CAN_STAT_STATE c) 1
    else s

/-- CAN_BUS_ERROR (R384, R385): an error seen while sending raises TEC by 8, one seen while receiving raises REC by 1, or by 9 when a
dominant bit follows its error flag (`mark`). An acknowledgement error of an error-passive sender without a dominant bit in its flag
(`mark` clear), and a stuff error on a recessive bit during arbitration (`mark` set), change nothing. -/
def execCanBusError (c : Fin 2) (kind : CanErr) (tx mark : Bool) (s : State) : Out :=
  if !s.canOn c then .next s else
  let s := s.canJoin c
  let tec := s.get (R.CAN_STAT_TEC c)
  let rec_ := s.get (R.CAN_STAT_REC c)
  if tx then
    let spared := (kind == .ack && s.get (R.CAN_STAT_STATE c) == 2 && !mark) || (kind == .stuff && mark)
    .next (if spared then s else s.confine c (tec + 8) rec_)
  else .next (s.confine c tec (rec_ + (if mark then 9 else 1)))

/-- CAN_BUSOFF_RECOVERY (R384): error active again with both counters at zero, F0. -/
def execCanBusoffRecovery (c : Fin 2) (s : State) : Out :=
  if !s.canOn c || s.get (R.CAN_STAT_STATE c) ≠ 3 then .next s
  else
    let s := ((s.set (R.CAN_STAT_STATE c) 1).set (R.CAN_STAT_TEC c) 0).set (R.CAN_STAT_REC c) 0
    .next ((s.set (R.CAN_STAT_RECSEQ c) 0).raiseCan 0x0E04 0 c)

/-! Entries (R379, R380). -/

/-- Whether an entry is PENDING. -/
def State.txPending (s : State) (c : Fin 2) (e : Nat) : Bool := s.bitOf (R.CAN_TXPEND_PEND c) e

/-- Whether an entry is FREE. -/
def State.txFree (s : State) (c : Fin 2) (e : Nat) : Bool := !s.txPending c e && !s.bitOf (R.CAN_TXDONE_DONE c) e

/-- Whether the header of an entry may be requested (R380). -/
def State.headerOk (s : State) (c : Fin 2) (e : Nat) : Bool :=
  let h := s.rd (txEntry c e) 8
  let rtr := bit h 30 == 1
  let fdf := bit h 31 == 1
  let brs := bit h 32 == 1
  bitsOf h 33 3 == 0 && bitsOf h 40 8 == 0 && !(rtr && fdf) && !(brs && !fdf) && !(fdf && !s.on (R.CAN_CFG_FDEN c))

/-- The entries that a mask names. -/
def named (mask : Nat) : List Nat := (upto 64).filter fun e => bit mask e == 1

/-- The answer to a write of TXREQ (R380, R390): 0, 3 HELD or 5 VALUE. -/
def State.txreqCode (s : State) (c : Fin 2) (mask : Nat) : Nat :=
  let l := named mask
  if !l.isEmpty && (s.on (R.CAN_STAT_RESTR c) || l.any fun e => !s.txFree c e) then 3
  else if l.any fun e => !s.headerOk c e then 5
  else 0

/-- An F0 for a write that R9 refuses with HELD. -/
def State.heldWrite (s : State) (a : Nat) : State := s.raiseMod 0x0105 0 a

/-- TXREQ: the named entries PENDING, no attempt made. -/
def State.txRequest (s : State) (c : Fin 2) (mask : Nat) : State :=
  match s.txreqCode c mask with
  | 0 =>
    let s := s.set (R.CAN_TXPEND_PEND c) (s.get (R.CAN_TXPEND_PEND c) ||| mask % 2 ^ 64)
    s.modCan c fun x => { x with fails := (named mask).foldl (fun l e => setNth l e 0) x.fails,
                                 attempts := (named mask).foldl (fun l e => setNth l e 0) x.attempts,
                                 otherFail := (named mask).foldl clrBit x.otherFail }
  | 3 => s.heldWrite (R.CAN_TXREQ_REQ c).addr
  | _ => s

def execTxreq (c : Fin 2) (mask : Nat) (s : State) : Out := .next (if s.domOn 5 then s.txRequest c mask else s)

/-- An entry finished (R380): SOF time, RESULT and ATTEMPTS written, DONE. An entry never sent has no SOF: its time is a free value. -/
def State.finishTx (s : State) (c : Fin 2) (e result : Nat) (sof : Option Nat) : State :=
  let a := txEntry c e
  let s := match sof with
    | some t => s.wr (a + 8) 8 (compactOf (t * 65536))
    | none => (s.wr (a + 8) 8 s.free).drawn
  let s := (s.wr (a + 0x10) 1 result).wr (a + 0x11) 1 (satN 255 (nthD s.can[c].attempts e 0))
  (s.putBit (R.CAN_TXPEND_PEND c) e false).putBit (R.CAN_TXDONE_DONE c) e true

/-- PENDING entries withdrawn (R381, R390): DONE with ABORTED at once, but for the one in transmission, which completes or fails first. -/
def State.txWithdraw (s : State) (c : Fin 2) (mask : Nat) : State :=
  s.each (named mask) fun s e =>
    if !s.txPending c e then s
    else if s.can[c].sending = some e then s.modCan c fun x => { x with aborted := true }
    else s.finishTx c e 4 none

def execTxabt (c : Fin 2) (mask : Nat) (s : State) : Out := .next (if s.domOn 5 then s.txWithdraw c mask else s)

/-- TXDONE: the named DONE entries FREE again. -/
def State.txAck (s : State) (c : Fin 2) (mask : Nat) : State :=
  s.set (R.CAN_TXDONE_DONE c) ((named mask).foldl clrBit (s.get (R.CAN_TXDONE_DONE c)))

def execTxdone (c : Fin 2) (mask : Nat) (s : State) : Out := .next (if s.domOn 5 then s.txAck c mask else s)

/-- Full receive entries counted (RXCNT). -/
def State.rxCount (s : State) (c : Fin 2) : State :=
  s.set (R.CAN_RXPTR_RXCNT c) (popcount 64 (s.get (R.CAN_RXFULL_FULL c 0)) + popcount 64 (s.get (R.CAN_RXFULL_FULL c 1)))

/-- RXFULL: the named receive entries given back. -/
def State.rxAck (s : State) (c : Fin 2) (h : Nat) (mask : Nat) : State :=
  (s.set (R.CAN_RXFULL_FULL c h) ((named mask).foldl clrBit (s.get (R.CAN_RXFULL_FULL c h)))).rxCount c

def execRxfull (c : Fin 2) (h : Fin 2) (mask : Nat) (s : State) : Out := .next (if s.domOn 5 then s.rxAck c h mask else s)

/-! Transmission (R381, R386 to R389). -/

/-- The arbitration field of a header as a number; the smaller wins. -/
def arbKey (h : Nat) : Nat :=
  let base := bitsOf h 18 11
  let rtr := bit h 30
  if bit h 29 = 1 then base * 2 ^ 21 + 2 ^ 20 + 2 ^ 19 + bitsOf h 0 18 * 2 + rtr else base * 2 ^ 21 + rtr * 2 ^ 20

/-- The entry of a list that would win arbitration; ties to the lower number. -/
def State.arbWinner (s : State) (c : Nat) : List Nat → Option Nat
  | [] => none
  | e :: t =>
    match s.arbWinner c t with
    | none => some e
    | some w => if arbKey (s.rd (txEntry c w) 8) < arbKey (s.rd (txEntry c e) 8) then some w else some e

/-- Whether an EXCLUSIVE cell in use names an entry (R387). -/
def State.exclusive (s : State) (c : Fin 2) (e : Nat) : Bool :=
  s.on (R.CAN_CFG_TTEN c) && (upto (2 ^ s.get (R.CAN_TTCFG_NCYCX c))).any fun b =>
    (upto (s.get (R.CAN_TTCFG_NCOL c) + 1)).any fun j =>
      let w := s.ttCell c b j
      bitsOf w 14 2 == 1 && bitsOf w 0 6 == e

/-- The PENDING entries that R381 offers. -/
def State.offered (s : State) (c : Fin 2) : List Nat := (upto 64).filter fun e => s.txPending c e && !s.exclusive c e

/-- CAN_TX_START (R381, R387): the bus allows a frame; what the window allows starts. -/
def execCanTxStart (c : Fin 2) (s : State) : Out :=
  if !s.canSends c || s.can[c].sending.isSome then .next s else
  let s := s.canJoin c
  let begin_ := fun (s : State) (e : Nat) => s.modCan c fun x =>
    { x with sending := some e, aborted := false, window := x.window.map fun w => (w.1, w.2.1, w.2.2.1, w.2.2.2.1, true) }
  if !s.on (R.CAN_CFG_TTEN c) then
    match s.arbWinner c (s.offered c) with
    | some e => .next (begin_ s e)
    | none => .next s
  else match s.can[c].window with
    | some (_, kind, e, _, used) =>
      if used || !s.on (R.CAN_STAT_TTSYNC c) then .next s
      else if kind = 1 then .next (if s.txPending c e then begin_ s e else s)
      else if kind = 2 then
        match s.arbWinner c (s.offered c) with
        | some e => .next (begin_ s e)
        | none => .next s
      else .next s
    | none => .next s

/-- A basic cycle begins with a reference message (R389). -/
def State.ttCycle (s : State) (c : Fin 2) (b : Nat) : State :=
  (s.set (R.CAN_STAT_TTSYNC c) 1).modCan c fun x => { x with cycle := b, window := none }

/-- A failed attempt in the open exclusive window misses it (R388). -/
def State.ttMissNow (s : State) (c : Fin 2) (e : Nat) : State :=
  match s.can[c].window with
  | some (_, 1, w, _, _) => if w = e then s.bump (R.CAN_CNT_TTMISS c) else s
  | _ => s

/-- The attempt of an entry ended (R380, R381). -/
def State.txEnded (s : State) (c : Fin 2) (e : Nat) (r : CanTxResult) (stamp : Nat) : State :=
  let x := s.can[c]
  let s := s.modCan c fun x => { x with sending := none, aborted := false }
  match r with
  | .sent =>
    let s := s.modCan c fun x => { x with attempts := setNth x.attempts e (nthD x.attempts e 0 + 1) }
    (s.confine c (s.get (R.CAN_STAT_TEC c) - 1) (s.get (R.CAN_STAT_REC c))).finishTx c e 1 (some stamp)
  | .lostArbitration =>
    let s := s.ttMissNow c e
    if x.aborted then s.finishTx c e 4 (some stamp) else s
  | .failed kind =>
    let fails := nthD x.fails e 0 + 1
    let s := (s.ttMissNow c e).modCan c fun x =>
      { x with attempts := setNth x.attempts e (nthD x.attempts e 0 + 1), fails := setNth x.fails e fails,
               otherFail := if kind == .ack then x.otherFail else setBit x.otherFail e }
    let lim := s.get (R.CAN_CFG_RETRYLIM c)
    if x.aborted then s.finishTx c e 4 (some stamp)
    else if lim ≠ 0 && lim < fails then s.finishTx c e (if bit s.can[c].otherFail e = 1 then 3 else 2) (some stamp)
    else s

/-- CAN_TX_COMPLETE (R380, R381, R389): the attempt in progress ends; `stamp` is the time of its SOF. A reference that succeeds starts the
basic cycle, one that does not is due again at once. -/
def execCanTxComplete (c : Fin 2) (r : CanTxResult) (stamp : Stamp) (s : State) : Out :=
  match s.can[c].sending with
  | none => .next s
  | some 64 =>
    let n := s.can[c].nextCycle
    if r = .sent then
      let s := (s.confine c (s.get (R.CAN_STAT_TEC c) - 1) (s.get (R.CAN_STAT_REC c))).ttCycle c n
      .next (s.modCan c fun x => { x with sending := none, refDue := none, nextCycle := (n + 1) % 2 ^ s.get (R.CAN_TTCFG_NCYCX c) })
    else .next (s.modCan c fun x => { x with sending := if s.canSends c && s.ttMaster c then some 64 else none })
  | some e => .next (s.txEnded c e r stamp)

/-- CAN_TT_REFERENCE_SEND (R389): the time master sends the reference of the next basic cycle; with NETTIME after a firing of TTCMP. -/
def execCanTtReferenceSend (c : Fin 2) (s : State) : Out :=
  if !s.canSends c || !s.on (R.CAN_CFG_TTEN c) || !s.ttMaster c || s.can[c].sending.isSome then .next s else
  let s := s.canJoin c
  let n := s.can[c].nextCycle
  if s.on (R.CAN_CFG_NETTIME c) then
    match s.can[c].refDue with
    | some ns => .next (s.modCan c fun x => { x with sending := some 64, refData := [n, 0, 0, 0] ++ leBytes 4 ns })
    | none => .next s
  else .next (s.modCan c fun x => { x with sending := some 64, refData := [n] })

/-- A firing of a comparator as the time masters see it (R389). -/
def State.canFire (s : State) (k ns : Nat) : State :=
  s.each [(0 : Fin 2), 1] fun s c =>
    if s.canOn c && s.on (R.CAN_CFG_TTEN c) && s.on (R.CAN_CFG_NETTIME c) && s.ttMaster c && s.get (R.CAN_CFG_TTCMP c) == k then
      s.modCan c fun x => { x with refDue := some ns }
    else s

/-- CAN_TT_WINDOW (R387, R388): a time mark is reached. An exclusive window whose entry was PENDING at its mark and that no frame used was
missed; the cell of the running basic cycle opens the next one. -/
def execCanTtWindow (c : Fin 2) (col : Nat) (s : State) : Out :=
  if !s.canOn c || !s.on (R.CAN_CFG_TTEN c) || !s.on (R.CAN_STAT_TTSYNC c) then .next s else
  let s := match s.can[c].window with
    | some (_, 1, _, true, false) => s.bump (R.CAN_CNT_TTMISS c)
    | _ => s
  if s.get (R.CAN_TTCFG_NCOL c) < col then .next (s.modCan c fun x => { x with window := none })
  else
    let w := s.ttCell c (s.can[c].cycle % 2 ^ s.get (R.CAN_TTCFG_NCYCX c)) col
    let e := bitsOf w 0 6
    .next (s.modCan c fun x => { x with window := some (col, bitsOf w 14 2, e, s.txPending c e, false) })

/-- CAN_TT_SYNC_LOSS (R389): a time receiver has seen no valid reference for 2 × CYCLEN NTU. -/
def execCanTtSyncLoss (c : Fin 2) (s : State) : Out :=
  if !s.canOn c || !s.on (R.CAN_CFG_TTEN c) || s.ttMaster c || !s.on (R.CAN_STAT_TTSYNC c) then .next s
  else
    let s := (s.set (R.CAN_STAT_TTSYNC c) 0).modCan c fun x => { x with window := none }
    .next (s.raiseCan 0x0E06 1 c)

/-! Reception (R382, R383). -/

/-- Data bytes of a DLC (R379). -/
def dlcBytes (fd : Bool) (dlc : Nat) : Nat :=
  if dlc ≤ 8 then dlc else if fd then nthD [12, 16, 20, 24, 32, 48, 64] (dlc - 9) 64 else 8

/-- The 64 data bytes of an entry: those the frame brings, the others free values (the spec gives them none). -/
def State.canData (s : State) (f : CanFrame) : List Nat :=
  let n := if f.rtr then 0 else dlcBytes f.fd f.dlc
  let pad := (upto 8).flatMap fun j => leBytes 8 (Config.freeValue (s.draws + j)).toNat
  (upto 64).map fun i => if i < n then nthD f.data i 0 % 256 else nthD pad i 0

/-- A received frame in the layout of Table CAN.3, 16 words. -/
def State.canEntry (s : State) (c k : Nat) (f : CanFrame) : List Nat :=
  let w0 := f.id % 2 ^ 29 + b2n f.ide * 2 ^ 29 + b2n f.rtr * 2 ^ 30 + b2n f.fd * 2 ^ 31 + b2n f.brs * 2 ^ 32 + b2n f.esi * 2 ^ 33
    + f.dlc % 16 * 2 ^ 36 + k % 32 * 2 ^ 48 + c * 2 ^ 53
  let d := s.canData f
  [w0, compactOf (f.stamp * 65536), 0, 0] ++ (upto 8).map (fun i => ofLe ((d.drop (8 * i)).take 8)) ++ [0, 0, 0, 0]

/-- The lowest-numbered filter that matches (R382). -/
def State.canFilter (s : State) (c : Fin 2) (f : CanFrame) : Option Nat :=
  (upto 32).find? fun k =>
    let m := s.get (R.CAN_FLT_MASK c k)
    s.on (R.CAN_FLT_EN c k) && s.on (R.CAN_FLT_IDE c k) == f.ide && s.get (R.CAN_FLT_ID c k) &&& m == f.id % 2 ^ 29 &&& m

/-- A frame put into the receive queue (R383); a full entry discards it, F0. -/
def State.canQueue (s : State) (c : Fin 2) (k : Nat) (f : CanFrame) : State :=
  let w := s.get (R.CAN_RXPTR_RXWPTR c)
  if s.bitOf (R.CAN_RXFULL_FULL c (w / 64)) (w % 64) then (s.bump (R.CAN_CNT_RXOVF c)).raiseCan 0x0E05 0 c
  else
    let body := s.canEntry c k f
    let s := { s with draws := s.draws + 8 }
    let s := (s.putBytes (rxEntry c w) (body.flatMap (leBytes 8))).putBit (R.CAN_RXFULL_FULL c (w / 64)) (w % 64) true
    (s.set (R.CAN_RXPTR_RXWPTR c) (w + 1)).rxCount c

/-- A valid reference at a time receiver (R389). -/
def State.ttReference (s : State) (c : Fin 2) (f : CanFrame) : State :=
  if s.on (R.CAN_CFG_TTEN c) && !s.ttMaster c && f.id % 2 ^ 29 == s.get (R.CAN_TTCFG_REFID c)
      && f.ide == s.on (R.CAN_TTCFG_REFIDE c) && !f.rtr then
    s.ttCycle c (nthD f.data 0 0 % 16)
  else s

/-- CAN_FRAME_RECEIVED (R382 to R384, R389): a frame valid at the sixth bit of its end of frame lowers REC and is filtered. -/
def execCanFrameReceived (c : Fin 2) (f : CanFrame) (s : State) : Out :=
  if !s.canOn c || s.get (R.CAN_STAT_STATE c) = 3 then .next s else
  let s := s.canJoin c
  let r := s.get (R.CAN_STAT_REC c)
  let s := if r ≥ 128 then (s.confine c (s.get (R.CAN_STAT_TEC c)) (119 + s.free % 9)).drawn
    else s.confine c (s.get (R.CAN_STAT_TEC c)) (r - 1)
  let s := s.ttReference c f
  match s.canFilter c f with
  | none => .next s
  | some k =>
    if s.on (R.CAN_FLT_DEST c k) then
      let body := s.canEntry c k f
      .next ({ s with draws := s.draws + 8 }.arrive 6 (k + 32 * c.val) body)
    else .next (s.canQueue c k f)

/-! The transceiver (R376, R377) and the device states (R390). -/

/-- CAN_TXD_TIMEOUT (R376): the transceiver has released the bus; TXDTO, F1. -/
def execCanTxdTimeout (s : State) : Out :=
  if !s.domOn 5 then .next s else .next ((s.set (R.CAN_STAT_TXDTO 0) 1).raiseCan 0x0E01 1 0)

/-- CAN_WAKE_PATTERN (R377): with WAKEN set the transceiver in standby latches the detection until the Rind reads it. -/
def execCanWakePattern (s : State) : Out :=
  if s.on (R.CAN_CFG_WAKEN 0) && !s.can[(0 : Fin 2)].running then .next (s.modCan 0 fun x => { x with wake := true }) else .next s

/-- Controllers in use started (INTAKE step 10, a wake). -/
def State.canStart (s : State) : State :=
  s.each [(0 : Fin 2), 1] fun s c =>
    if !s.on (R.CAN_CFG_EN c) then s
    else
      let s := (s.set (R.CAN_STAT_STATE c) 0).setB (R.CAN_STAT_RESTR c) (s.dev == 3)
      let s := ((s.set (R.CAN_STAT_TEC c) 0).set (R.CAN_STAT_REC c) 0).set (R.CAN_STAT_TTSYNC c) 0
      s.modCan c fun x => { CanDyn.reset with running := true, wake := x.wake }

/-- Every PENDING entry of both controllers withdrawn. -/
def State.canWithdraw (s : State) : State := s.each [(0 : Fin 2), 1] fun s c => s.txWithdraw c (2 ^ 64 - 1)

/-- Entry to SHADOW (R390): restricted operation. -/
def State.canRestrict (s : State) : State :=
  s.canWithdraw.each [(0 : Fin 2), 1] fun s c =>
    if s.canOn c then (s.set (R.CAN_STAT_RESTR c) 1).modCan c fun x => { x with refDue := none } else s

/-- A claim (R390): normal operation again. -/
def State.canFreeAll (s : State) : State := s.each [(0 : Fin 2), 1] fun s c => s.set (R.CAN_STAT_RESTR c) 0

/-- Entry to HALT, S1 or S2 (R390): no further frame starts, PENDING entries become DONE with ABORTED, CAN0 goes to standby. -/
def State.canHalt (s : State) : State :=
  s.canWithdraw.each [(0 : Fin 2), 1] fun s c => s.modCan c fun x => { x with running := false, window := none, refDue := none }

end Sys2Proof.Machine
end

