-- ==== Sys2Proof/Machine/Plan.lean ====
section
/-!
DEFINITION. Machine/Plan.lean: the point-to-point planner (R261, R262, R482): time-optimal motion under limits of speed, acceleration,
deceleration and jerk, formed in continuous time. Positions, velocities and accelerations count in 2^−160 counts, times in 2^−64 servo
cycles, fine enough that every commanded position rounds as the exact plan does.
-/

namespace Sys2Proof.Machine

/-- A scalar word of R244 in 2^−160: m × 2^(e − 31). -/
def scalarU (m e : Int) : Int := m * (2 ^ (e - 31 + 160).toNat : Nat)

/-- A Q40.24 position in 2^−160 counts. -/
def ofQ24 (x : Int) : Int := x * 2 ^ 136

/-- Division rounded to nearest, ties to even. -/
def divEven (x : Int) (d : Nat) : Int :=
  let q := x / d
  let r := x % d
  if 2 * r < d then q else if 2 * r > d then q + 1 else if q % 2 = 0 then q else q + 1

/-- A position in 2^−160 counts as Q40.24, to nearest, ties to even (R482). -/
def toQ24 (x : Int) : Int := divEven x (2 ^ 136)

/-- Integer square root of any natural. -/
def sqrtN (n : Nat) : Nat := isqrtAux n (Nat.log2 n / 2 + 1) 0

/-- Limits of a motion, all positive but the jerk, which is 0 for a trapezoid. -/
structure Limits where
  vel : Nat
  acc : Nat
  dec : Nat
  jerk : Nat
deriving DecidableEq, Repr

/-- Velocity at the end of a phase that starts at velocity v. -/
def Phase.vEnd (p : Phase) (v : Int) (t : Nat) : Int := v + p.a * t / 2 ^ 64 + p.j * (t * t : Nat) / 2 ^ 129

/-- Acceleration in a phase at time t. -/
def Phase.aAt (p : Phase) (t : Nat) : Int := p.a + p.j * t / 2 ^ 64

/-- Distance run in a phase up to time t from velocity v. -/
def Phase.dist (p : Phase) (v : Int) (t : Nat) : Int :=
  (6 * v * t * 2 ^ 128 + 3 * p.a * (t * t : Nat) * 2 ^ 64 + p.j * (t * t * t : Nat)) / (6 * 2 ^ 192)

/-- Distance, final velocity, acceleration at the end and duration of a list of phases from velocity v. -/
def runPhases : List Phase → Int → Int × Int × Int × Nat
  | [], v => (0, v, 0, 0)
  | p :: t, v =>
    let (d, v', a', n) := runPhases t (p.vEnd v p.dur)
    (d + p.dist v p.dur, v', (match t with | [] => p.aAt p.dur | _ => a'), n + p.dur)

/-- The phases up to time τ. -/
def cutPhases : List Phase → Nat → List Phase
  | [], _ => []
  | p :: t, tau => if tau ≤ p.dur then [{ p with dur := tau }] else p :: cutPhases t (tau - p.dur)

/-- Position, velocity and acceleration at time t after the start of a list of phases; beyond their end the last velocity goes on. -/
def atPhases : List Phase → Int → Int → Nat → Int × Int × Int
  | [], x, v, t => (x + v * t / 2 ^ 64, v, 0)
  | p :: r, x, v, t =>
    if t < p.dur then (x + p.dist v t, p.vEnd v t, p.aAt t)
    else atPhases r (x + p.dist v p.dur) (p.vEnd v p.dur) (t - p.dur)

/-- Time in 2^−64 cycles that a velocity change takes at an acceleration, or an acceleration change at a jerk. -/
def timeOf (dv a : Nat) : Nat := if a = 0 then 0 else dv * 2 ^ 64 / a

/-- With jerk: from acceleration a0 to a1 while the velocity rises by dv, within A (all in the direction of the change, a0 and a1 not
negative): up to a peak, held there where it reaches A, and down. -/
def riseTo (dv a0 a1 A J : Nat) : List Phase :=
  let ap := sqrtN (J * dv + (a0 * a0 + a1 * a1) / 2)
  if ap ≤ A then
    let ap := max ap (max a0 a1)
    [⟨timeOf (ap - a0) J, a0, J⟩, ⟨timeOf (ap - a1) J, ap, -(J : Int)⟩]
  else if a0 ≤ A then
    let used := (2 * A * A - a0 * a0 - a1 * a1) / (2 * J)
    [⟨timeOf (A - a0) J, a0, J⟩, ⟨timeOf (dv - used) A, A, 0⟩, ⟨timeOf (A - a1) J, A, -(J : Int)⟩]
  else
    let used := (a0 * a0 - A * A) / (2 * J) + (A * A - a1 * a1) / (2 * J)
    [⟨timeOf (a0 - A) J, a0, -(J : Int)⟩, ⟨timeOf (dv - used) A, A, 0⟩, ⟨timeOf (A - a1) J, A, -(J : Int)⟩]

/-- The same phases run in the other direction. -/
def flipPhases (s : Int) (l : List Phase) : List Phase := l.map fun p => ⟨p.dur, s * p.a, s * p.j⟩

/-- The quickest way from velocity v0 and acceleration a0 to velocity v1 at acceleration zero (R482): at ACC while the speed rises, DEC
while it falls, with the rate of change of acceleration within JERK. -/
def toVel (L : Limits) (v0 a0 v1 : Int) : List Phase :=
  if L.jerk = 0 then
    let d := sgn (v1 - v0)
    let u0 := d * v0
    let u1 := d * v1
    if d = 0 then []
    else if u0 ≥ 0 then [⟨timeOf (u1 - u0).toNat L.acc, d * L.acc, 0⟩]
    else if u1 ≤ 0 then [⟨timeOf (u1 - u0).toNat L.dec, d * L.dec, 0⟩]
    else [⟨timeOf (-u0).toNat L.dec, d * L.dec, 0⟩, ⟨timeOf u1.toNat L.acc, d * L.acc, 0⟩]
  else
    let J := L.jerk
    let rest := a0 * a0 / (2 * J : Nat)
    let vn := v0 + sgn a0 * rest
    let d := sgn (v1 - vn)
    let settle : Phase := ⟨timeOf a0.natAbs J, a0, -(sgn a0 * J)⟩
    if d = 0 then (if a0 = 0 then [] else [settle])
    else
      let back := d * a0 < 0
      let u0 := if back then d * vn else d * v0
      let b0 := if back then 0 else (d * a0).toNat
      let u1 := d * v1
      let pre := if back then [settle] else []
      if u0 ≥ 0 then pre ++ flipPhases d (riseTo (u1 - u0).toNat b0 0 L.acc J)
      else if u1 ≤ 0 then pre ++ flipPhases d (riseTo (u1 - u0).toNat b0 0 L.dec J)
      else
        let down := (-u0).toNat
        let least := if b0 * b0 > 2 * J * down then sqrtN (b0 * b0 - 2 * J * down) else 0
        let ac := min (min L.acc L.dec) (min (sqrtN (b0 * b0 + 2 * J * down)) (sqrtN (2 * J * u1.toNat)))
        let ac := max ac least
        pre ++ flipPhases d (riseTo down b0 ac L.dec J ++ riseTo u1.toNat ac 0 L.acc J)

/-- The motion that follows the first τ of a push and then stops. -/
def pushStop (L : Limits) (push : List Phase) (v0 : Int) (tau : Nat) : List Phase :=
  let head := cutPhases push tau
  let (_, v, a, _) := runPhases head v0
  head ++ toVel L v a 0

/-- The longest push, by bits from `n − 1` down, after which a stop does not pass the distance D in direction d. -/
def bisectPush (L : Limits) (push : List Phase) (v0 D d : Int) (tmax : Nat) : Nat → Nat → Nat
  | 0, t => t
  | n + 1, t =>
    let t' := t + 2 ^ n
    if t' ≤ tmax ∧ d * (D - (runPhases (pushStop L push v0 t') v0).1) ≥ 0 then bisectPush L push v0 D d tmax n t'
    else bisectPush L push v0 D d tmax n t

/-- The time-optimal phases over distance D from velocity v0 and acceleration a0 to rest (R482): a push toward VEL in the direction in
which the direct stop falls short, cut so that the stop after it ends at the distance, with a cruise at VEL where the push is complete. -/
def planPhases (L : Limits) (v0 a0 D : Int) : List Phase :=
  let a0 := if L.jerk = 0 then 0 else a0
  let stop := toVel L v0 a0 0
  let dStop := (runPhases stop v0).1
  let d := sgn (D - dStop)
  if d = 0 then stop
  else
    let vc := d * L.vel
    let push := toVel L v0 a0 vc
    let tail := toVel L vc 0 0
    let full := (runPhases push v0).1 + (runPhases tail vc).1
    if d * (D - full) ≥ 0 then push ++ [⟨timeOf (D - full).natAbs L.vel, 0, 0⟩] ++ tail
    else
      let tmax := (runPhases push v0).2.2.2
      pushStop L push v0 (bisectPush L push v0 D d tmax (Nat.log2 tmax + 1) 0)

/-- Duration of a list of phases in 2^−64 cycles. -/
def phasesTime (l : List Phase) : Nat := l.foldl (fun n p => n + p.dur) 0

/-- A plan to a target in Q40.24 from a state of motion. -/
def planMove (L : Limits) (pcmd v0 a0 target : Int) : Plan :=
  let l := planPhases L v0 a0 (ofQ24 (target - pcmd))
  ⟨ofQ24 pcmd, v0, l, some (target, (phasesTime l + 2 ^ 64 - 1) / 2 ^ 64), 0, 0⟩

/-- A plan that reaches a velocity and keeps it (JOG, the fast and slow phases of homing); velocity 0 is a stop. -/
def planJog (L : Limits) (pcmd v0 a0 v1 : Int) : Plan :=
  ⟨ofQ24 pcmd, v0, toVel L v0 (if L.jerk = 0 then 0 else a0) v1, none, v1, 0⟩

/-- Commanded position, velocity and acceleration of a plan at its cycle k; after its segments it keeps its last velocity exactly. -/
def Plan.at (p : Plan) (k : Nat) : Int × Int × Int :=
  let t := phasesTime p.phases
  if k * 2 ^ 64 < t then
    let (x, v, a) := atPhases p.phases p.p0 p.v0 (k * 2 ^ 64)
    (toQ24 x, v, a)
  else
    let (x, _, _) := atPhases p.phases p.p0 p.v0 t
    (toQ24 (x + p.cruise * (k * 2 ^ 64 - t : Nat) / 2 ^ 64), p.cruise, 0)

/-- Whether a plan has run out at its cycle k: its last cycle (R482), or rest after a stop without a target. -/
def Plan.over_ (p : Plan) (k : Nat) : Bool :=
  match p.goal with
  | some (_, last) => last ≤ k
  | none => p.cruise == 0 && phasesTime p.phases ≤ k * 2 ^ 64

end Sys2Proof.Machine
end

