-- ==== Sys2Proof/Machine/Supervision.lean ====
section
/-!
DEFINITION. Machine/Supervision.lean: the supervisor: supervision steps, following error, overspeed, travel limits and switches,
standstill, stall counting and the ends of stops (R247 to R257, R263, R280, R297, R481).
-/

namespace Sys2Proof.Machine

/-- Level of a field input through a polarity; an input flagged invalid counts as active (R252). -/
def State.switchActive (s : State) (ch : Nat) (activeLow : Bool) : Bool :=
  s.bitOf R.FIO_IN_INVALID ch || (s.bitOf R.FIO_IN_LEVEL ch != activeLow)

/-- The positive and negative limit switches of a slice: enabled and active. -/
def State.limP (s : State) (n : Slice) : Bool :=
  s.hl (R.SLC_SVTRAV2_LIMP_EN n) != 0 && s.switchActive (s.hl (R.SLC_SVTRAV2_LIMP_CH n)) (s.hl (R.SLC_SVTRAV2_LIMP_POL n) != 0)
def State.limN (s : State) (n : Slice) : Bool :=
  s.hl (R.SLC_SVTRAV2_LIMN_EN n) != 0 && s.switchActive (s.hl (R.SLC_SVTRAV2_LIMN_CH n)) (s.hl (R.SLC_SVTRAV2_LIMN_POL n) != 0)

/-- The live switch bits of SLC_SVSTAT. -/
def State.showLimits (s : State) (n : Slice) : State :=
  (s.setB (R.SLC_SVSTAT_LIMP n) (s.limP n)).setB (R.SLC_SVSTAT_LIMN n) (s.limN n)

/-- The slice whose port gives an axis its position: the odd one in DUALFB (*DUALFB*). -/
def State.loadSlice (s : State) (n : Slice) : Slice := if s.pairFunc n == 4 then oddOf n else n

/-- Whether a STEP axis runs without an encoder (R253). -/
def State.openStep (s : State) (n : Slice) : Bool := s.axmode n == 5 && !s.hasFb n

/-- Whether the position of an axis is lost: POSLOST of its position port, or SLOST on a STEP axis without encoder (R251, R281). -/
def State.lost (s : State) (n : Slice) : Bool :=
  if s.openStep n then s.on (R.SLC_PRSTAT_SLOST n) else s.on (R.SLC_FBSTAT_POSLOST (s.loadSlice n))

/-- A Q16.16 register as Q40.24. -/
def q16to24 (x : Nat) : Int := x * 2 ^ 8

/-- The position an axis commands now: the ramp's during a ramp stop, else its generator's. -/
def State.posCmd (s : State) (n : Slice) : Int :=
  match s.sup[n].ramp with
  | some r => r.pr
  | none => s.prof[n].pcmd

/-- The position an axis stands at for the supervisor: the load capture in DUALFB, the commanded microstep position of an open STEP
axis, else the capture. -/
def State.supPos (s : State) (n : Slice) (c : Capture) : Int :=
  if s.axmode n == 5 then s.posCmd n
  else if s.pairFunc n == 4 then (match s.sup[oddOf n].cap with | some d => d.p | none => c.p)
  else c.p

/-- Whether the captures a step uses are valid: both ports in DUALFB. -/
def State.supValid (s : State) (n : Slice) (c : Capture) : Bool :=
  c.valid && (s.pairFunc n != 4 || (match s.sup[oddOf n].cap with | some d => d.valid | none => false))

/-- The FE limit and time of the set that FESEL selects (R248): Q24.8 as Q40.24, and steps. -/
def State.feSet (s : State) (n : Slice) : Int × Nat :=
  if s.get (R.SLC_SVCTL_FESEL n) = 0 then ((s.hl (R.SLC_SVFE0_FELIM n) * 2 ^ 16 : Nat), s.hl (R.SLC_SVFE0_FETIME n))
  else ((s.hl (R.SLC_SVFE1_FELIM n) * 2 ^ 16 : Nat), s.hl (R.SLC_SVFE1_FETIME n))

/-- The following-error checks of one step (R248). -/
def State.feStep (s : State) (n : Slice) (fe : Int) : State :=
  let a : Int := fe.natAbs
  let warn : Int := s.get (R.SLC_SVCTL_FEWARN n) * 2 ^ 16
  let past := warn != 0 && a > warn
  let s := if past && !s.on (R.SLC_SVSTAT_FEW n) then (s.bump (R.SLC_SVCNT_FEWCNT n)).raiseAx 0x0901 1 n else s
  let s := s.setB (R.SLC_SVSTAT_FEW n) past
  let (lim, time) := s.feSet n
  let cnt := if a > lim then satN 65535 (s.get (R.SLC_SVSTAT_FECNT n) + 1) else 0
  let s := s.set (R.SLC_SVSTAT_FECNT n) cnt
  let s := s.setB (R.SLC_SVSTAT_FETMR n) (cnt != 0)
  let gross := a > (s.hl (R.SLC_SVGROSS_FEGROSS n) * 2 ^ 16 : Nat)
  if gross || (cnt != 0 && time ≤ cnt) then
    let l := (s.lead n).val
    (s.bump (R.SLC_SVCNT_FETRIP n)).raise { code := 0x0902, sev := 3, skind := 1, sindex := l, origin := n.val, gross := gross }
  else s

/-- OVERSPEED (R249): two consecutive valid captures beyond VMAX. -/
def State.speedStep (s : State) (n : Slice) (v : Int) : State :=
  let fast := (v.natAbs : Int) > q16to24 (s.hl (R.SLC_SVGROSS_VMAX n))
  let run := if fast then s.sup[n].overRun + 1 else 0
  let s := s.modSup n fun u => { u with overRun := if 2 ≤ run then 0 else run }
  if 2 ≤ run then s.raiseAx 0x0903 3 n else s

/-- The direction in which a step moves outward (R251, R481): 1 toward the positive limit, −1 toward the negative, 0 neither. -/
def State.outward (s : State) (n : Slice) (ignore : Bool) (pcmd v : Int) : Int :=
  if ignore then
    let still := q16to24 (s.get (R.SLC_SVSTILL_VSTILL n))
    if v > still then 1 else if v < -still then -1 else 0
  else match s.sup[n].prevP with
    | some p => sgn (pcmd - p)
    | none => 0

/-- A travel or switch trip (Table LOP.4), counted in LIMCNT. -/
def State.limTrip (s : State) (n : Slice) (code sev : Nat) : State := (s.bump (R.SLC_SVCNT_LIMCNT n)).raiseAx code sev n

/-- The travel limits of one step (R251). -/
def State.travelStep (s : State) (n : Slice) (dir pc p : Int) : State :=
  let en := s.hl (R.SLC_SVTRAV2_TRAV_EN n) != 0
  let lost := s.lost n
  let hi := toS 64 (s.hl (R.SLC_SVTRAV1_POSMAX n))
  let lo := toS 64 (s.hl (R.SLC_SVTRAV0_POSMIN n))
  let ovt : Int := s.hl (R.SLC_SVTRAV2_OVT n) * 2 ^ 24
  let s := s.setB (R.SLC_SVSTAT_NOREF n) lost
  let s := s.setB (R.SLC_SVSTAT_BEYOND_P n) (en && !lost && p > hi)
  let s := s.setB (R.SLC_SVSTAT_BEYOND_N n) (en && !lost && p < lo)
  if !en || lost then s else
  let sw := (dir = 1 ∧ pc > hi) ∨ (dir = -1 ∧ pc < lo)
  let beyond := p > hi + ovt || p < lo - ovt
  let away := (p > hi + ovt && dir == 1) || (p < lo - ovt && dir == -1)
  let trip := beyond && (!s.sup[n].recover || away)
  let s := if beyond then s else s.modSup n fun u => { u with recover := false }
  let s := if sw then s.limTrip n 0x0905 2 else s
  if trip then s.limTrip n 0x0906 3 else s

/-- Whether LIMSW is suspended in a direction: METHOD 1 homing runs toward that switch (R252, R282). -/
def State.limSuspended (s : State) (n : Slice) (dir : Int) : Bool :=
  s.on (R.SLC_SVSTAT_HOMESUSP n) && dir == (if s.on (R.SLC_HMCFG_HDIR n) then -1 else 1)

/-- The limit switches of one step (R252); `sev` is the severity of LIMSW, 3 during a freeze (R257). -/
def State.switchStep (s : State) (n : Slice) (dir : Int) (sev : Nat) : State :=
  let s := s.showLimits n
  if s.limP n && s.limN n then s.limTrip n 0x0908 3
  else if dir == 1 && s.limP n && !s.limSuspended n 1 then s.limTrip n 0x0907 sev
  else if dir == -1 && s.limN n && !s.limSuspended n (-1) then s.limTrip n 0x0907 sev
  else s

/-- The deviation of a DUALFB pair (R297): Δload − Δmotor × NUM/DEN since the loop closed. -/
def State.dualStep (s : State) (n : Slice) (c : Capture) : State :=
  if s.pairFunc n != 4 then s else
  match s.sup[oddOf n].cap with
  | none => s
  | some d =>
    let num := toS 32 (s.get (R.SLC_CHYRAT_NUM n))
    let den := max 1 (s.get (R.SLC_CHYRAT_DEN n))
    let dl := toS 64 (ofS 64 (d.p - s.sup[n].devLoad))
    let dm := toS 64 (ofS 64 (c.p - s.sup[n].devMotor))
    let k := dl * den - dm * num
    let s := s.setS (R.SLC_CHYSTAT_DEV n) (satS 24 (k / (den * 2 ^ 24 : Nat)))
    let lim := s.get (R.SLC_CHYCFG_DEVLIM n)
    if lim != 0 && k.natAbs > lim * 2 ^ 24 * den then s.raiseAx 0x0B02 3 n else s

/-- The INPOS run of one step (R263). -/
def State.inposStep (s : State) (n : Slice) (fe : Int) : State :=
  let win : Int := s.get (R.SLC_PRCFG_INPOSWIN n) * 2 ^ 16
  let inside := (fe.natAbs : Int) ≤ win
  if !inside then (s.set (R.SLC_PRSTAT_INPOS n) 0).modProf n fun p => { p with inposRun := 0 }
  else if s.prof[n].done then
    let run := s.prof[n].inposRun + 1
    let s := s.modProf n fun p => { p with inposRun := satN 255 run }
    if s.get (R.SLC_PRCFG_INPOS_N n) ≤ run then s.set (R.SLC_PRSTAT_INPOS n) 1 else s
  else s

/-- The stall run of one step (R280): a cycle at SFMIN or faster with δ below DSTALL, EMAG below EMIN, or SLC_STOBS not advanced for 4
captures. -/
def State.stallStep (s : State) (n : Slice) (cmdV : Int) : State :=
  if s.axmode n != 5 then s else
  let sq := s.get (R.SLC_STOBS_SEQ n)
  let s := s.modProf n fun p => if sq = p.obsSeq then { p with obsAge := satN 255 (p.obsAge + 1) } else { p with obsSeq := sq, obsAge := 0 }
  let fast := (cmdV.natAbs : Int) ≥ s.get (R.SLC_STLIM_SFMIN n) * 2 ^ 16
  let weak := s.getS (R.SLC_STOBS_DELTA n) < s.getS (R.SLC_STLIM_DSTALL n) || s.get (R.SLC_STOBS_EMAG n) < s.get (R.SLC_STLIM_EMIN n)
    || 4 ≤ s.prof[n].obsAge
  let hit := s.on (R.SLC_STCFG_STALLEN n) && fast && weak
  s.modProf n fun p => { p with stallRun := if hit then p.stallRun + 1 else 0 }

/-- Standstill of a stop (R256, R180): 8 consecutive valid captures below VSTILL; without feedback the end of the ramp, or the first step
where there is no ramp; with the current held at zero, 8 cycles of low back-EMF. -/
def State.stillStep (s : State) (n : Slice) (c : Capture) (emfLow : Bool) : State :=
  let slow := (c.v.natAbs : Int) < q16to24 (s.get (R.SLC_SVSTILL_VSTILL n))
  let s := s.modSup n fun u =>
    { u with still := if !c.valid then u.still else if slow then u.still + 1 else 0, emfRun := if emfLow then u.emfRun + 1 else 0 }
  let u := s.sup[n]
  let now : Bool := if s.startq[n].holdZero then decide (8 ≤ u.emfRun)
    else if s.hasFb n then decide (8 ≤ u.still)
    else match u.ramp with
      | some _ => u.ended
      | none => true
  if s.axst n == 3 && now then s.standstill n
  else if s.axst n == 2 && u.ramp.isSome && (if s.hasFb n then decide (8 ≤ u.still) && u.ended else u.ended) then
    ((s.standstill n).set (R.SLC_SVREFV_RAMP n) 0).modSup n fun u => { u with ramp := none, ended := false }
  else s

/-- SUPERVISION_STEP (R247 to R254): the pair of a capture and its SLC_SVCMD1 write is judged; every cause found is reported. `emfLow` is
the observer's back-EMF amplitude below its minimum (R180). -/
def execSupervisionStep (n : Slice) (emfLow : Bool) (s : State) : Out :=
  if !s.supRuns n || s.on (R.SLC_PWMSTAT_FROZEN n) then .next s else
  match s.sup[n].paired with
  | none => .next s
  | some (c, pc0) =>
    let s := s.modSup n fun u => { u with paired := none }
    let mode := s.axmode n
    let ramp := s.sup[n].ramp
    let step := mode == 5
    let p := s.supPos n c
    let pc := match ramp with
      | some r => r.pr
      | none => if step then s.prof[n].pcmd else pc0
    let fePc := match ramp with
      | some r => if step then pc0 else r.pr
      | none => pc0
    let loadP := if s.pairFunc n == 4 then p else c.p
    let ignore := (mode == 0 || mode == 1) && ramp.isNone
    let ok := s.supValid n c
    let fe := toS 64 (ofS 64 (fePc - loadP))
    let feOn := (2 ≤ mode || ramp.isSome) && !s.openStep n
    let dir := s.outward n ignore pc c.v
    let s := s.setS (R.SLC_SVSTAT_FE n) (satS 32 (fe / 2 ^ 16))
    let s := if feOn && ok then s.feStep n fe else s
    let s := if s.hasFb n && c.valid then s.speedStep n c.v else s
    let s := s.travelStep n dir (if ignore then p else pc) p
    let s := s.switchStep n dir 2
    let s := if ok then s.dualStep n c else s
    let s := if ok || s.openStep n then s.inposStep n (if s.openStep n then 0 else fe) else s
    let s := s.stallStep n (match s.sup[n].prevP with | some q => pc - q | none => 0)
    let s := s.modSup n fun u =>
      { u with lastV := (match u.prevP with | some q => toS 64 (ofS 64 (pc - q)) | none => 0), prevP := some pc, moveDir := dir }
    .next (s.stillStep n c emfLow)

/-- A write of SLC_SVCMD1 (R247, R250): with the SEQ of the latest capture it makes that capture's pair, with pcmd as SLC_SVCMD0 then
stands; any other SEQ is counted. -/
def State.svcmd1 (s : State) (n : Slice) (seq : Nat) : State :=
  if !s.supRuns n then s else
  match s.sup[n].cap with
  | none => s.bump (R.SLC_SVCNT_STALECNT n)
  | some c =>
    if c.seq = seq % 65536 then
      if s.sup[n].written then s
      else
        let pc := s.getS (R.SLC_SVCMD0_PCMD n)
        s.modSup n fun u => { u with written := true, stale := 0, paired := some (c, pc) }
    else s.bump (R.SLC_SVCNT_STALECNT n)

/-- SVCMD1_WRITE (R250). -/
def execSvcmd1Write (n : Slice) (seq : Nat) (s : State) : Out := .next (s.svcmd1 n seq)

/-- CMDSTALE (R250): SVSTALE consecutive captures have passed without their write; F3. -/
def execCmdstale (n : Slice) (s : State) : Out :=
  if s.supRuns n && !s.on (R.SLC_PWMSTAT_FROZEN n) && s.get (R.SLC_SVCTL_SVSTALE n) ≤ s.sup[n].stale then
    let s := s.modSup n fun u => { u with stale := 0 }
    .next ((s.bump (R.SLC_SVCNT_STALECNT n)).raiseAx 0x0904 3 n)
  else .next s

/-- STOPTIME (R256): standstill not reached within TSTOP of entering STOPPING; it cannot expire without feedback. -/
def execStoptime (n : Slice) (s : State) : Out :=
  .next (if s.axst n == 3 && s.hasFb n then s.raiseAx 0x0909 3 n else s)

/-- FREEZE_SWITCH_READ (R257): during a freeze the switches are read once per nominal servo period; LIMSW is an F3, OVERTRAVEL and LIMBOTH
act on the last capture. -/
def execFreezeSwitchRead (n : Slice) (s : State) : Out :=
  if !s.supRuns n || !s.on (R.SLC_PWMSTAT_FROZEN n) then .next s else
  let dir := s.sup[n].moveDir
  let s := s.switchStep n dir 3
  let en := s.hl (R.SLC_SVTRAV2_TRAV_EN n) != 0
  match s.sup[n].cap with
  | none => .next s
  | some c =>
    let p := s.supPos n c
    let ovt : Int := s.hl (R.SLC_SVTRAV2_OVT n) * 2 ^ 24
    let far := p > toS 64 (s.hl (R.SLC_SVTRAV1_POSMAX n)) + ovt || p < toS 64 (s.hl (R.SLC_SVTRAV0_POSMIN n)) - ovt
    .next (if en && !s.lost n && far && !s.sup[n].recover then s.limTrip n 0x0906 3 else s)

/-- STALL (R280, R281): STALL_N consecutive stall cycles: counted, SLOST set, HOMED clear, and an F3 or F1; in METHOD 3 homing of a STEP
axis it is the reference event and raises nothing (R282). -/
def execStall (n : Slice) (s : State) : Out :=
  if s.axmode n == 5 && s.axOn n && s.get (R.SLC_STCFG_STALL_N n) ≤ s.prof[n].stallRun then
    let s := s.modProf n fun p => { p with stallRun := 0 }
    match s.prof[n].home with
    | some h =>
      if h.method == 3 && h.pref.isNone then .next ((s.bump (R.SLC_PRSTAT_STALLCNT n)).homeRef n s.prof[n].pcmd)
      else
        let s := ((s.bump (R.SLC_PRSTAT_STALLCNT n)).set (R.SLC_PRSTAT_SLOST n) 1).set (R.SLC_PRSTAT_HOMED n) 0
        .next (s.raiseAx 0x0A01 (if s.on (R.SLC_STCFG_STALLSEV n) then 3 else 1) n)
    | none =>
      let s := ((s.bump (R.SLC_PRSTAT_STALLCNT n)).set (R.SLC_PRSTAT_SLOST n) 1).set (R.SLC_PRSTAT_HOMED n) 0
      .next (s.raiseAx 0x0A01 (if s.on (R.SLC_STCFG_STALLSEV n) then 3 else 1) n)
  else .next s

/-- The velocity of a ramp one cycle on (R255): toward zero by DEC. -/
def rampDown (v : Int) (dec : Nat) : Int := sgn v * (if v.natAbs ≤ dec then 0 else (v.natAbs - dec : Nat))

/-- A ramp stop one servo cycle on (R255): vr and pr published in SLC_SVREF. -/
def State.rampCycle (s : State) (n : Slice) : State :=
  match s.sup[n].ramp with
  | none => s
  | some r =>
    let v := rampDown r.vr s.sup[n].dec
    let p := toS 64 (ofS 64 (r.pr + v))
    let s := s.setS (R.SLC_SVREF_PR n) p
    let s := s.setS (R.SLC_SVREFV_VR n) (v / 2 ^ 8)
    s.modSup n fun u => { u with ramp := some ⟨v, p⟩, ended := v == 0 }

/-- The supervisor of an axis at the moment its loop closes, or at a claim (*Supervision*): timers and counts at zero (R297, R251). -/
def State.supStart (s : State) (n : Slice) : State :=
  let p := match s.sup[n].cap with | some c => s.supPos n c | none => 0
  let ovt : Int := s.hl (R.SLC_SVTRAV2_OVT n) * 2 ^ 24
  let far := p > toS 64 (s.hl (R.SLC_SVTRAV1_POSMAX n)) + ovt || p < toS 64 (s.hl (R.SLC_SVTRAV0_POSMIN n)) - ovt
  let m := match s.sup[n].cap with | some c => c.p | none => 0
  let l := match s.sup[oddOf n].cap with | some c => c.p | none => 0
  let s := s.set (R.SLC_SVSTAT_FECNT n) 0
  let s := s.set (R.SLC_SVSTAT_FETMR n) 0
  let s := s.set (R.SLC_SVSTAT_FEW n) 0
  s.modSup n fun u =>
    { u with paired := none, prevP := none, lastV := 0, moveDir := 0, overRun := 0, stale := 0, still := 0, emfRun := 0, ramp := none,
             ended := false, recover := far, devLoad := l, devMotor := m, cap := none, written := false }

end Sys2Proof.Machine
end

