-- ==== Sys2Proof/Machine/Motion.lean ====
section
/-!
DEFINITION. Machine/Motion.lean: the generators of POSITION, STEP and GEAR, motion commands, start lines, homing and stepping (R259 to
R266, R273 to R285, R482).
-/

namespace Sys2Proof.Machine

/-! Staged words (R7). -/

/-- The staged writes that meet a condition take effect, in order; the others keep waiting. -/
def State.takeIf (s : State) (p : Staged → Bool) : State :=
  { (s.applyStaged (s.staged.filter p)) with staged := s.staged.filter fun x => !p x }

/-- Whether a staged write of slice n is to its profile words VEL, ACC, DEC or JERK. -/
def isProfileWord (n : Slice) (x : Staged) : Bool :=
  (R.SLC_PRPAR_MANT n 0).addr ≤ x.fld.addr && x.fld.addr ≤ (R.SLC_PRPAR_MANT n 3).addr

/-- The profile words and the target of a slice that wait for the boundary at which a command takes effect (R7, R262). -/
def State.takeProfile (s : State) (n : Slice) : State :=
  let mine := fun (x : Staged) => x.own == Own.servo && x.idx == n.val
  let ch := s.staged.any fun x => mine x && isProfileWord n x
  let s := s.takeIf fun x => mine x && (isProfileWord n x || x.fld.addr == (R.SLC_PRTGT_TGT n).addr)
  if ch then s.modProf n fun p => { p with replan := true } else s

/-! Profile limits (R244, R261, Table STA.7). -/

/-- Profile word k of a slice in 2^−160: 0 VEL, 1 ACC, 2 DEC, 3 JERK, 4 HVFAST, 5 HVSLOW, 6 HACC. -/
def State.prWord (s : State) (n : Slice) (k : Nat) : Int := scalarU (s.getS (R.SLC_PRPAR_MANT n k)) (s.getS (R.SLC_PRPAR_EXP n k))

/-- A limit under throttle enforcement (Table STA.7): VSCALE is Q1.16. -/
def State.throttled (s : State) (n : Slice) (x : Int) : Nat := (x * min 65536 (s.get (R.THM_SLC_VSCALE n)) / 65536).toNat

/-- The limits of a point-to-point motion; a negative JERK is taken by magnitude (log entry 23). -/
def State.limits (s : State) (n : Slice) : Limits :=
  ⟨s.throttled n (s.prWord n 0), s.throttled n (s.prWord n 1), s.throttled n (s.prWord n 2), (s.prWord n 3).natAbs⟩

/-- The limits of homing (R282): HVFAST or HVSLOW, HACC and HACC. -/
def State.homeLimits (s : State) (n : Slice) (slow : Bool) : Limits :=
  let a := s.throttled n (s.prWord n 6)
  ⟨s.throttled n (s.prWord n (if slow then 5 else 4)), a, a, (s.prWord n 3).natAbs⟩

/-- Whether VEL, ACC or DEC is zero or negative (Table MOT.1). -/
def State.paramBad (s : State) (n : Slice) : Bool := s.prWord n 0 ≤ 0 || s.prWord n 1 ≤ 0 || s.prWord n 2 ≤ 0

/-- Whether limits can be planned with. -/
def Limits.ok (L : Limits) : Bool := 0 < L.vel && 0 < L.acc && 0 < L.dec

/-! Results (R260, Table MOT.1). -/

/-- A refused command: its code, and the F0 notice MOTREF. -/
def State.refuseMove (s : State) (n : Slice) (code : Nat) : State := (s.set (R.SLC_PRSTAT_RES n) code).raiseAx 0x0A07 0 n code

/-- An accepted command: RES 0; INPOS clear (R263). -/
def State.acceptMove (s : State) (n : Slice) : State :=
  let s := s.set (R.SLC_PRSTAT_RES n) 0
  let s := s.set (R.SLC_PRSTAT_INPOS n) 0
  s.modProf n fun p => { p with done := false, inposRun := 0 }

/-- The checks that MOVE, MOVE_REL and JOG share: MODE, AXST, NOREF where it applies, BUSY, PARAM. -/
def State.moveCheck (s : State) (n : Slice) (noref : Bool) : Option Nat :=
  if s.axmode n != 2 && s.axmode n != 5 then some 1
  else if s.axst n != 2 then some 2
  else if noref && s.on (R.SLC_PRCFG_REQHOME n) && s.lost n then some 3
  else if s.prof[n].home.isSome then some 4
  else if s.paramBad n then some 5
  else none

/-- Whether a target is outside the travel range of a referenced axis (RANGE). -/
def State.outOfRange (s : State) (n : Slice) (t : Int) : Bool :=
  s.hl (R.SLC_SVTRAV2_TRAV_EN n) != 0 && !s.lost n &&
    (t < toS 64 (s.hl (R.SLC_SVTRAV0_POSMIN n)) || t > toS 64 (s.hl (R.SLC_SVTRAV1_POSMAX n)))

/-- A move to a target planned from the present state of motion (R262). -/
def State.startMove (s : State) (n : Slice) (t : Int) (probe : Bool) : State :=
  let s := s.set (R.SLC_PRSTAT_PSTATE n) 2
  s.modProf n fun p =>
    { p with target := t, plan := some (planMove (s.limits n) p.pcmd p.vel p.acc t), replan := false, armed := none, done := false,
             probe := probe, probeStop := false }

/-- MOVE or MOVE_REL taken (R261, R266): planned at once, or armed on a start line. -/
def State.moveTo (s : State) (n : Slice) (rel ssw : Bool) (ssel : Nat) (probe : Bool) : State :=
  let s := s.takeProfile n
  match s.moveCheck n (!rel) with
  | some c => s.refuseMove n c
  | none =>
    let x := s.getS (R.SLC_PRTGT_TGT n)
    let t := if rel then wrapPos (s.prof[n].target + x) else x
    if s.outOfRange n t then s.refuseMove n 6
    else
      let s := s.acceptMove n
      if ssw then
        (s.set (R.SLC_PRSTAT_PSTATE n) 1).modProf n fun p => { p with armed := some ⟨ssel, false, if rel then 2 else 1, t, probe⟩ }
      else s.startMove n t probe

/-- JOG taken (R261). -/
def State.jogTo (s : State) (n : Slice) (negative : Bool) : State :=
  let s := s.takeProfile n
  match s.moveCheck n false with
  | some c => s.refuseMove n c
  | none =>
    let s := s.acceptMove n
    let s := s.set (R.SLC_PRSTAT_PSTATE n) 3
    let L := s.limits n
    s.modProf n fun p =>
      { p with plan := some (planJog L p.pcmd p.vel p.acc (if negative then -(L.vel : Int) else L.vel)), replan := false, armed := none,
               probe := false, probeStop := false }

/-- MOVE (R261): the target is SLC_PRTGT. -/
def execMove (n : Slice) (ssw : Bool) (ssel : Fin 4) (probe : Bool) (s : State) : Out := .next (s.moveTo n false ssw ssel probe)

/-- MOVE_REL (R261): the target is the effective target plus SLC_PRTGT. -/
def execMoveRel (n : Slice) (ssw : Bool) (ssel : Fin 4) (probe : Bool) (s : State) : Out := .next (s.moveTo n true ssw ssel probe)

/-- JOG (R261). -/
def execJog (n : Slice) (negative : Bool) (s : State) : Out := .next (s.jogTo n negative)

/-! Homing (R282 to R284). -/

/-- The sign of HDIR. -/
def State.hdir (s : State) (n : Slice) : Int := if s.on (R.SLC_HMCFG_HDIR n) then -1 else 1

/-- The switch of methods 1 and 2: the limit switch of HDIR, or the home switch. -/
def State.homeSwitch (s : State) (n : Slice) (method : Nat) : Bool :=
  if method = 1 then (if s.on (R.SLC_HMCFG_HDIR n) then s.limN n else s.limP n)
  else s.switchActive (s.get (R.SLC_HMCFG_HSW_CH n)) (s.on (R.SLC_HMCFG_HSW_POL n))

/-- The field input that carries that switch. -/
def State.homeChannel (s : State) (n : Slice) (method : Nat) : Nat :=
  if method = 1 then
    (if s.on (R.SLC_HMCFG_HDIR n) then s.hl (R.SLC_SVTRAV2_LIMN_CH n) else s.hl (R.SLC_SVTRAV2_LIMP_CH n))
  else s.get (R.SLC_HMCFG_HSW_CH n)

/-- The plan of a homing phase from the present state of motion (Table MOT.6, R283). -/
def State.homePlan (s : State) (n : Slice) (h : HomeDyn) : Plan :=
  let p := s.prof[n]
  let run := fun (slow : Bool) (d : Int) =>
    let L := s.homeLimits n slow
    planJog L p.pcmd p.vel p.acc (d * L.vel)
  match h.phase with
  | 1 => run (h.method == 0 || h.method == 3) (s.hdir n)
  | 3 => run true (-(s.hdir n))
  | 4 => run true (-(s.hdir n))
  | 6 => planMove (s.homeLimits n false) p.pcmd p.vel p.acc 0
  | _ => planJog (s.homeLimits n false) p.pcmd p.vel p.acc 0

/-- A homing phase entered with its plan. -/
def State.homePhase (s : State) (n : Slice) (h : HomeDyn) (ph : Nat) : State :=
  let h := { h with phase := ph }
  let pl := s.homePlan n h
  s.modProf n fun p => { p with home := some h, plan := some pl, replan := false, target := if ph = 6 then 0 else p.target }

/-- Whether the feedback port of an axis has an index (INC and SINCOS, R217). -/
def State.hasIndex (s : State) (n : Slice) : Bool := let m := s.fbMode (s.loadSlice n); m == 1 || m == 2

/-- Whether a homing method lacks what it needs (NOFB). -/
def State.homeLacks (s : State) (n : Slice) (m : Nat) : Bool :=
  ((m == 0 || m == 2) && !s.hasIndex n)
    || (m == 1 && (if s.on (R.SLC_HMCFG_HDIR n) then s.hl (R.SLC_SVTRAV2_LIMN_EN n) == 0 else s.hl (R.SLC_SVTRAV2_LIMP_EN n) == 0))
    || (m == 2 && !s.on (R.SLC_HMCFG_HSW_EN n))

/-- The position an event of the homing sequencer records now: p, or the commanded microstep position without an encoder. -/
def State.homePos (s : State) (n : Slice) : Int := if s.openStep n then s.posCmd n else s.fb[s.loadSlice n].p

/-- HOME taken (R282): refused with its code, or the sequence of its method starts. -/
def State.homeTo (s : State) (n : Slice) : State :=
  let m := s.get (R.SLC_HMCFG_METHOD n)
  let code : Option Nat :=
    if s.axmode n != 2 && s.axmode n != 5 then some 1
    else if s.axst n != 2 then some 2
    else if s.get (R.SLC_PRSTAT_PSTATE n) != 0 then some 4
    else if s.prWord n 4 ≤ 0 || s.prWord n 5 ≤ 0 || s.prWord n 6 ≤ 0 || s.getS (R.SLC_HMDIST_HDIST n) ≤ 0 then some 5
    else if s.homeLacks n m then some 7
    else none
  match code with
  | some c => s.refuseMove n c
  | none =>
    let s := s.acceptMove n
    let s := s.set (R.SLC_PRSTAT_PSTATE n) 4
    let s := s.set (R.SLC_PRSTAT_HSTEP n) (m + 1)
    let s := if m = 1 then s.set (R.SLC_SVSTAT_HOMESUSP n) 1 else s
    let h : HomeDyn := ⟨m, 1, s.prof[n].pcmd, none, s.get (R.SLC_SVCTL_FESEL n), if m = 3 then some (s.ilimWords n) else none⟩
    match m with
    | 3 =>
      let w := s.get (R.SLC_HMCFG_HSI n) * 65536
      ((s.set (R.SLC_SVCTL_FESEL n) 1).setIlim n ((w, 0), (w, 0))).homePhase n h 1
    | 4 =>
      let pos := match s.sup[s.loadSlice n].cap with
        | some c => if s.openStep n then s.posCmd n else c.p
        | none => s.homePos n
      s.modProf n fun p => { p with home := some { h with pref := some pos } }
    | 0 => s.homePhase n h 1
    | _ => s.homePhase n h (if s.homeSwitch n m then 3 else 1)

/-- HOME (R282). -/
def execHome (n : Slice) (s : State) : Out := .next (s.homeTo n)

/-- HOME_ABORT taken (R282): the sequence ends without a reference; the axis stops at HACC (log entry 23). -/
def State.homeAbort (s : State) (n : Slice) : State :=
  if s.axmode n != 2 && s.axmode n != 5 then s.refuseMove n 1
  else if s.axst n != 2 then s.refuseMove n 2
  else
    let s := s.set (R.SLC_PRSTAT_RES n) 0
    if s.prof[n].home.isNone then s
    else
      let s := (s.set (R.SLC_PRSTAT_INPOS n) 0).endHoming n
      let pl := planJog (s.homeLimits n false) s.prof[n].pcmd s.prof[n].vel s.prof[n].acc 0
      s.modProf n fun p => { p with plan := some pl, done := false, inposRun := 0 }

/-- HOME_ABORT (R282). -/
def execHomeAbort (n : Slice) (s : State) : Out := .next (s.homeAbort n)

/-- HARDSTOP_REFERENCE (R282): |iq*| has stood at HSI for HST ms in METHOD 3. -/
def execHardstopReference (n : Slice) (s : State) : Out :=
  .next (match s.prof[n].home with
    | some h => if h.method == 3 && h.phase == 1 && h.pref.isNone then s.homeRef n (s.homePos n) else s
    | none => s)

/-- A field input of a homing switch has changed (R282): the switch turning inactive is the reference event of METHOD 1, recorded as a
latch records it, and lets METHOD 2 go on to its index. -/
def State.homeInput (s : State) (ch : Nat) (stamp : Stamp) : State :=
  s.each slices fun s n =>
    match s.prof[n].home with
    | none => s
    | some h =>
      if h.phase != 3 || h.pref.isSome || s.homeChannel n h.method != ch || s.homeSwitch n h.method then s
      else if h.method == 1 then s.homeRef n (if s.openStep n then s.posCmd n else s.posAt (s.loadSlice n) stamp)
      else if h.method == 2 then s.modProf n fun p => { p with home := some { h with phase := 4 } }
      else s

/-- One homing cycle before the reference event (Table MOT.6): the switches, and the search distance (HOMEFAIL). -/
def State.homeSearch (s : State) (n : Slice) (h : HomeDyn) : State :=
  let idle := s.prof[n].plan.isNone
  let sw := (h.method == 1 || h.method == 2) && s.homeSwitch n h.method
  let s :=
    if h.method == 1 || h.method == 2 then
      match h.phase with
      | 1 => if sw then s.homePhase n h 2 else s
      | 2 => if idle then s.homePhase n h 3 else s
      | 3 =>
        if sw then s
        else if h.method == 1 then s.homeRef n (s.homePos n)
        else s.modProf n fun p => { p with home := some { h with phase := 4 } }
      | _ => s
    else s
  let ref := match s.prof[n].home with | some h => h.pref.isSome | none => true
  if !ref && (s.prof[n].pcmd - h.start).natAbs ≥ (s.getS (R.SLC_HMDIST_HDIST n)).natAbs then
    (s.endHoming n).raiseAx 0x0A02 2 n
  else s

/-- Everything that counts in the position of a slice's port shifted by d (R283). -/
def FbDyn.shift (x : FbDyn) (d : Int) : FbDyn :=
  { x with c := wrapPos (x.c + d), p := wrapPos (x.p + d), lastP := wrapPos (x.lastP + d), prevPos := wrapPos (x.prevPos + d),
           ofs := wrapPos (x.ofs + d) }

/-- The supervisor's positions shifted by d (R283). -/
def SupDyn.shift (u : SupDyn) (d : Int) : SupDyn :=
  let c := fun (x : Capture) => { x with p := wrapPos (x.p + d) }
  { u with cap := u.cap.map c, paired := u.paired.map fun x => (c x.1, wrapPos (x.2 + d)), prevP := u.prevP.map fun x => wrapPos (x + d),
           ramp := u.ramp.map fun r => { r with pr := wrapPos (r.pr + d) } }

/-- A plan shifted by d. -/
def Plan.shift (p : Plan) (d : Int) : Plan := { p with p0 := p.p0 + ofQ24 d, goal := p.goal.map fun g => (wrapPos (g.1 + d), g.2) }

/-- The homing shift d (R283): position, captures, commands, ramp and effective target move together, so FE and v do not change; the
followers and time bases of the axis take the shift without a jump (log entry 23). -/
def State.homeShift (s : State) (n : Slice) (d : Int) : State :=
  let m := s.loadSlice n
  let s := s.modFb m fun x => x.shift d
  let s := s.setS (R.SLC_FBPOS_POS m) (s.getS (R.SLC_FBPOS_POS m) + d)
  let s := s.modSup m fun u => { u with cap := u.cap.map fun c => if m = n then c else { c with p := wrapPos (c.p + d) } }
  let s := s.modSup n fun u => { u.shift d with devLoad := wrapPos (u.devLoad + d) }
  let s := s.setS (R.SLC_SVCMD0_PCMD n) (s.getS (R.SLC_SVCMD0_PCMD n) + d)
  let step := s.axmode n == 5
  let s := s.modProf n fun p =>
    { p with pcmd := wrapPos (p.pcmd + d), target := wrapPos (p.target + d), plan := p.plan.map fun x => x.shift d,
             sofs := if step then p.sofs + d else p.sofs, home := p.home.map fun h => { h with start := h.start + d } }
  let s := s.each slices fun s f =>
    if s.axmode f == 4 && s.get (R.SLC_MODE_LEADER f) == n.val then
      s.modProf f fun p => { p with gear := { p.gear with last := wrapPos (p.gear.last + d) } }
    else s
  let s := s.set (R.SLC_PRSTAT_HOMED n) 1
  let s := s.set (R.SLC_PRSTAT_SLOST n) 0
  s.set (R.SLC_FBSTAT_POSLOST m) 0

/-- The homing sequencer at a servo boundary (R282 to R284). -/
def State.homeCycle (s : State) (n : Slice) : State :=
  match s.prof[n].home with
  | none => s
  | some h =>
    match h.pref with
    | some pref =>
      let s := s.homeShift n (wrapPos (s.getS (R.SLC_HMPOS_HPOS n) - pref))
      let h := { h with pref := none, start := s.prof[n].pcmd }
      match h.method with
      | 3 =>
        let s := s.homeRestore n h
        s.modProf n fun p =>
          { p with home := some { h with method := 4, phase := 5, savedIlim := none }, plan := none, vel := 0, acc := 0, target := p.pcmd }
      | 4 => s.modProf n fun p => { p with home := some { h with phase := 5 }, target := p.pcmd }
      | _ => s.homePhase n h 5
    | none =>
      if h.phase ≤ 4 then s.homeSearch n h
      else if s.prof[n].plan.isSome then s
      else if h.phase = 5 && s.on (R.SLC_HMCFG_HRET n) then s.homePhase n h 6
      else
        let s := s.endHoming n
        s.modProf n fun p => { p with target := p.pcmd, done := true }

/-! The point-to-point generator. -/

/-- The end of a plan at pcmd x: the motion is done, and a probe that was not met is missed (R285). -/
def State.planEnd (s : State) (n : Slice) (x : Int) : State :=
  let s := if s.prof[n].home.isSome then s else s.set (R.SLC_PRSTAT_PSTATE n) (if s.prof[n].armed.isSome then 1 else 0)
  let s := if s.prof[n].probe then (s.set (R.SLC_PRSTAT_PRBMISS n) 1).raiseAx 0x0A06 0 n else s
  s.modProf n fun p => { p with pcmd := x, target := x, vel := 0, acc := 0, plan := none, done := true, probe := false, probeStop := false }

/-- One servo cycle of the plan (R261, R482): pcmd at this boundary; the last cycle sets the target, DONE, and PRBMISS for a probe without
event (R285). -/
def State.planCycle (s : State) (n : Slice) : State :=
  match s.prof[n].plan with
  | none => s
  | some pl =>
    let k := pl.k + 1
    let r := pl.at k
    if pl.over_ k then
      s.planEnd n (match pl.goal with
        | some (t, _) => t
        | none => wrapPos r.1)
    else s.modProf n fun p => { p with pcmd := wrapPos r.1, vel := r.2.1, acc := r.2.2, plan := some { pl with k := k } }

/-- A plan formed anew from the present pcmd, velocity and acceleration (R262); after a probe's event it only stops where the stop point
cannot be reached (R285). -/
def State.replanNow (s : State) (n : Slice) : State :=
  if !s.prof[n].replan then s else
  let s := s.modProf n fun p => { p with replan := false }
  let p := s.prof[n]
  match p.plan, p.home with
  | none, _ => s
  | some _, some h => let pl := s.homePlan n h; s.modProf n fun p => { p with plan := some pl }
  | some pl, none =>
    let L := s.limits n
    if !L.ok then s else
    let new := match pl.goal with
      | some _ =>
        let short := (runPhases (toVel L p.vel p.acc 0) p.vel).1
        if p.probeStop && sgn p.vel * (ofQ24 (p.target - p.pcmd) - short) < 0 then planJog L p.pcmd p.vel p.acc 0
        else planMove L p.pcmd p.vel p.acc p.target
      | none => planJog L p.pcmd p.vel p.acc (sgn pl.cruise * L.vel)
    s.modProf n fun p => { p with plan := some new }

/-- An armed move whose line has fired starts at this servo boundary (R266). -/
def State.armedStart (s : State) (n : Slice) : State :=
  match s.prof[n].armed with
  | some a => if a.fired then s.startMove n a.val a.probe else s
  | none => s

/-! Start lines (R266). -/

/-- A start line fires: counted; everything armed on it starts at its first servo boundary from now. -/
def State.fireLine (s : State) (k : Nat) : State :=
  let s := s.bump (R.GRP_SS_FIRECNT k)
  let s := s.each slices fun s n =>
    s.modProf n fun p => { p with armed := p.armed.map fun a => if a.ssel = k then { a with fired := true } else a }
  s.each [0, 1, 2, 3, 4, 5, 6, 7] fun s g =>
    s.modGrp g fun x => { x with armed := x.armed.map fun a => if a.1 = k then (k, true) else a }

/-- The start lines whose source is a comparator (1) or a field input edge (2). -/
def State.fireSource (s : State) (src par : Nat) (falling : Bool) : State :=
  s.each [0, 1, 2, 3] fun s k =>
    if s.get (R.GRP_SS_SRC k) == src && s.get (R.GRP_SS_PAR k) == par && (src != 2 || s.on (R.GRP_SS_EDGE k) == falling) then s.fireLine k
    else s

/-- FIRE (R266). -/
def execFire (k : Fin 4) (s : State) : Out := .next (s.fireLine k)

/-! Gearing and cams (R273 to R276). -/

/-- Whether an address range lies in banks of PART code 5, the path and cam region (R76). -/
def State.inRegion (s : State) (codes : List Nat) (lo len : Nat) : Bool :=
  0x10000000 ≤ lo && lo + len ≤ 0x11800000 && 0 < len &&
    (upto ((lo + len - 1 - 0x10000000) / 0x80000 - (lo - 0x10000000) / 0x80000 + 1)).all fun i =>
      codes.contains (nthD s.arc.banks ((lo - 0x10000000) / 0x80000 + i) 0)

/-- A cam table's header (R274): number of points, cyclic, spacing. -/
def State.camN (s : State) (a : Nat) : Nat := s.rd a 2
def State.camCyclic (s : State) (a : Nat) : Bool := bit (s.rd a 4) 16 != 0
def State.camStep (s : State) (a : Nat) : Nat := s.rd (a + 4) 4

/-- Whether a table's header and extent are valid (R274, R276). -/
def State.camOk (s : State) (a : Nat) : Bool :=
  let n := s.camN a
  2 ≤ n && n ≤ 4096 && 1 ≤ s.camStep a && s.inRegion [5] a (16 + 8 * n)

/-- Point i of a table. -/
def State.camY (s : State) (a i : Nat) : Int := toS 64 (s.rd (a + 16 + 8 * i) 8)

/-- The value of a table at x in Q40.24 (R274), rounded to the nearest 2^−24 count, ties to even. -/
def State.cam (s : State) (a : Nat) (cubic : Bool) (x : Int) : Int :=
  let n := s.camN a
  let m : Int := s.camStep a * 2 ^ 24
  let p := (n - 1 : Nat) * m
  let lift := s.camY a (n - 1) - s.camY a 0
  let cyc := s.camCyclic a
  let turns := if cyc then x / p else 0
  let x := if cyc then x % p else clampI 0 p x
  let i := if x = p then n - 2 else (x / m).toNat
  let t := x - i * m
  let y0 := s.camY a i
  let y1 := s.camY a (i + 1)
  let base := turns * lift
  if !cubic then base + divEven (y0 * m + (y1 - y0) * t) m.toNat
  else
    let before : Int := if i = 0 then (if cyc then s.camY a (n - 2) - lift else 2 * y0 - y1) else s.camY a (i - 1)
    let after : Int := if i + 2 = n then (if cyc then s.camY a 1 + lift else 2 * y1 - y0) else s.camY a (i + 2)
    let d0 := y1 - before
    let d1 := after - y0
    let h00 := 2 * t * t * t - 3 * t * t * m + m * m * m
    let h10 := t * t * t - 2 * t * t * m + t * m * m
    let h01 := 3 * t * t * m - 2 * t * t * t
    let h11 := t * t * t - t * t * m
    base + divEven (2 * h00 * y0 + h10 * d0 + 2 * h01 * y1 + h11 * d1) (2 * m * m * m).toNat

/-- The leader's position as a follower reads it (Table STA.6): measured, or commanded (for VELOCITY as SLC_SVCMD0 stands, log entry 24). -/
def State.leaderPos (s : State) (l : Slice) (measured : Bool) : Int :=
  if measured then (match s.sup[s.loadSlice l].cap with | some c => c.p | none => s.getS (R.SLC_FBPOS_POS (s.loadSlice l)))
  else if s.axmode l == 1 then s.getS (R.SLC_SVCMD0_PCMD l)
  else s.posCmd l

/-- Whether a dependent axis takes its leader's measured position (Table STA.6): a CURRENT leader, or LSRC set and feedback there. -/
def State.leadMeasured (s : State) (n l : Slice) : Bool := s.axmode l == 0 || (s.on (R.SLC_MODE_LSRC n) && s.hasFb l)

/-- The follower's output for its cam input x (R273). -/
def State.gearOut (s : State) (n : Slice) (x : Int) : Int :=
  if s.on (R.SLC_PRCFG_CAMEN n) then
    let a := s.get (R.SLC_GRCAM_CAMADDR n)
    let c := s.on (R.SLC_PRCFG_CINTERP n)
    s.cam a c x - s.cam a c 0
  else x

/-- A follower engages (R105, R273, R276) at enable step 4: false when its cam table is invalid. -/
def State.gearEngage (s : State) (n : Slice) (pos : Int) : State × Bool :=
  let l := sliceOf (s.get (R.SLC_MODE_LEADER n))
  if s.on (R.SLC_PRCFG_CAMEN n) && !s.camOk (s.get (R.SLC_GRCAM_CAMADDR n)) then (s, false)
  else
    let meas := s.leadMeasured n l
    let g : GearDyn := ⟨true, 0, 0, pos, s.leaderPos l meas, meas⟩
    (s.modProf n fun p => { p with gear := g, pcmd := pos, target := pos, vel := 0, acc := 0, plan := none }, true)

/-- A cam swap (R275, R276): a valid next table takes over with F0 re-based; an invalid one is dropped with CAMERR. -/
def State.camSwap (s : State) (n : Slice) : State :=
  let nx := s.get (R.SLC_GRCAM_CAMNEXT n)
  let s := s.set (R.SLC_GRCAM_CAMNEXT n) 0
  if !s.camOk nx then (s.set (R.SLC_PRSTAT_CAMERR n) 1).raiseAx 0x0A04 1 n
  else
    let s := s.set (R.SLC_GRCAM_CAMADDR n) nx
    let x := s.prof[n].gear.x % 2 ^ 24
    let f0 := s.prof[n].pcmd - s.gearOut n x
    s.modProf n fun p => { p with gear := { p.gear with x := x, f0 := f0 } }

/-- One servo cycle of an engaged follower (R273 to R275). -/
def State.gearCycle (s : State) (n : Slice) : State :=
  let g := s.prof[n].gear
  if !g.engaged then s else
  let l := sliceOf (s.get (R.SLC_MODE_LEADER n))
  let src := s.leaderPos l g.measured
  let den : Int := max 1 (s.get (R.SLC_GRRAT_DEN n))
  let k := wrapPos (src - g.last) * s.getS (R.SLC_GRRAT_NUM n) + g.r
  let x := g.x + k / den
  let a := s.get (R.SLC_GRCAM_CAMADDR n)
  let camOn := s.on (R.SLC_PRCFG_CAMEN n)
  let per : Int := (s.camN a - 1 : Nat) * (s.camStep a * 2 ^ 24 : Nat)
  let crossed := !s.camCyclic a || (per != 0 && g.x / per != x / per)
  let y := wrapPos (g.f0 + s.gearOut n x)
  let s := s.modProf n fun p => { p with pcmd := y, gear := { g with x := x, r := k % den, last := src } }
  if camOn && s.get (R.SLC_GRCAM_CAMNEXT n) != 0 && crossed then s.camSwap n else s

/-! Stepping (R277, R278). -/

/-- The microstep index m of a STEP axis (R277). -/
def State.microstep (s : State) (n : Slice) : Nat := ((s.posCmd n - s.prof[n].sofs) / 2 ^ 24 % 1024).toNat

/-- Entry k of a step table (R277), 0 to 65535. -/
def State.stepTable (s : State) (t k : Nat) : Nat := s.rd (s.get R.GRP_STTAB_BASE + 512 * t + 2 * k) 2

/-- The winding references A and B (Table MOT.5) of microstep m by table t, in 1/65535 of the amplitude. -/
def State.windings (s : State) (t m : Nat) : Int × Int :=
  let k := m % 256
  let up : Int := s.stepTable t k
  let dn : Int := s.stepTable t (255 - k)
  match m / 256 with
  | 0 => (up, dn)
  | 1 => (dn, -up)
  | 2 => (-up, -dn)
  | _ => (-dn, up)

/-- The effective current ceiling in Q1.15 of full scale (Table STA.7). -/
def State.ceilQ15 (s : State) (n : Slice) : Nat := s.ceilOf n * 4 * 32768 / (65536 * 100 * s.fullScale n)

/-- The stepping outputs at a servo boundary (R277, R278): m, and the amplitude in effect: IHOLD from the boundary after HOLDDLY, IRUN in the
first cycle in which the position changes; both within the ceiling (Table STA.7). -/
def State.stepCycle (s : State) (n : Slice) (was : Int) : State :=
  let moved := s.posCmd n != was
  let hold := s.prof[n].holdDue && !moved
  let i := s.get (if hold then R.SLC_STCFG_IHOLD n else R.SLC_STCFG_IRUN n)
  let m := s.microstep n
  s.modProf n fun p => { p with moved := moved, holdDue := hold, m := m, amp := min i (s.ceilQ15 n) }

/-- STEP_HOLD_CURRENT (R278): the commanded position has stood still for HOLDDLY; IHOLD follows at the next servo boundary. -/
def execStepHoldCurrent (n : Slice) (s : State) : Out :=
  .next (if s.axmode n == 5 && s.axOn n && !s.prof[n].moved then s.modProf n fun p => { p with holdDue := true } else s)

end Sys2Proof.Machine
end

