-- ==== Sys2Proof/Machine/Fio.lean ====
section
/-!
DEFINITION. Machine/Fio.lean: the field channels: inputs and their events, what each output pin does, latches, supplies and the field
watchdog (R392 to R407).
-/

namespace Sys2Proof.Machine

def State.modFio (s : State) (f : FioDyn → FioDyn) : State := { s with fio := f s.fio }

/-- A fault record of the field die: while the field link is down the die queues up to 16, marked LATE; a 17th overwrites the oldest queued
F0 or F1 record, if there is one (R455). -/
def State.raiseField (s : State) (r : FaultRec) : State :=
  if s.arc.linkF.up then s.raise r
  else
    let r := { r with late := true }
    let q := s.faults.fieldQueue
    let q' :=
      if q.length < 16 then q ++ [r]
      else match q.findIdx? fun x => x.sev ≤ 1 with
        | some i => q.eraseIdx i ++ [r]
        | none => q
    { s with faults := { s.faults with fieldQueue := q' } }

/-- A field fault of module scope with its channel or supply as detail. -/
def State.raiseFieldMod (s : State) (code sev detail : Nat) : State :=
  s.raiseField { code := code, sev := sev, skind := 0, sindex := 0, detail := detail }

/-! Channels (R392, R397). -/

/-- The channel whose configuration a channel takes: the lead of its quad or pair, else itself. -/
def State.leadOf (s : State) (k : Nat) : Nat :=
  if k < 16 && s.get (R.FIO_CFG_FUNC (k / 4 * 4)) == 2 && s.get (R.FIO_CFG_GRP (k / 4 * 4)) == 2 then k / 4 * 4
  else if k < 16 && s.get (R.FIO_CFG_FUNC (k / 2 * 2)) == 2 && s.get (R.FIO_CFG_GRP (k / 2 * 2)) == 1 then k / 2 * 2
  else k

/-- The members of a channel's logical output. -/
def State.membersOf (s : State) (k : Nat) : List Nat := (upto 24).filter fun m => s.leadOf m == s.leadOf k

/-- Whether a channel is an output. -/
def State.isOut (s : State) (k : Nat) : Bool := s.get (R.FIO_CFG_FUNC (s.leadOf k)) == 2

/-- Whether the field supply of a channel is cut off (R404). -/
def State.cutOff (s : State) (k : Nat) : Bool := if k < 12 then s.on R.FIO_SUP_CUTOFF_A else s.on R.FIO_SUP_CUTOFF_B

/-- The slice of a BRAKE output whose axis is ENABLED or STOPPING, if the channel is one (R398). -/
def State.brakeAxis (s : State) (k : Nat) : Option Slice :=
  let c := s.leadOf k
  let n := sliceOf (s.get (R.FIO_CFG_PAR c))
  if s.isOut k && s.get (R.FIO_CFG_SRC c) == 1 && (s.axst n == 2 || s.axst n == 3) then some n else none

/-- Whether a switchover gap runs whose BRAKE rule names a slice's axis (R432). -/
def State.gapAxis (s : State) (n : Slice) : Bool := match s.fio.gap with | some l => bit l n.val == 1 | none => false

/-- A BRAKE output energised (R398): its axis ENABLED or STOPPING, or DISBRK after a DISABLE; in a switchover gap, for an axis that was
ENABLED or STOPPING at its start, by GAP (R432). -/
def State.brakeOn (s : State) (c : Nat) : Bool :=
  let n := sliceOf (s.get (R.FIO_CFG_PAR c))
  if s.gapAxis n then s.on (R.FIO_CFG_GAP c)
  else s.axst n == 2 || s.axst n == 3 || (s.on (R.FIO_CFG_DISBRK c) && s.ax[n].brakeHold)

/-- What an output pin does: Table PIN.10, off, low, high, high impedance, or a PWM of period and high time in 20 ns units. -/
inductive Pin where
  | atRest | off | low | high | highZ
  | pwm (per duty : Nat)
deriving DecidableEq, Repr

/-- A level as the pin of a channel shows it: class S drives only high (R397). -/
def levelPin (k : Nat) (b : Bool) : Pin := if b then .high else if k < 16 then .low else .off

/-- The source level of a channel (R397). -/
def State.sourcePin (s : State) (k : Nat) : Pin :=
  let c := s.leadOf k
  match s.get (R.FIO_CFG_SRC c) with
  | 0 => levelPin k (s.bitOf R.FIO_OUT_OUT c)
  | 1 => levelPin k (s.brakeOn c)
  | 2 => .pwm (s.get (R.FIO_PWM_PER c)) (s.get (R.FIO_PWM_DUTY c))
  | _ => levelPin k (bit s.fio.pulse c == 1)

/-- Row 4 of Table FIO.4 holds: the watchdog has expired, or the device is in SHADOW, HALT or a new INTAKE. -/
def State.fioSafe (s : State) : Bool :=
  s.on R.FIO_SUP_WDEXP || s.dev == 3 || s.dev == 5 || s.dev == 0 || s.pw.sleep == 1 || s.pw.entry == 1

/-- What the pin of an output channel does (Table FIO.4, Table FIO.5). -/
def State.fioPin (s : State) (k : Nat) : Pin :=
  let c := s.leadOf k
  let brake := s.get (R.FIO_CFG_SRC c) == 1
  if s.leaving || !s.domOn 5 || bit s.fio.groups (k / 4) == 0 || 2 ≤ s.pw.entry || 2 ≤ s.pw.sleep then .atRest
  else if brake && s.gapAxis (sliceOf (s.get (R.FIO_CFG_PAR c))) then levelPin k (s.brakeOn c)
  else if s.on (R.FIO_CHST_LATCHED k) then .off
  else if s.cutOff k || bit s.fio.waiting (k / 4) == 1 then .off
  else if s.fioSafe then
    if brake then .off
    else match s.get (R.FIO_CFG_SAFE c) with
      | 1 => levelPin k false
      | 2 => .high
      | 3 => (match s.fio.safe with | some l => levelPin k (bit l k == 1) | none => s.sourcePin k)
      | 4 => .highZ
      | _ => .off
  else s.sourcePin k

/-- Whether a channel is commanded high; a PWM output's level inside its period is a free value. -/
def State.pinHigh (s : State) (k : Nat) : Bool :=
  match s.fioPin k with
  | .high => true
  | .pwm _ d => d != 0 && (Config.freeValue (s.draws + k)).toNat % 2 == 1
  | _ => false

/-- The levels that SAFE HOLD keeps, taken as row 4 of Table FIO.4 begins; called before the condition changes. -/
def State.holdLevels (s : State) : State :=
  if s.fioSafe then s
  else
    let l := (upto 24).foldl (fun m k => if s.isOut k && s.pinHigh k then m + 2 ^ k else m) 0
    { s with draws := s.draws + 24 }.modFio fun x => { x with safe := some l }

/-! Inputs (R394 to R396). -/

/-- FIO_INPUT_EVENT (R394, R396): a change of the filtered level, `stamp` the pin crossing (2^−16 ns). On the edge that EVEDGE selects it is
an input event for the graph, latches, start lines, homing and triggers. An invalid input keeps its level. On an output channel the
level is its readback. -/
def execFioInputEvent (k : Fin 24) (level : Bool) (stamp : Stamp) (s : State) : Out :=
  if !s.domOn 5 || (s.cutOff k && !s.isOut k) then .next s else
  let s := s.putBit R.FIO_IN_LEVEL k level
  let ev := s.get (R.FIO_CFG_EVEDGE k)
  if s.get (R.FIO_CFG_FUNC k) ≠ 1 || !(ev == 2 || (ev == 0 && level) || (ev == 1 && !level)) then .next s
  else
    let q := (nthD s.fio.seq k 0 + 1) % 2 ^ 16
    let s := s.modFio fun x => { x with seq := setNth x.seq k q }
    let s := s.arrive 7 k [compactOf (stamp * 65536), b2n level + s.get R.FIO_IN_INVALID / 2 ^ k.val % 2 * 2 + q * 2 ^ 16]
    let s := (s.latchEvent 2 k (!level) stamp).fireSource 2 k (!level)
    .next ((s.homeInput k stamp).extEvent (k.val + if level then 0 else 64) stamp)

/-- FIO_OPEN_WIRE (R395): with OWEN, 100 ms below the open-wire threshold: OPEN, F0. -/
def execFioOpenWire (k : Fin 24) (s : State) : Out :=
  if !s.domOn 5 || s.get (R.FIO_CFG_FUNC k) ≠ 1 || !s.on (R.FIO_CFG_OWEN k) || s.on (R.FIO_CHST_OPEN k) then .next s
  else .next ((s.set (R.FIO_CHST_OPEN k) 1).raiseFieldMod 0x0F0A 0 k)

/-- FIO_OPEN_WIRE_CLEAR (R395): the first current above the threshold. -/
def execFioOpenWireClear (k : Fin 24) (s : State) : Out := .next (s.set (R.FIO_CHST_OPEN k) 0)

/-! Outputs (R397, R400 to R403, R406). -/

/-- CAUSE of a latch, and its fault code. -/
def latchCause : ChannelFault → Nat × Nat
  | .short => (1, 0x0F02)
  | .overload => (2, 0x0F03)
  | .wired => (3, 0x0F04)
  | .mismatch => (4, 0x0F05)
  | .overtemp => (5, 0x0F06)
  | .stuck => (6, 0x0F07)

/-- A fault of a channel (Table FIO.6): F3 on the axis of a BRAKE output that is ENABLED or STOPPING, else F1 of module scope. -/
def State.raiseChannel (s : State) (k code detail : Nat) : State :=
  match s.brakeAxis k with
  | some n => s.raiseField { code := code, sev := 3, skind := 1, sindex := n.val, origin := n.val, detail := detail }
  | none => s.raiseFieldMod code 1 detail

/-- Whether a channel has run without a latch for 1 s, or never latched (R402). -/
def State.ranClean (s : State) (k : Nat) : Bool :=
  match nthD s.fio.freeAt k none with
  | none => true
  | some t => t + secUnit ≤ s.clock.up

/-- A channel latched off with every member of its pair or quad (R401, R403); the fault at the first latch after 1 s without one (R402). -/
def State.latchOff (s : State) (k : Nat) (cause : ChannelFault) : State :=
  let c := latchCause cause
  let report := s.ranClean k
  let s := s.each (s.membersOf k) fun s m =>
    (((s.set (R.FIO_CHST_LATCHED m) 1).set (R.FIO_CHST_CAUSE m) c.1).bump (R.FIO_CHST_LATCNT m)).modFio fun x =>
      { x with freeAt := setNth x.freeAt m (some s.clock.up) }
  if report then s.raiseChannel k c.2 k else s

/-- FIO_CHANNEL_LATCH (R401): an output has mismatched or limited for its time, or overheats. -/
def execFioChannelLatch (k : Fin 24) (cause : ChannelFault) (s : State) : Out :=
  if !s.domOn 5 || !s.isOut k || bit s.fio.groups (k.val / 4) == 0 || s.on (R.FIO_CHST_LATCHED k) then .next s
  else .next (s.latchOff k cause)

/-- A latch ended on every member (R402). -/
def State.unlatch (s : State) (k : Nat) : State :=
  s.each (s.membersOf k) fun s m =>
    ((s.set (R.FIO_CHST_LATCHED m) 0).set (R.FIO_CHST_CAUSE m) 0).modFio fun x => { x with freeAt := setNth x.freeAt m (some s.clock.up) }

/-- FIO_RETRY (R402): RETRY has passed after a SHORT, OVERLOAD or OVERTEMP latch. -/
def execFioRetry (k : Fin 24) (s : State) : Out :=
  let c := s.get (R.FIO_CHST_CAUSE k)
  if s.on (R.FIO_CHST_LATCHED k) && (c == 1 || c == 2 || c == 5) then .next (s.unlatch k) else .next s

/-- CLR of FIO_CMD (R402). -/
def State.clearChannels (s : State) (mask : Nat) : State :=
  s.each (upto 24) fun s k => if bit mask k == 1 && s.on (R.FIO_CHST_LATCHED k) then s.unlatch k else s

def execFioClr (mask : Nat) (s : State) : Out := .next (if s.domOn 5 then s.clearChannels mask else s)

/-- OFF_PULSE_TEST (R403): a class S output commanded high is pulsed off; a readback still high latches STUCK. -/
def execOffPulseTest (k : Fin 24) (readHigh : Bool) (s : State) : Out :=
  if k.val < 16 || s.fioPin k ≠ .high || !readHigh then .next s else .next (s.latchOff k .stuck)

/-- FIO_PWM_PERIOD (R397): a channel's period boundary; new PER and DUTY take effect. -/
def execFioPwmPeriod (k : Fin 16) (s : State) : Out :=
  let l := s.stagedFor .pwmPeriod k
  .next ((s.unstage .pwmPeriod k).applyStaged l)

/-- A firing of comparator k as the CMP outputs see it (R397): a pulse of DUTY starts or starts anew. -/
def State.fioFire (s : State) (k : Nat) : State :=
  let l := (upto 24).filter fun c => s.get (R.FIO_CFG_FUNC c) == 2 && s.get (R.FIO_CFG_SRC c) == 3 && s.get (R.FIO_CFG_PAR c) == k
  let dur := fun c => if c < 16 then s.get (R.FIO_PWM_DUTY c) else 1
  s.modFio fun x => { x with pulse := l.foldl (fun m c => if dur c = 0 then m else setBit m c) x.pulse }

/-- FIO_CMP_PULSE_END (R397). -/
def execFioCmpPulseEnd (k : Fin 24) (s : State) : Out := .next (s.modFio fun x => { x with pulse := clrBit x.pulse k })

/-- A group of four outputs enabled (R58, R399); the watchdog starts (R405). -/
def State.enableGroup (s : State) (g : Nat) : State :=
  s.modFio fun x => { x with groups := setBit x.groups g, wdRun := true, wdFed := true }

/-! Field supplies (R404). -/

/-- The fields of a supply: SUPWARN, CUTOFF, and its bit in PWR_STAT. -/
def supFields (sup : Nat) : Fld × Fld × Fld :=
  if sup = 0 then (R.FIO_SUP_SUPWARN_A, R.FIO_SUP_CUTOFF_A, R.PWR_STAT_VFA_OK)
  else (R.FIO_SUP_SUPWARN_B, R.FIO_SUP_CUTOFF_B, R.PWR_STAT_VFB_OK)

/-- The channels and the groups of a supply. -/
def supChannels (sup : Nat) : List Nat := (upto 12).map (· + 12 * sup)

/-- The mask of INVALID bits of a supply's input channels (R396). -/
def State.invalidMask (s : State) (sup : Nat) : Nat :=
  (supChannels sup).foldl (fun m k => if s.get (R.FIO_CFG_FUNC k) = 1 then m + 2 ^ k else m) 0

/-- INVALID as the cut-offs give it. -/
def State.updateInvalid (s : State) : State :=
  s.set R.FIO_IN_INVALID
    ((if s.on R.FIO_SUP_CUTOFF_A then s.invalidMask 0 else 0) + (if s.on R.FIO_SUP_CUTOFF_B then s.invalidMask 1 else 0))

/-- FIELD_SUPPLY_WARNING (R404). -/
def execFieldSupplyWarning (sup : Fin 2) (s : State) : Out :=
  let f := (supFields sup).1
  if !s.domOn 5 || s.on f then .next s else .next ((s.set f 1).raiseFieldMod 0x0F09 1 sup)

/-- FIELD_SUPPLY_WARNING_CLEAR (R404). -/
def execFieldSupplyWarningClear (sup : Fin 2) (s : State) : Out := .next (s.set (supFields sup).1 0)

/-- FIELD_SUPPLY_CUTOFF (R404, R406): outputs OFF, inputs INVALID; F3 on the axis of each BRAKE output in use, F1 of module scope. -/
def execFieldSupplyCutoff (sup : Fin 2) (s : State) : Out :=
  let f := supFields sup
  if !s.domOn 5 || s.on f.2.1 then .next s else
  let axes := (supChannels sup).filterMap fun k => if s.leadOf k = k then s.brakeAxis k else none
  let s := ((s.set f.2.1 1).set f.2.2 0).bump R.FIO_SUP_CUTCNT
  let s := s.each axes fun s n => s.raiseField { code := 0x0F08, sev := 3, skind := 1, sindex := n.val, origin := n.val, detail := sup.val }
  .next ((s.raiseFieldMod 0x0F08 1 sup).updateInvalid)

/-- FIELD_SUPPLY_RECOVERY (R404): 10 ms above the cut-off rising level; inputs valid, the outputs return in groups (FIELD_GROUP_ENABLE). -/
def execFieldSupplyRecovery (sup : Fin 2) (s : State) : Out :=
  let f := supFields sup
  if !s.domOn 5 || !s.on f.2.1 then .next s else
  let s := (s.set f.2.1 0).set f.2.2 1
  let mine := [0, 1, 2].map (· + 3 * sup.val)
  .next ((s.modFio fun x => { x with waiting := mine.foldl (fun m g => if bit x.groups g = 1 then setBit m g else m) x.waiting }).updateInvalid)

/-! The field watchdog (R405). -/

/-- The watchdog restarted. -/
def State.feedWatchdog (s : State) : State := s.modFio fun x => { x with wdFed := true }

/-- A write of KICK: 0x5A restarts the watchdog when WDSRC is 0. -/
def State.kick (s : State) (v : Nat) : State := if v % 256 = 0x5A && !s.on R.FIO_WD_WDSRC then s.feedWatchdog else s

def execWdkick (value : Nat) (s : State) : Out := .next (if s.domOn 5 then s.kick value else s)

/-- WDCLR of FIO_CMD: WDEXP clears while the watchdog is being restarted. -/
def State.clearWatchdog (s : State) : State :=
  if s.fio.wdFed && s.on R.FIO_SUP_WDEXP then
    let s := s.set R.FIO_SUP_WDEXP 0
    if s.fioSafe then s else s.modFio fun x => { x with safe := none }
  else s

def execWdclr (s : State) : Out := .next (if s.domOn 5 then s.clearWatchdog else s)

/-- FIELD_WATCHDOG_EXPIRY (R405): WDT has passed without a restart: outputs in SAFE, F4 of module scope. -/
def execFieldWatchdogExpiry (s : State) : Out :=
  if !s.domOn 5 || !s.fio.wdRun then .next s else
  let s := s.modFio fun x => { x with wdFed := false }
  if s.on R.FIO_SUP_WDEXP then .next s
  else .next (((s.holdLevels.set R.FIO_SUP_WDEXP 1).bump R.FIO_SUP_WDCNT).raiseFieldMod 0x0F01 4 0)

end Sys2Proof.Machine
end

