-- ==== Sys2Proof/Machine/Compare.lean ====
section
/-!
DEFINITION. Machine/Compare.lean: the sixteen time comparators with their consumers, and what a step of the clock does (R331, R338 to
R340, R361).
-/

namespace Sys2Proof.Machine

/-- The next firing time of a comparator, 2^−32 ns. -/
def State.cmpTime (s : State) (k : Nat) : Nat :=
  s.get (R.PTP_CMP1_SEC k) * secUnit + s.get (R.PTP_CMP0_NS k) * nsUnit + s.get (R.PTP_CMP0_SUBNS k) * 2 ^ 16

/-- The next firing time written. -/
def State.setCmpTime (s : State) (k t : Nat) : State :=
  let s := s.set (R.PTP_CMP1_SEC k) (t / secUnit)
  let s := s.set (R.PTP_CMP0_NS k) (t / nsUnit % 1000000000)
  s.set (R.PTP_CMP0_SUBNS k) (t % nsUnit / 2 ^ 16)

/-- Whether a one-shot comparator is done with its point. -/
def State.cmpSpent (s : State) (k : Nat) : Bool := nthD s.time.spent k false

def State.setSpent (s : State) (k : Nat) (b : Bool) : State := s.modTime fun t => { t with spent := setNth t.spent k b }

/-- The cyclic reports that a firing starts (R361): a new configuration takes the old one's place, K words are read, and the frame is put
on the launch queue for the firing time plus OFFSET. -/
def State.reportsAt (s : State) (k t : Nat) : State :=
  s.each [1, 2, 3, 4] fun s i =>
    match s.host.sessions[i]? with
    | none => s
    | some x =>
      let touches := fun r : Option ReportCfg => match r with | some c => c.cmp == k | none => false
      let swap := x.nextReport.isSome && (x.report.isNone || touches x.report || touches x.nextReport)
      let x := if swap then { x with report := x.nextReport, nextReport := none } else x
      let s := { s with host := { s.host with sessions := setNth s.host.sessions i x } }
      match x.report with
      | none => s
      | some c =>
        if c.cmp != k then s
        else if c.addrs.isEmpty then
          { s with host := { s.host with sessions := setNth s.host.sessions i { x with report := none } } }
        else
          let words := c.addrs.map s.wordAt
          let s := s.each c.addrs fun s a => s.afterRead a 8
          let m := OwnMsg.report i x.reports (compactOf t) words
          let s := { s with host := { s.host with sessions := setNth s.host.sessions i { x with reports := (x.reports + 1) % 2 ^ 32 } } }
          s.offerLaunch (portOf (s.outPort x.port)) ⟨t + c.offset * nsUnit, m, true, false⟩

/-- A firing (R338 to R340): FIRED and FIRECNT, then every consumer that names the comparator; a periodic one advances by PER. -/
def State.fireCmp (s : State) (k : Nat) (late : Bool) : State :=
  let t := s.cmpTime k
  let s := (s.set (R.PTP_CMP3_FIRED k) 1).bump (R.PTP_CMP3_FIRECNT k)
  let s := if late then s.set (R.PTP_CMP3_LATE k) 1 else s
  let s := s.arrive 1 k [ofLe ((packedTime t).take 8), ofLe ((packedTime t).drop 8)]
  let s := (s.latchEvent 3 k false (t / 65536)).fireSource 1 k false
  let s := if s.on R.PTP_SOUT_EN && s.get R.PTP_SOUT_CMP == k then s.modTime fun x => { x with soutOn := true } else s
  let n := s.get (R.PTP_CMP3_BURSTN k)
  let mask := s.get (R.PTP_CMP3_BMASK k)
  let s := if n = 0 then s
    else s.modTime fun x => { x with burst := (upto 16).map fun i => if bit mask i = 1 then n else nthD x.burst i 0 }
  let s := ((s.fioFire k).canFire k (t / nsUnit % 1000000000)).extEvent (32 + k) (t / 65536)
  let s := s.reportsAt k t
  if s.cmpPer k = 0 then s.setSpent k true else s.setCmpTime k (t + s.cmpPer k)

/-- COMPARATOR_FIRE (R338): the local clock reaches the comparator's time. -/
def execComparatorFire (k : Fin 16) (s : State) : Out :=
  if !s.clock.running || !s.on (R.PTP_CMP3_EN k) || s.cmpSpent k then .next s
  else .next ((s.clockTo (s.cmpTime k)).fireCmp k false)

/-- The first of a periodic comparator's points at or after a time. -/
def pointFrom (t per now : Nat) : Nat := if per = 0 ∨ now ≤ t then t else t + (now - t + per - 1) / per * per

/-- EN set (R338): the first point at or after now; a passed one is skipped without LATE. -/
def State.cmpEnable (s : State) (k : Nat) : State :=
  let t := s.cmpTime k
  let per := s.cmpPer k
  if per = 0 then s.setSpent k (t < s.clock.now)
  else (s.setCmpTime k (pointFrom t per s.clock.now)).setSpent k false

/-- EN written (R338). -/
def State.cmpWriteEn (s : State) (k : Nat) (v : Bool) : State :=
  let was := s.on (R.PTP_CMP3_EN k)
  let s := s.setB (R.PTP_CMP3_EN k) v
  if v && !was then (if s.clock.running then s.cmpEnable k else s) else if v then s else s.setSpent k false

/-- The comparators as the clock starts: those enabled take their first point from now. -/
def State.cmpStart (s : State) : State := s.each (upto 16) fun s k => if s.on (R.PTP_CMP3_EN k) then s.cmpEnable k else s

/-- A step of the clock to a time (R331): counted; periodic comparators re-based to their first point strictly after the new time; a one-shot
one that a forward step passes fires once, with LATE. -/
def State.stepClock (s : State) (t : Nat) : State :=
  let old := s.clock.now
  let t := t % clockWrap
  let s := { s with clock := { s.clock with now := t } }
  let s := (s.bump R.PTP_CNT_STEPCNT).set R.PTP_STAT_TIMESET 1
  s.each (upto 16) fun s k =>
    if !s.on (R.PTP_CMP3_EN k) then s
    else
      let c := s.cmpTime k
      let per := s.cmpPer k
      if per ≠ 0 then
        let base := if t < c then c - (c - t - 1) / per * per else c + ((t - c) / per + 1) * per
        s.setCmpTime k base
      else if !s.cmpSpent k && old < c && c ≤ t then s.fireCmp k true
      else s

/-- A step by a signed amount in 2^−32 ns. -/
def State.stepBy (s : State) (d : Int) : State := s.stepClock ((s.clock.now : Int) + d).toNat

/-- SYNC_OUT_PULSE_END (R340): WIDTH has passed since the last firing. -/
def execSyncOutPulseEnd (s : State) : Out := .next (s.modTime fun x => { x with soutOn := false })

/-- The level of SYNC_OUT (R340). -/
def State.syncOut (s : State) : Bool := (s.on R.PTP_SOUT_EN && s.time.soutOn) != s.on R.PTP_SOUT_POL

/-- BURST_SAMPLE_SET (R339): one set of a burst on slice n, for the acquisition engine only. -/
def execBurstSampleSet (n : Slice) (conv : Tri Int) (s : State) : Out :=
  let left := nthD s.time.burst n 0
  if left = 0 || !s.ax[n].started then .next s
  else
    let d : Tri Int := ⟨lsbQ31 (s.signedLsb n 0 conv.u), lsbQ31 (s.signedLsb n 1 conv.v), lsbQ31 (s.signedLsb n 2 conv.w)⟩
    let s := s.modTime fun x => { x with burst := setNth x.burst n (left - 1) }
    .next (s.modAcq fun a => { a with burst := setNth a.burst n d })

end Sys2Proof.Machine
end

