-- ==== Sys2Proof/Machine/SchedRun.lean ====
section
/-!
DEFINITION. Machine/SchedRun.lean: the start and the stop of the scheduler (R158).
-/

namespace Sys2Proof.Machine

def State.modSched (s : State) (f : SchedDyn → SchedDyn) : State := { s with sched := f s.sched }

/-- Whether a core's domain is on: LCA for LC0 to LC3, LCB for LC4 to LC7. -/
def State.coreOn (s : State) (k : Nat) : Bool := if k < 4 then s.domOn 1 else s.domOn 2

/-- LCn_STAT.STATE follows the domains: 3 while a core's domain is off, idle once it is on. -/
def State.coreLevels (s : State) : State :=
  s.each (upto 8) fun s k =>
    if !s.coreOn k then s.set (R.LC_STAT_STATE k) 3
    else if s.get (R.LC_STAT_STATE k) = 3 then s.set (R.LC_STAT_STATE k) 0
    else s

/-- Cores that are idle, as the scheduler sees them when it starts. -/
def State.idleCores (s : State) : Nat :=
  (upto 8).foldl (fun m k => if s.coreOn k && s.get (R.LC_STAT_STATE k) == 0 then m + 2 ^ k else m) 0

/-- The scheduler started with empty queues, lists and slots and every divider count at zero (R158). -/
def State.schedStart (s : State) : State :=
  let s := (s.set R.SCH_STAT_STATE 1).set R.SCH_STAT_IDLE s.idleCores
  s.modSched fun c => { SchedDyn.reset with busy := c.busy, notes := c.notes }

/-- The scheduler stopped (R158): queued and delayed pips and pending tokens discarded; running pips may finish. -/
def State.schedStop (s : State) : State :=
  (s.set R.SCH_STAT_STATE 0).modSched fun c =>
    { c with arrived := [], edges := [], queue := [], delayed := [], opened := false,
             deadlines := c.deadlines.filter fun d => c.busy.any fun b => b.pip == d.pip }

/-- Word 0 of a group entry (Table SCH.6). -/
def State.groupWord (s : State) (g : Nat) : Nat := s.rd (0x660400 + g % 32 * 32) 8

/-- Whether a latched F4 or F5 is in effect on a group (R156). -/
def State.groupDown (s : State) (g : Nat) : Bool :=
  s.faults.latched.any fun l => 4 ≤ l.sev &&
    (l.skind == 0 || (l.skind == 4 && l.sindex == g) ||
      slices.any fun n => bit (s.graphAxes g) n.val == 1 && s.covers l.skind l.sindex n)

end Sys2Proof.Machine
end

