-- ==== Sys2Proof/Machine/Lease.lean ====
section
/-!
DEFINITION. Machine/Lease.lean: token, lease and switchover gap of a twin member (R425 to R434).
-/

namespace Sys2Proof.Machine

def State.modTwin (s : State) (f : TwinDyn → TwinDyn) : State := { s with twin := f s.twin }

/-- No frame has come for one lease (R424, R428). -/
def State.noFrame (s : State) : Bool :=
  match s.twin.lastFrame with | none => true | some t => t + s.leaseTime ≤ s.clock.up

/-- HOLD_OUT asserted or released, as SYS_STATE.TOKEN shows it. -/
def State.setToken (s : State) (b : Bool) : State := (s.setB R.TWN_STAT_HOLD_OUT b).withState fun s => s.setB R.SYS_STATE_TOKEN b

/-- The slices whose axes are ENABLED or STOPPING. -/
def State.torqueMask (s : State) : Nat :=
  slices.foldl (fun m n => if s.axst (s.lead n) == 2 || s.axst (s.lead n) == 3 then setBit m n else m) 0

/-- A switchover gap begun (R432); `seen`: this member has recognised the partner's release, so TWN_GAP measures from here. -/
def State.gapBegin (s : State) (seen : Bool) : State :=
  let m := s.torqueMask
  let s := (s.set R.TWN_STAT_GAP 1).modFio fun x => { x with gap := some m }
  if seen then s.modTwin fun t => { t with gapStart := some s.clock.up } else s

/-- The gap's rule for BRAKE outputs ended (R432). -/
def State.gapOver (s : State) : State := (s.set R.TWN_STAT_GAP 0).modFio fun x => { x with gap := none }

/-- The levels that SAFE HOLD kept, dropped once row 4 of Table FIO.4 no longer applies. -/
def State.freeLevels (s : State) : State := if s.fioSafe then s else s.modFio fun x => { x with safe := none }

/-- Entry to SHADOW (Table STA.2, R390, R422): row 4 of Table FIO.4 begins, CAN is restricted, no axis is mirrored or aligned yet. -/
def State.shadow (s : State) : State :=
  if s.dev == 3 then s else
  let s := (s.holdLevels.setDev 3).canRestrict
  let s := ((s.set R.TWN_STAT_MIRRORED 0).set R.TWN_STAT_ALIGNED 0).set R.TWN_STAT_SYNCED 0
  s.modTwin fun t =>
    { t with recs := [], groups := [], offs := List.replicate 16 none, runs := List.replicate 16 0, orderly := false, runDue := false,
             reclaim := false }

/-- RANKSAME in effect (R424). -/
def State.rankSame (s : State) : Bool := s.faults.latched.any (fun l => l.code == 0x1103) || s.on R.TWN_STAT_RANKSAME

/-- A claim is wanted in SHADOW (R428, R98). -/
def State.claimWanted (s : State) : Bool :=
  s.dev == 3 && (s.on R.TWN_STAT_SYNCED || s.noFrame) && !s.on R.SYS_STATE_TORQUE_OFF && s.on R.SCH_HLTH_LAST_OK && !s.rankSame
    && !(s.faults.latched.any fun l => l.code == 0x1104) && s.get R.TWN_STAT_LSTATE == 0 && s.on R.TWN_CFG_EN && !s.leaving

/-- ARB entered (Table TWN.3): HOLD_OUT asserted, the epoch raised (R427), every slice's gates held (R431), CAN operation normal (R390),
this member's gap at its end (R432). -/
def State.claimNow (s : State) : State :=
  let e := max (s.get R.TWN_EPOCH_EPOCH) (s.get R.TWN_EPOCH_PEPOCH) + 1
  let s := ((s.set R.TWN_STAT_LSTATE 1).setToken true).set R.TWN_EPOCH_EPOCH e
  let s := { s with pwm := s.pwm.map fun p : PwmDyn => { p with claimHold := true } }
  ((s.gapOver).canFreeAll).modTwin fun t => { t with orderly := false, handover := false }

/-- ARB yielded by rank B (Table TWN.3, R425): the device stays in or goes to SHADOW. -/
def State.arbYield (s : State) : State :=
  let s := ((s.set R.TWN_STAT_LSTATE 0).setToken false).bump R.TWN_CNT_CONFLICTS
  if s.dev == 3 then s.canRestrict else s.shadow

/-- The lease loaded at a claim's end or a healthy pulse (R426). -/
def State.loadLease (s : State) : State := s.modTwin fun t => { t with leaseEnd := s.clock.up + s.leaseTime }

/-- HOLD_OUT and GATE_EN released outside a conflict: command, F5, removal or power-fail (Table TWN.3); the releasing member's gap begins
(R432). -/
def State.releaseToken (s : State) (orderly : Bool) : State :=
  let l := s.get R.TWN_STAT_LSTATE
  if l != 1 && l != 2 then s else
  let s := if l == 2 then s.gapBegin false else s
  let s := (s.set R.TWN_STAT_LSTATE 0).setToken false
  s.modTwin fun t => { t with orderly := orderly, handover := false, runDue := false }

/-- LOCKOUT (Table TWN.3): HOLD_OUT and GATE_EN released, F4 of module scope, cause TOKENCONF; from RUN the device goes to HOLD with every
axis FAULTED (Table STA.2). -/
def State.lockout (s : State) : State :=
  let s := if s.get R.TWN_STAT_LSTATE == 2 then s.gapBegin false else s
  let s := (((s.set R.TWN_STAT_LSTATE 3).setToken false).bump R.TWN_CNT_CONFLICTS).raiseMod 0x1104 4
  let s := s.modTwin fun t => { t with handover := false, runDue := false }
  if s.dev == 2 then (s.each (s.reactOrder s.axes) State.reactF3).setDev 1 else s

/-- The lease lost (R426, Table TWN.3): in RUN the axes go DISABLED with cause 0x07 and the device to SHADOW. -/
def State.leaseLost (s : State) : State :=
  let s := s.gapBegin false
  let s := ((s.set R.TWN_STAT_LSTATE 0).setToken false).bump R.TWN_CNT_LOSSES
  let s := s.modTwin fun t => { t with handover := false, runDue := false }
  if s.dev == 2 then (s.axesOut 7).shadow else s

/-- Synchronised in SHADOW (R422): every used axis mirrored and aligned, the image IDs agree, and the link is up. -/
def State.syncCheck (s : State) : State :=
  let ok := s.dev == 3 && s.on R.TWN_STAT_LINK && !s.on R.TWN_STAT_IMGDIFF &&
    s.axes.all fun n => s.bitOf R.TWN_STAT_MIRRORED n && s.bitOf R.TWN_STAT_ALIGNED n
  s.setB R.TWN_STAT_SYNCED ok

/-- The latest record of a slice's axis, with its age in servo cycles. -/
def recOf : List (Nat × Nat × MirrorAxis) → Nat → Option (Nat × MirrorAxis)
  | [], _ => none
  | (k, a, r) :: t, n => if k = n then some (a, r) else recOf t n

/-- A servo cycle of an axis passes: its record is older, and the axis mirrored only up to MIRRMAX (R422). -/
def State.ageAxis (s : State) (n : Slice) : State :=
  match recOf s.twin.recs n.val with
  | none => s
  | some (a, _) =>
    if s.dev != 3 then s else
    let s := s.modTwin fun t => { t with recs := t.recs.map fun r => if r.1 == n.val then (r.1, r.2.1 + 1, r.2.2) else r }
    (if a + 1 ≤ s.get R.TWN_CFG_MIRRMAX then s else s.putBit R.TWN_STAT_MIRRORED n false).syncCheck

/-- A servo boundary of an axis, as the twin logic sees it: a record is due (R421) and the mirrored one is older (R422). -/
def State.twinServo (s : State) (n : Slice) : State :=
  if !s.on R.TWN_CFG_EN then s else (s.modTwin fun t => { t with due := setBit t.due n }).ageAxis n

end Sys2Proof.Machine
end

