-- ==== Sys2Proof/Machine/Paths.lean ====
section
/-!
DEFINITION. Machine/Paths.lean: path groups: segments, their checks, lookahead, the ramp factor, and the group commands (R267 to R272).
Path lengths and speeds count in 2^−64 counts; in PVT and DWELL the path parameter counts in 2^−64 servo cycles.
-/

namespace Sys2Proof.Machine

/-! Segments (R267, R268). -/

/-- Slot number m of a group's ring. -/
def State.slotAddr (s : State) (g m : Nat) : Nat := s.get (R.GRP_CFG_QBASE g) + m % 1024 * 256

/-- The segment in a slot, for k members (Table MOT.2). -/
def State.readSeg (s : State) (a k : Nat) : Seg :=
  let w := s.rd a 8
  let feed := s.rd (a + 8) 8
  { kind := bitsOf w 0 3, exact := bit w 3 != 0, fin := bit w 4 != 0, pi := bitsOf w 8 3, pj := bitsOf w 12 3, segid := bitsOf w 16 16,
    dur := bitsOf w 32 32, feed := scalar64 (toS 32 (bitsOf feed 0 32)) (toS 8 (bitsOf feed 32 8)),
    ci := toS 64 (s.rd (a + 16) 8), cj := toS 64 (s.rd (a + 24) 8),
    pend := (upto k).map fun i => toS 64 (s.rd (a + 0x40 + 8 * i) 8),
    vend := (upto k).map fun i => toS 64 (s.rd (a + 0x80 + 8 * i) 8) }

/-- Whether a slot has a reserved bit set (R267). -/
def State.segReserved (s : State) (a : Nat) : Bool :=
  let w := s.rd a 8
  bitsOf w 5 3 != 0 || bit w 11 != 0 || bit w 15 != 0 || (s.bytes (a + 0x20) 32).any (· != 0) || (s.bytes (a + 0xC0) 64).any (· != 0)

/-- Element i of a list of positions, 0 beyond it. -/
def posOf (l : List Int) (i : Nat) : Int := nthD l i 0

/-- A radius in 2^−64 counts. -/
def radiusOf (i j ci cj : Int) : Nat := sqrtN (((i - ci).natAbs ^ 2 + (j - cj).natAbs ^ 2) * 2 ^ 80)

/-- The geometry of a LINE or ARC from a start: radius, start angle and sweep in 2^−64 turn (0 for LINE), and length in 2^−64 counts. -/
structure Geom where
  r : Nat
  from_ : Nat
  sweep : Nat
  len : Nat
deriving DecidableEq, Repr

/-- The length of an arc in 2^−64 counts: 2π r × sweep. -/
def arcLen (r sweep : Nat) : Nat := (2 * qPi * (r * sweep : Nat) / 2 ^ 184).toNat

/-- Geometry of a segment (R268). -/
def Seg.geom (x : Seg) (start : List Int) : Geom :=
  let d := (upto x.pend.length).map fun k => (posOf x.pend k - posOf start k).natAbs
  if x.kind = 1 then ⟨0, 0, 0, sqrtN ((d.foldl (fun a v => a + v ^ 2) 0) * 2 ^ 80)⟩
  else
    let i0 := posOf start x.pi - x.ci
    let j0 := posOf start x.pj - x.cj
    let i1 := posOf x.pend x.pi - x.ci
    let j1 := posOf x.pend x.pj - x.cj
    let a0 := qAngle 64 i0 j0
    let a1 := qAngle 64 i1 j1
    let sw := if x.kind = 3 then (a1 + 2 ^ 64 - a0) % 2 ^ 64 else (a0 + 2 ^ 64 - a1) % 2 ^ 64
    let sw := if i0 = i1 ∧ j0 = j1 ∨ sw = 0 then 2 ^ 64 else sw
    let r := radiusOf (posOf start x.pi) (posOf start x.pj) x.ci x.cj
    let lin := (upto x.pend.length).foldl (fun a k => if k = x.pi ∨ k = x.pj then a else a + (nthD d k 0) ^ 2) 0
    ⟨r, a0, sw, sqrtN (arcLen r sw ^ 2 + lin * 2 ^ 80)⟩

/-- The angle of an arc at σ, in 2^−64 turn. -/
def Seg.arcAt (x : Seg) (q : Geom) (sigma : Nat) : Nat :=
  let k := if q.len = 0 then 0 else q.sweep * sigma / q.len
  if x.kind = 3 then (q.from_ + k) % 2 ^ 64 else (q.from_ + 2 ^ 64 - k % 2 ^ 64) % 2 ^ 64

/-- The end of σ in a segment. -/
def Seg.span (x : Seg) (start : List Int) : Nat := if x.kind = 1 ∨ x.kind = 2 ∨ x.kind = 3 then (x.geom start).len else x.dur * 2 ^ 64

/-- Cubic Hermite position of a PVT member at τ = σ/N (R268): N and σ in servo cycles, σ in 2^−64. -/
def pvtAt (N : Nat) (p0 v0 p1 v1 : Int) (sigma : Nat) : Int :=
  let n : Int := (N * 2 ^ 64 : Nat)
  let t : Int := sigma
  let h00 := 2 * t * t * t - 3 * t * t * n + n * n * n
  let h10 := t * t * t - 2 * t * t * n + t * n * n
  let h01 := 3 * t * t * n - 2 * t * t * t
  let h11 := t * t * t - t * t * n
  divEven (h00 * p0 + h10 * N * v0 + h01 * p1 + h11 * N * v1) (n * n * n).toNat

/-- Position of member k of a segment at σ (R268), rounded to the nearest 2^−24 count, ties to even; the end is PEND exactly. -/
def Seg.posAt (x : Seg) (start startV : List Int) (sigma k : Nat) : Int :=
  let p0 := posOf start k
  let p1 := posOf x.pend k
  if x.kind = 5 then p0
  else if x.kind = 4 then pvtAt x.dur p0 (posOf startV k) p1 (posOf x.vend k) sigma
  else
    let q := x.geom start
    if q.len ≤ sigma then p1
    else if x.kind != 1 && (k == x.pi || k == x.pj) then
      let (c, s) := qTurn 64 (x.arcAt q sigma)
      (if k == x.pi then x.ci + divEven (q.r * c) (2 ^ 160) else x.cj + divEven (q.r * s) (2 ^ 160))
    else p0 + divEven ((p1 - p0) * sigma) q.len

/-- Where a segment leaves its members: DWELL keeps them where they were. -/
def Seg.endPos (x : Seg) (start : List Int) : List Int := if x.kind = 5 then start else x.pend

/-- The rate of member k along the path (2^−64 per unit of σ) at the start or the end of a LINE or ARC. -/
def Seg.tangent (x : Seg) (start : List Int) (atEnd : Bool) (k : Nat) : Int :=
  let q := x.geom start
  if q.len = 0 then 0
  else if x.kind != 1 && (k == x.pi || k == x.pj) then
    let (c, s) := qTurn 64 (x.arcAt q (if atEnd then q.len else 0))
    let a : Int := arcLen q.r q.sweep
    let u : Int := if x.kind = 3 then (if k == x.pi then -s else c) else (if k == x.pi then s else -c)
    u * a / (q.len * 2 ^ 56 : Nat)
  else (posOf x.pend k - posOf start k) * 2 ^ 104 / q.len

/-! Lookahead (R269). -/

/-- The group's ACC, JMAX and ARCTOL (word 0, 1, 2) in 2^−64 counts. -/
def State.grpWord (s : State) (g k : Nat) : Nat := (scalar64 (s.getS (R.GRP_PAR_MANT g k)) (s.getS (R.GRP_PAR_EXP g k))).natAbs

/-- The highest path speed within a segment: FEED, and √(ACC × r) on an arc. -/
def Seg.topSpeed (x : Seg) (start : List Int) (acc : Nat) : Nat :=
  if x.kind = 1 then x.feed.toNat else min x.feed.toNat (sqrtN (acc * (x.geom start).r))

/-- The highest speed at a junction at which no member's velocity changes by more than JMAX. -/
def junctionSpeed (x y : Seg) (start : List Int) (jmax top : Nat) : Nat :=
  let mid := x.endPos start
  let worst := (upto x.pend.length).foldl (fun w k => max w (y.tangent mid false k - x.tangent start true k).natAbs) 0
  if worst = 0 then top else min top (jmax * 2 ^ 64 / worst)

/-- Whether a segment is a LINE or an ARC. -/
def Seg.isPath (x : Seg) : Bool := x.kind == 1 || x.kind == 2 || x.kind == 3

/-- The highest speeds at which a queue may be entered and at which its first segment may end, so that the group can stop at the end of
the queue at ACC: (entry, exit). -/
def queueSpeed (acc jmax : Nat) : List Seg → List Int → Nat × Nat
  | [], _ => (0, 0)
  | x :: t, start =>
    if !x.isPath then (0, 0)
    else
      let top := x.topSpeed start acc
      let out := match t with
        | [] => 0
        | y :: _ =>
          if x.exact || x.fin || !y.isPath then 0
          else min top (junctionSpeed x y start jmax (queueSpeed acc jmax t (x.endPos start)).1)
      (min top (sqrtN (out * out + 2 * acc * (x.geom start).len)), out)

/-- The planned path speed of the next cycle (R269) with s left in the segment: no faster than ACC over the last, than the segment allows,
and than lets it come down to its exit speed at ACC. -/
def nextSpeed (v acc top out left : Nat) : Nat :=
  min (min (v + acc) top) (sqrtN (acc * acc + out * out + 2 * acc * left) - acc)

/-! The group's cycle (R269, R271, R272). -/

/-- The state of a group (SLC GRP_STATg.STATE): 0 IDLE, 1 ARMED, 2 EXECUTING, 3 HOLDING, 4 STARVED. -/
def State.gstate (s : State) (g : Nat) : Nat := s.get (R.GRP_STAT_STATE g)

/-- The members' commanded positions. -/
def State.memberPos (s : State) (g : Nat) : List Int := (s.members g).map fun n => s.prof[n].pcmd

/-- The commanded positions of the members set. -/
def State.setMembers (s : State) (g : Nat) (l : List Int) : State :=
  let ms := s.members g
  (List.zip ms l).foldl (fun s x => s.modProf x.1 fun p => { p with pcmd := wrapPos x.2, target := wrapPos x.2 }) s

/-- SEGID of the running segment published. -/
def State.showSeg (s : State) (g : Fin 8) : State :=
  match s.grp[g].queue with
  | x :: _ => s.set (R.GRP_STAT_SEGID g) x.segid
  | [] => s

/-- A group starts to execute from standstill at its members' positions (R268). -/
def State.grpBegin (s : State) (g : Fin 8) : State :=
  let l := s.memberPos g
  let lead := match s.members g with
    | n :: _ => let l := sliceOf (s.get (R.SLC_MODE_LEADER n)); s.leaderPos l (s.leadMeasured n l)
    | [] => 0
  let tb := s.on (R.GRP_CFG_TBASE g)
  let s := s.set (R.GRP_STAT_STATE g) 2
  let s := s.modGrp g fun x =>
    { x with start := l, startV := l.map fun _ => 0, sigma := 0, speed := 0, f := if tb then 2 ^ 32 else 0, quick := false, armed := none,
             rem := 0, last := lead, rate := 0 }
  s.showSeg g

/-- The first segment of a group completes (R271): IDLE on END, STARVED with its F0 where none is left. -/
def State.segDone (s : State) (g : Fin 8) : State :=
  match s.grp[g].queue with
  | [] => s
  | x :: t =>
    let p := x.endPos s.grp[g].start
    let s := s.setMembers g p
    let s := s.set (R.GRP_STAT_HEAD g) (s.get (R.GRP_STAT_HEAD g) + 1)
    let s := s.set (R.GRP_STAT_COUNT g) t.length
    let s := s.modGrp g fun y => { y with queue := t, start := p, startV := if x.kind = 4 then x.vend else p.map fun _ => 0 }
    if x.fin then (s.set (R.GRP_STAT_STATE g) 0).modGrp g fun y => { y with speed := 0, sigma := 0 }
    else if t.isEmpty then
      let s := if s.gstate g = 2 then (s.set (R.GRP_STAT_STATE g) 4).raisePath 0x0A05 0 g else s
      s.modGrp g fun y => { y with speed := 0, sigma := 0 }
    else s.showSeg g

/-- σ carried over segment ends, at most `fuel` of them (R271): in HOLDING the end of the queue or of an END segment is not passed. -/
def State.carrySigma (s : State) (g : Fin 8) : Nat → Nat → State
  | 0, sg => s.modGrp g fun y => { y with sigma := sg }
  | fuel + 1, sg =>
    match s.grp[g].queue with
    | [] => s
    | x :: t =>
      let len := x.span s.grp[g].start
      let stay := s.gstate g == 3 && (x.fin || t.isEmpty)
      if sg < len ∨ stay then s.modGrp g fun y => { y with sigma := min sg len }
      else
        let halt := x.fin || t.isEmpty || x.exact
        (s.segDone g).carrySigma g fuel (if halt then 0 else sg - len)

/-- The members placed at σ of the running segment. -/
def State.placeMembers (s : State) (g : Fin 8) : State :=
  match s.grp[g].queue with
  | [] => s
  | x :: _ =>
    if s.gstate g == 0 then s
    else
      let y := s.grp[g]
      s.setMembers g ((upto x.pend.length).map fun k => x.posAt y.start y.startV y.sigma.toNat k)

/-- The ramp factor one cycle on (R271): toward OVR × throttle scale, or 0 in HOLDING. -/
def State.rampF (s : State) (g : Fin 8) : State :=
  let scale := (s.members g).foldl (fun (m : Nat) (n : Slice) => min m (min 65536 (s.get (R.THM_SLC_VSCALE n)))) 65536
  let tb := s.on (R.GRP_CFG_TBASE g)
  let goal := if s.gstate g == 3 then 0 else if tb then 2 ^ 32 else min 65536 (s.get (R.GRP_OVR_OVR g)) * scale
  let y := s.grp[g]
  let d := 2 ^ 32 / max 1 (if s.gstate g == 3 && y.quick then s.get (R.GRP_CFG_THOLDQ g) else s.get (R.GRP_OVR_THOLD g))
  let f := if tb && s.gstate g != 3 then goal
    else if y.f < goal then min goal (y.f + d) else max goal (y.f - d)
  s.modGrp g fun y => { y with f := f }

/-- The advance of σ in one cycle: along LINE and ARC by the planned speed times f, in PVT and DWELL by f, or after the leader (R272). -/
def State.advance (s : State) (g : Fin 8) (x : Seg) (t : List Seg) : State × Int :=
  let y := s.grp[g]
  if s.on (R.GRP_CFG_TBASE g) then
    if s.gstate g == 3 then (s, y.rate * y.f / 2 ^ 32)
    else
      match s.members g with
      | [] => (s, 0)
      | n :: _ =>
        let l := sliceOf (s.get (R.SLC_MODE_LEADER n))
        let src := s.leaderPos l (s.leadMeasured n l)
        let den : Int := max 1 (s.get (R.GRP_LEAD_DEN g))
        let k := wrapPos (src - y.last) * s.getS (R.GRP_LEAD_NUM g) + y.rem
        let d := k / den * 2 ^ 40
        (s.modGrp g fun y => { y with rem := k % den, last := src, rate := d }, d)
  else if !x.isPath then (s.modGrp g fun y => { y with speed := 0 }, (y.f * 2 ^ 32 : Nat))
  else
    let acc := s.grpWord g 0
    let top := x.topSpeed y.start acc
    let out := (queueSpeed acc (s.grpWord g 1) (x :: t) y.start).2
    let left := x.span y.start - y.sigma.toNat
    let v := nextSpeed y.speed.toNat acc top out left
    let d := max (v * y.f / 2 ^ 32) (min left (min acc top * y.f / 2 ^ 32))
    (s.modGrp g fun y => { y with speed := v }, d)

/-- One servo cycle of a path group (R268 to R272). -/
def State.groupCycle (s : State) (g : Fin 8) : State :=
  match s.gstate g with
  | 1 => if s.grp[g].armed.any (·.2) then s.grpBegin g else s
  | 2 | 3 =>
    let s := s.rampF g
    match s.grp[g].queue with
    | [] => if s.gstate g == 2 then (s.set (R.GRP_STAT_STATE g) 4).raisePath 0x0A05 0 g else s
    | x :: t =>
      let (s, d) := s.advance g x t
      let sg := (max 0 (s.grp[g].sigma + d)).toNat
      (s.carrySigma g (t.length + 1) sg).placeMembers g
  | 4 => s.rampF g
  | _ => s

/-! Group commands (R270, R271). -/

/-- A refused group command: its code in RES, and the F0 notice. -/
def State.refuseGrp (s : State) (g : Fin 8) (code : Nat) : State :=
  (s.set (R.GRP_STAT_RES g) code).raise { code := 0x0A07, sev := 0, skind := 5, sindex := g.val, detail := code }

/-- Whether every member of a group, and at least one, is ENABLED. -/
def State.allEnabled (s : State) (g : Nat) : Bool := !(s.members g).isEmpty && (s.members g).all fun n => s.axst n == 2

/-- Whether the members of a group name one leader. -/
def State.oneLeader (s : State) (g : Nat) : Bool :=
  match s.members g with
  | [] => true
  | n :: t => t.all fun m => s.get (R.SLC_MODE_LEADER m) == s.get (R.SLC_MODE_LEADER n)

/-- GO taken (Table MOT.4). -/
def State.grpGo (s : State) (g : Fin 8) (ssw : Bool) (ssel : Nat) : State :=
  if s.gstate g != 0 then s.refuseGrp g 1
  else if !s.allEnabled g then s.refuseGrp g 2
  else if s.grp[g].queue.isEmpty then s.refuseGrp g 3
  else if (s.members g).any fun n => s.on (R.SLC_PRCFG_REQHOME n) && s.lost n then s.refuseGrp g 4
  else if s.on (R.GRP_CFG_TBASE g) && !s.oneLeader g then s.refuseGrp g 5
  else
    let s := s.set (R.GRP_STAT_RES g) 0
    if ssw then
      (s.set (R.GRP_STAT_STATE g) 1).modGrp g fun x => { x with armed := some (ssel, false), f := 0, speed := 0, sigma := 0 }
    else s.grpBegin g

/-- HOLD taken. -/
def State.grpHold (s : State) (g : Fin 8) : State :=
  if s.gstate g == 2 || s.gstate g == 4 then
    ((s.set (R.GRP_STAT_RES g) 0).set (R.GRP_STAT_STATE g) 3).modGrp g fun x => { x with quick := false }
  else s.refuseGrp g 1

/-- RESUME taken; with TBASE the group reattaches at the leader's present position (R272). -/
def State.grpResume (s : State) (g : Fin 8) : State :=
  if s.gstate g != 3 then s.refuseGrp g 1
  else if !s.allEnabled g then s.refuseGrp g 2
  else
    let lead := match s.members g with
      | n :: _ => let l := sliceOf (s.get (R.SLC_MODE_LEADER n)); s.leaderPos l (s.leadMeasured n l)
      | [] => 0
    ((s.set (R.GRP_STAT_RES g) 0).set (R.GRP_STAT_STATE g) 2).modGrp g fun x => { x with quick := false, last := lead }

/-- ABORT taken: from ARMED, or from HOLDING or STARVED at f = 0; the queue is discarded. -/
def State.grpAbort (s : State) (g : Fin 8) : State :=
  if s.gstate g == 1 || ((s.gstate g == 3 || s.gstate g == 4) && s.grp[g].f == 0) then
    let s := (s.set (R.GRP_STAT_RES g) 0).set (R.GRP_STAT_STATE g) 0
    (s.set (R.GRP_STAT_COUNT g) 0).modGrp g fun x => { x with queue := [], armed := none, speed := 0, sigma := 0 }
  else s.refuseGrp g 1

/-- GO (R271). -/
def execGo (g : Fin 8) (ssw : Bool) (ssel : Fin 4) (s : State) : Out := .next (s.grpGo g ssw ssel)

/-- GROUP_HOLD (R271). -/
def execGroupHold (g : Fin 8) (s : State) : Out := .next (s.grpHold g)

/-- GROUP_RESUME (R271). -/
def execGroupResume (g : Fin 8) (s : State) : Out := .next (s.grpResume g)

/-- GROUP_ABORT (R271). -/
def execGroupAbort (g : Fin 8) (s : State) : Out := .next (s.grpAbort g)

/-! APPEND (R270, Table MOT.3). -/

/-- Whether a position of a member breaks its travel range (TRAVEL). -/
def State.outOfTravel (s : State) (n : Slice) (p : Int) : Bool := s.outOfRange n p

/-- The extremes of an arc in its plane: (member place, position), those it passes. -/
def Seg.extremes (x : Seg) (start : List Int) : List (Nat × Int) :=
  let q := x.geom start
  let r := divEven q.r (2 ^ 40)
  let pass := fun (quarter : Nat) =>
    let a := quarter * 2 ^ 62
    let d := if x.kind = 3 then (a + 2 ^ 64 - q.from_) % 2 ^ 64 else (q.from_ + 2 ^ 64 - a) % 2 ^ 64
    d ≤ q.sweep
  (if pass 0 then [(x.pi, x.ci + r)] else []) ++ (if pass 1 then [(x.pj, x.cj + r)] else [])
    ++ (if pass 2 then [(x.pi, x.ci - r)] else []) ++ (if pass 3 then [(x.pj, x.cj - r)] else [])

/-- The first check of Table MOT.3 that a segment fails, in the order of the codes. -/
def State.segCheck (s : State) (g : Fin 8) (a : Nat) (x : Seg) (start : List Int) : Option Nat :=
  let ms := s.members g
  let arc := x.kind == 2 || x.kind == 3
  let r0 := radiusOf (posOf start x.pi) (posOf start x.pj) x.ci x.cj
  let r1 := radiusOf (posOf x.pend x.pi) (posOf x.pend x.pj) x.ci x.cj
  let outside := fun (k : Nat) (p : Int) => match ms[k]? with
    | some n => s.outOfTravel n p
    | none => false
  let after := s.grp[g].queue.getLast?
  if x.kind = 0 || 6 ≤ x.kind || s.segReserved a then some 0x10
  else if arc && (x.pi == x.pj || ms.length ≤ x.pi || ms.length ≤ x.pj) then some 0x11
  else if arc && ((r0 : Int) - r1).natAbs > s.grpWord g 2 then some 0x12
  else if arc && (r0 < 2 ^ 64 || r1 < 2 ^ 64) then some 0x12
  else if (x.kind == 4 || x.kind == 5) && x.dur == 0 then some 0x13
  else if x.isPath && x.feed ≤ 0 then some 0x14
  else if x.kind != 5 && (upto ms.length).any (fun k => outside k (posOf x.pend k)) then some 0x15
  else if arc && (x.extremes start).any (fun e => outside e.1 e.2) then some 0x15
  else if 1024 ≤ s.grp[g].queue.length then some 0x16
  else match after with
    | some y => if y.kind == 4 && x.kind != 4 && y.vend.any (· != 0) then some 0x17 else none
    | none => none

/-- Where the path stands at the end of a group's queue. -/
def State.queueEnd (s : State) (g : Fin 8) : List Int :=
  s.grp[g].queue.foldl (fun st x => x.endPos st) (if s.grp[g].queue.isEmpty || s.gstate g == 0 then s.memberPos g else s.grp[g].start)

/-- The next `n` slots checked in order, accepted up to the first failure, whose code RES takes. -/
def State.appendLoop (s : State) (g : Fin 8) : Nat → State
  | 0 => s
  | n + 1 =>
    let a := s.slotAddr g (s.get (R.GRP_STAT_HEAD g) + s.grp[g].queue.length)
    let x := s.readSeg a (s.members g).length
    match s.segCheck g a x (s.queueEnd g) with
    | some c => s.refuseGrp g c
    | none =>
      let s := s.modGrp g fun y => { y with queue := y.queue ++ [x] }
      (s.set (R.GRP_STAT_COUNT g) s.grp[g].queue.length).appendLoop g n

/-- APPEND taken (R270, Table MOT.4): a STARVED group goes on from standstill once a segment is accepted. -/
def State.grpAppend (s : State) (g : Fin 8) (napp : Nat) : State :=
  if napp = 0 ∨ 1024 < napp then s
  else
    let s := (s.set (R.GRP_STAT_RES g) 0).appendLoop g napp
    if s.gstate g == 4 && !s.grp[g].queue.isEmpty then
      let l := s.memberPos g
      let s := s.set (R.GRP_STAT_STATE g) 2
      (s.modGrp g fun x => { x with start := l, startV := l.map fun _ => 0, sigma := 0, speed := 0 }).showSeg g
    else s

/-- APPEND (R270). -/
def execAppend (g : Fin 8) (napp : Nat) (s : State) : Out := .next (s.grpAppend g napp)

end Sys2Proof.Machine
end

