-- ==== Sys2Proof/Machine/AxisCmd.lean ====
section
/-!
DEFINITION. Machine/AxisCmd.lean: axis commands and the enable steps (R102, R103, R108, R167, R174, R199, R478).
-/

namespace Sys2Proof.Machine

/-! ENABLE (Table STA.5a). -/

/-- Whether a slice depends on a leader: in GEAR, or in PATH with a leader time base. -/
def State.hasLeader (s : State) (n : Slice) : Bool :=
  s.axmode n == 4 || (s.axmode n == 3 && s.get (R.SLC_MODE_GROUP n) < 8 && s.on (R.GRP_CFG_TBASE (s.get (R.SLC_MODE_GROUP n))))

/-- Whether the chain of leaders from a slice is invalid: itself, an odd slice of a pair, more than `fuel` links, or a cycle. -/
def State.chainBad (s : State) (n m : Slice) : Nat → Bool
  | 0 => s.hasLeader m
  | k + 1 =>
    if !s.hasLeader m then false
    else
      let l := sliceOf (s.get (R.SLC_MODE_LEADER m))
      l == n || l == m || s.oddInPair l || s.chainBad n l k

/-- Whether a mode is permitted for the pair function of a slice (Table STA.7). -/
def State.pairModeOk (s : State) (n : Slice) : Bool :=
  match s.pairFunc n with
  | 0 => true
  | 3 => s.axmode n == 5
  | _ => s.axmode n != 5

/-- The lowest failing check of an ENABLE (Table STA.5a, R478); 0 when all pass. -/
def State.enableCheck (s : State) (n : Slice) : Nat :=
  let all := s.axisSlices n
  if s.dev != 2 && s.dev != 4 then 1
  else if s.on R.SYS_STATE_TORQUE_OFF then 2
  else if s.axst n == 4 || s.covered n then 3
  else if !all.all (fun m => s.ax[m].used && s.ax[m].started) then 4
  else if s.chainBad n n 4 then 5
  else if s.oddInPair n then 6
  else if !s.pairModeOk n then 7
  else if s.axmode n == 3 && s.get (R.SLC_MODE_GROUP n) < 8 && s.gstate (s.get (R.SLC_MODE_GROUP n)) != 0 then 8
  else if s.axst n != 0 then 9
  else if s.dev == 4 && s.get R.SYS_CFG_SVCMODE == 1 then 10
  else 0

/-- What an accepted ENABLE clears on a slice (R183, R194, R198, R258, R300). -/
def State.enableSlice (s : State) (n : Slice) : State :=
  let s := s.set (R.SLC_AOFS_AVALID n) 0
  let s := s.modAx n fun a => { a with precharged := false, linkLost := false }
  let s := s.modPwm n fun p => { p with carry := ⟨0, 0, 0⟩, bootHeld := ⟨0, 0, 0⟩, precharge := none }
  let s := s.each [R.SLC_SVSTAT_FE n, R.SLC_SVSTAT_FECNT n, R.SLC_SVSTAT_FETMR n, R.SLC_SVSTAT_FEW n, R.SLC_SVSTAT_NOREF n,
    R.SLC_SVSTAT_BEYOND_P n, R.SLC_SVSTAT_BEYOND_N n, R.SLC_SVSTAT_LIMP n, R.SLC_SVSTAT_LIMN n, R.SLC_SVSTAT_HOMESUSP n,
    R.SLC_SVREF_PR n, R.SLC_SVREFV_VR n, R.SLC_SVREFV_RAMP n] State.toReset
  s.modSense n fun x => { x with sumRun := 0, staleRun := 0, clampRun := 0, imbRun := 0, have_ := ⟨false, false, false⟩ }

/-- ENABLE taken (Table STA.5): step 1 starts, or the refusal code with its F0. -/
def State.axEnable (s : State) (n : Slice) : State :=
  let c := s.enableCheck n
  if c != 0 then (s.set (R.SLC_AXST_REFUSE n) c).raiseAx 0x0401 0 n c
  else
    let s := s.each (s.axisSlices n) State.enableSlice
    let s := s.set (R.SLC_CHYSTAT_LOST_E n) 0
    let s := s.set (R.SLC_CHYSTAT_LOST_O n) 0
    let s := s.modAx n fun a => { a with stop := .none, closing := false, brakeHold := false }
    let s := (s.supOff n).startRest n
    (s.setAxst n 1).set (R.SLC_AXST_PHASE n) 1

/-- ENABLE (R102). -/
def execEnable (n : Slice) (s : State) : Out := .next (s.axEnable n)

/-! STOP, QUICK_STOP, DISABLE (Table STA.5, R103). -/

/-- STOP taken: ignored while a stop runs. -/
def State.axStop (s : State) (n : Slice) : State :=
  match s.axst n with
  | 1 => s.leave n 0 none .other
  | 2 => s.stopLeads n .stop
  | _ => s

/-- QUICK_STOP taken: a running stop takes the quick-stop rate and outcome, an F2 stop the higher rate only. -/
def State.axQuick (s : State) (n : Slice) : State :=
  match s.axst n with
  | 1 => s.leave n 0 none .other
  | 2 => s.stopLeads n .quick
  | 3 =>
    let s := s.modAx n fun a => { a with stop := if a.stop == .f2 then .f2 else .quick }
    if s.axmode n == 3 then s.feedHold (s.get (R.SLC_MODE_GROUP n)) true
    else s.modSup n fun u => { u with dec := max u.dec (s.decOf n .quick) }
  | _ => s

/-- DISABLE taken: gates off at once; a BRAKE output with DISBRK stays energised until standstill (R398). -/
def State.axDisable (s : State) (n : Slice) : State :=
  match s.axst n with
  | 1 => s.leave n 0 none .command
  | 2 => ((s.leave n 0 (some 1) .command).modAx n fun a => { a with brakeHold := true }).modSup n fun u => { u with still := 0 }
  | 3 => ((s.leave n 0 (some 1) .command).modAx n fun a => { a with brakeHold := true }).modSup n fun u => { u with still := 0 }
  | _ => s

/-- STOP (R102). -/
def execStop (n : Slice) (s : State) : Out := .next (s.axStop n)

/-- QUICK_STOP (R102). -/
def execQuickStop (n : Slice) (s : State) : Out := .next (s.axQuick n)

/-- DISABLE (R102). -/
def execDisable (n : Slice) (s : State) : Out := .next (s.axDisable n)

/-! Enable steps (Table STA.8). -/

/-- The slices of an axis that precharge (R290). -/
def State.prechargers (s : State) (n : Slice) : List Slice := (s.axisSlices n).filter fun m => !s.unusedOdd m

/-- The actual position of an axis: the capture of its position port. -/
def State.actualPos (s : State) (n : Slice) : Int := s.getS (R.SLC_FBPOS_POS (s.loadSlice n))

/-- Step 4 (Table STA.8, R264): the initial setpoint of each mode; false when an invalid cam table fails the step (R276). -/
def State.initialSetpoint (s : State) (n : Slice) : State × Bool :=
  let p := s.actualPos n
  match s.axmode n with
  | 4 => s.gearEngage n p
  | 5 =>
    (s.modProf n fun x =>
      { x with target := x.pcmd, vel := 0, acc := 0, plan := none, replan := false, holdDue := true, moved := false,
               amp := min (s.get (R.SLC_STCFG_IHOLD n)) (s.ceilQ15 n), m := s.microstep n }, true)
  | _ => (s.modProf n fun x => { x with pcmd := p, target := p, vel := 0, acc := 0, plan := none, replan := false, done := false }, true)

/-- Steps 4 and 5 entered: the loop closes at the first servo boundary from now. -/
def State.stepFour (s : State) (n : Slice) : State :=
  let (s, ok) := s.initialSetpoint n
  if ok then (s.set (R.SLC_AXST_PHASE n) 5).modAx n fun a => { a with closing := true }
  else (s.set (R.SLC_AXST_PHASE n) 4).raiseAx 0x0A03 3 n

/-- Step 5 complete (Table STA.5): ENABLED, and the supervisor starts. -/
def State.closeLoop (s : State) (n : Slice) : State :=
  if s.axst n != 1 || !s.ax[n].closing then s
  else
    let s := (s.setAxst n 2).set (R.SLC_AXST_PHASE n) 0
    let s := s.modAx n fun a => { a with closing := false }
    s.supStart n

/-- Step 3 complete: an alignment leaves AOFS (R174). -/
def State.angleDone (s : State) (n : Slice) (o : EnableObs) : State :=
  if s.get (R.SLC_COMM_ASRC n) = 1 then
    let s := s.set (R.SLC_AOFS_AOFS n) (ofS 32 (-(o.angle : Int)))
    let s := s.set (R.SLC_AOFS_AVALID n) 1
    (s.set (R.SLC_SLSTAT_PHASE n) 0).startRest n
  else s

/-- ENABLE_STEP_DONE (R108): the step in PHASE completes and the next one starts. For the odd slice of a pair it reports that slice's
offset calibration (log entry 26). -/
def execEnableStepDone (n : Slice) (o : EnableObs) (s : State) : Out :=
  let a := s.lead n
  if s.axst a != 1 then .next s
  else if a ≠ n then
    .next (if s.get (R.SLC_AXST_PHASE a) = 1 then (s.calibrate n o).1 else s)
  else match s.get (R.SLC_AXST_PHASE n) with
  | 1 =>
    let (s, ok) := s.calibrate n o
    .next (if ok then s.set (R.SLC_AXST_PHASE n) 2 else s)
  | 2 =>
    if (s.prechargers n).all fun m => s.ax[m].precharged then
      let s := s.set (R.SLC_AXST_PHASE n) 3
      .next (if s.get (R.SLC_COMM_ASRC n) = 1 then s.enterAlign n else s)
    else .next s
  | 3 =>
    if (s.hasFb n && !s.on (R.SLC_FBSTAT_FBVALID n)) || (s.pairFunc n == 4 && !s.on (R.SLC_FBSTAT_FBVALID (oddOf n))) || !o.angleOk then
      .next s
    else .next ((s.angleDone n o).stepFour n)
  | 5 => .next (s.closeLoop n)
  | _ => .next s

/-! Bootstrap precharge (R58, R199). -/

/-- Whether a slice waits for its precharge: step 2, with the performance level up (R438). -/
def State.prechargeWaits (s : State) (n : Slice) : Bool :=
  let a := s.lead n
  s.ax[n].used && s.axst a == 1 && s.get (R.SLC_AXST_PHASE a) == 2 && !s.unusedOdd n && !s.ax[n].precharged
    && s.pwm[n].precharge.isNone && s.get R.PWR_PLVL_EFF ≤ s.get R.PWR_PLVL_FLOOR

/-- BOOTSTRAP_PRECHARGE_START (R58): the lowest-numbered waiting slice turns on the low side of leg U. -/
def execBootstrapPrechargeStart (s : State) : Out :=
  match slices.find? s.prechargeWaits with
  | some n => .next (s.modPwm n fun p => { p with precharge := some 0 })
  | none => .next s

/-- PRECHARGE_PHASE (R199): after PRE/3 the next leg; at the end every bootstrap must be above its rising level, or F3 BOOTPRE. -/
def execPrechargePhase (n : Slice) (o : EnableObs) (s : State) : Out :=
  match s.pwm[n].precharge with
  | none => .next s
  | some 0 => .next (s.modPwm n fun p => { p with precharge := some 1 })
  | some 1 => .next (s.modPwm n fun p => { p with precharge := some 2 })
  | some _ =>
    let s := s.modPwm n fun p => { p with precharge := none }
    if o.bootOk.u && o.bootOk.v && o.bootOk.w then .next (s.modAx n fun a => { a with precharged := true })
    else .next (s.raiseAx 0x0701 3 n)

/-- BRAKE_DISBRK_TIMEOUT (R398): 1 s after a DISABLE with DISBRK the brake output de-energises. -/
def execBrakeDisbrkTimeout (n : Slice) (s : State) : Out := .next (s.modAx n fun a => { a with brakeHold := false })

/-- An axis command by its code (SLC_AXCMD.CMD). -/
def State.axCommand (s : State) (n : Slice) (cmd : Nat) : State :=
  match cmd with
  | 1 => s.axEnable n
  | 2 => s.axStop n
  | 3 => s.axQuick n
  | 4 => s.axDisable n
  | 5 => s.clearAxis n
  | _ => s

/-! The servo boundary (R245). -/

/-- A profile command by its register value (SLC_PRCMD). -/
def State.prCommand (s : State) (n : Slice) (v : Nat) : State :=
  match v % 8 with
  | 1 => s.moveTo n false (bit v 4 != 0) (bitsOf v 5 2) (bit v 7 != 0)
  | 2 => s.moveTo n true (bit v 4 != 0) (bitsOf v 5 2) (bit v 7 != 0)
  | 3 => s.jogTo n (bit v 3 != 0)
  | 4 => s.homeTo n
  | 5 => s.homeAbort n
  | _ => s

/-- A group command by its register value (GRP_CMDg). -/
def State.grpCommand (s : State) (g : Fin 8) (v : Nat) : State :=
  match v % 8 with
  | 1 => s.grpGo g (bit v 3 != 0) (bitsOf v 4 2)
  | 2 => s.grpHold g
  | 3 => s.grpResume g
  | 4 => s.grpAbort g
  | 5 => s.grpAppend g (bitsOf v 16 11)
  | _ => s

/-- A command register staged as a whole. -/
def cmdFld (a : Nat) : Fld := ⟨a, 0, 64, 0⟩

/-- The path group whose cycle a slice's servo boundary runs: the group of which it is the lowest member. -/
def State.groupOf (s : State) (n : Slice) : Option (Fin 8) :=
  let g := s.get (R.SLC_MODE_GROUP n)
  if h : g < 8 then (if (s.members g).head? == some n then some ⟨g, h⟩ else none) else none

/-- The staged words of a slice's servo cycle taken (R7, R245): words first, then GBANK into GACT. -/
def State.takeServo (s : State) (n : Slice) : State :=
  let mine := fun (x : Staged) => x.own == Own.servo && x.idx == n.val
  let isCmd := fun (x : Staged) => x.fld == cmdFld (R.SLC_PRCMD_CMD n).addr || x.fld == cmdFld (R.SLC_AXCMD_CMD n).addr
  let ch := s.staged.any fun x => mine x && isProfileWord n x
  let s := s.takeIf fun x => mine x && !isCmd x
  let s := s.set (R.SLC_SERVO_GACT n) (s.get (R.SLC_SERVO_GBANK n))
  if ch then s.modProf n fun p => { p with replan := true } else s

/-- The staged words and command of a group taken at its boundary. -/
def State.takeGroup (s : State) (g : Fin 8) : State × Option Nat :=
  let l := s.stagedFor .group g
  let cmd := stagedVal l (cmdFld (R.GRP_CMD_CMD g).addr)
  ((s.takeIf fun x => x.own == Own.group && x.idx == g.val && x.fld != cmdFld (R.GRP_CMD_CMD g).addr).unstage .group g, cmd)

/-- The generator of an axis one servo cycle on (R259): a ramp stop takes its place (R255). -/
def State.generate (s : State) (n : Slice) : State :=
  if s.sup[n].ramp.isSome then (s.rampCycle n)
  else if s.axst n != 2 then s
  else match s.axmode n with
  | 2 => (s.planCycle n).homeCycle n
  | 4 => s.gearCycle n
  | 5 => (s.planCycle n).homeCycle n
  | _ => s

/-- SLC_SVCMD0 as the library servo pip stores it (R242, R253): pcmd in the position modes; for STEP with an encoder in encoder counts. -/
def State.publish (s : State) (n : Slice) : State :=
  match s.axmode n with
  | 0 => s
  | 1 => s
  | 5 =>
    if !s.hasFb n then s
    else
      let den := 256 * max 1 (s.get (R.SLC_STLIM_SPR n))
      s.setS (R.SLC_SVCMD0_PCMD n) (divEven (s.prof[n].pcmd * s.get (R.SLC_FBCFG_CPT n)) den)
  | _ => s.setS (R.SLC_SVCMD0_PCMD n) s.prof[n].pcmd

/-- SERVO_BOUNDARY (R245): servo-owned words and GBANK take effect, corrections (R223), the loop of an ENABLING axis closes (Table STA.8),
its generator, ramp, homing and path group run one cycle, and then the commands that wait (R102, R260, R271). -/
def execServoBoundary (n : Slice) (s : State) : Out :=
  if !s.ax[n].started || s.on (R.SLC_PWMSTAT_FROZEN n) then .next s else
  let s := s.thermalBoundary n
  let s := { s with core := s.core.map fun c : CoreDyn => { c with satWarned := false } }
  let l := s.stagedFor .servo n
  let s := (s.takeServo n).corrApply n
  if s.oddInPair n then .next (s.unstage .servo n) else
  let s := s.twinServo n
  let mirrored := s.dev == 3
  let s := if mirrored then s else s.closeLoop n
  let was := s.posCmd n
  let s := if mirrored then s else s.generate n
  let (s, gcmd) := match s.groupOf n with
    | some g => let (s, c) := s.takeGroup g; (if mirrored then s else s.groupCycle g, c.map fun v => (g, v))
    | none => (s, none)
  let s := s.unstage .servo n
  let s := match stagedVal l (cmdFld (R.SLC_AXCMD_CMD n).addr) with
    | some v => s.axCommand n (v % 8)
    | none => s
  let s := match stagedVal l (cmdFld (R.SLC_PRCMD_CMD n).addr) with
    | some v => s.prCommand n v
    | none => s
  let s := match gcmd with
    | some (g, v) => s.grpCommand g v
    | none => s
  if s.dev == 3 then .next s else
  let s := if s.axst n == 2 then (s.armedStart n).replanNow n else s
  let s := if s.axmode n == 5 && s.axOn n then s.stepCycle n was else s
  .next (if s.axst n == 2 || s.axst n == 3 then s.publish n else s)

end Sys2Proof.Machine
end

