-- ==== Sys2Proof/Machine/Sha.lean ====
section
/-!
DEFINITION. Machine/Sha.lean: the check values of an image: CRC-32C (R78), SHA-256 and SHA-512 (FIPS 180-4; R79, R80), Ed25519 verification
(RFC 8032; R80).
-/

namespace Sys2Proof.Machine

/-! CRC-32C (R78). -/

/-- One bit of a reflected CRC step with the reversed polynomial of 0x1EDC6F41. -/
def crcBit (c : Nat) : Nat := if c % 2 = 1 then (c / 2) ^^^ 0x82F63B78 else c / 2

/-- One byte. -/
def crcByte (c b : Nat) : Nat :=
  let x := c ^^^ (b % 256)
  crcBit (crcBit (crcBit (crcBit (crcBit (crcBit (crcBit (crcBit x)))))))

/-- CRC-32C of a byte string (R78). -/
def crc32c (l : List Nat) : Nat := (l.foldl crcByte 0xFFFFFFFF) ^^^ 0xFFFFFFFF

/-! SHA-2. The two functions differ in the word width, the rotations and the constants. -/

/-- What tells SHA-256 from SHA-512: word width, rotation amounts of the four sigma functions, and constants. -/
structure ShaKind where
  w : Nat
  big0 : List Nat
  big1 : List Nat
  small0 : List Nat
  small1 : List Nat
  k : List Nat
  h : List Nat

/-- The constants of SHA-256 (cube roots of the first 64 primes), part 1. -/
def shaK256_1 : List Nat := [
  0x428a2f98, 0x71374491, 0xb5c0fbcf, 0xe9b5dba5, 0x3956c25b, 0x59f111f1, 0x923f82a4, 0xab1c5ed5,
  0xd807aa98, 0x12835b01, 0x243185be, 0x550c7dc3, 0x72be5d74, 0x80deb1fe, 0x9bdc06a7, 0xc19bf174,
  0xe49b69c1, 0xefbe4786, 0xfc19dc6, 0x240ca1cc, 0x2de92c6f, 0x4a7484aa, 0x5cb0a9dc, 0x76f988da,
  0x983e5152, 0xa831c66d, 0xb00327c8, 0xbf597fc7, 0xc6e00bf3, 0xd5a79147, 0x6ca6351, 0x14292967,
  0x27b70a85, 0x2e1b2138, 0x4d2c6dfc, 0x53380d13, 0x650a7354, 0x766a0abb, 0x81c2c92e, 0x92722c85]

/-- The constants of SHA-256 (cube roots of the first 64 primes), part 2. -/
def shaK256_2 : List Nat := [
  0xa2bfe8a1, 0xa81a664b, 0xc24b8b70, 0xc76c51a3, 0xd192e819, 0xd6990624, 0xf40e3585, 0x106aa070,
  0x19a4c116, 0x1e376c08, 0x2748774c, 0x34b0bcb5, 0x391c0cb3, 0x4ed8aa4a, 0x5b9cca4f, 0x682e6ff3,
  0x748f82ee, 0x78a5636f, 0x84c87814, 0x8cc70208, 0x90befffa, 0xa4506ceb, 0xbef9a3f7, 0xc67178f2]

/-- The constants of SHA-256 (cube roots of the first 64 primes). -/
def shaK256 : List Nat := shaK256_1 ++ shaK256_2

/-- The initial value of SHA-256. -/
def shaH256 : List Nat := [
  0x6a09e667, 0xbb67ae85, 0x3c6ef372, 0xa54ff53a, 0x510e527f, 0x9b05688c, 0x1f83d9ab, 0x5be0cd19]

/-- The constants of SHA-512 (cube roots of the first 80 primes), part 1. -/
def shaK512_1 : List Nat := [
  0x428a2f98d728ae22, 0x7137449123ef65cd, 0xb5c0fbcfec4d3b2f, 0xe9b5dba58189dbbc,
  0x3956c25bf348b538, 0x59f111f1b605d019, 0x923f82a4af194f9b, 0xab1c5ed5da6d8118,
  0xd807aa98a3030242, 0x12835b0145706fbe, 0x243185be4ee4b28c, 0x550c7dc3d5ffb4e2,
  0x72be5d74f27b896f, 0x80deb1fe3b1696b1, 0x9bdc06a725c71235, 0xc19bf174cf692694,
  0xe49b69c19ef14ad2, 0xefbe4786384f25e3, 0xfc19dc68b8cd5b5, 0x240ca1cc77ac9c65,
  0x2de92c6f592b0275, 0x4a7484aa6ea6e483, 0x5cb0a9dcbd41fbd4, 0x76f988da831153b5,
  0x983e5152ee66dfab, 0xa831c66d2db43210, 0xb00327c898fb213f, 0xbf597fc7beef0ee4,
  0xc6e00bf33da88fc2, 0xd5a79147930aa725, 0x6ca6351e003826f, 0x142929670a0e6e70,
  0x27b70a8546d22ffc, 0x2e1b21385c26c926, 0x4d2c6dfc5ac42aed, 0x53380d139d95b3df,
  0x650a73548baf63de, 0x766a0abb3c77b2a8, 0x81c2c92e47edaee6, 0x92722c851482353b]

/-- The constants of SHA-512 (cube roots of the first 80 primes), part 2. -/
def shaK512_2 : List Nat := [
  0xa2bfe8a14cf10364, 0xa81a664bbc423001, 0xc24b8b70d0f89791, 0xc76c51a30654be30,
  0xd192e819d6ef5218, 0xd69906245565a910, 0xf40e35855771202a, 0x106aa07032bbd1b8,
  0x19a4c116b8d2d0c8, 0x1e376c085141ab53, 0x2748774cdf8eeb99, 0x34b0bcb5e19b48a8,
  0x391c0cb3c5c95a63, 0x4ed8aa4ae3418acb, 0x5b9cca4f7763e373, 0x682e6ff3d6b2b8a3,
  0x748f82ee5defb2fc, 0x78a5636f43172f60, 0x84c87814a1f0ab72, 0x8cc702081a6439ec,
  0x90befffa23631e28, 0xa4506cebde82bde9, 0xbef9a3f7b2c67915, 0xc67178f2e372532b,
  0xca273eceea26619c, 0xd186b8c721c0c207, 0xeada7dd6cde0eb1e, 0xf57d4f7fee6ed178,
  0x6f067aa72176fba, 0xa637dc5a2c898a6, 0x113f9804bef90dae, 0x1b710b35131c471b,
  0x28db77f523047d84, 0x32caab7b40c72493, 0x3c9ebe0a15c9bebc, 0x431d67c49c100d4c,
  0x4cc5d4becb3e42b6, 0x597f299cfc657e2a, 0x5fcb6fab3ad6faec, 0x6c44198c4a475817]

/-- The constants of SHA-512 (cube roots of the first 80 primes). -/
def shaK512 : List Nat := shaK512_1 ++ shaK512_2

/-- The initial value of SHA-512. -/
def shaH512 : List Nat := [
  0x6a09e667f3bcc908, 0xbb67ae8584caa73b, 0x3c6ef372fe94f82b, 0xa54ff53a5f1d36f1,
  0x510e527fade682d1, 0x9b05688c2b3e6c1f, 0x1f83d9abfb41bd6b, 0x5be0cd19137e2179]

/-- SHA-256. -/
def sha256Kind : ShaKind := ⟨32, [2, 13, 22], [6, 11, 25], [7, 18, 3], [17, 19, 10], shaK256, shaH256⟩

/-- SHA-512. -/
def sha512Kind : ShaKind := ⟨64, [28, 34, 39], [14, 18, 41], [1, 8, 7], [19, 61, 6], shaK512, shaH512⟩

/-- A word rotated right. -/
def rotr (w x n : Nat) : Nat := (x / 2 ^ n + x * 2 ^ (w - n)) % 2 ^ w

/-- A capital sigma: three rotations. -/
def sigmaRot (w : Nat) (r : List Nat) (x : Nat) : Nat := rotr w x (nthD r 0 0) ^^^ rotr w x (nthD r 1 0) ^^^ rotr w x (nthD r 2 0)

/-- A small sigma: two rotations and a shift. -/
def sigmaShift (w : Nat) (r : List Nat) (x : Nat) : Nat := rotr w x (nthD r 0 0) ^^^ rotr w x (nthD r 1 0) ^^^ (x / 2 ^ nthD r 2 0)

/-- The message schedule, newest word first: `n` more words after the 16 of the block. -/
def shaExtend (c : ShaKind) : Nat → List Nat → List Nat
  | 0, l => l
  | n + 1, l =>
    let x := sigmaShift c.w c.small1 (nthD l 1 0) + nthD l 6 0 + sigmaShift c.w c.small0 (nthD l 14 0) + nthD l 15 0
    shaExtend c n (x % 2 ^ c.w :: l)

/-- The eight working words. -/
structure ShaRegs where
  a : Nat
  b : Nat
  c : Nat
  d : Nat
  e : Nat
  f : Nat
  g : Nat
  h : Nat

/-- One round with its word and constant. -/
def shaRound (c : ShaKind) (r : ShaRegs) (wk : Nat × Nat) : ShaRegs :=
  let ch := (r.e &&& r.f) ^^^ ((2 ^ c.w - 1 - r.e) &&& r.g)
  let maj := (r.a &&& r.b) ^^^ (r.a &&& r.c) ^^^ (r.b &&& r.c)
  let t1 := r.h + sigmaRot c.w c.big1 r.e + ch + wk.2 + wk.1
  let t2 := sigmaRot c.w c.big0 r.a + maj
  ⟨(t1 + t2) % 2 ^ c.w, r.a, r.b, r.c, (r.d + t1) % 2 ^ c.w, r.e, r.f, r.g⟩

/-- One block of 16 words. -/
def shaBlock (c : ShaKind) (h : List Nat) (block : List Nat) : List Nat :=
  let ws := (shaExtend c (c.k.length - 16) block.reverse).reverse
  let g := fun i => nthD h i 0
  let r := (ws.zip c.k).foldl (shaRound c) ⟨g 0, g 1, g 2, g 3, g 4, g 5, g 6, g 7⟩
  (h.zip [r.a, r.b, r.c, r.d, r.e, r.f, r.g, r.h]).map fun x => (x.1 + x.2) % 2 ^ c.w

/-- A byte string as big-endian words of `k` bytes, at most `n` of them. -/
def beWords (k : Nat) : Nat → List Nat → List Nat
  | 0, _ => []
  | n + 1, l => if l.isEmpty then [] else ofBe (l.take k) :: beWords k n (l.drop k)

/-- All blocks of a word list. -/
def shaBlocks (c : ShaKind) : Nat → List Nat → List Nat → List Nat
  | 0, h, _ => h
  | n + 1, h, l => shaBlocks c n (shaBlock c h (l.take 16)) (l.drop 16)

/-- The digest of a byte string. -/
def shaSum (c : ShaKind) (m : List Nat) : List Nat :=
  let bytes := c.w / 8
  let block := 16 * bytes
  let pad := (block - (m.length + 1 + 2 * bytes) % block) % block
  let p := m ++ 0x80 :: List.replicate pad 0 ++ beBytes (2 * bytes) (8 * m.length)
  let ws := beWords bytes p.length p
  (shaBlocks c (ws.length / 16) c.h ws).flatMap fun x => beBytes bytes x

/-- SHA-256 of a byte string. -/
def sha256 (m : List Nat) : List Nat := shaSum sha256Kind m

/-- SHA-512 of a byte string. -/
def sha512 (m : List Nat) : List Nat := shaSum sha512Kind m

/-! Ed25519 (RFC 8032, section 5.1). -/

/-- The field prime 2^255 − 19. -/
def edP : Nat := 2 ^ 255 - 19

/-- The group order. -/
def edL : Nat := 2 ^ 252 + 27742317777372353535851937790883648493

/-- Powers modulo p by squaring, `n` bits of the exponent. -/
def edPow : Nat → Nat → Nat → Nat
  | 0, _, _ => 1
  | n + 1, x, e => let y := edPow n (x * x % edP) (e / 2); if e % 2 = 1 then x * y % edP else y

/-- The inverse modulo p. -/
def edInv (x : Nat) : Nat := edPow 255 x (edP - 2)

/-- The curve constant d = −121665 / 121666. -/
def edD : Nat := (edP - 121665) * edInv 121666 % edP

/-- A square root of −1. -/
def edI : Nat := edPow 255 2 ((edP - 1) / 4)

/-- A point in extended homogeneous coordinates (x = X/Z, y = Y/Z, x·y = T/Z). -/
structure EdPoint where
  x : Nat
  y : Nat
  z : Nat
  t : Nat
deriving DecidableEq, Repr

/-- Subtraction modulo p. -/
def edSub (a b : Nat) : Nat := (a + (edP - b % edP)) % edP

/-- The sum of two points. -/
def edAdd (p q : EdPoint) : EdPoint :=
  let a := edSub p.y p.x * edSub q.y q.x % edP
  let b := (p.y + p.x) * (q.y + q.x) % edP
  let c := 2 * p.t * q.t * edD % edP
  let d := 2 * p.z * q.z % edP
  let e := edSub b a
  let f := edSub d c
  let g := (d + c) % edP
  let h := (b + a) % edP
  ⟨e * f % edP, g * h % edP, f * g % edP, e * h % edP⟩

/-- A scalar of `n` bits times a point. -/
def edMul : Nat → Nat → EdPoint → EdPoint
  | 0, _, _ => ⟨0, 1, 1, 0⟩
  | n + 1, k, p => let q := edMul n (k / 2) (edAdd p p); if k % 2 = 1 then edAdd p q else q

/-- Whether two points are equal. -/
def edEq (p q : EdPoint) : Bool := p.x * q.z % edP == q.x * p.z % edP && p.y * q.z % edP == q.y * p.z % edP

/-- The x that belongs to a y, with its sign bit. -/
def edX (y sign : Nat) : Option Nat :=
  if edP ≤ y then none
  else
    let x2 := edSub (y * y) 1 * edInv ((edD * (y * y % edP) + 1) % edP) % edP
    if x2 = 0 then (if sign = 0 then some 0 else none)
    else
      let x := edPow 255 x2 ((edP + 3) / 8)
      let x := if x * x % edP = x2 then x else x * edI % edP
      if x * x % edP = x2 then some (if x % 2 = sign then x else edP - x) else none

/-- A point from its 32 bytes. -/
def edPoint (l : List Nat) : Option EdPoint :=
  let v := ofLe l
  let y := v % 2 ^ 255
  (edX y (v / 2 ^ 255 % 2)).map fun x => ⟨x, y, 1, x * y % edP⟩

/-- The base point. -/
def edBase : EdPoint :=
  let y := 4 * edInv 5 % edP
  match edX y 0 with
  | some x => ⟨x, y, 1, x * y % edP⟩
  | none => ⟨0, 1, 1, 0⟩

/-- Whether a signature of 64 bytes over a message verifies under a public key of 32 bytes, by the equation without the cofactor. -/
def edVerify (key msg sig : List Nat) : Bool :=
  let s := ofLe (sig.drop 32)
  match edPoint key, edPoint (sig.take 32) with
  | some a, some r =>
    let h := ofLe (sha512 (sig.take 32 ++ key ++ msg)) % edL
    s < edL && edEq (edMul 253 s edBase) (edAdd r (edMul 253 h a))
  | _, _ => false

end Sys2Proof.Machine
end

