-- ==== Sys2Proof/Machine/FaultLog.lean ====
section
/-!
DEFINITION. Machine/FaultLog.lean: the fault log in Rind memory (R462, R463, R359).
-/

namespace Sys2Proof.Machine

/-- The slot and the list left when a new entry finds the log full (R463): the oldest entry whose SEV is not above its own gives way. -/
def makeRoom (sev : Nat) (log : List (Nat × LogEntry)) : Option (Nat × List (Nat × LogEntry)) :=
  match (log.filter fun x => x.2.sev ≤ sev).getLast? with
  | none => none
  | some (k, _) => some (k, log.filter fun x => x.1 != k)

/-- A FAULT notice for a log entry (R359). -/
def State.faultNotice (s : State) (e : LogEntry) : State :=
  if e.sev = 0 && !s.on R.NET_HPCFG1_F0NOTE then s else s.notice 1 ((upto 4).flatMap fun w => leBytes 8 (e.word w))

/-- FLT_CNT counts an entry of F2 or higher. -/
def State.countFault (s : State) (sev : Nat) : State :=
  match sev with
  | 2 => s.bump R.FLT_CNT_F2CNT
  | 3 => s.bump R.FLT_CNT_F3CNT
  | 4 => s.bump R.FLT_CNT_F4CNT
  | 5 => s.bump R.FLT_CNT_F5CNT
  | _ => s

/-- A new entry written (R462, R463), with its number and its notice; dropped and counted when every entry is more severe. -/
def State.logNew (s : State) (e : LogEntry) : State :=
  let n := (s.faults.number + 1) % 2 ^ 32
  let e := { e with number := n, at_ := s.clock.up, time := s.compact, holdover := s.on R.SYS_STATE_HOLDOVER }
  let place := if s.faults.log.length < 256 then some (s.faults.log.length, s.faults.log) else makeRoom e.sev s.faults.log
  match place with
  | none => s.bump R.FLT_STAT_DROPPED
  | some (k, l) => { s with faults := { s.faults with log := (k, e) :: l, number := n } }.countFault e.sev |>.faultNotice e

/-- The newest entry of a triple CODE, SKIND, SINDEX. -/
def newestOf (code skind sindex : Nat) (log : List (Nat × LogEntry)) : Option (Nat × LogEntry) :=
  log.find? fun x => x.2.code == code && x.2.skind == skind && x.2.sindex == sindex

/-- A fault logged (R463): merged into the newest entry of its triple made within the last second, up to MERGE 255, else a new entry. -/
def State.logFault (s : State) (e : LogEntry) : State :=
  match newestOf e.code e.skind e.sindex s.faults.log with
  | some (k, x) =>
    if s.clock.up ≤ x.at_ + secUnit && x.merge < 255 then
      { s with faults := { s.faults with log := s.faults.log.map fun y => if y.1 == k then (y.1, { y.2 with merge := y.2.merge + 1 }) else y } }
    else s.logNew e
  | none => s.logNew e

/-- An entry as a record gives it. -/
def FaultRec.entry (r : FaultRec) (preempt : Bool) (xcode : List Nat) : LogEntry :=
  { code := r.code, sev := r.sev, skind := r.skind, sindex := r.sindex, origin := r.origin, merge := 0, gross := r.gross,
    preempt := preempt, holdover := false, late := r.late, time := 0, number := 0, detail := r.detail, xcode := xcode, at_ := 0 }

/-- A fault that the Rind logic writes directly into the log while FAB may be off (removal, power-fail, power-up and wake failure). -/
def State.rindLog (s : State) (code sev detail : Nat) : State :=
  let r : FaultRec := { code := code, sev := sev, skind := 0, sindex := 0, detail := detail }
  s.logFault (r.entry false [])

end Sys2Proof.Machine
end

