-- ==== Sys2Proof/Machine/Start.lean ====
section
/-!
DEFINITION. Machine/Start.lean: what INTAKE, a reset or the loss of the switched domains leaves of the module (R16, R41, R42, R53, R83 step 1,
R461 and the rules that name counters cleared at the start of INTAKE), entry to HALT, and the leave sequence (R60, R61, Table PWI.4).
-/

namespace Sys2Proof.Machine

def State.modBoot (s : State) (f : BootDyn → BootDyn) : State := { s with boot := f s.boot }

/-- Registers held in the Rind, or live bits of units that INTAKE does not reset: SYS_STRAP, PWR_STAT, PWR_FEED, PWR_CNT, PWR_WSTAT,
IMG_CTRL, IMG_KEYHk, FLT_STAT, FLT_CNT, BUS_STAT, BUS_MEAS, FIO_SUP, SAF_STAT, THM_MEASk. -/
def rindWords : List Nat :=
  [0x50, 0x10000, 0x10008, 0x10010, 0x10038, 0x20008, 0x20020, 0x20028, 0x20030, 0x20038, 0x40008, 0x40020, 0x200008, 0x200010,
   0x340020, 0x350008]

/-- Whether a field of the register file survives the start of INTAKE, by its bit address. -/
def survives (key : Nat) : Bool :=
  let a := key / 64 * 8
  rindWords.contains a || (0x30100 ≤ a && a < 0x30200)

/-- The factory station address (R89). -/
def factoryMac : Nat := Config.factoryMac % 2 ^ 48

/-- Everything in the switched domains back at its reset value: registers (NET_MAC from the fuses, R89), memories zero, links and sessions
ended, latched faults cleared (R461). The Rind's state, the log, the time base, the STO logic, the first steps of the bus ladder with the
limits they hold (R29, R41) and the flash stay. -/
def State.clearDomains (s : State) : State :=
  let b := s.boot
  let t : State :=
    { State.reset with
      pending := s.pending, draws := s.draws, regs := s.regs.filter fun x => survives x.1,
      clock := { s.clock with running := false }, bus := s.bus, sto := s.sto, leaving := s.leaving
      faults := { FaultDyn.reset with log := s.faults.log, number := s.faults.number, inbox := s.faults.inbox.filter fun r => r.sev < 2 }
      arc := { ArcDyn.reset with hlCopy := s.arc.hlCopy }
      twin := { TwinDyn.reset with released := s.twin.released }
      pw := { PwrDyn.reset with zones := s.pw.zones.map fun z => { z with since := none, due := false, v := 65536, i := 65536 },
                                sampleAt := s.pw.sampleAt }
      boot := { b with step := 0, order := [], first := none, slot := 0, recovery := false, slicesLeft := [], groupsDone := 0,
                       starting := false, updCmd := 0, updAbort := false, imgId := 0 } }
  let t := (t.setB R.SYS_STATE_TORQUE_OFF (s.on R.SYS_STATE_TORQUE_OFF)).setB R.TWN_STAT_HOLD_IN (s.on R.TWN_STAT_HOLD_IN)
  let t := t.each [R.BUS_STAT_REGEN, R.BUS_STAT_SHORT, R.BUS_STAT_ABS, R.BUS_STAT_UV, R.FIO_SUP_WDEXP, R.FIO_SUP_WDCNT, R.FIO_SUP_CUTCNT,
    R.FIO_SUP_SUPWARN_A, R.FIO_SUP_SUPWARN_B] State.toReset
  t.set R.NET_MAC_MAC factoryMac

/-- INTAKE started from step 1 (R83): straps latched (R42), FL_VDD on (R39), DIAG cleared (R416), everything cleared. -/
def State.beginIntake (s : State) : State :=
  let s := s.clearDomains.coreLevels
  let s := (s.set R.SYS_STRAP_ADDR (s.get R.SYS_STRAP_ADDR_LIVE)).set R.SYS_STRAP_RANK (s.get R.SYS_STRAP_RANK_LIVE)
  let s := (s.set R.SAF_STAT_DIAG 0).set R.SAF_STAT_DCAUSE 0
  { s with sto := { s.sto with step10 := false }, leaving := false }.modBoot fun b =>
    { b with step := 1, t0 := s.clock.up, flOn := true, removed := false, pfailed := false, departed := false }

/-- Every axis under a reaction of F3 to F5: gates off, FAULTED (Table FLT.1). -/
def State.faultAxes (s : State) : State := s.each (s.reactOrder s.axes) State.reactF3

/-- Entry to HALT (Table STA.2): every axis FAULTED, HOLD_OUT released, outputs in SAFE, the scheduler stopped (R158), acquisition ended
(R373), CAN silent (R390). From INTAKE, HALT offers recovery access (R88). -/
def State.enterHalt (s : State) : State :=
  if s.dev == 5 then s else
  let rec_ := s.dev == 0
  let s := (s.releaseToken false).faultAxes
  let s := (s.holdLevels.setDev 5).schedStop
  (s.acqStopRun.canHalt).modBoot fun b => { b with recovery := rec_, step := 0, starting := false, slicesLeft := [] }

/-! The leave sequence (R60, R61). -/

/-- The one entry of a leave sequence marked with a second cause (R61). -/
def State.bothCauses (s : State) (code : Nat) : State :=
  { s with faults := { s.faults with log := s.faults.log.map fun x =>
      if x.2.number == s.boot.leaveEntry then (x.1, { x.2 with xcode := [code] }) else x } }

/-- The leave sequence for a cause (Table PWI.4, Table PWI.5), removal or power-fail: gates and HOLD_OUT released, outputs off, CAN and
queued frames gone, an update abandoned (R93), one F4 log entry. A second cause joins the first one's entry (R61). -/
def State.leaveFor (s : State) (byPower : Bool) : State :=
  let code := if byPower then 0x0204 else 0x0203
  if s.leaving then
    let known := if byPower then s.boot.pfailed else s.boot.removed
    let s := if known || s.get R.PWR_STAT_DOM_ON == 0 then s else s.bothCauses code
    s.modBoot fun b => if byPower then { b with pfailed := true } else { b with removed := true }
  else
    let s := s.bump (if byPower then R.PWR_CNT_PFAIL_CNT else R.PWR_CNT_REMOVE)
    let s := (s.releaseToken false).faultAxes
    let s := (s.canHalt).each [(0 : Fin 2), 1] fun s c => s.modCan c fun x => { x with sending := none }
    let s := s.each [(0 : Fin 3), 1, 2] fun s p => s.modPort p fun x => { x with queues := [[], [], [], []], sending := none, control := [] }
    let s := { s with leaving := true, outbox := [] }
    let s := s.rindLog code 4 (if byPower then 2 else 1)
    s.modBoot fun b =>
      { b with removed := !byPower, pfailed := byPower, waitRetry := false, leaveEntry := s.faults.number, departed := false, updCmd := 0, updAbort := false,
               step := 0, starting := false, slicesLeft := [] }

/-- What the field die's and the slice dies' own logic loses with its supply: the STO logic, the bus ladder, the live bits of the field die
and the copies of the hard limits (R29, R408). -/
def State.diesOff (s : State) : State :=
  let s := (s.set R.SYS_STATE_TORQUE_OFF 0).each [R.SAF_STAT_IN_A, R.SAF_STAT_IN_B, R.SAF_STAT_REQ, R.SAF_STAT_ENGAGED, R.SAF_STAT_I_SW1,
    R.SAF_STAT_I_SW2, R.SAF_STAT_VGS_HI, R.SAF_STAT_FB, R.SAF_STAT_RELSEQ, R.SAF_STAT_DIAG, R.SAF_STAT_DCAUSE, R.BUS_STAT_CHON,
    R.BUS_STAT_CHFAULT, R.BUS_STAT_BACKSTOP, R.BUS_STAT_VDRV_OK_A, R.BUS_STAT_VDRV_OK_B, R.FIO_SUP_CUTOFF_A, R.FIO_SUP_CUTOFF_B]
    State.toReset
  { s with sto := StoDyn.reset, bus := Vector.replicate 4 BusDyn.reset, arc := { s.arc with hlCopy := [] } }

/-- The switched domains off (R39, R52, R60): everything in them lost, FL_VDD off. -/
def State.domainsOff (s : State) : State :=
  (((s.clearDomains).set R.PWR_STAT_DOM_ON 0).modBoot fun b => { b with flOn := false, seq := 0, ready := false }).diesOff

/-- FLD reports ready (R408): the STO logic starts with torque off requested, and TORQUE-OFF is set. -/
def State.fieldOn (s : State) : State := { s with sto := StoDyn.reset }.setOverlay R.SYS_STATE_TORQUE_OFF true

/-! The power sequencer (R55, R59). -/

/-- Presence is recognised and the intake is stable (R48, R59). -/
def State.inserted (s : State) : Bool := s.on R.PWR_STAT_PRESENT && (s.boot.feedA.stable || s.boot.feedB.stable)

/-- The sequencer started, FAB switched on first (R55), unless it runs, waits, has failed (R56, R443) or the module sleeps. PFAIL tells of a
power-fail before this start (R53). -/
def State.startSequence (s : State) : State :=
  let b := s.boot
  if !b.rind || !s.inserted || b.seq != 0 || b.waitRetry || b.failed || s.pw.sleep != 0 || (s.leaving && s.get R.PWR_STAT_DOM_ON != 0) then s
  else
    let s := if b.pfailed then s.set R.PWR_STAT_PFAIL 1 else s
    { s with leaving := false }.modBoot fun b => { b with seq := 1, ready := false, removed := false, pfailed := false }

/-- A reset, a removal or the loss of both feeds lets a failed sequence or wake start again (R56, R443). -/
def State.forgive (s : State) : State := s.modBoot fun b => { b with failed := false, retries := 0 }

/-- Every session ended (R347); the stream of one that carried it has none (R372). -/
def State.endSessions (s : State) : State :=
  (({ s with host := { s.host with sessions := List.replicate 5 Session.reset } }.set R.ACQ_CTL_SESS 0).set R.NET_HPSTAT_OPEN 0).set
    R.NET_HPSTAT_NOTIFY 0

end Sys2Proof.Machine
end

