-- ==== Sys2Proof/Machine/Image.lean ====
section
/-!
DEFINITION. Machine/Image.lean: the configuration image in a flash slot: header, section table, the two passes of INTAKE and the signature
(R68 to R80, R83 steps 4 to 7).
-/

namespace Sys2Proof.Machine

/-! Flash slots (R68, R69): the bytes that are not 0xFF, by offset. -/

/-- `n` bytes of a sorted cell list from an offset on; an unlisted byte is erased. -/
def flashFill : List Host.Cell → Nat → Nat → List Nat
  | _, _, 0 => []
  | [], o, n + 1 => 255 :: flashFill [] (o + 1) n
  | (a, b) :: t, o, n + 1 => if a = o then b.toNat :: flashFill t (o + 1) n else 255 :: flashFill ((a, b) :: t) (o + 1) n

/-- `n` bytes of a slot from an offset. -/
def flashSpan (m : List Host.Cell) (o n : Nat) : List Nat := flashFill (m.dropWhile fun c => c.1 < o) o n

/-- A little-endian value of `n` bytes of a slot (R69). -/
def flashRd (m : List Host.Cell) (o n : Nat) : Nat := ofLe (flashSpan m o n)

/-- The bytes of a slot: 0 is A, 1 is B. -/
def State.flash (s : State) (k : Nat) : List Host.Cell := if k = 0 then s.boot.slotA else s.boot.slotB

/-! Header (Table IMG.2) and section table (R71). -/

/-- What the slot header tells beyond the checks of its soundness. -/
structure ImgHeader where
  count : Nat
  signed : Bool
  gen : Nat
  len : Nat
deriving DecidableEq, Repr

/-- The header fields that later steps use. -/
def imgHeader (m : List Host.Cell) : ImgHeader :=
  ⟨flashRd m 0x0C 2, bit (flashRd m 0x0E 2) 0 == 1, flashRd m 0x10 8, flashRd m 0x18 4⟩

/-- COMMIT, committed. -/
def commitWord : Nat := 0xA5A55A5AA5A55A5A

/-- The code of a slot's header: 0 when it is sound (R70, R81, Table IMG.5). With `any`, COMMIT is taken as committed (R91). -/
def headerCode (m : List Host.Cell) (any : Bool) : Nat :=
  let c := flashRd m 0xF8 8
  if flashRd m 0 8 ≠ 0x3130474D49565841 ∨ flashRd m 8 2 ≠ 1 then 0x10
  else if crc32c (flashSpan m 0 0xC0) ≠ flashRd m 0xC0 4 then 0x11
  else if !any && c == 0 then 0x13
  else if !any && c != commitWord then 0x12
  else if !(flashSpan m 0x1C 4).contains R.SYS_ID_REV.rst then 0x14
  else 0

/-- A section table entry (R71). -/
structure Sect where
  type : Nat
  off : Nat
  len : Nat
  target : Nat
  crc : Nat
deriving DecidableEq, Repr

/-- Entry i of the section table. -/
def sectAt (m : List Host.Cell) (i : Nat) : Sect :=
  let o := 0x100 + 32 * i
  ⟨flashRd m o 2, flashRd m (o + 4) 4, flashRd m (o + 8) 4, flashRd m (o + 12) 4, flashRd m (o + 16) 4⟩

/-- The section table. -/
def sectsOf (m : List Host.Cell) : List Sect := (upto (imgHeader m).count).map (sectAt m)

/-- A section put before the first one at a larger offset. -/
def sectInsert (x : Sect) : List Sect → List Sect
  | [] => [x]
  | y :: t => if x.off < y.off then x :: y :: t else y :: sectInsert x t

/-- Sections in the order in which they stand in the slot. -/
def sectSort : List Sect → List Sect
  | [] => []
  | x :: t => sectInsert x (sectSort t)

/-- Sections in that order do not overlap. -/
def disjointSects : List Sect → Bool
  | x :: y :: t => x.off + x.len ≤ y.off && disjointSects (y :: t)
  | _ => true

/-- `n` bytes lie in a range of addresses. -/
def inSpan (a n lo hi : Nat) : Bool := lo ≤ a && a + n ≤ hi

/-- `n` bytes lie in the shared SRAM banks. -/
def inBanks (a n : Nat) : Bool := inSpan a n 0x10000000 0x11800000

/-- `n` bytes lie in the local memory of one core. -/
def inLocalMem (a n : Nat) : Bool := (upto 8).any fun k => inSpan a n (0x400000 + k * 0x40000) (0x440000 + k * 0x40000)

/-- A copy section's target against the fixed memories (R71). -/
def Sect.targetOk (x : Sect) : Bool :=
  match x.type with
  | 4 => inSpan x.target x.len 0x600000 0x680000
  | 5 => inLocalMem x.target x.len || inBanks x.target x.len
  | 6 => inBanks x.target x.len
  | _ => true

/-- The section table passes the checks of R71 that step 4 makes; else LAYOUT (0x15). -/
def layoutOk (m : List Host.Cell) : Bool :=
  let h := imgHeader m
  let l := sectsOf m
  1 ≤ h.count && h.count ≤ 64 && h.len ≤ 0x800000 &&
  l.all (fun x => x.off % 256 == 0 && 0x100 + 32 * h.count ≤ x.off && x.len % 8 == 0 && x.len != 0 && x.off + x.len ≤ h.len && x.targetOk) &&
  disjointSects (sectSort l)

/-- The code of step 4 for a slot: 0 when it is eligible (R81). -/
def slotCode (m : List Host.Cell) (any : Bool) : Nat :=
  let c := headerCode m any
  if c ≠ 0 then c else if layoutOk m then 0 else 0x15

/-! Pass 1 (R72, R79, R83 step 5). -/

/-- A type that the module knows, or may skip (R72). -/
def Sect.typeOk (x : Sect) : Bool := (1 ≤ x.type && x.type ≤ 7) || 0x8000 ≤ x.type

/-- The bytes of a section. -/
def Sect.bytes (m : List Host.Cell) (x : Sect) : List Nat := flashSpan m x.off x.len

/-- The code of one section in pass 1. -/
def Sect.code (m : List Host.Cell) (x : Sect) : Nat := if !x.typeOk then 0x1B else if crc32c (x.bytes m) ≠ x.crc then 0x16 else 0

/-- The sections before the first that fails, and its code (0 for none). -/
def passSects (m : List Host.Cell) : List Sect → List Sect × Nat
  | [] => ([], 0)
  | x :: t =>
    if x.code m ≠ 0 then ([], x.code m)
    else ((x :: (passSects m t).1), (passSects m t).2)

/-- The counts of Table IMG.3. -/
def countsOk (l : List Sect) : Bool :=
  let n := fun t => (l.filter fun x => x.type == t).length
  n 1 == 1 && n 2 == 1 && n 4 == 1 && 1 ≤ n 5 && n 7 == 1

/-- DIGEST as it should be (R79). -/
def imgDigest (m : List Host.Cell) : List Nat := sha256 (flashSpan m 0 0x40 ++ flashSpan m 0x100 ((imgHeader m).len - 0x100))

/-- The sections that pass 1 takes and the code in which it ends. -/
def passOne (m : List Host.Cell) : List Sect × Nat :=
  let (l, c) := passSects m (sectSort (sectsOf m))
  if c ≠ 0 then (l, c)
  else if !countsOk l then (l, 0x1B)
  else if imgDigest m ≠ flashSpan m 0x40 32 then (l, 0x17)
  else (l, 0)

/-- A copy section written to its target. -/
def State.copySect (s : State) (m : List Host.Cell) (x : Sect) : State :=
  if x.type = 4 ∨ x.type = 5 ∨ x.type = 6 then s.putBytes x.target (x.bytes m) else s

/-! Signature (R80). -/

/-- KEY_HASH as the fuses hold it, byte 0 first (R94). -/
def State.keyHash (s : State) : List Nat := (upto 4).flatMap fun k => leBytes 8 (s.get (R.IMG_KEYH_KEYH k))

/-- Whether any KEY_HASH bit is programmed. -/
def State.keyed (s : State) : Bool := s.keyHash.any fun b => b != 0

/-- The code of step 6. -/
def State.signCode (s : State) (m : List Host.Cell) : Nat :=
  if !s.keyed then 0
  else if !(imgHeader m).signed then 0x18
  else if sha256 (flashSpan m 0x60 32) ≠ s.keyHash then 0x19
  else if !edVerify (flashSpan m 0x60 32) (flashSpan m 0x40 32) (flashSpan m 0x80 64) then 0x1A
  else 0

/-! Pass 2 (R73 to R77). -/

/-- The sections of one type, in the order of the table. -/
def ofType (m : List Host.Cell) (t : Nat) : List Sect := (sectsOf m).filter fun x => x.type == t

/-- The bytes of the sections of one type. -/
def typeBytes (m : List Host.Cell) (t : Nat) : List (List Nat) := (ofType m t).map fun x => x.bytes m

/-- The positions of a code in a list, in order. -/
def placesOf (c : Nat) (l : List Nat) : List Nat := (upto l.length).filter fun i => nthD l i 0 == c

/-- Positions that follow one another. -/
def contiguous (l : List Nat) : Bool :=
  match l, l.getLast? with
  | a :: _, some z => z + 1 == a + l.length
  | _, _ => true

/-- PART meets R76. -/
def partOk (b : List Nat) : Bool :=
  let c := b.take 48
  b.length == 64 && (b.drop 48).all (· == 0) && c.all (· ≤ 6) && [1, 2, 3, 4, 5, 6].all (fun k => contiguous (placesOf k c)) &&
  5 ≤ (placesOf 1 c).length && 1 ≤ (placesOf 4 c).length && nthD c 47 0 == 6

/-- Offsets of a slice block at which a sub-block of Table MAP.2 begins. -/
def subStarts : List Nat := [0, 0x800, 0x1000, 0x1800, 0x2000, 0x3000]

/-- The PART code that a range of whole banks has, 0 for none. -/
def codeOfBanks (part : List Nat) (lo hi : Nat) : Nat :=
  let b0 := (lo - 0x10000000) / 0x80000
  let n := (hi + 1 - lo) / 0x80000
  let c := nthD part b0 0
  if (upto n).all (fun i => nthD part (b0 + i) 0 == c) then c else 0

/-- The range of a GRANT entry (R77): whole assigned banks of one code, one whole register block, or whole slice sub-blocks. -/
def grantRange (part : List Nat) (lo hi : Nat) : Bool :=
  lo ≤ hi &&
  (if inBanks lo (hi + 1 - lo) then lo % 0x80000 == 0 && (hi + 1) % 0x80000 == 0 && codeOfBanks part lo hi != 0
   else if inSpan lo (hi + 1 - lo) 0x100000 0x140000 then
     subStarts.contains ((lo - 0x100000) % 0x4000) && subStarts.contains ((hi + 1 - 0x100000) % 0x4000)
   else match placeOf lo with
     | .block b n => lo == b && hi + 1 == b + n
     | _ => false)

/-- An entry of GRANT as bytes, where it is well formed (R77). -/
def grantEntry (part : List Nat) (b : List Nat) : Option (List Grant) :=
  let f := fun o n => ofLe ((b.drop o).take n)
  let lo := f 4 4
  let hi := f 8 4
  if f 0 1 ≤ 9 ∧ f 1 1 ≤ 3 ∧ f 2 2 = 0 ∧ f 12 4 = 0 ∧ grantRange part lo hi then
    some ((if bit (f 1 1) 0 = 1 then [⟨f 0 1, false, lo, hi⟩] else []) ++ (if bit (f 1 1) 1 = 1 then [⟨f 0 1, true, lo, hi⟩] else []))
  else none

/-- A list cut into records of k bytes (fuel: its length). -/
def chunks (k : Nat) : Nat → List Nat → List (List Nat)
  | 0, _ => []
  | n + 1, l => if l.isEmpty then [] else l.take k :: chunks k n (l.drop k)

/-- All of them, or none. -/
def allSome {α : Type} : List (Option α) → Option (List α)
  | [] => some []
  | x :: t => match x, allSome t with | some a, some l => some (a :: l) | _, _ => none

/-- GRANT as the fabric takes it, where it meets R77. -/
def grantsOf (part b : List Nat) : Option (List Grant) :=
  if b.length % 16 ≠ 0 ∨ 256 * 16 < b.length then none
  else (allSome ((chunks 16 b.length b).map (grantEntry part))).map List.flatten

/-- A record of HLIM or REGS (R73). -/
structure ImgRec where
  addr : Nat
  res : Nat
  value : Nat
  mask : Nat
deriving DecidableEq, Repr

/-- The records of sections, none where a length does not fit. -/
def recsOf (l : List (List Nat)) : Option (List ImgRec) :=
  if l.any fun b => b.length % 24 != 0 then none
  else some (l.flatMap fun b => (chunks 24 b.length b).map fun r =>
    ⟨ofLe (r.take 4), ofLe ((r.drop 4).take 4), ofLe ((r.drop 8).take 8), ofLe (r.drop 16)⟩)

/-- The words of the CAN block that hold the matrix and the transmit entries. -/
def canWord (a : Nat) : Bool := 0x331000 ≤ a && a < 0x336000 && a % 8 == 0

/-- The bits of some fields of a register. -/
def fieldMask (fs : List FDef) : Nat := fs.foldl (fun m f => m + (2 ^ f.w - 1) * 2 ^ f.lo) 0

/-- The bits of a word outside a mask are none. -/
def inMask (v m : Nat) : Bool := v &&& m == v

/-- A record's address is a hard-limit register, or (REGS) a register that is not one with MASK over RW and WO fields only (R74, R75). -/
def ImgRec.ok (hl : Bool) (r : ImgRec) : Bool :=
  r.res == 0 &&
  (match regAt r.addr with
   | some (x, _) =>
     if hl then x.hl else !x.hl && inMask r.mask (fieldMask (x.fields.filter fun f => f.acc == .rw || f.acc == .wo))
   | none => !hl && canWord r.addr)

/-- Every address at which a register row stands. -/
def rowAddrs : List (Nat × Nat) → List Nat
  | [] => [0]
  | (c, st) :: t => (upto c).flatMap fun i => (rowAddrs t).map fun d => i * st + d

/-- The rows that hold hard limits, over all blocks. -/
def hlRows : List (RegRow RegName) :=
  [0x000000, 0x010000, 0x020000, 0x030000, 0x040000, 0x080000, 0x090000, 0x200000, 0x210000, 0x300000, 0x310000, 0x320000, 0x330000,
   0x340000, 0x350000, 0x360000, 0x100000].flatMap fun a => (rowsAt a).filter fun r => r.hl

/-- Every hard-limit register: its address and the bits of its fields. -/
def hlRegs : List (Nat × Nat) := hlRows.flatMap fun r => (rowAddrs r.dims).map fun d => (r.base + d, fieldMask r.fields)

/-- Every bit of every hard-limit field is covered by a MASK (R74). -/
def hlCovered (l : List ImgRec) : Bool :=
  hlRegs.all fun x => inMask x.2 ((l.filter fun r => r.addr == x.1).foldl (fun m r => m ||| r.mask) 0)

/-- A word with the bits of a mask replaced (R73). -/
def maskedWord (old v m : Nat) : Nat := (old - (old &&& m)) + (v &&& m)

/-- A record applied (R73): RW fields change; what a WO field does when written is no part of INTAKE (log entry 53). -/
def State.applyRec (s : State) (r : ImgRec) : State :=
  match regAt r.addr with
  | some (x, _) =>
    s.each (x.fields.filter fun f => f.acc == .rw) fun s f =>
      let fd := f.fld r.addr
      let m := bitsOf r.mask f.lo f.w
      if m = 0 then s else s.set fd (maskedWord (s.get fd) (bitsOf r.value f.lo f.w) m)
  | none => if canWord r.addr then s.wr r.addr 8 (maskedWord (s.rd r.addr 8) r.value r.mask) else s

/-- The register of a record back at its reset value (R84). -/
def State.undoRec (s : State) (r : ImgRec) : State :=
  if r.addr = R.NET_MAC_MAC.addr then s.set R.NET_MAC_MAC factoryMac
  else
    match regAt r.addr with
    | some (x, _) => s.each (x.fields.filter fun f => f.acc == .rw) fun s f => s.toReset (f.fld r.addr)
    | none => if canWord r.addr then s.wr r.addr 8 0 else s

/-- HLIM and REGS of a slot, in the order of the table. -/
def slotRecs (m : List Host.Cell) : Option (List ImgRec) × Option (List ImgRec) := (recsOf (typeBytes m 2), recsOf (typeBytes m 3))

/-- The code of step 7, with what PART, GRANT, HLIM and REGS give when it is 0. -/
def passTwo (m : List Host.Cell) (rereadOk : Bool) : Nat × List Nat × List Grant × List ImgRec :=
  let part := (typeBytes m 1).flatten
  if !rereadOk then (0x23, [], [], [])
  else if !partOk part then (0x20, [], [], [])
  else
    match grantsOf (part.take 48) (typeBytes m 7).flatten, slotRecs m with
    | none, _ => (0x25, [], [], [])
    | some g, (some h, some r) =>
      if !(h.all (ImgRec.ok true) && hlCovered h) then (0x21, [], [], [])
      else if !r.all (ImgRec.ok false) then (0x22, [], [], [])
      else (0, part.take 48, g, h ++ r)
    | some _, (none, _) => (0x21, [], [], [])
    | some _, (some _, none) => (0x22, [], [], [])

/-- Pass 2 applied: PART, then GRANT, then HLIM, then REGS (R83 step 7). -/
def State.install (s : State) (part : List Nat) (g : List Grant) (l : List ImgRec) : State :=
  ({ s with arc := { s.arc with banks := part, grants := g } }).each l State.applyRec

/-- The zero fill of step 1 repeated, and the registers of a failed slot's records back at reset (R84). -/
def State.uninstall (s : State) (m : List Host.Cell) : State :=
  let l := match slotRecs m with
    | (some h, some r) => h ++ r
    | (some h, none) => h
    | (none, some r) => r
    | (none, none) => []
  let s := (s.zeroRange 0x400000 0x20000000).each l State.undoRec
  { s with arc := { s.arc with banks := List.replicate 48 0, grants := [] } }

end Sys2Proof.Machine
end

