-- ==== Sys2Proof/Machine/Pairs.lean ====
section
/-!
DEFINITION. Machine/Pairs.lean: the permitted values of fields that depend on other fields (R473), and the limits of the gain words (R169, R246,
R278), judged on a state as the fields would stand.
-/

namespace Sys2Proof.Machine

/-- Full scale of the current range of a slice in 4 µV units: 50, 100 or 200 mV (SLC_ISCFG.RANGE). -/
def State.fullScale4 (s : State) (n : Slice) : Nat := 12500 * 2 ^ s.get (R.SLC_ISCFG_RANGE n)

/-- |m| × 2^(e − 31) × k is at most lim (R244). -/
def scalarLe (m e : Int) (k lim : Nat) : Bool :=
  let x := m.natAbs * k
  if e ≥ 31 then x * 2 ^ (e - 31).toNat ≤ lim else x ≤ lim * 2 ^ (31 - e).toNat

/-- A fraction x / 2^15 of full scale is at most 90 % of CEIL (R246). -/
def State.fracOk (s : State) (n : Slice) (x : Nat) : Bool :=
  10 * x * s.fullScale4 n ≤ 9 * s.get (R.SLC_OCLIM_CEIL n) * 2 ^ 15

/-- ILIM of a bank is at most 90 % of CEIL (R246). -/
def State.ilimOk (s : State) (n : Slice) (b : Nat) : Bool :=
  scalarLe (s.getS (R.SLC_GAIN_MANT n b 6)) (s.getS (R.SLC_GAIN_EXP n b 6)) (10 * s.fullScale4 n) (9 * s.get (R.SLC_OCLIM_CEIL n))

/-- VLIM of a bank is at most VMAX (R246). -/
def State.vlimOk (s : State) (n : Slice) (b : Nat) : Bool :=
  scalarLe (s.getS (R.SLC_GAIN_MANT n b 5)) (s.getS (R.SLC_GAIN_EXP n b 5)) 65536 (s.get (R.SLC_SVGROSS_VMAX n))

/-- CEIL lies below the full scale of the range in effect (R169). -/
def State.rangeOk (s : State) (n : Slice) : Bool := s.get (R.SLC_OCLIM_CEIL n) < s.fullScale4 n

/-- What R169, R246 and R278 refuse as R9 describes: CEIL against the range, ILIM, VLIM, IRUN and IHOLD. -/
def State.sliceLimits (s : State) (n : Slice) : Bool :=
  s.rangeOk n && s.ilimOk n 0 && s.ilimOk n 1 && s.vlimOk n 0 && s.vlimOk n 1 &&
  s.fracOk n (s.get (R.SLC_STCFG_IRUN n)) && s.fracOk n (s.get (R.SLC_STCFG_IHOLD n))

/-- The pairs of a slice (R473): CPER and the pulse limits, FBMODE and CLKDIV, latch sources and their parameters, the two decelerations,
HSI. -/
def State.slicePairs (s : State) (n : Slice) : Bool :=
  2 * (s.get (R.SLC_PWMLIM_TD n) + s.get (R.SLC_PWMLIM_TMIN n)) ≤ s.get (R.SLC_PWMCFG_CPER n) &&
  (s.get (R.SLC_FBCFG_FBMODE n) != 4 || 49 ≤ s.get (R.SLC_FBSER_CLKDIV n)) &&
  (s.get (R.SLC_LATCFG_SRC0 n) != 3 || s.get (R.SLC_LATCFG_PAR0 n) < 16) &&
  (s.get (R.SLC_LATCFG_SRC1 n) != 3 || s.get (R.SLC_LATCFG_PAR1 n) < 16) &&
  s.get (R.SLC_SVSTOP_DEC_STOP n) ≤ s.get (R.SLC_SVSTOP_DEC_QS n) && s.fracOk n (s.get (R.SLC_HMCFG_HSI n))

/-- The pair of a path group: THOLDQ is at most THOLD. -/
def State.groupPairs (s : State) (g : Nat) : Bool := s.get (R.GRP_CFG_THOLDQ g) ≤ s.get (R.GRP_OVR_THOLD g)

/-- The pair of a field PWM channel (R397). -/
def State.fioPairs (s : State) (k : Nat) : Bool := s.get (R.FIO_PWM_DUTY k) ≤ s.get (R.FIO_PWM_PER k)

/-- An acquisition channel: LOC aligned to the width, and no BURST clock for one in use (Table ACQ.1). -/
def State.chanPairs (s : State) (k : Nat) : Bool :=
  let n := if s.on (R.ACQ_CH_W64 k) then 8 else 4
  let l := s.get (R.ACQ_CH_LOC k)
  (if s.on (R.ACQ_CH_SRC k) then l % n == 0 else l / 2 ^ 14 % n == 0) &&
  (!s.on (R.ACQ_CH_EN k) || s.get (R.ACQ_CLK_KIND (s.get (R.ACQ_CH_CLK k))) != 3)

/-- Words of a row of an acquisition clock: its channels, or the three of a burst. -/
def State.rowSize (s : State) (c : Nat) : Nat :=
  if s.get (R.ACQ_CLK_KIND c) = 3 then 3
  else ((upto 64).filter fun k => s.on (R.ACQ_CH_EN k) && s.get (R.ACQ_CH_CLK k) == c).foldl (fun n k => n + 1 + s.get (R.ACQ_CH_W64 k)) 0

/-- What R365 asks of the ports for BLKMAX. -/
def State.blockFits (s : State) : Bool :=
  let b := s.get R.ACQ_CFG_BLKMAX + 82
  [0, 1].all fun p => b ≤ s.get (R.NET_PCFG_MAXFRM p) && (b + 255) / 256 ≤ s.get (R.NET_EQ_QUOTA0 p)

/-- What R365 asks of the acquisition engine in use. -/
def State.acqFits (s : State) : Bool :=
  !s.on R.ACQ_CFG_EN || (s.arc.banks.contains 2 && [0, 1, 2, 3].all (fun c => s.rowSize c ≤ 64) && s.blockFits)

/-- CAN0 as a wake source requires WAKEN (R377). -/
def State.wakePair (s : State) : Bool := !s.on R.PWR_WCFG_CAN0 || s.on (R.CAN_CFG_WAKEN 0)

end Sys2Proof.Machine
end

