-- ==== Sys2Proof/Machine/Dev.lean ====
section
/-!
DEFINITION. Machine/Dev.lean: the device commands (R95 to R98, Table STA.2, Table STA.3).
-/

namespace Sys2Proof.Machine

/-- RESULT of a device command (Table STA.3); a refusal is logged as an F0 notice (R96). -/
def State.cmdResult (s : State) (code : Nat) : State :=
  let s := s.set R.SYS_CMD_RESULT code
  if code = 0 then s else s.raiseMod 0x0401 0 code

/-- Commands reach the module: it is not in a leave sequence, INTAKE, reset or sleep. -/
def State.cmdsOn (s : State) : Bool :=
  !s.leaving && !s.boot.resetLow && s.boot.step == 0 && !s.boot.starting && s.pw.sleep == 0 && s.pw.entry == 0

/-- Image update busy (R90). -/
def State.updBusy (s : State) : Bool := s.get R.IMG_UPD_STATE == 1

/-- A debug halt in progress (R139). -/
def State.debugHalt (s : State) : Bool := (upto 8).any fun k => s.on (R.LC_DBG_HALTED k) || s.on (R.LC_DBG_HALT k)

/-- The code of RUN: accepted in HOLD only; a twin member in LOCKOUT, already in ARB, or with RANKSAME in effect has no transition
(Table TWN.3, R424). -/
def State.runCode (s : State) : Nat :=
  if s.dev != 1 || !s.cmdsOn then 1
  else if s.on R.TWN_CFG_EN && (s.get R.TWN_STAT_LSTATE != 0 || (s.rclm && s.rankSame)) then 1
  else 0

/-- RUN (Table STA.2): a twin member claims if RCLM holds, else goes to SHADOW. -/
def State.sysRun (s : State) : State :=
  let s := s.cmdResult s.runCode
  if s.get R.SYS_CMD_RESULT != 0 then s
  else if !s.on R.TWN_CFG_EN then (s.setDev 2).freeLevels
  else if s.rclm then s.claimNow
  else s.shadow

/-- The code of HOLD. -/
def State.holdCode (s : State) : Nat := if s.dev != 2 || !s.cmdsOn then 1 else if !s.axesOff then 2 else 0

/-- HOLD (Table STA.2): the lease is released, with ORDERLY (Table TWN.3). -/
def State.sysHold (s : State) : State :=
  let s := s.cmdResult s.holdCode
  if s.get R.SYS_CMD_RESULT != 0 then s else ((s.releaseToken true).setDev 1).freeLevels

/-- The code of SERVICE (R95): the lowest that applies. -/
def State.serviceCode (s : State) : Nat :=
  if s.dev != 1 || !s.cmdsOn then 1 else if s.get R.SYS_CFG_SVCMODE == 0 then 3 else if s.on R.TWN_STAT_HOLD_OUT then 4 else 0

/-- SERVICE (Table STA.2). -/
def State.sysService (s : State) : State :=
  let s := s.cmdResult s.serviceCode
  if s.get R.SYS_CMD_RESULT != 0 then s else s.setDev 4

/-- The code of LEAVE_SERVICE. -/
def State.leaveServiceCode (s : State) : Nat :=
  if s.dev != 4 || !s.cmdsOn then 1 else if !s.axesOff then 2 else if s.debugHalt || s.updBusy then 5 else 0

/-- LEAVE_SERVICE (Table STA.2). -/
def State.leaveSvc (s : State) : State :=
  let s := s.cmdResult s.leaveServiceCode
  if s.get R.SYS_CMD_RESULT != 0 then s else s.setDev 1

/-- The code of RESTART. -/
def State.restartCode (s : State) : Nat :=
  if !(s.dev == 1 || s.dev == 4 || s.dev == 5) || !s.cmdsOn then 1 else if s.updBusy then 5 else 0

/-- RESTART (Table STA.2): INTAKE from step 1 with the switched domains on. -/
def State.sysRestart (s : State) : State :=
  let s := s.cmdResult s.restartCode
  if s.get R.SYS_CMD_RESULT != 0 then s else (s.axesOut 6).beginIntake

/-- A value of SYS_CMD.CMD taken at its boundary. -/
def State.sysCommand (s : State) (v : Nat) : State :=
  match v with
  | 1 => s.sysRun
  | 2 => s.sysHold
  | 3 => s.sysService
  | 4 => s.leaveSvc
  | 5 => s.sysRestart
  | _ => s

/-- SYS_RUN (R96). -/
def execSysRun (s : State) : Out := .next s.sysRun

/-- SYS_HOLD (R96). -/
def execSysHold (s : State) : Out := .next s.sysHold

/-- SYS_SERVICE (R95). -/
def execSysService (s : State) : Out := .next s.sysService

/-- LEAVE_SERVICE (R96). -/
def execLeaveService (s : State) : Out := .next s.leaveSvc

/-- RESTART (R96). -/
def execRestart (s : State) : Out := .next s.sysRestart

end Sys2Proof.Machine
end

