-- ==== Sys2Proof/Machine/Sto.lean ====
section
/-!
DEFINITION. Machine/Sto.lean: the safe-torque-off logic (R408 to R418, R484): request, switches, release sequence, diagnostics, STO_FB.
-/

namespace Sys2Proof.Machine

/-- STO_FB as R411 gives it: torque off requested, both switches commanded open and proved open, DIAG clear, no backstop, no release. -/
def State.fbHigh (s : State) : Bool :=
  s.domOn 5 && s.on R.SAF_STAT_REQ && !s.sto.cmd1 && !s.sto.cmd2 && s.sto.proved && !s.on R.SAF_STAT_DIAG
    && !s.on R.BUS_STAT_BACKSTOP && !s.on R.SAF_STAT_RELSEQ

/-- STO_FB brought to what R411 gives. -/
def State.fbUpdate (s : State) : State := s.setB R.SAF_STAT_FB s.fbHigh

/-- Both switches commanded open; a release sequence ends (R412, R414). -/
def State.openSwitches (s : State) : State :=
  let was := s.sto.cmd1 || s.sto.cmd2
  let s := s.set R.SAF_STAT_RELSEQ 0
  let s := { s with sto := { s.sto with cmd1 := false, cmd2 := false, step := 0, proved := s.sto.proved && !was } }
  s.fbUpdate

/-- A diagnostic failure (R416): DIAG and DCAUSE latch, the switches open and stay open, TORQUE-OFF is set, F4 of module scope. -/
def State.stoFail (s : State) (cause : Nat) : State :=
  if s.on R.SAF_STAT_DIAG then s else
  let s := s.set R.SAF_STAT_DIAG 1
  let s := s.set R.SAF_STAT_DCAUSE cause
  let s := s.set R.SAF_STAT_ENGAGED 1
  let s := s.openSwitches
  s.torqueOff.raiseMod 0x1002 4

/-- The release sequence begun (R414, step 1 and the closing of SW1), if the logic may release and has not. -/
def State.tryRelease (s : State) : State :=
  if s.domOn 5 && !s.on R.SAF_STAT_REQ && !s.on R.SAF_STAT_DIAG && !s.on R.BUS_STAT_BACKSTOP && s.sto.step10
      && !s.on R.SAF_STAT_RELSEQ && !s.sto.cmd1 && !s.sto.cmd2 then
    let s := s.set R.SAF_STAT_RELSEQ 1
    let s := s.set R.SAF_STAT_ENGAGED 0
    let s := { s with sto := { s.sto with cmd1 := true, step := 2, proved := false } }
    s.fbUpdate
  else s

/-- STO_ENGAGE (R410, R412): both comparators have read off for a time; for STOFLT or more the request becomes torque off, a shorter
pulse is filtered and counted. -/
def execStoEngage (offUs : Nat) (s : State) : Out :=
  if !s.domOn 5 then .next s
  else if s.on R.SAF_STAT_REQ then .next ((s.set R.SAF_STAT_IN_A 0).set R.SAF_STAT_IN_B 0)
  else if offUs < s.hl R.SAF_CFG_STOFLT then .next (s.bump R.SAF_CNT_PULSES)
  else
    let s := (s.set R.SAF_STAT_IN_A 0).set R.SAF_STAT_IN_B 0
    let s := s.set R.SAF_STAT_REQ 1
    let s := s.set R.SAF_STAT_ENGAGED 1
    let s := s.bump R.SAF_CNT_ENGCNT
    let s := s.openSwitches
    .next (s.torqueOff.raiseMod 0x1001 0)

/-- STO_RELEASE_REQUEST (R410, R414): both comparators have read on for 2 ms; the filtered request is release. -/
def execStoReleaseRequest (s : State) : Out :=
  if !s.domOn 5 then .next s else
  let s := (s.set R.SAF_STAT_IN_A 1).set R.SAF_STAT_IN_B 1
  let s := (s.set R.SAF_STAT_REQ 0).fbUpdate
  .next s.tryRelease

/-- The live sensor bits as a check sees them. -/
def State.stoLive (s : State) (o : StoObs) : State :=
  let s := s.setB R.SAF_STAT_I_SW1 o.i1
  let s := s.setB R.SAF_STAT_I_SW2 o.i2
  s.setB R.SAF_STAT_VGS_HI o.vgs90

/-- STO_RELEASE_STEP (R414, R484): the check of step 2 passes and SW2 closes, or the check of step 3 passes and the sequence ends; a
failed check latches DIAG. -/
def execStoReleaseStep (o : StoObs) (s : State) : Out :=
  match s.sto.step with
  | 2 =>
    let s := s.stoLive o
    if o.vgs1V then .next (s.stoFail 3)
    else if !o.line1 then .next (s.stoFail 2)
    else .next { s with sto := { s.sto with cmd2 := true, step := 3 } }
  | 3 =>
    let s := s.stoLive o
    if o.i1 && o.i2 && o.vgs90 then
      let s := s.set R.SAF_STAT_RELSEQ 0
      .next { s with sto := { s.sto with step := 4, nextTest := 1 } }
    else if o.i1 && !o.i2 then .next (s.stoFail 3)
    else .next (s.stoFail 2)
  | _ => .next s

/-- Whether the image uses a slice of a die. -/
def State.dieUsed (s : State) (d : Nat) : Bool := slices.any fun n => dieOf n == d && s.ax[n].used

/-- TORQUE_OFF_CLEAR (R414, step 4): after a release, once V_DRV_OK of every die in use is set, TORQUE-OFF clears; no axis is enabled
(R99). -/
def execTorqueOffClear (s : State) : Out :=
  if s.sto.step == 4 && (!s.dieUsed 0 || s.on R.BUS_STAT_VDRV_OK_A) && (!s.dieUsed 1 || s.on R.BUS_STAT_VDRV_OK_B) then
    let s := { s with sto := { s.sto with step := 0 } }
    .next (s.setOverlay R.SYS_STATE_TORQUE_OFF false)
  else .next s

/-- STO_OPEN_CHECK (R484, R411): 150 µs after opening; the switches are proved open or DIAG latches. -/
def execStoOpenCheck (o : StoObs) (s : State) : Out :=
  if !s.domOn 5 || s.sto.cmd1 || s.sto.cmd2 then .next s else
  let s := s.stoLive o
  if o.i1 || o.i2 || o.vgs1V then .next (s.stoFail (if o.i2 && !o.i1 then 3 else 2))
  else .next ({ s with sto := { s.sto with proved := true } } : State).fbUpdate

/-- STO_SWITCH_TEST (R415): an off-pulse of one closed switch, never during a release sequence or while torque off is requested. -/
def execStoSwitchTest (sw : Fin 2) (ok : Bool) (s : State) : Out :=
  if !s.domOn 5 || s.on R.SAF_STAT_RELSEQ || s.on R.SAF_STAT_REQ || !s.sto.cmd1 || !s.sto.cmd2 then .next s
  else if ok then .next { s.bump R.SAF_CNT_TSTCNT with sto := { s.sto with nextTest := 1 - sw } }
  else .next (s.stoFail (2 + sw.val))

/-- STO_INPUT_DISAGREE (Table STO.4): the comparators disagree for 1 ms; cause INPUT. -/
def execStoInputDisagree (s : State) : Out := .next (if s.domOn 5 then s.stoFail 1 else s)

/-- STO_CLOCK_FAILURE (Table STO.4): the field clock has stopped or is more than 10 % off; cause CLOCK. -/
def execStoClockFailure (s : State) : Out := .next (if s.domOn 5 then s.stoFail 4 else s)

/-- STO_FB_MISMATCH (Table STO.4): STO_FB's readback differs from its command for 100 µs; cause FBOUT. -/
def execStoFbMismatch (s : State) : Out := .next (if s.domOn 5 then s.stoFail 5 else s)

end Sys2Proof.Machine
end

