-- ==== Sys2Proof/Machine/Power.lean ====
section
/-!
DEFINITION. Machine/Power.lean: performance levels, sleep and wake, and thermal management (R436 to R450, R472).
-/

namespace Sys2Proof.Machine

/-! Performance level (R437, R438). -/

/-- PERF_LEVEL_CHANGE_DONE (R438): the level changed to is in effect; a request that came meanwhile starts the next change. -/
def execPerfLevelChangeDone (s : State) : Out :=
  .next (if s.on R.PWR_PLVL_BUSY then ((s.set R.PWR_PLVL_EFF s.pw.goal).set R.PWR_PLVL_BUSY 0).perfCheck else s)

/-! Sleep (R439, R440). -/

/-- FIOMODE of FIO0 to FIO3. -/
def State.fioMode (s : State) (k : Nat) : Nat := bitsOf (s.get R.PWR_WCFG_FIOMODE) (2 * k) 2

/-- The enabled wake sources, by WSRC code, and whether each is edge-type (Table PWR.4). -/
def State.wakeSources (s : State) : List (Nat × Bool) :=
  [(1, s.on R.PWR_WCFG_ETH0, false), (2, s.on R.PWR_WCFG_ETH1, false), (3, s.on R.PWR_WCFG_HRS, false),
   (4, s.on R.PWR_WCFG_CAN0 && s.on (R.CAN_CFG_WAKEN 0), false), (5, s.on R.PWR_WCFG_SYNCIN, true),
   (6, s.get R.PWR_SLEEP_GUARD != 0, false), (7, s.fioMode 0 != 0, s.fioMode 0 == 2), (8, s.fioMode 1 != 0, s.fioMode 1 == 2),
   (9, s.fioMode 2 != 0, s.fioMode 2 == 2), (10, s.fioMode 3 != 0, s.fioMode 3 == 2)].filterMap fun x : Nat × Bool × Bool =>
    if x.2.1 then some (x.1, x.2.2) else none

/-- Whether a level-type source or the guard timer can wake the module (R439). -/
def State.wakeable (s : State) : Bool := s.wakeSources.any fun x => !x.2

/-- The result of a sleep command (Table PWR.3): the lowest code that applies. -/
def State.sleepCode (s : State) : Nat :=
  if s.dev != 1 || !s.cmdsOn then 1
  else if s.updBusy || s.debugHalt then 2
  else if !s.wakeable then 3
  else if s.get R.TWN_STAT_LSTATE != 0 then 4
  else 0

/-- A sleep command at its boundary (R439, R440): refused with its code and an F0 notice, or entry starts and the units stop (R159, R320,
R344, R373, R390, R405). -/
def State.sleepCmd (s : State) (v : Nat) : State :=
  if v = 0 then s else
  let code := s.sleepCode
  let s := s.set R.PWR_SLEEP_RESULT code
  if code != 0 then s.raiseMod 0x1205 0 code else
  let replay := !s.pw.entered || !s.boot.tapIdle || s.pw.retried
  let s := (s.setB R.PWR_WSTAT_REPLAY replay).holdLevels.acqStopRun.canHalt
  let s := { s with outbox := [], net := NetDyn.reset }.each [(0 : Fin 3), 1] fun s p =>
    ((s.dropPort p).set (R.NET_PSTAT_LINK p) 0).set (R.NET_PSTAT_SYNC p) 0
  let s := if v = 1 then s.set R.SCH_STAT_STATE 2 else s.schedStop
  let s := s.clockStop.modFio fun x => { x with wdRun := false, pulse := 0 }
  (s.set R.NET_FOSTAT_LEARNED 0).modPw fun p =>
    { p with entry := v, entryAt := s.clock.up, armed := s.wakeSources, guardMs := s.get R.PWR_SLEEP_GUARD, early := none, entered := true }

/-- The staged words of PWR_SLEEP and PWR_WCFG taken at the command's boundary (R472). -/
def State.takeSleepWords (s : State) : State :=
  let mine := fun (x : Staged) => x.own == Own.mcc && (x.fld.addr == 0x10030 || (x.fld.addr == 0x10028 && x.fld.lo == 32))
  { (s.applyStaged (s.staged.filter mine)) with staged := s.staged.filter fun x => !mine x }

def execSleepS1 (s : State) : Out := .next (s.takeSleepWords.sleepCmd 1)

def execSleepS2 (s : State) : Out := .next (s.takeSleepWords.sleepCmd 2)

def execSleepS3 (s : State) : Out := .next (s.takeSleepWords.sleepCmd 3)

/-- A core without clock or supply: no run, load or store is left under way. -/
def CoreDyn.stopped (c : CoreDyn) : CoreDyn :=
  { c with run := none, levels := [], loads := [], stores := [], wait := .none, stepArmed := false, stopReq := false }

/-- What S2 loses (Table PWR.2): banks not named in RETBANKS, the scheduler's runtime state; the dies are off. -/
def State.loseS2 (s : State) : State :=
  let s := s.each (upto 48) fun s b =>
    if s.bitOf R.PWR_RET_RETBANKS b then s else s.zeroRange (0x10000000 + b * 0x80000) (0x10000000 + (b + 1) * 0x80000)
  let s := { s with sched := SchedDyn.reset }.schedStop
  let s := s.each slices fun s n => (s.modAx n fun a => { a with started := false }).modPwm n fun p => { p with running := false }
  let s := (s.modFio fun x => { x with groups := 0, waiting := 0 }).diesOff
  ({ s with core := s.core.map CoreDyn.stopped }.set R.PWR_STAT_DOM_ON 0).coreLevels.modBoot fun b => { b with seq := 0, flOn := false }

/-! Wake (R441 to R443). -/

/-- A wake begun by a source (WSRC code): its steps for S1 and S2 (R442), the power-up sequence for S3. -/
def State.startWake (s : State) (src : Nat) (pre replayed : Bool) : State :=
  let s := ((s.set R.PWR_WSTAT_WSRC src).setB R.PWR_WSTAT_PRE pre).setB R.PWR_WSTAT_REPLAYED replayed
  let s := (s.set R.PWR_WSTAT_WRETRY 0).set R.PWR_WSTAT_WAKE_FAIL 0
  match s.pw.sleep with
  | 1 => s.modPw fun p => { p with step := 4, early := none }
  | 2 => s.modPw fun p => { p with step := 1, early := none }
  | _ => (s.modPw fun p => { p with sleep := 0, early := none, retried := false }).startSequence

/-- SLEEP_ENTRY_COMPLETE (R440): the domains are off as Table PWR.2 gives and the Rind waits, or wakes at once on an event it has latched. -/
def execSleepEntryComplete (s : State) : Out :=
  let v := s.pw.entry
  if v = 0 then .next s else
  let s := (s.set R.PWR_WSTAT_SLP v).bump R.PWR_WSTAT_SLPCNT
  let p0 := s.pw
  let early := p0.early
  let s := match v with
    | 1 => s
    | 2 => s.loseS2
    | _ => s.domainsOff
  let s := s.modPw fun p => { p with sleep := v, entry := 0, step := 0, entryAt := p0.entryAt, armed := p0.armed, guardMs := p0.guardMs }
  match early with
  | some (src, pre, edge) => .next (s.startWake src pre edge)
  | none => .next s

/-- WSRC of a source. -/
def WakeSrc.code : WakeSrc → Nat
  | .eth0 => 1
  | .eth1 => 2
  | .harso => 3
  | .can0 => 4
  | .syncIn => 5
  | .guard => 6
  | .fio k => 7 + k.val

/-- Whether a source was enabled when entry began (Table PWR.4); the Rind keeps it through every sleep state. -/
def State.srcOn (s : State) (x : WakeSrc) : Bool := s.pw.armed.any fun y => y.1 == WakeSrc.code x

/-- Whether a source is edge-type (Table PWR.4). -/
def State.srcEdge (s : State) (x : WakeSrc) : Bool := s.pw.armed.any fun y => y.1 == WakeSrc.code x && y.2

/-- WAKE_EVENT (R440, R441): during entry it is latched, or in the window an edge is lost outside replay mode; asleep it wakes the module.
A guard event has the time of its end. -/
def execWakeEvent (src : WakeSrc) (window : Bool) (s : State) : Out :=
  if s.leaving || s.boot.resetLow || !s.srcOn src then .next s else
  let s := if src == .guard && (s.pw.sleep != 0 || s.pw.entry != 0)
    then s.passTo (s.pw.entryAt + s.pw.guardMs * 1000000 * nsUnit) else s
  if s.pw.entry != 0 then
    if s.pw.early.isSome then .next s
    else if !window then .next (s.modPw fun p => { p with early := some (WakeSrc.code src, true, false) })
    else if !s.srcEdge src then .next (s.modPw fun p => { p with early := some (WakeSrc.code src, false, false) })
    else if s.on R.PWR_WSTAT_REPLAY then .next (s.modPw fun p => { p with early := some (WakeSrc.code src, false, true) })
    else .next s
  else if s.pw.sleep != 0 && s.pw.step == 0 && !s.pw.waitRetry then .next (s.startWake (WakeSrc.code src) false false)
  else .next s

/-- The hard limits as the registers hold them, copied into the slice dies and the field die (R29, Table IMG.4 step 9). -/
def State.copyLimits (s : State) : State :=
  { s with arc := { s.arc with hlCopy := s.regs.filter fun x => match regAt (x.1 / 64 * 8) with | some (r, _) => r.hl | none => false } }

/-- The ports, the time engine, comparators and CAN controllers start, as at INTAKE step 10 (R320, R325, R390). -/
def State.startEngines (s : State) : State :=
  ({ s with net := NetDyn.reset }.clockStart).cmpStart.canStart

/-- Slices and field groups start one after another (R58). -/
def State.startUnits (s : State) (withSlices : Bool) : State :=
  s.modBoot fun b => { b with starting := true, groupsDone := 0,
                              slicesLeft := if withSlices then slices.filter fun n => s.ax[n].used else [] }

/-- The module awake in HOLD after step 4 (R442): sessions have ended; the scheduler's tick goes on after S1 and starts anew after S2. -/
def State.awake (s : State) : State :=
  let s1 := s.pw.sleep == 1
  let s := if s1 then s else s.copyLimits
  let s := { s.endSessions with sto := { s.sto with step10 := true } }
  let s := s.modPw fun p => { p with sleep := 0, step := 0, waitRetry := false, retried := s.get R.PWR_WSTAT_WRETRY != 0 }
  let s := s.startEngines.modFio fun x => { x with groups := 0, waiting := 0 }
  let s := if s1 then s.set R.SCH_STAT_STATE 1 else s.schedStart
  (s.startUnits (!s1)).tryRelease

/-- WAKE_STEP_DONE (R442, Table PWR.5). -/
def execWakeStepDone (s : State) : Out :=
  if s.leaving || s.boot.resetLow then .next s else
  match s.pw.step with
  | 1 => .next ((((s.set R.PWR_STAT_DOM_ON 0xFF).coreLevels.modBoot fun b => { b with seq := 9 }).fieldOn).modPw fun p => { p with step := 2 })
  | 2 => .next (s.modPw fun p => { p with step := 3 })
  | 3 => .next ((s.modBoot fun b => { b with flOn := true }).modPw fun p => { p with step := 4 })
  | 4 => .next s.awake
  | _ => .next s

/-- WAKE_STEP_TIMEOUT (R443): every domain off; a retry waits, or after the third retry the module stays in the Rind with WAKEFAIL. -/
def execWakeStepTimeout (s : State) : Out :=
  let k := s.pw.step
  if k = 0 then .next s else
  let s := s.set R.PWR_WSTAT_WSTEP k
  if s.get R.PWR_WSTAT_WRETRY = 3 then
    let s := (s.set R.PWR_WSTAT_WAKE_FAIL 1).domainsOff
    .next ((s.modBoot fun b => { b with failed := true }).rindLog 0x1201 5 0)
  else
    let s := (s.bump R.PWR_WSTAT_WRETRY).loseS2
    .next (s.modPw fun p => { p with sleep := 2, step := 0, waitRetry := true })

/-- WAKE_RETRY (R443): the wake restarts from step 1. -/
def execWakeRetry (s : State) : Out :=
  .next (if s.pw.waitRetry then s.modPw fun p => { p with waitRetry := false, step := 1 } else s)

/-! Thermal management (R444 to R448). -/

/-- Whether the zones are judged: their limits are loaded. -/
def State.zonesLoaded (s : State) : Bool := s.dev != 0 && !s.boot.recovery

/-- Whether a channel is a zone that counts (R444). -/
def State.zoneCounts (s : State) (z : Nat) : Bool := z < 10 || (z < 14 && s.bitOf R.THM_CFG_NTCEN (z - 10))

/-- The zone's data. -/
def State.zone (s : State) (z : Nat) : ZoneDyn := nthD s.pw.zones z ZoneDyn.reset

def State.modZone (s : State) (z : Nat) (f : ZoneDyn → ZoneDyn) : State :=
  s.modPw fun p => { p with zones := setNth p.zones z (f (nthD p.zones z ZoneDyn.reset)) }

/-- T now, in 0.01 °C. -/
def ZoneDyn.temp (z : ZoneDyn) : Int := nthD z.temps 0 0

/-- The rise over the last 16 samples (0.128 s), none before 16 samples. -/
def ZoneDyn.rise (z : ZoneDyn) : Int := if z.temps.length = 17 then nthD z.temps 0 0 - nthD z.temps 16 0 else 0

/-- Whether a reading is that of a broken sensor (R448): open or short (R40), outside −40 °C to 150 °C, or stuck for 1024 samples. -/
def readingBad (z : Nat) (d : ZoneDyn) : Bool :=
  (10 ≤ z && (d.raw * 3000 > 2950 * 4096 || d.raw * 3000 < 50 * 4096)) || d.temp < -4000 || d.temp > 15000 || 1024 ≤ d.same

/-- A reading put into THM_MEASk, and for a zone into its history. -/
def State.takeReading (s : State) (r : Reading) : State :=
  let k := r.sensor
  if 20 ≤ k then s else
  let s := (s.setS (R.THM_MEAS_VALUE k) r.temp).set (R.THM_MEAS_RAW k) r.raw
  if 14 ≤ k then
    let v := ofS 16 r.temp
    match k with
    | 14 => s.set R.PWR_FEED_FA_MV v
    | 15 => s.set R.PWR_FEED_FB_MV v
    | 16 => s.set R.PWR_FEED_VFA_MV v
    | 17 => s.set R.PWR_FEED_VFB_MV v
    | _ => s
  else
    let s := s.modZone k fun z =>
      { z with temps := (r.temp :: z.temps).take 17, raw := r.raw, same := if r.raw = z.raw then z.same + 1 else 1 }
    s.setS (R.THM_MEAS_RATE k) (Int.fdiv ((s.zone k).rise * 1000) 128)

/-- BROKEN of a zone (R448): set by a bad reading with F1, cleared after 16 valid samples. -/
def State.judgeSensor (s : State) (z : Nat) : State :=
  let d := s.zone z
  let was := s.bitOf R.THM_STAT_BROKEN z
  if readingBad z d then
    let s := (s.modZone z fun d => { d with good := 0 }).putBit R.THM_STAT_BROKEN z true
    if was then s else s.raiseMod 0x1203 1 z
  else
    let s := s.modZone z fun d => { d with good := d.good + 1 }
    if was && 16 ≤ d.good + 1 then s.putBit R.THM_STAT_BROKEN z false else s

/-- Whether a zone is in request (R445, R448). -/
def State.inRequest (s : State) (z : Nat) : Bool :=
  s.zoneCounts z && (s.bitOf R.THM_STAT_BROKEN z || (s.zone z).temp > s.getS (R.THM_ZONE_TREQ z)
    || (s.zone z).rise * 1000 > (s.get R.THM_CFG_RATE * 1280 : Nat))

/-- Whether a zone lets THROTTLE go (R447). -/
def State.released (s : State) (z : Nat) : Bool :=
  !s.zoneCounts z || (!s.bitOf R.THM_STAT_BROKEN z && (s.zone z).temp ≤ s.getS (R.THM_ZONE_TREL z)
    && (s.zone z).rise * 1000 ≤ (s.get R.THM_CFG_RATE * 1280 : Nat))

/-- A THROTTLE notice (R360). -/
def State.thrNotice (s : State) (z stage grace : Nat) : State :=
  let v := (slices.filter fun n => s.zoneHas z n).foldl (fun m n => min m (s.zoneFactors n).1) 65536
  s.notice 2 ([z, stage] ++ beBytes 2 (ofS 16 (s.zone z).temp) ++ beBytes 2 grace ++ beBytes 4 v)

/-- One millisecond of the Rind's time. -/
def msUnit : Nat := 1000000 * nsUnit

/-- GRACE_LEFT as it stands. -/
def State.graceLeft (s : State) : State :=
  s.set R.THM_STAT_GRACE_LEFT (if s.on R.SYS_STATE_THROTTLE then (s.pw.graceEnd - s.clock.up) / msUnit else 0)

/-- Enforcement begun (R445), each zone in request due for its first step (R446). -/
def State.enforce (s : State) : State :=
  s.each (upto 14) (fun s z => if s.bitOf R.THM_STAT_REQ z then s.modZone z fun d => { d with since := some 0, due := true } else s)
    |>.modPw fun p => { p with enforcing := true }

/-- The samples since each zone's last step counted, and the steps that fall due (R446). -/
def State.countSteps (s : State) : State :=
  s.each (upto 14) fun s z =>
    if !s.bitOf R.THM_STAT_REQ z then s.modZone z fun d => { d with since := none, due := false }
    else s.modZone z fun d =>
      match d.since with
      | none => { d with since := some 0, due := true }
      | some k => if s.get R.THM_CFG_ENFSTEP ≤ k + 1 then { d with since := some 0, due := true } else { d with since := some (k + 1) }

/-- THROTTLE raised by a zone (R445). -/
def State.raiseThrottle (s : State) (z : Nat) : State :=
  let g := s.get R.THM_CFG_GRACE
  let s := (s.setOverlay R.SYS_STATE_THROTTLE true).modPw fun p => { p with graceEnd := s.clock.up + g * msUnit, zone0 := z, enforcing := false }
  (s.thrNotice z 1 g).raiseMod 0x1204 1 z

/-- THROTTLE released (R447): factors return at the next servo boundary, at once where no slice has one. -/
def State.releaseThrottle (s : State) : State :=
  let s := (s.setOverlay R.SYS_STATE_THROTTLE false).setOverlay R.SYS_STATE_THR_ENF false
  let s := s.modPw fun p =>
    { p with enforcing := false, undo := true, zones := p.zones.map fun z => { z with since := none, due := false, v := 65536, i := 65536 } }
  let s := (s.thrNotice s.pw.zone0 3 0).raiseMod 0x1204 1 s.pw.zone0
  let idle := slices.filter fun n => !s.ax[n].started
  let s := s.each idle State.applyFactors
  if idle.length = 16 then ((s.modPw fun p => { p with undo := false }).set R.PWR_PLVL_CAP 0).perfCheck else s

/-- What a sample makes of the zones (R445, R447). -/
def State.judgeZones (s : State) : State :=
  let s := s.each ((upto 14).filter s.zoneCounts) State.judgeSensor
  let req := (upto 14).filter s.inRequest
  let s := s.set R.THM_STAT_REQ (maskOf 14 fun z => req.contains z)
  let s := match req with
    | z :: _ => if s.on R.SYS_STATE_THROTTLE then s else s.raiseThrottle z
    | [] => s
  let hot := fun (f : Nat → Fld) => (upto 14).filter fun z =>
    s.zoneCounts z && !s.bitOf R.THM_STAT_BROKEN z && (s.zone z).temp > s.getS (f z)
  let s := if (hot R.THM_ZONE_TCRIT).isEmpty then s else s.modPw fun p => { p with graceEnd := min p.graceEnd s.clock.up }
  let s := s.each (hot R.THM_ZONE_TSHUT) fun s z =>
    if s.faults.latched.any fun l => l.code == 0x1202 && l.sindex == z then s else s.raiseZone 0x1202 4 z
  let s :=
    if !s.on R.SYS_STATE_THROTTLE then s
    else if s.pw.enforcing then s.countSteps
    else if s.pw.graceEnd ≤ s.clock.up && !req.isEmpty then s.enforce
    else s
  let s := if s.on R.SYS_STATE_THROTTLE && (upto 14).all s.released then s.releaseThrottle else s
  s.graceLeft

/-- HOUSEKEEPING_SAMPLE (R444): 8 ms after the last one. -/
def execHousekeepingSample (readings : List Reading) (s : State) : Out :=
  if !s.boot.rind then .next s else
  let s := if s.pw.sampleAt = 0 then s else s.passTo (s.pw.sampleAt + 8 * msUnit)
  let s := (s.modPw fun p => { p with sampleAt := s.clock.up }).each readings State.takeReading
  .next (if s.zonesLoaded then s.judgeZones else s)

/-- GRACE_EXPIRY (R445): grace ends; enforcement begins if a zone is in request. -/
def execGraceExpiry (s : State) : Out :=
  if !s.on R.SYS_STATE_THROTTLE || s.pw.enforcing then .next s else
  let s := (s.passTo s.pw.graceEnd).graceLeft
  .next (if s.get R.THM_STAT_REQ != 0 then s.enforce else s)

/-- Whether a ladder has P steps (Table PWR.6). -/
def ladderP (z : Nat) : Bool := z < 3 || z == 8 || z == 9

/-- Whether a P step is possible (R446). -/
def State.canCap (s : State) : Bool :=
  s.get R.PWR_PLVL_CAP < 3 && (s.axesOff || s.get R.PWR_PLVL_CAP < s.get R.PWR_PLVL_FLOOR)

/-- The next step of a zone's ladder (R446), none when it has run to its end. -/
def State.ladderStep (s : State) (z : Nat) : Option State :=
  if ladderP z && s.canCap then some (s.bump R.PWR_PLVL_CAP).perfCheck
  else if (s.zone z).v > 0x4000 then some (s.modZone z fun d => { d with v := d.v - 0x4000 })
  else if (s.zone z).i > 0x4000 then some (s.modZone z fun d => { d with i := d.i - 0x4000 })
  else none

/-- THROTTLE_STEP (R446): a step that is due, with its stage 2 notice; the first sets THR_ENF. -/
def execThrottleStep (z : Fin 14) (s : State) : Out :=
  if !s.pw.enforcing || !(s.zone z).due then .next s else
  let s := s.modZone z fun d => { d with due := false }
  match s.ladderStep z with
  | none => .next s
  | some s =>
    let s := s.each (slices.filter fun n => !s.ax[n].started) State.applyFactors
    .next ((s.setOverlay R.SYS_STATE_THR_ENF true).thrNotice z 2 0)

end Sys2Proof.Machine
end

