-- ==== Sys2Proof/Machine/Twin.lean ====
section
/-!
DEFINITION. Machine/Twin.lean: the Harso link, mirror frames, alignment, claims and the switchover (R420 to R434).
-/

namespace Sys2Proof.Machine

/-! Frames sent (R421). -/

/-- The image's mirror list has no layout in the spec: the 24 context words it copies are free values (log entry 40). -/
def State.contextWords (s : State) (n : Slice) : List Nat :=
  (upto 24).map fun i => (Config.freeValue (s.draws + 24 * n.val + i)).toNat

/-- The record of an axis (R421). -/
def State.axisRecord (s : State) (n : Slice) : MirrorAxis :=
  let p := s.prof[n]
  let m := s.loadSlice n
  { slice := n, axst := s.axst n, mode := s.axmode n, phase := s.get (R.SLC_SLSTAT_PHASE n), pcmd := p.pcmd,
    pcmdPrev := p.pcmd - s.sup[n].lastV, p := s.fb[m].lastP, instant := s.compact, sofs := p.sofs, shift := s.fb[m].ofs,
    homed := s.on (R.SLC_PRSTAT_HOMED n), poslost := s.on (R.SLC_FBSTAT_POSLOST m), slost := s.on (R.SLC_PRSTAT_SLOST n),
    target := p.target, vel := p.vel, acc := p.acc, reached := p.done, plan := p.plan, gear := p.gear,
    theta := s.get (R.SLC_SLOBS_THETA_EST n), omega := s.getS (R.SLC_SLOBS_OMEGA_EST n), ctx := s.contextWords n }

/-- The record of a path group (R421). -/
def State.groupRecord (s : State) (g : Fin 8) : MirrorGroup :=
  { group := g, state := s.gstate g, sigma := s.grp[g].sigma, f := s.grp[g].f, head := s.get (R.GRP_STAT_HEAD g),
    count := s.get (R.GRP_STAT_COUNT g) }

/-- The frame that closes a cycle (Table TWN.2). -/
def State.mirrorFrame (s : State) : MirrorFrame :=
  let due := fun n => bit s.twin.due (n : Slice).val == 1
  { intact := true, ecc := .clean, type := 1,
    holding := s.get R.TWN_STAT_LSTATE == 2 && s.leaseDrives, rank := s.get R.SYS_STRAP_RANK,
    torqueOff := s.on R.SYS_STATE_TORQUE_OFF, orderly := s.twin.orderly && s.dev == 1, handover := s.twin.handover,
    reclaim := s.twin.reclaim, synced := s.on R.TWN_STAT_SYNCED, epoch := s.get R.TWN_EPOCH_EPOCH, cycle := s.compact,
    imgId := s.boot.imgId, lease := s.get R.TWN_CFG_LEASE, state := s.dev,
    axes := (s.axes.filter due).map s.axisRecord,
    groups := ([0, 1, 2, 3, 4, 5, 6, 7].filter fun g => (s.members (g : Fin 8).val).any due).map s.groupRecord }

/-- MIRROR_FRAME_SEND (R421): one frame after each event of source 0. -/
def execMirrorFrameSend (s : State) : Out :=
  if !s.on R.TWN_CFG_EN || s.dev == 0 || !s.twin.sendDue then .next s
  else
    let f := s.mirrorFrame
    .next ({ s with draws := s.draws + 24 * 16 }.modTwin fun t => { t with sent := some f, due := 0, sendDue := false })

/-! The link (R420, R424). -/

/-- HARSO_LINK_UP (R420). -/
def execHarsoLinkUp (s : State) : Out :=
  if !s.domOn 4 then .next s else .next ((s.set R.TWN_STAT_LINK 1).syncCheck)

/-- TWINLOST (R424). -/
def State.twinLost (s : State) : State := if s.on R.TWN_CFG_EN then s.raiseMod 0x1101 1 else s

/-- HARSO_LINK_DOWN (R420, R424). -/
def execHarsoLinkDown (s : State) : Out :=
  if !s.on R.TWN_STAT_LINK then .next s else .next (((s.set R.TWN_STAT_LINK 0).syncCheck).twinLost)

/-- TWIN_FRAME_TIMEOUT (R424): no frame for one lease, or SYNCED clear in the partner's frames for 1 s after it first set; once per
occurrence. -/
def execTwinFrameTimeout (k : TwinTimeout) (s : State) : Out :=
  if !s.on R.TWN_CFG_EN || s.dev == 0 then .next s else
  match k with
  | .noFrame =>
    if s.twin.silent then .next s
    else .next (((s.passTo (s.twin.lastFrame.getD 0 + s.leaseTime)).modTwin fun t => { t with silent := true }).twinLost)
  | .unsynced =>
    if s.twin.unsynced || !s.twin.pSyncedOnce || s.on R.TWN_STAT_PSYNCED then .next s
    else .next ((s.modTwin fun t => { t with unsynced := true }).twinLost)

/-! Frames received (R422 to R424, R427). -/

/-- The tolerance of an alignment (R423): ±16 interpolation steps in SINCOS, else exact. -/
def State.alignTol (s : State) (n : Slice) : Int := if s.fbMode (s.loadSlice n) == 2 then 16 * 2 ^ 12 else 0

/-- A pair of a record with this member's own capture (R423): aligned once o has held for 16 pairs in a row. -/
def State.alignPair (s : State) (n : Slice) (p : Int) : State :=
  if !s.hasFb n then s.putBit R.TWN_STAT_ALIGNED n true
  else
    let o := wrapPos (p - s.fb[s.loadSlice n].lastP)
    let same : Bool := match nthD s.twin.offs n none with
      | some x => decide ((wrapPos (o - x)).natAbs ≤ (s.alignTol n).natAbs)
      | none => false
    let run := if same then satN 16 (nthD s.twin.runs n 0 + 1) else 1
    let s := s.modTwin fun t =>
      { t with offs := if same then t.offs else setNth t.offs n (some o), runs := setNth t.runs n run }
    s.putBit R.TWN_STAT_ALIGNED n (run == 16)

/-- A record taken in SHADOW (R422): mode, state and setpoints of the axis; an own latched F3 or higher keeps it FAULTED. -/
def State.takeRecord (s : State) (r : MirrorAxis) : State :=
  let n := r.slice
  if !s.ax[n].used || s.oddInPair n then s else
  let s := s.set (R.SLC_MODE_MODE n) r.mode
  let v := if 3 ≤ s.worst n then 4 else r.axst
  let s := if s.axst n = v then s else s.setAxst n v
  let s := s.setS (R.SLC_SVCMD0_PCMD n) r.pcmd
  let s := s.modProf n fun p =>
    { p with pcmd := r.pcmd, target := r.target, vel := r.vel, acc := r.acc, done := r.reached, plan := r.plan, gear := r.gear,
             sofs := r.sofs }
  let s := s.modTwin fun t => { t with recs := (n.val, 0, r) :: t.recs.filter fun x => x.1 != n.val }
  (s.putBit R.TWN_STAT_MIRRORED n true).alignPair n r.p

/-- The oldest segment of a mirrored group left behind, as the holder's HEAD has passed it. -/
def GroupDyn.leave (x : GroupDyn) : GroupDyn :=
  match x.queue with
  | [] => x
  | q :: t =>
    let p := q.endPos x.start
    { x with queue := t, start := p, startV := if q.kind = 4 then q.vend else p.map fun _ => 0 }

/-- A group record taken in SHADOW (R422): state, σ, f and HEAD; a group that starts to execute starts where its members stood. -/
def State.takeGroupRecord (s : State) (r : MirrorGroup) : State :=
  let g := r.group
  let pos := s.memberPos g
  let starts := s.gstate g < 2 && 2 ≤ r.state
  let skip := (r.head + 1024 - s.get (R.GRP_STAT_HEAD g)) % 1024
  let s := s.modGrp g fun x =>
    let x := if starts then { x with start := pos, startV := pos.map fun _ => 0 } else x
    { (upto (min skip x.queue.length)).foldl (fun x _ => x.leave) x with sigma := r.sigma, f := r.f }
  let s := (s.set (R.GRP_STAT_STATE g) r.state).set (R.GRP_STAT_HEAD g) r.head
  s.set (R.GRP_STAT_COUNT g) s.grp[g].queue.length

/-- The records of a frame as the MIRROR source hands them on: 256 bytes each, the first 64 in an order the spec does not give. -/
def State.mirrorPayload (s : State) (f : MirrorFrame) : List Nat :=
  f.axes.flatMap fun r => ((upto 8).map fun i => (Config.freeValue (s.draws + 8 * r.slice.val + i)).toNat) ++ r.ctx

/-- What a good frame's header says (R424, R427, R428, Table STA.2). -/
def State.takeHeader (s : State) (f : MirrorFrame) : State :=
  let own := s.get R.TWN_EPOCH_EPOCH
  let now := s.clock.up
  let s := ((s.setB R.TWN_STAT_PSYNCED f.synced).setB R.TWN_STAT_PHOLD f.holding).set R.TWN_EPOCH_PEPOCH f.epoch
  let s := s.setB R.TWN_STAT_RECLAIM (f.reclaim || s.twin.reclaim)
  let s := s.modTwin fun t =>
    { t with lastFrame := some now, silent := false, pReclaim := f.reclaim, pSyncedOnce := t.pSyncedOnce || f.synced,
             unsynced := t.unsynced && !f.synced,
             lastHolding := if f.holding then some now else t.lastHolding,
             lastOrderly := if f.orderly then some now else t.lastOrderly }
  let diff := f.imgId != s.boot.imgId
  let s := if diff && !s.on R.TWN_STAT_IMGDIFF then s.raiseMod 0x1102 1 else s
  let s := s.setB R.TWN_STAT_IMGDIFF diff
  let same := f.rank == s.get R.SYS_STRAP_RANK
  let s := if same && !s.on R.TWN_STAT_RANKSAME then s.raiseMod 0x1103 4 else s
  let s := s.setB R.TWN_STAT_RANKSAME same
  let s := if s.get R.TWN_STAT_LSTATE == 2 && f.holding && own ≤ f.epoch then s.lockout else s
  let s := if own < f.epoch then s.set R.TWN_EPOCH_EPOCH f.epoch else s
  if own < f.epoch && s.dev == 1 && s.get R.TWN_STAT_LSTATE != 3 then s.shadow else s

/-- MIRROR_FRAME_RECEIVED (R420, R422 to R424, Table ARC.10). -/
def execMirrorFrameReceived (f : MirrorFrame) (s : State) : Out :=
  if !s.on R.TWN_CFG_EN || s.dev == 0 || !s.on R.TWN_STAT_LINK then .next s
  else if !f.intact || f.type != 1 then .next (s.bump R.TWN_CNT_MIRRDROP)
  else if f.ecc == .double then .next ((s.bump R.TWN_CNT_MIRRDROP).raiseMod 0x0102 1)
  else
    let s := if f.ecc == .single then { s with arc := { s.arc with eccCorr := s.arc.eccCorr + 1 } } else s
    let s := s.takeHeader f
    if s.dev != 3 then .next s.syncCheck
    else
      let s := s.arrive 8 0 (s.mirrorPayload f)
      let s := { s with draws := s.draws + 8 * 16 }
      let s := s.each f.groups State.takeGroupRecord
      .next ((s.each f.axes State.takeRecord).syncCheck)

/-! Token (R425 to R428). -/

/-- HOLD_IN_CHANGE (R425, R428): the level recognised by the Rind and the arbiter input. A release by the holder begins the gap of the
member in SHADOW (R432); in ARB an assertion makes rank B yield. -/
def execHoldInChange (level : Bool) (s : State) : Out :=
  let was := s.on R.TWN_STAT_HOLD_IN
  let s := s.setB R.TWN_STAT_HOLD_IN level
  if !s.on R.TWN_CFG_EN then .next s
  else if level then
    if !was && s.get R.TWN_STAT_LSTATE == 1 && s.on R.SYS_STRAP_RANK then .next s.arbYield else .next s
  else
    let s := s.modTwin fun t => { t with released := if was then s.clock.up else t.released }
    .next (if was && s.dev == 3 && s.get R.TWN_STAT_LSTATE == 0 then s.gapBegin true else s)

/-- CLAIM (R428, Table TWN.3): a claim is wanted in SHADOW and RCLM has come to hold, with the arbiter input released. -/
def execClaim (s : State) : Out :=
  if s.on R.TWN_STAT_HOLD_IN then .next s
  else
    let t := if s.on R.TWN_STAT_SYNCED then s.rclmAt else max s.rclmAt (s.twin.lastFrame.getD 0 + s.leaseTime)
    if (s.passTo t).claimWanted then .next (s.passTo t).claimNow else .next s

/-- ARB_WINDOW_END (Table TWN.3): 1 µs after HOLD_OUT rose, HOLD_IN released: HOLDING, and RUN at the next event of source 0. -/
def execArbWindowEnd (s : State) : Out :=
  if s.get R.TWN_STAT_LSTATE != 1 || s.on R.TWN_STAT_HOLD_IN then .next s
  else
    let s := (s.passBoth (1000 * nsUnit) (1000 * nsUnit)).set R.TWN_STAT_LSTATE 2
    .next (((s.loadLease).bump R.TWN_CNT_CLAIMS).modTwin fun t => { t with runDue := true })

/-- TOKENCONF (Table TWN.3): in ARB 2 µs after HOLD_OUT rose with HOLD_IN asserted; in HOLDING 2 µs of HOLD_IN asserted or of the HOLD_OUT pin
low. -/
def execTokenconf (s : State) : Out :=
  let l := s.get R.TWN_STAT_LSTATE
  if (l == 1 && s.on R.TWN_STAT_HOLD_IN) || l == 2 then .next s.lockout else .next s

/-- LEASE_EXPIRY (R426). -/
def execLeaseExpiry (s : State) : Out :=
  if s.get R.TWN_STAT_LSTATE != 2 then .next s else .next (s.passTo s.twin.leaseEnd).leaseLost

/-- SWITCHOVER_GAP_END (R432): LEASE + 4 module current cycles without a claim. -/
def execSwitchoverGapEnd (s : State) : Out :=
  if !s.on R.TWN_STAT_GAP then .next s else .next (s.gapOver.modTwin fun t => { t with gapStart := none })

/-- RECLAIM (R433): RHOLD in SHADOW without interruption, synchronised and free of TORQUE-OFF, by the rank that REVERT names. -/
def execReclaim (s : State) : Out :=
  let rank := if s.on R.SYS_STRAP_RANK then 2 else 1
  if s.on R.TWN_CFG_EN && s.dev == 3 && s.on R.TWN_STAT_SYNCED && !s.on R.SYS_STATE_TORQUE_OFF && s.get R.TWN_CFG_REVERT == rank
  then .next ((s.set R.TWN_STAT_RECLAIM 1).modTwin fun t => { t with reclaim := true })
  else .next s

/-! Entry to RUN (R430, R431, R181). -/

/-- An axis that continues after a claim (R430): its generator is advanced by the servo cycles that passed since its record, its
supervisor starts, and a stop under way goes on. -/
def State.resumeAxis (s : State) (n : Slice) (age : Nat) (r : MirrorAxis) : State :=
  let m := s.loadSlice n
  let aligned := s.bitOf R.TWN_STAT_ALIGNED n
  let o := (nthD s.twin.offs n none).getD 0
  let s := if !aligned then (s.set (R.SLC_FBSTAT_POSLOST m) 1).set (R.SLC_PRSTAT_HOMED n) 0
    else
      let s := (s.modFb m fun x => x.shift o).modSup n fun u => u.shift o
      let s := s.setS (R.SLC_FBPOS_POS m) (s.getS (R.SLC_FBPOS_POS m) + o)
      let s := s.setS (R.SLC_SVREF_PR n) (s.getS (R.SLC_SVREF_PR n) + o)
      let s := (s.setB (R.SLC_PRSTAT_HOMED n) r.homed).setB (R.SLC_FBSTAT_POSLOST m) r.poslost
      s.setB (R.SLC_PRSTAT_SLOST n) r.slost
  let st := s.axst n
  if st != 2 && st != 3 then s
  else
    let s := s.modProf n fun p => { p with replan := false, m := s.microstep n }
    let s := if s.axmode n == 3 then
        (match s.groupOf n with | some g => s.each (upto age) fun s _ => s.groupCycle g | none => s)
      else s.each (upto age) fun s _ => s.generate n
    let s := s.supStart n
    let s := s.modSup n fun u => { u with prevP := some s.prof[n].pcmd, lastV := r.pcmd - r.pcmdPrev }
    let s := if st == 3 then (s.modAx n fun a => { a with stop := .stop }).startRamp n .stop else s
    if !s.sensorless n then s
    else if r.phase == phRUN then
      let t := angleStep r.theta r.omega (age * s.get (R.SLC_SERVO_SDIV n) * s.cycleSteps n)
      { (s.enterSync n t (s.free % 2 ^ 16)) with draws := s.draws + 1 }
    else (s.set (R.SLC_SLSTAT_PHASE n) 0).modStart n fun q => { q with pending := r.phase != 0 }

/-- An axis at the entry to RUN after a claim (R430): unmirrored or of another image, or ENABLING: DISABLED with cause 0x07. -/
def State.takeOver (s : State) (n : Slice) : State :=
  let stop := fun (s : State) => if s.axOn n then s.leave n 0 (some 7) .other else s
  if s.on R.TWN_STAT_IMGDIFF || !s.bitOf R.TWN_STAT_MIRRORED n || s.axst n == 1 then stop s
  else match recOf s.twin.recs n.val with
    | none => stop s
    | some (age, r) => s.resumeAxis n age r

/-- The device enters RUN after a claim (R430, R431): from SHADOW the axes resume, serial encoders take frames again, and SWITCHOVER is
raised; words written before the entry do not end the hold of R431. -/
def State.claimRun (s : State) : State :=
  let was := s.dev
  let s := ((s.setDev 2).freeLevels).modTwin fun t => { t with runDue := false, reclaim := false }
  let s := s.set R.TWN_STAT_RECLAIM 0
  let s := { s with pwm := s.pwm.map fun p : PwmDyn =>
    { p with claimHold := true, shadows := p.shadows.map fun x => { x with lead := false } } }
  if was == 3 then (s.each s.axes State.takeOver).raiseMod 0x1105 1 else s

/-- Whether RCOND lets the holder hand over (R433). -/
def State.handoverOk (s : State) : Bool :=
  let still := fun n => !s.axOn n || (s.axst n == 2 && 8 ≤ s.sup[n].still)
  let f4 := (upto 32).any fun g => bit (s.groupWord g) 16 == 1 && s.groupDown g
  !s.on R.SYS_STATE_TORQUE_OFF && !f4 &&
    (!s.on R.TWN_CFG_RCOND || ((s.axes.all still) && (upto 8).all fun g => s.gstate g != 2))

/-- What an event of source 0 does to the twin logic (R421, R428, R433): a frame is due, RUN after a claim, the handover. -/
def State.twinCycle (s : State) : State :=
  if !s.on R.TWN_CFG_EN then s else
  let s := s.modTwin fun t => { t with sendDue := true }
  let s := if s.twin.runDue && s.get R.TWN_STAT_LSTATE == 2 then s.claimRun else s
  if s.get R.TWN_STAT_LSTATE == 2 && s.dev == 2 && s.twin.pReclaim && s.handoverOk then s.modTwin fun t => { t with handover := true }
  else s

/-- The completion pulse of a healthy cycle (R156, R426, R433): it reloads the lease, except in a handover, and feeds the field watchdog
where WDSRC says so (R405). -/
def State.completionPulse (s : State) : State :=
  let s := if s.get R.TWN_STAT_LSTATE == 2 && !s.twin.handover then s.loadLease else s
  if s.on R.FIO_WD_WDSRC then s.feedWatchdog else s

end Sys2Proof.Machine
end

