-- ==== Sys2Proof/Machine/Mcc.lean ====
section
/-!
DEFINITION. Machine/Mcc.lean: the boundary of the module current cycle (R7, R97, R483).
-/

namespace Sys2Proof.Machine

/-- The value of a whole staged register write to an address, the last one standing. -/
def stagedWord (l : List Staged) (a : Nat) : Option Nat := stagedVal l ⟨a, 0, 64, 0⟩

/-- The staged writes that are fields, not whole command words or PWR_SLEEP.CMD. -/
def fieldWrites (l : List Staged) : List Staged := l.filter fun x => (x.fld.w != 64 || x.fld.lo != 0) && x.fld.key != R.PWR_SLEEP_CMD.key

/-- The boundary of the module current cycle, marked by the token of source 0 (R148): staged writes take effect (R7), a device command
and a sleep command after them (R97, R472), a requested level is looked at (R437), and a change of SYS_STATE is told (R483). -/
def State.mccBoundary (s : State) : State :=
  let l := s.stagedFor .mcc 0
  let s := (s.unstage .mcc 0).applyStaged (fieldWrites l)
  let s := match stagedWord l 0x18 with
    | some v => s.sysCommand (v % 16)
    | none => s
  let s := match stagedVal l R.PWR_SLEEP_CMD with
    | some v => s.sleepCmd v
    | none => s
  s.perfCheck.flushState

end Sys2Proof.Machine
end

