-- ==== Sys2Proof/Machine/PipOps.lean ====
section
/-!
DEFINITION. Machine/PipOps.lean: a loop core's registers, flags, rounding, repeat levels, loads and posted stores, the abandon and the
end of a pip, and the frame that every instruction of Table PIP.9 runs in (R109 to R139).
-/

namespace Sys2Proof.Machine

def State.modCore (s : State) (k : Core) (f : CoreDyn → CoreDyn) : State := { s with core := s.core.set k (f s.core[k]) }

/-! Register select codes (Table PIP.7). -/

/-- A code that is not reserved. -/
def codeOk (c : Nat) : Bool := c < 0x34 || (0x38 ≤ c && c < 0x3C) || c == 0x3F

/-- D0 to D31. -/
def isD (c : Nat) : Bool := c < 32

/-- ACC0 to ACC3. -/
def isAcc (c : Nat) : Bool := 0x30 ≤ c && c < 0x34

/-- What MOV, MOVI, MOVIS, MOVHI, ADD, ADDI, SUB, CMP, CMPI, LD and ST read (R123): D, A, O and the registers CYC to CORE. -/
def isSrc (c : Nat) : Bool := c < 0x30 || (0x38 ≤ c && c < 0x3C)

/-- What they write (R123): D, A, O and FLG. -/
def isDst (c : Nat) : Bool := c < 0x30 || c == 0x39

/-- The flags as FLG shows them (Table PIP.1). -/
def PipFlags.word (f : PipFlags) : Nat := b2n f.n + 2 * b2n f.z + 4 * b2n f.c + 8 * b2n f.v + 16 * b2n f.sat

/-- FLG written. -/
def PipFlags.ofWord (v : Nat) : PipFlags := ⟨bit v 0 == 1, bit v 1 == 1, bit v 2 == 1, bit v 3 == 1, bit v 4 == 1⟩

/-- D register `i` modulo 32. -/
def CoreDyn.dreg (c : CoreDyn) (i : Nat) : Nat := (c.d[(⟨i % 32, by omega⟩ : Fin 32)]).toNat

/-- A D register written. -/
def CoreDyn.putD (c : CoreDyn) (i v : Nat) : CoreDyn :=
  { c with d := c.d.set (⟨i % 32, by omega⟩ : Fin 32) (BitVec.ofNat 64 v) }

/-- An A register (R109: bits [63:32] read zero). -/
def CoreDyn.areg (c : CoreDyn) (i : Nat) : Nat := (c.a[(⟨i % 8, by omega⟩ : Fin 8)]).toNat

/-- An A register written; bits [63:32] are ignored. -/
def CoreDyn.putA (c : CoreDyn) (i v : Nat) : CoreDyn :=
  { c with a := c.a.set (⟨i % 8, by omega⟩ : Fin 8) (BitVec.ofNat 32 v) }

/-- An O register. -/
def CoreDyn.oreg (c : CoreDyn) (i : Nat) : Nat := (c.o[(⟨i % 8, by omega⟩ : Fin 8)]).toNat

/-- An O register written; [63:37] is reserved. -/
def CoreDyn.putO (c : CoreDyn) (i v : Nat) : CoreDyn :=
  { c with o := c.o.set (⟨i % 8, by omega⟩ : Fin 8) (BitVec.ofNat 64 (v % 2 ^ 37)) }

/-- An accumulator, signed. -/
def CoreDyn.accS (c : CoreDyn) (i : Nat) : Int := (c.acc[(⟨i % 4, by omega⟩ : Fin 4)]).toInt

/-- An accumulator written, saturating at 96 bits with SAT (R118), and noted for the interlock of Table PIP.3. -/
def CoreDyn.putAcc (c : CoreDyn) (i : Nat) (v : Int) : CoreDyn :=
  let w := satS 96 v
  { c with acc := c.acc.set (⟨i % 4, by omega⟩ : Fin 4) (BitVec.ofInt 96 w),
           flags := { c.flags with sat := c.flags.sat || w != v },
           accBefore := i % 4 :: c.accBefore }

/-- The register of a code read on core `k`: 64 bits. -/
def CoreDyn.reg (c : CoreDyn) (k : Core) (code : Nat) : Nat :=
  if code < 0x20 then c.dreg code
  else if code < 0x28 then c.areg (code - 0x20)
  else if code < 0x30 then c.oreg (code - 0x28)
  else if code = 0x38 then c.cyc % 2 ^ 64
  else if code = 0x39 then c.flags.word
  else if code = 0x3A then (match c.run with | some r => r.pip | none => 0)
  else if code = 0x3B then k.val
  else 0

/-- The register of a code written: D, A, O or FLG. -/
def CoreDyn.putReg (c : CoreDyn) (code v : Nat) : CoreDyn :=
  if code < 0x20 then c.putD code v
  else if code < 0x28 then c.putA (code - 0x20) v
  else if code < 0x30 then c.putO (code - 0x28) v
  else if code = 0x39 then { c with flags := PipFlags.ofWord v }
  else c

/-- A 32-bit lane of a 64-bit value: .l (false) or .h (true). -/
def lane (v : Nat) (h : Bool) : Nat := if h then v / 2 ^ 32 % 2 ^ 32 else v % 2 ^ 32

/-- A lane, signed. -/
def laneS (v : Nat) (h : Bool) : Int := toS 32 (lane v h)

/-- A 64-bit value with one lane replaced. -/
def putLane (v : Nat) (h : Bool) (x : Nat) : Nat := if h then putBits v 32 32 x else putBits v 0 32 x

/-- A 64-bit value of two lanes. -/
def lanes (l h : Nat) : Nat := l % 2 ^ 32 + h % 2 ^ 32 * 2 ^ 32

/-! Flags (R125) and rounding (R117). -/

/-- N and Z of a 64-bit result, with SF. -/
def CoreDyn.setNZ (c : CoreDyn) (sf : Bool) (v : Nat) : CoreDyn :=
  if sf then { c with flags := { c.flags with n := bit v 63 == 1, z := v % 2 ^ 64 == 0 } } else c

/-- Z, with SF. -/
def CoreDyn.setZ (c : CoreDyn) (sf b : Bool) : CoreDyn := if sf then { c with flags := { c.flags with z := b } } else c

/-- V, with SF. -/
def CoreDyn.setV (c : CoreDyn) (sf b : Bool) : CoreDyn := if sf then { c with flags := { c.flags with v := b } } else c

/-- C, with SF. -/
def CoreDyn.setC (c : CoreDyn) (sf b : Bool) : CoreDyn := if sf then { c with flags := { c.flags with c := b } } else c

/-- The sticky SAT set where `b` holds. -/
def CoreDyn.stick (c : CoreDyn) (b : Bool) : CoreDyn := { c with flags := { c.flags with sat := c.flags.sat || b } }

/-- Rounding of x/2^n by a mode of Table PIP.5 (R117). -/
def rnd (mode : Nat) (x : Int) (n : Nat) : Int :=
  let q := Int.fdiv x (2 ^ n : Nat)
  let r := x - q * (2 ^ n : Nat)
  if mode = 2 then q
  else if 2 * r > (2 ^ n : Nat) then q + 1
  else if 2 * r = (2 ^ n : Nat) then
    if mode = 3 then (if x < 0 then q else q + 1) else (if q % 2 = 0 then q else q + 1)
  else q

/-- Rounding of x·2^k for any integer k. -/
def rndScale (mode : Nat) (x : Int) (k : Int) : Int :=
  if k ≥ 0 then x * (2 ^ k.toNat : Nat) else rnd mode x (-k).toNat

/-- The rounding mode of an instruction: RM, or LCn_CTRL.RMODE for 0 (R117). -/
def State.rmode (s : State) (k : Core) (rm : Nat) : Nat := if rm = 0 then s.get (R.LC_CTRL_RMODE k) else rm

/-- Whether a condition holds (Table PIP.8). -/
def PipFlags.holds (f : PipFlags) (cond : Nat) : Bool :=
  match cond with
  | 0x0 => true
  | 0x1 => f.z
  | 0x2 => !f.z
  | 0x3 => f.n != f.v
  | 0x4 => f.n == f.v
  | 0x5 => f.z || f.n != f.v
  | 0x6 => !f.z && f.n == f.v
  | 0x7 => f.c
  | 0x8 => !f.c
  | 0x9 => f.n
  | 0xA => !f.n
  | 0xB => f.v
  | 0xC => !f.v
  | 0xD => f.sat
  | _ => false

/-! Local memory of a core (R112). -/

/-- The address of core k's local memory. -/
def localBase (k : Nat) : Nat := 0x400000 + k * 0x40000

/-- Whether `n` bytes from an address lie in core k's local memory. -/
def inLocal (k a n : Nat) : Bool := localBase k ≤ a && a + n ≤ localBase k + 0x40000

/-! Repeat levels (R130). -/

/-- Past the instruction at `pc`: the levels left and the address that follows, looping back where a body ends (R130). -/
def stepPast : List Level → Nat → List Level × Nat
  | [], pc => ([], pc + 8)
  | l :: t, pc =>
    if pc = l.last then
      if 1 < l.left then ({ l with left := l.left - 1 } :: t, l.start) else stepPast t pc
    else (l :: t, pc + 8)

/-- The core past its present instruction. -/
def CoreDyn.advance (c : CoreDyn) : CoreDyn :=
  let r := stepPast c.levels c.pc
  { c with levels := r.1, pc := r.2 }

/-- The levels left by a jump to a target outside their bodies (R131). -/
def closeLevels : List Level → Nat → List Level
  | [], _ => []
  | l :: t, a => if l.start ≤ a && a ≤ l.last then l :: t else closeLevels t a

/-! Loads and posted stores (R115, R127). -/

/-- A load's data written to its registers. -/
def CoreDyn.landLoad (c : CoreDyn) (l : LoadDyn) : CoreDyn :=
  l.writes.foldl (fun c w =>
    match l.half with
    | none => c.putReg w.1 w.2
    | some h => c.putD w.1 (putLane (c.dreg w.1) h w.2)) c

/-- Every load under way completed, oldest first. -/
def CoreDyn.landAll (c : CoreDyn) : CoreDyn := { c.loads.foldl CoreDyn.landLoad c with loads := [] }

/-- Whether a load under way writes one of the registers named. -/
def CoreDyn.needs (c : CoreDyn) (codes : List Nat) : Bool :=
  c.loads.any fun l => l.writes.any fun w => codes.contains w.1

/-! The run of a pip. -/

/-- Word of a pip entry in graph memory (Table SCH.2). -/
def State.pipWord (s : State) (p w : Nat) : Nat := s.rd (0x600000 + p % 4096 * 64 + w * 8) 8

/-- Output edge e of a pip, or none (Table SCH.2, R143). -/
def State.outEdge (s : State) (p e : Nat) : Option Nat :=
  let v := s.rd (0x600000 + p % 4096 * 64 + 32 + e % 8 * 2) 2 % 2 ^ 14
  if v = 0x3FFF then none else some v

/-- The graph group of a pip (Table SCH.2). -/
def State.pipGroup (s : State) (p : Nat) : Nat := bitsOf (s.pipWord p 0) 40 5

/-- A notice of a core to the scheduler. -/
def State.note (s : State) (k : Core) (n : CoreNote) : State :=
  { s with sched := { s.sched with notes := s.sched.notes ++ [(k.val, n)] } }

/-- The core back to idle at the end of a pip; a halted core stays halted (R139). Loads under way still land. -/
def State.endRun (s : State) (k : Core) : State :=
  let s := s.modCore k fun c => { c.landAll with run := none, levels := [], wait := .none, posted := 0, accBefore := [], loadedBefore := [] }
  s.set (R.LC_STAT_STATE k) (if s.on (R.LC_DBG_HALTED k) then 2 else 0)

/-- The number of the pip that a core runs. -/
def State.pipOf (s : State) (k : Core) : Nat := match s.core[k].run with | some r => r.pip | none => 0

/-- The abandon of a pip (R133): recorded in LCn_FAULT, reported to the scheduler, F4 of the pip's graph group; in HALT no fault (R158). -/
def State.abandon (s : State) (k : Core) (code : Nat) : State :=
  let p := s.pipOf k
  let pc := s.core[k].pc
  let s := s.set (R.LC_FAULT_CODE k) code
  let s := s.set (R.LC_FAULT_PIPID k) p
  let s := s.set (R.LC_FAULT_VALID k) 1
  let s := s.set (R.LC_FAULT_PC k) pc
  let s := (s.endRun k).note k .abandoned
  if s.dev == 5 then s else s.raiseGraph 0x0501 4 (s.pipGroup p) code

/-- A corrected error in local memory (R134), which delays the access by one cycle. -/
def State.coreCorr (s : State) (k : Core) (a : Nat) : State :=
  let s := (s.bump (R.LC_ECC_CORR k)).set (R.LC_ECC_LASTADDR k) a
  s.modCore k fun c => { c with cyc := c.cyc + 1 }

/-- An uncorrectable error in local memory or the register file (R133, R135). -/
def State.coreUncorr (s : State) (k : Core) (a : Nat) : State :=
  (s.bump (R.LC_ECC_UNCORR k)).set (R.LC_ECC_LASTADDR k) a

/-- Whether a core takes its next instruction: running with no halt asked for, or halted with a step due (R139), and nothing waited for
(R127). -/
def State.coreReady (s : State) (k : Core) : Bool :=
  let c := s.core[k]
  c.wait == .none && c.run.isSome &&
    ((s.get (R.LC_STAT_STATE k) == 1 && !s.on (R.LC_DBG_HALT k) && !c.stopReq) || (s.get (R.LC_STAT_STATE k) == 2 && c.stepArmed))

/-- What LCn_DBG.PC and LCn_STAT.STATE show of a halted core after a step (R139). -/
def State.showPc (s : State) (k : Core) : State :=
  if s.on (R.LC_DBG_HALTED k) then s.set (R.LC_DBG_PC k) s.core[k].pc else s

/-- The wait for loads under way whose registers an instruction names (R115, Table PIP.3): they land, after a wait the spec bounds. -/
def State.awaitLoads (s : State) (k : Core) (codes : List Nat) : State :=
  if s.core[k].needs codes then
    let w := s.free % 193
    s.drawn.modCore k fun c => { c.landAll with cyc := c.cyc + w }
  else s.modCore k fun c => if codes.any c.loadedBefore.contains then { c with cyc := c.cyc + 1 } else c

/-- The frame of every instruction: nothing while the core takes none; then fetch (R112), the ECC of the fetch (R134), legality (R123),
the condition (R124), register parity (R135), the place at the end of a repeat body (R130), and the body, which moves the pc. `codes`
are the registers it names; `lastOk` is false for the instructions that R130 bars from the end of a body. -/
def State.pipFrame (s : State) (x : PipAt) (cond : Nat) (codes : List Nat) (legal lastOk : Bool)
    (body : State → State) : State :=
  let k := x.core
  if !s.coreReady k then s else
  let s := s.modCore k fun c => { c with stepArmed := false }
  let c := s.core[k]
  if !(inLocal k c.pc 8 && c.pc % 8 == 0) then s.abandon k 4
  else if x.ecc == .double then (s.coreUncorr k c.pc).abandon k 6
  else
    let s := if x.ecc == .single then s.coreCorr k c.pc else s
    if !(cond < 14 && codes.all codeOk && legal) then s.abandon k 1
    else if !c.flags.holds cond then
      (s.modCore k fun c => { c.advance with cyc := c.cyc + 1, accBefore := [], loadedBefore := [] }).showPc k
    else if x.parityBad then (s.coreUncorr k c.pc).abandon k 7
    else if !lastOk && c.levels.any (fun l => l.last == c.pc) then s.abandon k 5
    else (body (s.awaitLoads k codes)).showPc k

/-- An instruction that only changes its core: cycles spent, then the new registers and flags, then the next instruction. -/
def State.pipCore (s : State) (x : PipAt) (cond : Nat) (codes : List Nat) (legal : Bool) (cycles : CoreDyn → Nat)
    (f : CoreDyn → CoreDyn) : State :=
  s.pipFrame x cond codes legal true fun s =>
    s.modCore x.core fun c => (f { c with cyc := c.cyc + cycles c, accBefore := [], loadedBefore := [] }).advance

/-- An R-format instruction that changes only its core. `more` are registers it names beside DST, SA and SB. -/
def State.pipR (s : State) (x : PipAt) (f : RForm) (legal : Bool) (cycles : Nat) (g : CoreDyn → CoreDyn) (more : List Nat := []) : State :=
  s.pipCore x f.cond ([f.dst, f.sa, f.sb] ++ more) legal (fun _ => cycles) g

/-- An I-format instruction that changes only its core. -/
def State.pipI (s : State) (x : PipAt) (f : IForm) (legal : Bool) (g : CoreDyn → CoreDyn) : State :=
  s.pipCore x f.cond [f.dst, f.sa] legal (fun _ => 1) g

end Sys2Proof.Machine
end

