-- ==== Sys2Proof/Machine/Sched.lean ====
section
/-!
DEFINITION. Machine/Sched.lean: the pip scheduler: edges and tokens, sources, queues, dispatch, deadlines, group cycles and the judgement
of the module current cycle (R140 to R159).
-/

namespace Sys2Proof.Machine

/-! Graph memory (R140, R144, R148, R149). -/

/-- The edge entry of an edge (Table SCH.3). -/
def State.edgeWord (s : State) (e : Nat) : Nat := s.rd (0x640000 + e % 16384 * 8) 8

/-- Address of slot k of an edge (R144). -/
def State.edgeSlot (s : State) (e k : Nat) : Nat :=
  let w := s.edgeWord e
  bitsOf w 32 32 + k * 2 ^ (bitsOf w 20 4 + 3)

/-- Pending tokens an edge holds, D = DEPTH + 1. -/
def State.edgeDepth (s : State) (e : Nat) : Nat := bitsOf (s.edgeWord e) 16 3 + 1

/-! Edges and slots (R145). -/

/-- An edge's entry in a list, or nothing pending and no owner. -/
def edgeIn : List EdgeDyn → Nat → EdgeDyn
  | [], e => ⟨e, [], none, none⟩
  | x :: t, e => if x.edge = e then x else edgeIn t e

/-- A list without an edge's entry. -/
def dropEdge (l : List EdgeDyn) (e : Nat) : List EdgeDyn := l.filter fun x => x.edge != e

/-- An entry put in edge order. -/
def insertEdge (x : EdgeDyn) : List EdgeDyn → List EdgeDyn
  | [] => [x]
  | y :: t => if x.edge < y.edge then x :: y :: t else y :: insertEdge x t

/-- An edge's entry written; one with nothing in it is not listed. -/
def State.putEdge (s : State) (x : EdgeDyn) : State :=
  s.modSched fun c =>
    let l := dropEdge c.edges x.edge
    { c with edges := if x.pending.isEmpty && x.producer.isNone && x.consumer.isNone then l else insertEdge x l }

/-- The lowest slot of an edge that nobody holds, among `n`. -/
def EdgeDyn.freeSlot (x : EdgeDyn) (n : Nat) : Nat :=
  match (upto n).filter fun k => !(x.pending.any (fun p => p.1 == k) || x.producer == some k || x.consumer == some k) with
  | k :: _ => k
  | [] => 0

/-- The lowest free slot allocated to the producer (R145); the state and the slot's address. -/
def State.allocate (s : State) (e : Nat) : State × Nat :=
  let x := edgeIn s.sched.edges e
  let k := x.freeSlot (s.edgeDepth e + 2)
  (s.putEdge { x with producer := some k }, s.edgeSlot e k)

/-- The words that acquisition channels of source 0 take from a token's payload at its post (R364). -/
def State.captureEdge (s : State) (e a : Nat) : State :=
  let mine := (upto 64).filter fun k =>
    s.on (R.ACQ_CH_EN k) && !s.on (R.ACQ_CH_SRC k) && s.get (R.ACQ_CH_LOC k) % 2 ^ 14 == e
  let w := fun k => s.rd (a + s.get (R.ACQ_CH_LOC k) / 2 ^ 14) (if s.on (R.ACQ_CH_W64 k) then 8 else 4)
  { s with acq := { s.acq with capt := mine.foldl (fun l k => setNth l k (w k)) s.acq.capt } }

/-- The producer's slot turned into a pending token with an origin; the oldest of D pending ones is dropped first (R145). -/
def State.postToken (s : State) (e origin : Nat) : State :=
  let x := edgeIn s.sched.edges e
  match x.producer with
  | none => s
  | some k =>
    let s := s.captureEdge e (s.edgeSlot e k)
    let w := s.edgeWord e
    let full := x.pending.length ≥ s.edgeDepth e
    let pend := if full then x.pending.drop 1 else x.pending
    let s := s.putEdge { x with pending := pend ++ [(k, origin)], producer := none }
    if full then
      (s.bump R.SCH_CNT_TOKDROP).raiseGraph 0x0506 (if bit w 15 = 1 then 0 else 1) (s.pipGroup (bitsOf w 0 12))
    else s

/-- The edge that feeds an input slot of a pip and holds a token, with its oldest token. -/
def State.tokenAt (s : State) (p slot : Nat) : Option (EdgeDyn × Nat × Nat) :=
  (s.sched.edges.findSome? fun x =>
    let w := s.edgeWord x.edge
    if bitsOf w 0 12 = p ∧ bitsOf w 12 3 = slot then
      match x.pending with
      | t :: _ => some (x, t.1, t.2)
      | [] => none
    else none)

/-- Input slots of a pip (NIN of Table SCH.2). -/
def State.pipIns (s : State) (p : Nat) : Nat := bitsOf (s.pipWord p 0) 48 4

/-- Whether a pip is ready (R150). -/
def State.pipReady (s : State) (p : Nat) : Bool :=
  0 < s.pipIns p && (upto (s.pipIns p)).all (fun k => (s.tokenAt p k).isSome)
    && !s.sched.busy.any (fun b => b.pip == p) && !s.sched.queue.any (fun q => q.pip == p) && !s.sched.delayed.any (fun q => q.pip == p)

/-- The earliest origin among the tokens that a pip would consume (R147). -/
def State.originOf (s : State) (p d : Nat) : Nat :=
  (upto (s.pipIns p)).foldl (fun m k =>
    match s.tokenAt p k with
    | some (_, _, o) => if o < m then o else m
    | none => m) d

/-- Slots that a pip's run held given back: those consumed, and those of output edges not posted (R145). -/
def State.freeSlots (s : State) (p : Nat) : State :=
  s.each s.sched.edges fun s x =>
    let x := edgeIn s.sched.edges x.edge
    let x := if bitsOf (s.edgeWord x.edge) 0 12 = p then { x with consumer := none } else x
    let x := if (upto 8).any (fun e => s.outEdge p e == some x.edge) then { x with producer := none } else x
    s.putEdge x

/-! Priority queues (R150, R151). -/

/-- The order of examination: level, ready time, pip number. -/
def QueueDyn.before (a b : QueueDyn) : Bool :=
  a.prio < b.prio || (a.prio == b.prio && (a.tick < b.tick || (a.tick == b.tick && a.pip < b.pip)))

/-- A pip put into the queues in that order. -/
def queueIn (x : QueueDyn) : List QueueDyn → List QueueDyn
  | [] => [x]
  | y :: t => if x.before y then x :: y :: t else y :: queueIn x t

/-- A pip appended to its queue with its ready time. -/
def State.enqueue (s : State) (p t : Nat) : State :=
  s.modSched fun c => { c with queue := queueIn ⟨p, bitsOf (s.pipWord p 0) 32 5, t⟩ c.queue }

/-- A delayed pip moved to its queue (R150 step 3). -/
def State.releaseDelayed (s : State) (p t : Nat) : State :=
  (s.modSched fun c => { c with delayed := c.delayed.filter fun q => q.pip != p }).enqueue p t

/-- A pip made ready (R150 step 4, R154): its deadline is listed, and it goes to the delay list or its queue. -/
def State.makeReady (s : State) (t p : Nat) : State :=
  let w2 := s.pipWord p 2
  let dl := bitsOf w2 32 24
  let dly := bitsOf w2 0 24
  let s := if dl = 0 then s
    else s.modSched fun c => { c with deadlines := c.deadlines ++ [⟨p, s.originOf p t + dl, false⟩] }
  if dly = 0 then s.enqueue p t
  else s.modSched fun c => { c with delayed := c.delayed ++ [⟨p, bitsOf (s.pipWord p 0) 32 5, t + dly⟩] }

/-- Values in ascending order without repeats, below 4096 pips. -/
def insertNat (x : Nat) : List Nat → List Nat
  | [] => [x]
  | y :: t => if x < y then x :: y :: t else if x = y then y :: t else y :: insertNat x t

/-- The pips that hold a token, ascending. -/
def State.fedPips (s : State) : List Nat :=
  s.sched.edges.foldl (fun l x => if x.pending.isEmpty then l else insertNat (bitsOf (s.edgeWord x.edge) 0 12) l) []

/-! Misses and groups (R154, R155). -/

/-- Whether a miss of a group escalates: no axes at all, or an axis that is neither DISABLED nor FAULTED (R155). -/
def State.groupLive (s : State) (g : Nat) : Bool :=
  let ax := s.graphAxes g
  ax == 0 || slices.any fun n => bit ax n.val == 1 && s.axOn (s.lead n)

/-- A group's cycle record changed. -/
def State.modGraph (s : State) (g : Nat) (f : GraphDyn → GraphDyn) : State :=
  s.modSched fun c => { c with groups := setNth c.groups g (f (nthD c.groups g ⟨false, false, 0⟩)) }

/-- A miss recorded (R154): counted, kept in SCH_LAST, raised at MISS_SEV, noted for the group and for the cycle's health. -/
def State.recordMiss (s : State) (p : Nat) : State :=
  let g := s.pipGroup p
  let w := s.groupWord g
  let s := s.bump R.SCH_CNT_MISS
  let s := (s.set R.SCH_LAST_PIPID p).set R.SCH_LAST_GRP g
  let s := (s.set R.SCH_LAST_LATE 0).set R.SCH_LAST_VALID 1
  let s := s.modSched fun c => { c with deadlines := c.deadlines.map fun d => if d.pip == p then { d with missed := true } else d }
  let s := if s.dev == 5 then s else s.raiseGraph 0x0502 (bit w 40) g
  let s := if bit w 16 = 1 then s.modSched fun c => { c with unhealthy := true } else s
  if s.groupLive g then s.modGraph g fun x => { x with missed := true } else s

/-- A posting event of a group's REF source: the group cycle that ends is judged (R155). -/
def State.groupBound (s : State) (g : Nat) : State :=
  let w := s.groupWord g
  let x := nthD s.sched.groups g ⟨false, false, 0⟩
  let run := if x.opened && x.missed then x.run + 1 else 0
  let esc := bitsOf w 32 8 != 0 && bitsOf w 32 8 ≤ run
  let s := s.modGraph g fun _ => ⟨true, false, if esc then 0 else run⟩
  if esc then s.raiseGraph 0x0503 (bitsOf w 41 3) g else s

/-! The judgement of the module current cycle (R156). -/

/-- Whether some number below n satisfies f. -/
def anyBelow (f : Nat → Bool) : Nat → Bool
  | 0 => false
  | n + 1 => f n || anyBelow f n

/-- Whether a group entry is in use (R149). -/
def State.groupUsed (s : State) (g : Nat) : Bool := anyBelow (fun p => s.pipIns p != 0 && s.pipGroup p == g) 4096

/-- An event of source 0 (R156): the cycle that ends is judged, a healthy one sends a completion pulse; the first event only opens. -/
def State.judgeCycle (s : State) : State :=
  let opened := s.sched.opened
  let bad := s.sched.unhealthy ||
    (s.faults.latched.any (fun l => 4 ≤ l.sev) &&
      (upto 32).any fun g => bit (s.groupWord g) 16 == 1 && s.groupDown g && s.groupUsed g)
  let s := s.modSched fun c => { c with opened := true, unhealthy := false }
  if !opened then s
  else if bad then (s.bump R.SCH_HLTH_UNHEALTHY).set R.SCH_HLTH_LAST_OK 0
  else (s.set R.SCH_HLTH_LAST_OK 1).completionPulse

/-! Step 1: what the cores report. -/

/-- A pip's run over: its core idle, its slots free, its deadline entry gone (R150 step 1, R154). -/
def State.retireRun (s : State) (k p t : Nat) (late : Bool) : State :=
  let s := (s.putBit R.SCH_STAT_IDLE k true).freeSlots p
  let s := s.modSched fun c => { c with busy := c.busy.filter fun b => b.core != k }
  let s := match s.sched.deadlines.find? fun d => d.pip == p with
    | some d => if late && d.missed && s.get R.SCH_LAST_PIPID == p then s.set R.SCH_LAST_LATE (satN (2 ^ 24 - 1) (t - d.due)) else s
    | none => s
  s.modSched fun c => { c with deadlines := c.deadlines.filter fun d => d.pip != p }

/-- One notice of a core. -/
def State.takeNote (s : State) (t k : Nat) (n : CoreNote) : State :=
  match s.sched.busy.find? fun b => b.core == k with
  | none => s
  | some b =>
    match n with
    | .post e => match s.outEdge b.pip e with | some x => s.postToken x b.origin | none => s
    | .done => s.retireRun k b.pip t true
    | .abandoned =>
      let s := s.retireRun k b.pip t false
      if bit (s.groupWord (s.pipGroup b.pip)) 16 = 1 then s.modSched fun c => { c with unhealthy := true } else s

/-- Step 1 of R150, cores in ascending order. -/
def State.takeNotes (s : State) (t : Nat) : State :=
  let l := s.sched.notes
  let s := s.modSched fun c => { c with notes := [] }
  s.each (upto 8) fun s k => s.each (l.filter fun x => x.1 == k) fun s x => s.takeNote t k x.2

/-! Step 2: sources (R148). -/

/-- Whether an event is one of a source entry's. -/
def SrcEvent.feeds (e : SrcEvent) (w : Nat) : Bool :=
  bitsOf w 0 4 != 0 && e.kind == bitsOf w 0 4 && (e.kind == 8 || e.param == bitsOf w 8 8)

/-- An event of a source taken: on its phase a token is posted on its edge (R145, R148). -/
def State.sourceEvent (s : State) (t i : Nat) (ev : SrcEvent) : State :=
  let w := s.sourceWord i
  let n := nthD s.sched.counts i 0
  let posts := n % (bitsOf w 16 6 + 1) == bitsOf w 22 6
  let s := s.modSched fun c => { c with counts := setNth c.counts i (n + 1) }
  let s := if i = 0 then s.judgeCycle.twinCycle else s
  if !posts then s
  else
    let e := bitsOf w 32 14
    let s := if i = 0 then s.mccBoundary else s
    let (s, a) := s.allocate e
    let s := s.putBytes a ((ev.payload.flatMap (leBytes 8)).take (2 ^ (bitsOf (s.edgeWord e) 20 4 + 3)))
    let s := s.postToken e t
    s.each (upto 32) fun s g => if bitsOf (s.groupWord g) 24 6 = i then s.groupBound g else s

/-- Step 2 of R150, sources in ascending order. -/
def State.takeSources (s : State) (t : Nat) : State :=
  let l := s.sched.arrived
  let s := s.modSched fun c => { c with arrived := [] }
  if l.isEmpty then s
  else s.each (upto 64) fun s i => s.each (l.filter fun e => e.feeds (s.sourceWord i)) fun s e => s.sourceEvent t i e

/-! Step 6: dispatch (R146, R151, R153). -/

/-- Whether a core takes no dispatch for the debugger (R139). -/
def State.coreHeld (s : State) (k : Nat) : Bool :=
  s.on (R.LC_DBG_HALTED k) || s.on (R.LC_DBG_HALT k) || s.core[(⟨k % 8, by omega⟩ : Core)].stopReq

/-- The core that `choose` of R151 returns for a queued pip. -/
def State.choose (s : State) (t : Nat) (chosen : List Nat) (q : QueueDyn) : Option Nat :=
  let mask := bitsOf (s.pipWord q.pip 0) 24 8
  let may := (upto 8).filter fun k => bit mask k == 1 && s.coreOn k && !s.coreHeld k
  let e := may.filter fun k => s.bitOf R.SCH_STAT_IDLE k && !chosen.contains k
  let last := (s.sched.lastCore.find? fun x => x.1 == q.pip).map (·.2)
  match e with
  | [] => none
  | low :: _ =>
    match last with
    | none => some low
    | some c => if e.contains c then some c else if may.contains c && t - q.tick < 20 then none else some low

/-- A pip dispatched to a core (R109, R145, R146): tokens consumed, output slots allocated, the dispatch record written, the core
started. -/
def State.dispatch (s : State) (t p k : Nat) : State :=
  let c : Core := ⟨k % 8, by omega⟩
  let nin := s.pipIns p
  let origin := s.originOf p t
  let base := localBase k + 0x3FF80
  let (s, a1) := (upto 8).foldl (fun r j =>
    let s : State := r.1
    match (if j < nin then s.tokenAt p j else none) with
    | some (x, slot, _) =>
      let a := s.edgeSlot x.edge slot
      let s := (s.putEdge { x with pending := x.pending.drop 1, consumer := some slot }).wr (base + 8 * j) 8 a
      (s, if j = 0 then a else r.2)
    | none => (s.wr (base + 8 * j) 8 0, r.2)) (s, 0)
  let s := (upto 8).foldl (fun s j =>
    match s.outEdge p j with
    | some e => let (s, a) := s.allocate e; s.wr (base + 0x40 + 8 * j) 8 a
    | none => s.wr (base + 0x40 + 8 * j) 8 0) s
  let w := s.free % 19
  let s := s.drawn.modCore c fun x =>
    let x := (x.putA 0 (bitsOf (s.pipWord p 1) 0 32)).putA 1 a1
    { x with acc := Vector.replicate 4 0, flags := ⟨false, false, false, false, false⟩, levels := [],
             pc := localBase k + bitsOf (s.pipWord p 0) 0 18, cyc := w, run := some ⟨p, t, origin, false⟩, posted := 0, wait := .none,
             accBefore := [], loadedBefore := [] }
  let s := (s.set (R.LC_STAT_STATE k) 1).set (R.LC_STAT_PIPID k) p
  let s := s.putBit R.SCH_STAT_IDLE k false
  s.modSched fun d => { d with queue := d.queue.filter (fun q => q.pip != p), busy := d.busy ++ [⟨k, p, origin⟩],
                               lastCore := (p, k) :: d.lastCore.filter fun x => x.1 != p }

/-- Step 6 of R150 over the queued pips in order: at most two dispatches. -/
def State.dispatchFrom (s : State) (t : Nat) (chosen : List Nat) : List QueueDyn → State
  | [] => s
  | q :: r =>
    if chosen.length ≥ 2 then s
    else
      match s.choose t chosen q with
      | some k => (s.dispatch t q.pip k).dispatchFrom t (k :: chosen) r
      | none => s.dispatchFrom t chosen r

/-! The tick (R150). -/

/-- Step 5 of R150: deadlines due, ascending pip number. -/
def State.takeDeadlines (s : State) (t : Nat) : State :=
  let due := s.sched.deadlines.filter fun d => d.due ≤ t && !d.missed
  s.each (due.foldl (fun l d => insertNat d.pip l) []) fun s p => s.recordMiss p

/-- SCHEDULER_TICK (R150): one tick. While the scheduler is stopped only what its cores report and their deadlines are taken (R158); in
S1 the tick stands (R159). -/
def execSchedulerTick (s : State) : Out :=
  if s.get R.SCH_STAT_STATE == 2 || !s.domOn 0 then .next s else
  let t := (s.get R.SCH_TICK_TICK + 1) % 2 ^ 64
  let s := (s.set R.SCH_TICK_TICK t).takeNotes t
  if !s.schedRuns then .next ((s.modSched fun c => { c with arrived := [] }).takeDeadlines t)
  else
    let s := s.takeSources t
    let due := s.sched.delayed.filter fun q => q.tick ≤ t
    let s := s.each (due.foldl (fun l q => insertNat q.pip l) []) fun s p => s.releaseDelayed p t
    let s := s.each (s.fedPips.filter s.pipReady) fun s p => s.makeReady t p
    let s := s.takeDeadlines t
    .next (s.dispatchFrom t [] s.sched.queue)

/-- The tick count brought to a tick that an event's time has reached (log entry 6). -/
def State.tickTo (s : State) (t : Nat) : State := if s.get R.SCH_TICK_TICK < t then s.set R.SCH_TICK_TICK t else s

/-- DELAY_RELEASE (R150): the delay-list entry of pip p falls due. -/
def execDelayRelease (p : Nat) (s : State) : Out :=
  match s.sched.delayed.find? fun q => q.pip == p with
  | some q => .next ((s.tickTo q.tick).releaseDelayed p q.tick)
  | none => .next s

/-- DEADLINE_MISS (R154): the deadline tick of pip p comes and it has not completed. -/
def execDeadlineMiss (p : Nat) (s : State) : Out :=
  match s.sched.deadlines.find? fun d => d.pip == p && !d.missed with
  | some d => .next ((s.tickTo d.due).recordMiss p)
  | none => .next s

/-- PIP_OVERRUN (R157): the pip on core k runs longer than its WCET; counted once a run, F0. -/
def execPipOverrun (k : Core) (s : State) : Out :=
  match s.core[k].run with
  | none => .next s
  | some r =>
    let wcet := bitsOf (s.pipWord r.pip 3) 0 24
    if wcet = 0 || r.counted then .next s
    else
      let s := (s.tickTo (r.start + wcet + 1)).bump R.SCH_CNT_OVERRUN
      let s := s.modCore k fun c => { c with run := some { r with counted := true } }
      .next (s.raiseGraph 0x0504 0 (s.pipGroup r.pip))

/-- PIP_RUNTIME_EXPIRY (R157): the pip on core k runs beyond SCH_LIM.RUNMAX and is abandoned with code RUNTIME. -/
def execPipRuntimeExpiry (k : Core) (s : State) : Out :=
  match s.core[k].run with
  | none => .next s
  | some r =>
    let s := (s.tickTo (r.start + s.get R.SCH_LIM_RUNMAX + 1)).bump R.SCH_CNT_RUNABT
    .next (s.abandon k 9)

/-! Start and stop (R158). -/

end Sys2Proof.Machine
end

