-- ==== Sys2Proof/Machine/Consist.lean ====
section
/-!
DEFINITION. Machine/Consist.lean: the cross-checks of INTAKE step 8 (R71, R83, R473 and the rules of each chapter that name code 0x24), and
which slices an image uses.
-/

namespace Sys2Proof.Machine

/-! The graph (R142 to R149). -/

/-- The pips of the image: entries whose NIN is not 0, read off the cells of the pip table. -/
def State.usedPips (s : State) : List Nat :=
  s.mem.filterMap fun c =>
    if 0x600000 ≤ c.1 && c.1 < 0x640000 && c.1 % 64 == 6 && c.2.toNat % 16 != 0 then some ((c.1 - 0x600000) / 64) else none

/-- The sources of the image with their numbers: entries whose KIND is not 0. -/
def State.usedSources (s : State) : List (Nat × Nat) :=
  (upto 64).filterMap fun i => if s.sourceWord i % 16 ≠ 0 then some (i, s.sourceWord i) else none

/-- Every edge with a producer: the output edges of the pips and the edges of the sources. -/
def State.fedEdges (s : State) : List Nat :=
  (s.usedPips.flatMap fun p => (upto 8).filterMap fun j => s.outEdge p j) ++ s.usedSources.map fun x => bitsOf x.2 32 14

/-- No number stands twice. -/
def noRepeat : List Nat → Bool
  | [] => true
  | a :: t => !t.contains a && noRepeat t

/-- Where an edge leads: DST and SLOT. -/
def State.edgeEnd (s : State) (e : Nat) : Nat × Nat := (bitsOf (s.edgeWord e) 0 12, bitsOf (s.edgeWord e) 12 3)

/-- A PROG section of the image covers the first instruction at an address. -/
def codeAt (m : List Host.Cell) (a : Nat) : Bool := (ofType m 5).any fun x => inSpan a 8 x.target (x.target + x.len)

/-- CTX lies in memory that a core may access (R113). -/
def State.ctxOk (s : State) (c ctx : Nat) : Bool :=
  match placeOf ctx with
  | .localMem k => k == c
  | .bank _ => s.arc.grants.any fun g => g.init == c && !g.write && inSpan ctx 16 g.lo (g.hi + 1)
  | _ => false

/-- A pip entry meets R142 and R143. -/
def State.pipOk (s : State) (m : List Host.Cell) (fed : List (Nat × Nat)) (p : Nat) : Bool :=
  let w0 := s.pipWord p 0
  let entry := bitsOf w0 0 18
  let cmask := bitsOf w0 24 8
  let nin := bitsOf w0 48 4
  let ctx := bitsOf (s.pipWord p 1) 0 32
  nin ≤ 8 && cmask != 0 && entry % 8 == 0 && entry ≤ 0x3FF78 && ctx % 16 == 0 &&
  (upto 8).all (fun k => (fed.filter fun x => x == (p, k)).length == (if k < nin then 1 else 0)) &&
  (upto 8).all (fun c => bit cmask c == 0 || (s.ctxOk c ctx && codeAt m (0x400000 + c * 0x40000 + entry)))

/-- The largest PARAM of a source kind (Table SCH.5). -/
def paramMax (kind : Nat) : Nat :=
  match kind with
  | 1 => 15 | 2 => 15 | 3 => 15 | 4 => 15 | 5 => 63 | 6 => 63 | 7 => 23 | _ => 255

/-- A source entry meets R148, R355 and R382. -/
def State.sourceOk (s : State) (w : Nat) : Bool :=
  let kind := w % 16
  let stride := bitsOf (s.edgeWord (bitsOf w 32 14)) 20 4 + 3
  kind ≤ 8 && bitsOf w 8 8 ≤ paramMax kind && bitsOf w 22 6 ≤ bitsOf w 16 6 && (kind != 5 || 6 ≤ stride) && (kind != 6 || 7 ≤ stride)

/-- The graph meets R142 to R149 and R338. -/
def State.graphOk (s : State) (m : List Host.Cell) : Bool :=
  let pips := s.usedPips
  let edges := s.fedEdges
  let fed := edges.map s.edgeEnd
  let src := s.usedSources
  let c := bitsOf (s.sourceWord 0) 8 8
  s.mem.all (fun x => !(0x600000 ≤ x.1 && x.1 < 0x640000) || pips.contains ((x.1 - 0x600000) / 64)) &&
  noRepeat edges && !edges.contains 0x3FFF && fed.all (fun x => pips.contains x.1) && pips.all (s.pipOk m fed) &&
  src.all (fun x => s.sourceOk x.2) && s.sourceWord 0 % 16 == 1 &&
  6250 * 65536 ≤ s.get (R.PTP_CMP2_PERNS c) * 65536 + s.get (R.PTP_CMP2_PERSUB c) &&
  pips.all (fun p => let e := bitsOf (s.groupWord (s.pipGroup p)) 41 3; 2 ≤ e && e ≤ 4)

/-- The slices that the image uses: those in AXES of a group in use, and those that sources of kind ISAMPLE, VSAMPLE or FBCAP name
(log entry 52). -/
def State.slicesUsed (s : State) : List Slice :=
  let axes := (s.usedPips.map fun p => bitsOf (s.groupWord (s.pipGroup p)) 0 16).foldl (· ||| ·) 0
  slices.filter fun n => bit axes n.val == 1 || s.usedSources.any fun x =>
    (x.2 % 16 == 2 || x.2 % 16 == 3 || x.2 % 16 == 4) && bitsOf x.2 8 8 == n.val

/-- PROG sections in shared SRAM lie in banks of code 4, TABLE sections in banks of code 5 or of code 6 (R71). -/
def State.regionsOk (s : State) (m : List Host.Cell) : Bool :=
  let codes := fun x : Sect => (upto ((x.target + x.len - 1) / 0x80000 - x.target / 0x80000 + 1)).map fun i =>
    s.bankUse ((x.target - 0x10000000) / 0x80000 + i)
  (ofType m 5).all (fun x => x.target < 0x10000000 || (codes x).all (· == 4)) &&
  (ofType m 6).all (fun x => (codes x).all (· == 5) || (codes x).all (· == 6))

/-! Fields (R473). -/

/-- Whether the checks of a register apply: its slice is used, its bus has EN set, its CAN controller has EN set. -/
def State.unitUsed (s : State) (used : List Slice) (n : RegName) (a : Nat) : Bool :=
  match sliceAt a with
  | some k => used.contains k
  | none =>
    match n with
    | .BUS_VLIM => s.on (R.BUS_CLIM_EN ((a - 0x200040) / 16))
    | .BUS_CLIM => s.on (R.BUS_CLIM_EN ((a - 0x200048) / 16))
    | _ => if 0x330200 ≤ a && a < 0x330600 then s.on (R.CAN_CFG_EN ((a - 0x330200) / 0x200)) else true

/-- The rows of every block (Table MAP.3). -/
def allRows : List (RegRow RegName) :=
  [0x000000, 0x010000, 0x020000, 0x030000, 0x040000, 0x080000, 0x090000, 0x100000, 0x200000, 0x210000, 0x300000, 0x310000, 0x320000,
   0x330000, 0x340000, 0x350000, 0x360000].flatMap rowsAt

/-- Every RW field of a register instance holds a permitted value. -/
def State.fieldsOk (s : State) (r : RegRow RegName) (a : Nat) : Bool :=
  r.fields.all fun f => f.acc != .rw || f.perm.ok (s.get (f.fld a))

/-- Every RW field of the units in use holds a permitted value (R473). -/
def State.permsOk (s : State) (used : List Slice) : Bool :=
  allRows.all fun r => (rowAddrs r.dims).all fun d => !s.unitUsed used r.name (r.base + d) || s.fieldsOk r (r.base + d)

/-- The four temperatures of a zone stand in order (THM_ZONEk). -/
def State.zoneOrder (s : State) (k : Nat) : Bool :=
  s.getS (R.THM_ZONE_TREL k) < s.getS (R.THM_ZONE_TREQ k) && s.getS (R.THM_ZONE_TREQ k) < s.getS (R.THM_ZONE_TCRIT k) &&
  s.getS (R.THM_ZONE_TCRIT k) < s.getS (R.THM_ZONE_TSHUT k)

/-- Registers of the module as a whole: thermal zones, retained banks, start lines, VLANs, the grid epoch, the wake source, path groups, field
PWM and acquisition channels. -/
def State.moduleOk (s : State) : Bool :=
  (upto 14).all s.zoneOrder && popcount 48 (s.get R.PWR_RET_RETBANKS) ≤ 16 &&
  (upto 4).all (fun k => s.get (R.GRP_SS_PAR k) ≤ (if s.get (R.GRP_SS_SRC k) = 1 then 15 else 23)) &&
  (let v := (upto 64).filter fun k => s.on (R.NET_VLAN_VALID k)
   let ids := v.map fun k => s.get (R.NET_VLAN_VID k)
   noRepeat ids && ids.all fun i => 1 ≤ i && i ≤ 4094) &&
  s.get R.PTP_EPOCH0_SUBNS == 0 && s.wakePair && (upto 8).all s.groupPairs && (upto 16).all s.fioPairs && (upto 64).all s.chanPairs &&
  s.acqFits

/-! Slices (R169, R191, R205, R220, R226, R241, R289). -/

/-- Steps of a servo cycle at the nominal period (R241). -/
def State.nomServo (s : State) (n : Slice) : Nat :=
  s.get (R.SLC_PWMCFG_CPER n) * (s.get (R.SLC_PWMCFG_NCUR n) + 1) * s.get (R.SLC_SERVO_SDIV n)

/-- HALLMAP gives each sector exactly once (R220). -/
def State.hallOk (s : State) (n : Slice) : Bool :=
  let l := (upto 6).map fun i => bitsOf (s.get (R.SLC_FBLIM_HALLMAP n)) (3 * i) 3
  noRepeat l && l.all (· < 6)

/-- A serial frame with its timeout fits the servo cycle (R226); one step is 5/64 ns. -/
def State.serialOk (s : State) (n : Slice) : Bool :=
  let bits := fun biss : Bool =>
    if biss then 3 + s.get (R.SLC_FBSER_POSW n) + s.get (R.SLC_FBSER_ERRB n) + s.get (R.SLC_FBSER_CRCLEN n)
    else s.get (R.SLC_FBSER_LEAD n) + s.get (R.SLC_FBSER_POSW n) * (1 + s.get (R.SLC_FBSER_DBL n)) + s.get (R.SLC_FBSER_ERRB n)
      + s.get (R.SLC_FBSER_PAR n)
  let mode := s.get (R.SLC_FBCFG_FBMODE n)
  if mode = 3 ∨ mode = 4 then
    (bits (mode == 3) * (s.get (R.SLC_FBSER_CLKDIV n) + 1) * 10 + 2000 + s.get (R.SLC_FBSER_TMONO n) * 1000) * 64 ≤ s.nomServo n * 5
  else true

/-- A slice in use meets the rules of its chapters. -/
def State.sliceOk (s : State) (n : Slice) : Bool :=
  let caps := s.usedSources.filter fun x => x.2 % 16 == 4 && bitsOf x.2 8 8 == n.val
  let ceil := s.get (R.SLC_OCLIM_CEIL n)
  s.rangeOk n && ceil < 250 * s.get (R.SLC_OCLIM_TRIP_POS n) && ceil < 250 * s.get (R.SLC_OCLIM_TRIP_NEG n) && s.slicePairs n &&
  (!s.on (R.SLC_PWMLIM_HG_EN n) || s.get (R.SLC_PWMLIM_HG_TIME n) != 0) && s.on (R.BUS_CLIM_EN (s.get (R.SLC_COMM_BUSSEL n))) &&
  s.hallOk n && s.serialOk n && 320000 ≤ s.nomServo n && (caps.isEmpty || caps.any fun x => bitsOf x.2 16 6 == 0) &&
  s.get (R.SLC_SVFE0_FELIM n) < s.get (R.SLC_SVGROSS_FEGROSS n) && s.get (R.SLC_SVFE1_FELIM n) < s.get (R.SLC_SVGROSS_FEGROSS n) &&
  (!s.on (R.SLC_SVTRAV2_TRAV_EN n) || s.getS (R.SLC_SVTRAV0_POSMIN n) < s.getS (R.SLC_SVTRAV1_POSMAX n))

/-- The fields in which two slices agree in all of R241's and, for a pair, R289's list. -/
def State.sameCycle (s : State) (a b : Slice) : Bool :=
  [R.SLC_PWMCFG_CTYPE, R.SLC_PWMCFG_CPER, R.SLC_PWMCFG_NCUR, R.SLC_SERVO_SDIV].all fun f => s.get (f a) == s.get (f b)

/-- The members of each path group agree (R241). -/
def State.pathsAlike (s : State) (used : List Slice) : Bool :=
  used.all fun a => used.all fun b =>
    !(s.get (R.SLC_MODE_MODE a) == 3 && s.get (R.SLC_MODE_MODE b) == 3 && s.get (R.SLC_MODE_GROUP a) == s.get (R.SLC_MODE_GROUP b)
      && s.get (R.SLC_MODE_GROUP a) < 8) || s.sameCycle a b

/-- Whether a word reads alike on both slices of a pair. -/
def State.sameWord (s : State) (f : List FDef) (a : Nat) : Bool := f.all fun x => s.get (x.fld a) == s.get (x.fld (a + 0x4000))

/-- A Cherry pair meets R288 and R289; e is its even slice. -/
def State.pairOk (s : State) (used : List Slice) (e : Slice) : Bool :=
  let o := oddOf e
  let f := s.pairFunc e
  let lim := fun a : Nat => match regAt a with | some (r, _) => s.sameWord r.fields a | none => true
  f == 0 ||
  (f ≤ 5 && used.contains e && used.contains o && s.get (R.SLC_CHYCFG_FUNC o) == 0 && s.sameCycle e o &&
   [R.SLC_COMM_BUSSEL, R.SLC_ISCFG_RANGE, R.SLC_ISCFG_POL, R.SLC_PWMCFG_FRZMASK].all (fun x => s.get (x e) == s.get (x o)) &&
   (f == 4 || f == 5 || (lim (R.SLC_PWMLIM_TD e).addr && lim (R.SLC_OCLIM_CEIL e).addr)) &&
   (if f = 4 then s.get (R.SLC_FBCFG_FBMODE o) != 0 else s.get (R.SLC_FBCFG_FBMODE o) == 0 && !s.on (R.SLC_FBCFG_HALLEN o)) &&
   (f == 1 || s.usedSources.all fun x => !(x.2 % 16 == 2 && bitsOf x.2 8 8 == o.val)) &&
   s.usedPips.all fun p => let a := bitsOf (s.groupWord (s.pipGroup p)) 0 16; bit a e.val == bit a o.val)

/-! Buses, ports, CAN, field channels (R205, R312, R317, R377 to R389, R392). -/

/-- A bus with EN set meets R205. -/
def State.busOk (s : State) (k : Nat) : Bool :=
  let up := [s.get (R.BUS_CLIM_VUV k), s.get (R.BUS_VLIM_VCH_OFF k), s.get (R.BUS_VLIM_VCH_ON k), s.get (R.BUS_VLIM_VREGEN k),
    s.get (R.BUS_VLIM_VSHORT k), s.get (R.BUS_CLIM_VABS k)]
  !s.on (R.BUS_CLIM_EN k) || ((up.zip (up.drop 1)).all (fun x => x.1 < x.2) && s.get (R.BUS_CLIM_VABS k) ≤ 7500)

/-- A port's quotas and thresholds meet R312 and R317 with the cells of R306. -/
def State.portOk (s : State) (p : Nat) : Bool :=
  let cells := ((s.arc.banks.filter (· == 1)).length - 2) * 512
  let max := (s.get (R.NET_PCFG_MAXFRM p) + 255) / 256
  let q := [s.get (R.NET_EQ_QUOTA0 p), s.get (R.NET_EQ_QUOTA1 p), s.get (R.NET_EQ_QUOTA2 p), s.get (R.NET_EQ_QUOTA3 p)]
  let x := [s.get (R.NET_PFCTH_XOFF0 p), s.get (R.NET_PFCTH_XOFF1 p), s.get (R.NET_PFCTH_XOFF2 p), s.get (R.NET_PFCTH_XOFF3 p)].map (· * 16)
  let fc := s.get (R.NET_PCFG_FC p)
  q.sum ≤ cells && max ≤ nthD q 2 0 && max ≤ nthD q 3 0 &&
  (fc == 0 || (s.get (R.NET_FCTH_XON p) < s.get (R.NET_FCTH_XOFF p) && (x.zip q).all fun y => y.1 < y.2)) &&
  s.get (R.NET_FCTH_XOFF p) + (2 * max + 24) ≤ cells && x.sum + (2 * max + 24) ≤ cells && (fc != 2 || s.on R.NET_PRIMAP_TAGOWN)

/-- Quanta of a nominal bit times the prescaler, in mtq of 12.5 ns. -/
def State.nomBit (s : State) (c : Nat) : Nat :=
  (s.get (R.CAN_NBT_NBRP c) + 1) * (3 + s.get (R.CAN_NBT_NTSEG1 c) + s.get (R.CAN_NBT_NTSEG2 c))

/-- The same of a data bit. -/
def State.dataBit (s : State) (c : Nat) : Nat :=
  (s.get (R.CAN_DBT_DBRP c) + 1) * (3 + s.get (R.CAN_DBT_DTSEG1 c) + s.get (R.CAN_DBT_DTSEG2 c))

/-- Bit timing meets R378 at 80 MHz. -/
def State.canBits (s : State) (c : Nat) : Bool :=
  let n := s.nomBit c
  let d := s.dataBit c
  80 ≤ n && s.get (R.CAN_NBT_NSJW c) ≤ s.get (R.CAN_NBT_NTSEG2 c) && s.get (R.CAN_DBT_DSJW c) ≤ s.get (R.CAN_DBT_DTSEG2 c) &&
  (!s.on (R.CAN_CFG_FDEN c) || (d ≤ n && (if c = 0 then 16 ≤ d else 10 ≤ d) && (80 ≤ d || s.on (R.CAN_DBT_TDCEN c))))

/-- Time mark j. -/
def State.ttMark (s : State) (c j : Nat) : Nat :=
  let f := match j % 4 with
    | 0 => R.CAN_TTM_MARK0 | 1 => R.CAN_TTM_MARK1 | 2 => R.CAN_TTM_MARK2 | _ => R.CAN_TTM_MARK3
  s.get (f c (j / 4))

/-- The time-triggered matrix meets R387 and R389. -/
def State.canMatrix (s : State) (c : Nat) : Bool :=
  let ncol := s.get (R.CAN_TTCFG_NCOL c)
  let ncyc := s.get (R.CAN_TTCFG_NCYCX c)
  let cyc := s.get (R.CAN_TTCFG_CYCLEN c)
  let cmp := s.get (R.CAN_CFG_TTCMP c)
  let per := s.get (R.PTP_CMP2_PERNS cmp) * 65536 + s.get (R.PTP_CMP2_PERSUB cmp)
  !s.on (R.CAN_CFG_TTEN c) ||
  (ncyc ≤ 4 &&
   (upto 16).all (fun b => (upto 64).all fun j =>
     let kind := s.ttCell c b j / 2 ^ 14
     if j ≤ ncol then 2 ^ ncyc ≤ b || kind != 3 else kind == 0) &&
   (upto (ncol + 1)).all (fun j => s.ttMark c j < (if j < ncol then s.ttMark c (j + 1) else cyc)) && (upto (ncol + 1)).all (fun j => s.ttMark c j < cyc) &&
   (!(s.get (R.CAN_CFG_TTROLE c) == 1 && s.on (R.CAN_CFG_NETTIME c)) || (per != 0 && cyc * s.nomBit c * 25 * 65536 ≤ 2 * per)))

/-- A graph filter: in use, to the graph. -/
def State.graphFilter (s : State) (c k : Nat) : Bool := s.on (R.CAN_FLT_EN c k) && s.on (R.CAN_FLT_DEST c k)

/-- A CAN controller meets R377, R378, R382, R387 and R389. -/
def State.canOk (s : State) (c : Nat) : Bool :=
  (c == 0 || !s.on (R.CAN_CFG_WAKEN 1)) &&
  (!s.on (R.CAN_CFG_EN c) ||
   (s.canBits c && s.canMatrix c &&
    (upto 32).all fun k => !s.graphFilter c k || s.usedSources.any fun x => x.2 % 16 == 6 && bitsOf x.2 8 8 == k + 32 * c)) &&
  s.usedSources.all fun x => let p := bitsOf x.2 8 8; !(x.2 % 16 == 6 && p / 32 == c) || s.graphFilter c (p % 32)

/-- A field channel meets R392: its function, its lead, its followers, its BRAKE axis. -/
def State.channelOk (s : State) (used : List Slice) (k : Nat) : Bool :=
  let func := s.get (R.FIO_CFG_FUNC k)
  let src := s.get (R.FIO_CFG_SRC k)
  let size := match s.get (R.FIO_CFG_GRP k) with | 0 => 1 | 1 => 2 | _ => 4
  let n := sliceOf (s.get (R.FIO_CFG_PAR k))
  (!(func == 1) || k < 16) && (!(func == 2) || (if k < 16 then src != 1 else src != 2)) && (size == 1 || (k < 16 && k % size == 0)) &&
  (upto size).all (fun i => i == 0 || s.rawWord (match regAt (R.FIO_CFG_FUNC (k + i)).addr with | some (r, _) => r.fields | none => [])
    (R.FIO_CFG_FUNC (k + i)).addr == 0) &&
  (!(func == 2 && src == 1) || (used.contains n && !s.oddInPair n))

/-- The axes that channels name as BRAKE. -/
def State.brakeAxes (s : State) : List Nat :=
  ((upto 24).filter fun k => s.get (R.FIO_CFG_FUNC k) == 2 && s.get (R.FIO_CFG_SRC k) == 1).map fun k => s.get (R.FIO_CFG_PAR k)

/-- The cross-checks of step 8 all pass (R83). -/
def State.consistent (s : State) (m : List Host.Cell) : Bool :=
  let used := s.slicesUsed
  s.graphOk m && s.regionsOk m && s.permsOk used && s.moduleOk && used.all s.sliceOk && s.pathsAlike used &&
  slices.all (fun n => n.val % 2 != 0 || s.pairOk used n) && (upto 4).all s.busOk && [0, 1].all s.portOk && [0, 1].all s.canOk &&
  (upto 24).all (s.channelOk used) && noRepeat s.brakeAxes

/-- RATEMAX in ppb (R323): 500 ppm, or 0.9 × 32 steps over the longest period of a used CENTRE slice. -/
def State.rateMax (s : State) : Nat :=
  let t := ((s.slicesUsed.filter fun n : Slice => s.get (R.SLC_PWMCFG_CTYPE n) == 0).map fun n : Slice => s.get (R.SLC_PWMCFG_CPER n)).foldl Nat.max 0
  if t = 0 then 500000 else Nat.min 500000 (28800000000 / t)

end Sys2Proof.Machine
end

