-- ==== Sys2Proof/Machine/Boot.lean ====
section
/-!
DEFINITION. Machine/Boot.lean: INTAKE and the start of the units after it (R58, R81 to R88, Table IMG.4).
-/

namespace Sys2Proof.Machine

/-- The code of a slot's last attempt. -/
def slotFld (k : Nat) : Fld := if k = 0 then R.IMG_STAT_CODE_A else R.IMG_STAT_CODE_B

/-- The duration of INTAKE so far, in ms (IMG_STAT). -/
def State.intakeMs (s : State) : State :=
  s.set R.IMG_STAT_INTAKE_MS (satN 255 ((s.clock.up - s.boot.t0) / (1000000 * nsUnit)))

/-- INTAKE ends in HALT with a code (R82, R85 to R88). -/
def State.intakeHalt (s : State) (code : Nat) : State :=
  (((s.set R.IMG_STAT_CODE code).intakeMs).enterHalt).raiseMod 0x0302 5 code

/-- The present attempt fails with a code (R82, R84, R87): the other slot follows if it is eligible; a flash failure ends INTAKE. -/
def State.failSlot (s : State) (code : Nat) : State :=
  let k := s.boot.slot
  let s := ((s.set (slotFld k) code).raiseMod 0x0301 1 code).uninstall (s.flash k)
  let s := s.toReset R.NET_FOSTAT_CELLS
  if code ≤ 4 then s.intakeHalt code
  else
    match s.boot.order with
    | [] => s.intakeHalt 0x40
    | j :: t => s.modBoot fun b => { b with slot := j, order := t, step := 5 }

/-- The eligible slots in the order of R81: the one NEXT names, else the higher GEN, else A. -/
def slotOrder (okA okB : Bool) (genA genB next : Nat) : List Nat :=
  match okA, okB with
  | false, false => []
  | true, false => [0]
  | false, true => [1]
  | true, true => if next = 1 then [0, 1] else if next = 2 then [1, 0] else if genA < genB then [1, 0] else [0, 1]

/-- Step 1: links trained (R16); step 2 follows. -/
def State.intakeLinks (s : State) (o : IntakeObs) : State :=
  if !o.linksOk then s.intakeHalt 0x31
  else
    let up : LinkDyn := ⟨true, 0, false, 0, false⟩
    let s := { s with arc := { s.arc with linkA := up, linkB := up, linkF := up } }
    (((s.set R.SYS_DLSTAT_LA_UP 1).set R.SYS_DLSTAT_LB_UP 1).set R.SYS_DLSTAT_LF_UP 1).modBoot fun b => { b with step := 2 }

/-- Step 3: discovery and the read mode (R65, R66, R477). -/
def State.intakeDiscover (s : State) (o : IntakeObs) : State :=
  if !o.sfdp then s.intakeHalt 0x02
  else if !o.bfpt || o.densityLog2 < 24 then s.intakeHalt 0x03
  else
    let s := (s.set R.IMG_STAT_RMODE (if o.octal then 2 else 1)).set R.IMG_STAT_FL_DENS o.densityLog2
    let s := if o.octal then s else s.raiseMod 0x0303 1
    s.modBoot fun b => { b with step := 4 }

/-- Step 4: both headers and section tables, and the order (R81); NEXT is read and cleared. -/
def State.intakeHeaders (s : State) : State :=
  let a := slotCode s.boot.slotA false
  let b := slotCode s.boot.slotB false
  let next := s.get R.IMG_CTRL_NEXT
  let s := s.set R.IMG_CTRL_NEXT 0
  let s := if a = 0 then s else s.set R.IMG_STAT_CODE_A a
  let s := if b = 0 then s else s.set R.IMG_STAT_CODE_B b
  match slotOrder (a == 0) (b == 0) (imgHeader s.boot.slotA).gen (imgHeader s.boot.slotB).gen next with
  | [] => s.intakeHalt 0x40
  | k :: t => s.modBoot fun b => { b with first := some k, slot := k, order := t, step := 5 }

/-- Step 5: pass 1. -/
def State.intakePassOne (s : State) : State :=
  let m := s.flash s.boot.slot
  let p := passOne m
  let s := s.each p.1 fun s x => s.copySect m x
  if p.2 ≠ 0 then s.failSlot p.2 else s.modBoot fun b => { b with step := 6 }

/-- Step 6: the signature. -/
def State.intakeSign (s : State) : State :=
  let c := s.signCode (s.flash s.boot.slot)
  if c ≠ 0 then s.failSlot c else s.modBoot fun b => { b with step := 7 }

/-- Step 7: pass 2, with the ports' ingress cells of R306. -/
def State.intakePassTwo (s : State) (o : IntakeObs) : State :=
  match passTwo (s.flash s.boot.slot) o.rereadOk with
  | (0, part, g, l) =>
    let s := (s.install part g l).set R.NET_FOSTAT_CELLS (((part.filter (· == 1)).length - 2) * 512)
    s.modBoot fun b => { b with step := 8 }
  | (c, _, _, _) => s.failSlot c

/-- Step 8: the cross-checks; the slices in use and RATEMAX are known from then on. -/
def State.intakeCheck (s : State) : State :=
  if !s.consistent (s.flash s.boot.slot) then s.failSlot 0x24
  else
    let used := s.slicesUsed
    let s := s.each slices fun s n => s.modAx n fun a => { a with used := used.contains n }
    (s.set R.PTP_STAT_RATEMAX s.rateMax).modBoot fun b => { b with step := 9 }

/-- Step 10 begins (R83): what the image runs as is told, ports, clock, scheduler and STO logic start, and the units follow one by one; with
no slice in use the first field group is enabled now (R58). -/
def State.intakeEnd (s : State) : State :=
  let k := s.boot.slot
  let m := s.flash k
  let s := (((s.set (slotFld k) 0).set R.IMG_STAT_CODE 0).set R.IMG_STAT_SLOT k).setB R.IMG_STAT_FALLBACK (s.boot.first != some k)
  let s := (s.setB R.IMG_STAT_SIGNED s.keyed).set R.IMG_RGEN_GEN (imgHeader m).gen
  let s := s.setB R.SYS_STATE_TWIN (s.on R.TWN_CFG_EN)
  let s := (s.modBoot fun b => { b with step := 0, imgId := ofLe (flashSpan m 0x40 8) }).startEngines.schedStart
  let s := ({ s with sto := { s.sto with step10 := true } }).startUnits true
  let s := s.tryRelease
  if s.boot.slicesLeft.isEmpty then (s.enableGroup 0).modBoot fun b => { b with groupsDone := 1 } else s

/-- Step 9: the hard limits copied and acknowledged (R29); class I fields are read-only outside INTAKE's steps 5 to 8. -/
def State.intakeLock (s : State) (o : IntakeObs) : State :=
  if !o.hlAck then s.failSlot 0x31 else s.copyLimits.intakeEnd

/-- INTAKE_STEP_DONE (R83): the step in progress ends and the next starts, or the attempt ends with its code. An uncorrectable error in any step
ends INTAKE (R86); the flash is read in steps 4, 5 and 7. -/
def execIntakeStepDone (o : IntakeObs) (s : State) : Out :=
  let k := s.boot.step
  if k = 0 || s.leaving || s.boot.resetLow then .next s else
  let s := s.passTo (s.boot.t0 + o.elapsedMs * 1000000 * nsUnit)
  let s := if o.ecc == .single then { s with arc := { s.arc with eccCorr := s.arc.eccCorr + 1 } } else s
  if o.ecc == .double then .next (s.intakeHalt 0x30)
  else
    match k with
    | 1 => .next (s.intakeLinks o)
    | 2 => .next (s.modBoot fun b => { b with step := 3 })
    | 3 => .next (s.intakeDiscover o)
    | 4 => .next (if o.readOk then s.intakeHeaders else s.intakeHalt 0x04)
    | 5 => .next (if o.readOk then s.intakePassOne else s.failSlot 0x04)
    | 6 => .next s.intakeSign
    | 7 => .next (if o.readOk then s.intakePassTwo o else s.failSlot 0x04)
    | 8 => .next s.intakeCheck
    | _ => .next (s.intakeLock o)

/-- INTAKE_TIMEOUT (R85). -/
def execIntakeTimeout (s : State) : Out :=
  if s.boot.step = 0 || s.leaving || s.boot.resetLow then .next s
  else .next ((s.passTo (s.boot.t0 + 10 * secUnit)).intakeHalt 0x3F)

/-- An update command ended (R90): STATE 2 done or 3 error with its code. -/
def State.updateEnd (s : State) (code : Nat) : State :=
  ((s.set R.IMG_UPD_STATE (if code = 0 then 2 else 3)).set R.IMG_UPD_UCODE code).modBoot fun b => { b with updCmd := 0, updAbort := false }

/-- FLASH_BURST_TIMEOUT (R82, Table IMG.5): the attempt, or a VERIFY in progress, fails with READ. -/
def execFlashBurstTimeout (s : State) : Out :=
  if s.leaving || s.boot.resetLow then .next s
  else if s.get R.IMG_UPD_STATE = 1 ∧ s.boot.updCmd = 3 then .next (s.updateEnd 0x04)
  else match s.boot.step with
    | 3 => .next (s.intakeHalt 0x04)
    | 4 => .next (s.intakeHalt 0x04)
    | 5 => .next (s.failSlot 0x04)
    | 7 => .next (s.failSlot 0x04)
    | _ => .next s

/-- FLASH_SUPPLY_LIMIT (R39): FL_VDD switches off; INTAKE ends with FL_SUPPLY; a command that needs the flash fails. -/
def execFlashSupplyLimit (s : State) : Out :=
  if !s.boot.flOn then .next s else
  let s := s.modBoot fun b => { b with flOn := false }
  .next (if s.boot.step ≠ 0 then s.intakeHalt 0x01
         else if s.get R.IMG_UPD_STATE = 1 ∧ s.boot.updCmd ≠ 7 then s.updateEnd 0x01 else s)

/-! Start of the units (R58). -/

/-- A slice started: its carrier waits for its first boundary (R186), sample sets count from zero, the feedback port, the generators and the
homing state are as R234, R240 and R287 say; the offsets and the delay-line calibration stay. -/
def State.startSlice (s : State) (n : Slice) : State :=
  let cal := s.pwm[n].cal
  let s := s.modAx n fun a => { a with started := true }
  let s := s.modPwm n fun p => { PwmDyn.reset with running := true, per := s.get (R.SLC_PWMCFG_CPER n), place := s.get (R.SLC_PWMCFG_NCUR n),
                                                   cal := cal, calNew := p.calNew }
  let s := (s.modSense n fun _ => SenseDyn.reset).fbStart n
  let s := s.each [R.SLC_PRSTAT_PSTATE n, R.SLC_PRSTAT_HOMED n, R.SLC_PRSTAT_INPOS n, R.SLC_PRSTAT_PRBHIT n,
    R.SLC_PRSTAT_PRBMISS n, R.SLC_PRSTAT_HSTEP n, R.SLC_PRSTAT_CAMERR n, R.SLC_PRSTAT_RES n] State.toReset
  let s := s.set (R.SLC_PRSTAT_SLOST n) 1
  s.modProf n fun p => { p with sofs := 0, m := 0 }

/-- SLICE_START (R58): the next used slice, in ascending order. -/
def execSliceStart (s : State) : Out :=
  if !s.boot.starting || s.leaving || s.boot.resetLow then .next s
  else
    match s.boot.slicesLeft with
    | [] => .next s
    | n :: t => .next ((s.startSlice n).modBoot fun b => { b with slicesLeft := t })

/-- HOLD entered when the last field group is enabled (R58, Table STA.2). -/
def State.holdState (s : State) : State :=
  let s := s.modBoot fun b => { b with starting := false }
  if s.dev == 0 then s.intakeMs.setDev 1 else s

/-- FIELD_GROUP_ENABLE (R58, R404): the next group of four; a group that returns after its supply's recovery goes first. -/
def execFieldGroupEnable (s : State) : Out :=
  if s.leaving || s.boot.resetLow then .next s
  else
    match (upto 6).find? fun g => bit s.fio.waiting g == 1 with
    | some g => .next (s.modFio fun x => { x with waiting := clrBit x.waiting g })
    | none =>
      if !s.boot.starting || !s.boot.slicesLeft.isEmpty || 6 ≤ s.boot.groupsDone then .next s
      else
        let g := s.boot.groupsDone
        let s := (s.enableGroup g).modBoot fun b => { b with groupsDone := g + 1 }
        .next (if g = 5 then s.holdState else s)

end Sys2Proof.Machine
end

