-- ==== Sys2Proof/Machine/Bus.lean ====
section
/-!
DEFINITION. Machine/Bus.lean: the bus monitors, the overvoltage ladder and its choppers, the backstop and the bus undervoltage
(R204 to R209). A row's bus voltage is the monitor's sample in units of 10 mV, its chopper current the voltage at CHIk in µV.
-/

namespace Sys2Proof.Machine

/-- Bus voltage k as BUS_MEAS shows it. -/
def measFld (k : Fin 4) : Fld := ⟨R.BUS_MEAS_V0.addr, 16 * k.val, 16, 0⟩

/-- Whether a bus is enabled (R205). -/
def State.busEn (s : State) (k : Fin 4) : Bool := s.hl (R.BUS_CLIM_EN k) != 0

/-- A sample of bus k (BUS_MEAS, BUS_STAT.UV): a sample at or above VUV lets BUSUV be raised again (R209). -/
def State.busSample (s : State) (k : Fin 4) (v : Nat) : State :=
  let s := s.set (measFld k) (satN 65535 v)
  let low := decide (v < s.hl (R.BUS_CLIM_VUV k))
  let s := s.putBit R.BUS_STAT_UV k low
  if low then s else s.modBus k fun b => { b with uvRaised := false }

/-- CHOPPER_ON (R206, step 1): the bus is above VCH_ON with CHEN set; the chopper turns on. -/
def execChopperOn (k : Fin 4) (v : Nat) (s : State) : Out :=
  let s := s.busSample k v
  if s.busEn k && s.hl (R.BUS_CLIM_CHEN k) != 0 && s.hl (R.BUS_VLIM_VCH_ON k) < v && !s.bitOf R.BUS_STAT_CHON k && !s.leaving then
    .next ((s.putBit R.BUS_STAT_CHON k true).modBus k fun b => { b with onValue := v, checked := false })
  else .next s

/-- CHOPPER_OFF (R206, step 1): the bus is below VCH_OFF after the minimum on-time; the chopper turns off. -/
def execChopperOff (k : Fin 4) (v : Nat) (s : State) : Out :=
  let s := s.busSample k v
  if s.bitOf R.BUS_STAT_CHON k && v < s.hl (R.BUS_VLIM_VCH_OFF k) then .next (s.putBit R.BUS_STAT_CHON k false) else .next s

/-- CHOPPER_CHECK (R206, step 2): the chopper has been on for TCHK; its current must reach ICH_MIN and the bus lie below its value at
turn-on, else CHFAULT. The chopper goes on switching. -/
def execChopperCheck (k : Fin 4) (chi : Int) (v : Nat) (s : State) : Out :=
  let s := s.busSample k v
  if s.bitOf R.BUS_STAT_CHON k && !s.bus[k].checked then
    let s' := s.modBus k fun b => { b with checked := true }
    if (s.hl (R.BUS_CLIM_ICH_MIN k) : Int) * 1000 ≤ chi ∧ v < s.bus[k].onValue then .next s'
    else .next (((s'.putBit R.BUS_STAT_CHFAULT k true).bump R.BUS_CNT_CHFCNT).raiseBus 0x0705 3 k)
  else .next s

/-- REGEN_ENTRY (R206, step 3): the bus is above VREGEN; the ceilings of its scope are reduced (State.ceilOf), F1. -/
def execRegenEntry (k : Fin 4) (v : Nat) (s : State) : Out :=
  let s := s.busSample k v
  if s.busEn k && s.hl (R.BUS_VLIM_VREGEN k) < v && !s.bitOf R.BUS_STAT_REGEN k then
    .next ((s.putBit R.BUS_STAT_REGEN k true).raiseBus 0x0706 1 k)
  else .next s

/-- REGEN_RELEASE (R206, step 3): the bus is below VCH_ON. -/
def execRegenRelease (k : Fin 4) (v : Nat) (s : State) : Out :=
  let s := s.busSample k v
  if v < s.hl (R.BUS_VLIM_VCH_ON k) then .next (s.putBit R.BUS_STAT_REGEN k false) else .next s

/-- ACTIVE_SHORT_ENTRY (R206, step 4): the bus is above VSHORT; the slices of its scope whose die has GATE_EN and gate supply hold all
low sides on (State.drive), F3. -/
def execActiveShortEntry (k : Fin 4) (v : Nat) (s : State) : Out :=
  let s := s.busSample k v
  if s.busEn k && s.hl (R.BUS_VLIM_VSHORT k) < v && !s.bitOf R.BUS_STAT_SHORT k then
    .next (((s.putBit R.BUS_STAT_SHORT k true).bump R.BUS_CNT_SHORTCNT).raiseBus 0x0707 3 k)
  else .next s

/-- ACTIVE_SHORT_RELEASE (R206, step 4): the bus has stayed below VCH_OFF for 10 ms; the gates go low with the short's end, since the
F3 left their axes FAULTED. -/
def execActiveShortRelease (k : Fin 4) (v : Nat) (s : State) : Out :=
  let s := s.busSample k v
  if v < s.hl (R.BUS_VLIM_VCH_OFF k) then .next (s.putBit R.BUS_STAT_SHORT k false) else .next s

/-- BUS_ABS_ENTRY (R206, step 5): the bus is above VABS; all gates of its scope low, F4. -/
def execBusAbsEntry (k : Fin 4) (v : Nat) (s : State) : Out :=
  let s := s.busSample k v
  if s.busEn k && s.hl (R.BUS_CLIM_VABS k) < v && !s.bitOf R.BUS_STAT_ABS k then
    .next (((s.putBit R.BUS_STAT_ABS k true).bump R.BUS_CNT_ABSCNT).raiseBus 0x0708 4 k)
  else .next s

/-- BUS_ABS_RELEASE (R206, step 5): the bus has stayed below VCH_OFF for 10 ms. -/
def execBusAbsRelease (k : Fin 4) (v : Nat) (s : State) : Out :=
  let s := s.busSample k v
  if v < s.hl (R.BUS_VLIM_VCH_OFF k) then .next (s.putBit R.BUS_STAT_ABS k false) else .next s

/-- BACKSTOP (R208): the bus stayed above VABS for 20 µs after step 5; the field die opens both gate-supply switches, F4 of module
scope. ENGAGED and TORQUE-OFF do not change (Table STO.5). -/
def execBackstop (k : Fin 4) (s : State) : Out :=
  if s.domOn 5 && s.bitOf R.BUS_STAT_ABS k && !s.on R.BUS_STAT_BACKSTOP then
    let s := s.set R.BUS_STAT_BACKSTOP 1
    let s := s.bump R.BUS_CNT_BSTCNT
    let s := s.openSwitches
    .next (s.raiseMod 0x0709 4)
  else .next s

/-- BACKSTOP_END (R208, R414): every enabled bus has stayed below VCH_OFF for 10 ms; the release sequence may follow. -/
def execBackstopEnd (s : State) : Out :=
  if s.on R.BUS_STAT_BACKSTOP then .next ((s.set R.BUS_STAT_BACKSTOP 0).fbUpdate).tryRelease else .next s

/-- BUSUV (R209): the bus has stood below VUV for 1 ms with a slice of its scope on; F3 of bus scope, once until a condition ends. -/
def execBusuv (k : Fin 4) (s : State) : Out :=
  if s.busEn k && s.busOnAny k && !s.bus[k].uvRaised then
    let s := s.putBit R.BUS_STAT_UV k true
    .next ((s.modBus k fun b => { b with uvRaised := true }).raiseBus 0x070A 3 k)
  else .next s

end Sys2Proof.Machine
end

