-- ==== Sys2Proof/Machine/Faults.lean ====
section
/-!
DEFINITION. Machine/Faults.lean: the fault engine: reaction, pre-emption, latching and logging of records, and CLEAR by scope (R451 to R464,
R475).
-/

namespace Sys2Proof.Machine

/-- A record as an operand gives it. -/
def FaultSpec.rec (r : FaultSpec) : FaultRec :=
  { code := r.code, sev := r.sev, skind := r.skind, sindex := r.sindex, origin := r.origin, detail := r.detail, gross := r.gross, late := r.late }

/-- The causes of R300. -/
def halfCodes : List Nat := [0x0601, 0x0602, 0x0603, 0x0605, 0x0606, 0x0702]

/-- Whether a record takes only its own slice of a DUAL3 pair with DEG set (R300): the axis is on and the other winding set is not lost. -/
def State.isHalf (s : State) (r : FaultRec) : Bool :=
  let o := sliceOf r.origin
  let other := if o.val % 2 = 0 then oddOf o else evenOf o
  halfCodes.contains r.code && 2 ≤ r.sev && r.skind == 1 && r.origin < 16 && s.degPair o && s.axOn (evenOf o) && !s.lostSet other

/-- A half fault takes its winding set: LOST, and an F1 HALFSET of axis scope beside the F3 (R300). -/
def State.loseHalf (s : State) (r : FaultRec) : State :=
  let o := sliceOf r.origin
  s.set (if o.val % 2 = 0 then R.SLC_CHYSTAT_LOST_E (evenOf o) else R.SLC_CHYSTAT_LOST_O (evenOf o)) 1

/-- The records of one fabric cycle, each with the mark of a half fault, taken one after the other: a second cause on the remaining slice
is no half fault (R300). -/
def State.markHalves : State → List FaultRec → State × List (FaultRec × Bool)
  | s, [] => (s, [])
  | s, r :: t =>
    if s.isHalf r then
      let o := sliceOf r.origin
      let warn : FaultRec := { code := 0x0B03, sev := 1, skind := 1, sindex := r.sindex, origin := r.origin }
      let fresh := !s.lostSet o
      let (s, l) := (s.loseHalf r).markHalves t
      (s, ({ r with sev := 3 }, true) :: (if fresh then [(warn, false)] else []) ++ l)
    else
      let (s, l) := s.markHalves t
      (s, (r, false) :: l)

/-- The highest severity that the records bring to an axis, half faults apart. -/
def State.newWorst (s : State) (l : List (FaultRec × Bool)) (n : Slice) : Nat :=
  l.foldl (fun w r => if !r.2 && s.covers r.1.skind r.1.sindex n && w < r.1.sev then r.1.sev else w) 0

/-- A fault of F2 or higher latched in its scope (R452), once for each code and detail. -/
def State.latchRec (s : State) (r : FaultRec) (half : Bool) : State :=
  if r.sev < 2 then s
  else
    let same := fun (x : Latched) => x.code == r.code && x.skind == r.skind && x.sindex == r.sindex && x.detail == r.detail
    let l := s.faults.latched
    let l := if l.any same then l.map fun x => if same x then { x with sev := max x.sev r.sev, half := x.half && half } else x
      else l ++ [⟨r.code, r.sev, r.skind, r.sindex, r.detail, half⟩]
    { s with faults := { s.faults with latched := l } }

/-- The reaction of a severity on one axis (Table FLT.1). -/
def State.react (s : State) (sev : Nat) (n : Slice) : State :=
  if sev < 2 then s else if sev = 2 then s.reactF2 n else s.reactF3 n

/-! Log entries of one fabric cycle (R454). -/

/-- Whether a record comes before another in an entry: higher severity, then lower code. -/
def recBefore (a b : FaultRec) : Bool := b.sev < a.sev || (a.sev == b.sev && a.code ≤ b.code)

/-- A record put into an ordered list. -/
def recInsert (r : FaultRec) : List FaultRec → List FaultRec
  | [] => [r]
  | x :: t => if recBefore x r then x :: recInsert r t else r :: x :: t

/-- Whether two records share an entry: one source (block byte) and one scope. -/
def sameEntry (a b : FaultRec) : Bool := a.code / 256 == b.code / 256 && a.skind == b.skind && a.sindex == b.sindex

/-- The first record of each code, and the rest. -/
def splitCodes : List FaultRec → List Nat → List FaultRec × List FaultRec
  | [], _ => ([], [])
  | r :: t, seen =>
    if seen.contains r.code then let (a, b) := splitCodes t seen; (a, r :: b)
    else let (a, b) := splitCodes t (r.code :: seen); (r :: a, b)

/-- The records of one source and scope logged: up to five codes in an entry, the rest in further ones. -/
def State.logGroup (s : State) (pre : FaultRec → Bool) : Nat → List FaultRec → State
  | 0, _ => s
  | fuel + 1, l =>
    match l with
    | [] => s
    | r :: t => (s.logFault (r.entry (pre r) ((t.take 4).map (·.code)))).logGroup pre fuel (t.drop 4)

/-- All records logged, group by group, in the order of each group's first record. -/
def State.logAll (s : State) (pre : FaultRec → Bool) : Nat → List FaultRec → State
  | 0, _ => s
  | fuel + 1, l =>
    match l with
    | [] => s
    | r :: _ =>
      let mine := (l.filter (sameEntry r)).foldl (fun a x => recInsert x a) []
      let (one, more) := splitCodes mine []
      let s := s.logGroup pre one.length one
      let s := s.each more fun s x => s.logFault (x.entry (pre x) [])
      s.logAll pre fuel (l.filter fun x => !sameEntry r x)

/-- The fault engine takes all records of one fabric cycle (R451 to R454, R97): each axis under a lower reaction takes the highest of them,
all are latched and logged; an F5 ends in HALT, an F4 of module scope takes the device from RUN to HOLD. -/
def State.takeRecords (s : State) (recs : List FaultRec) : State :=
  let (s, l) := s.markHalves recs
  let was := slices.map s.worst
  let new := slices.map (s.newWorst l)
  let pre := fun (r : FaultRec) => slices.any fun n =>
    s.covers r.skind r.sindex n && 2 ≤ nthD was n.val 0 && nthD was n.val 0 < r.sev
  let axes := s.axes.filter fun n => nthD was n.val 0 < nthD new n.val 0
  let s := s.each l fun s r => s.latchRec r.1 r.2
  let s := s.each (s.reactOrder axes) fun s n => s.react (nthD new n.val 0) n
  let s := s.logAll pre l.length (l.map (·.1))
  if l.any fun r => r.1.sev == 5 then s.enterHalt
  else if s.dev == 2 && l.any (fun r => r.1.sev == 4 && r.1.skind == 0) && s.axesOff then (s.setDev 1).freeLevels
  else s

/-- FAULT_RECORD (R451, R453): the records raised so far and those that the row carries reach the fault engine together. -/
def execFaultRecord (records : List FaultSpec) (s : State) : Out :=
  if !s.domOn 0 then .next s
  else
    let l := s.faults.inbox ++ records.map FaultSpec.rec
    .next ({ s with faults := { s.faults with inbox := [] } }.takeRecords l)

/-! CLEAR by scope (R460, R475). -/

/-- Whether SINDEX is in the range that Table FLT.2 gives for SKIND. -/
def scopeValid (skind sindex : Nat) : Bool :=
  match skind with
  | 0 => sindex == 0
  | 2 => sindex < 4
  | 3 => sindex < 2
  | 4 => sindex < 32
  | 5 => sindex < 8
  | 6 => sindex < 14
  | _ => false

/-- Whether a reaction of a scope still runs (R460): an axis stops under it, or its path group holds with f above 0. -/
def State.reactionRuns (s : State) (skind sindex : Nat) : Bool :=
  (s.faults.latched.any fun l => l.ofScope skind sindex && l.sev == 2) &&
    s.axes.any fun n => s.covers skind sindex n && s.axst n == 3 && s.ax[n].stop == .f2 &&
      (s.axmode n != 3 || (match s.grp[(⟨s.get (R.SLC_MODE_GROUP n) % 8, by omega⟩ : Fin 8)].f with | 0 => false | _ => true))

/-- The outcome of a CLEAR of a scope other than an axis. -/
def State.clearScopeCode (s : State) (skind sindex : Nat) : Nat :=
  let mine := s.faults.latched.filter fun l => l.ofScope skind sindex
  if !scopeValid skind sindex then 4
  else if mine.any s.present then 1
  else if s.reactionRuns skind sindex then 2
  else if mine.any fun l => l.sev == 5 then 3
  else 0

/-- A CLEAR of a scope (R460): its latched faults clear; that of module scope ends LOCKOUT once HOLD_IN is released (Table TWN.3). -/
def State.clearScope (s : State) (skind sindex : Nat) : State :=
  if skind = 1 then s.clearAxis sindex
  else
    let code := s.clearScopeCode skind sindex
    let s := if code = 0 then s.dropLatched skind sindex else s
    let s := if code = 0 && skind == 0 && s.get R.TWN_STAT_LSTATE == 3 then s.set R.TWN_STAT_LSTATE 0 else s
    s.clearResult skind sindex code

/-- FLT_CLEAR (R459, R460). -/
def execFltClear (skind sindex : Nat) (s : State) : Out := .next (if s.domOn 0 then s.clearScope skind sindex else s)

end Sys2Proof.Machine
end

