-- ==== Sys2Proof/Machine/PipFlow.lean ====
section
/-!
DEFINITION. Machine/PipFlow.lean: branches, repeat, posts, the end of a pip, break points, debug halts, local-memory scrubbing and
illegal words (R123, R127 to R134, R139).
-/

namespace Sys2Proof.Machine

/-! Branches. -/

/-- The target of a BR or CALL: PC + 8 × OFFSET. -/
def branchTarget (pc off : Nat) : Nat := ofS 32 ((pc : Int) + 8 * toS 32 off)

/-- BR off (R131): a taken branch closes every level whose body the target leaves. -/
def execBr (x : PipAt) (f : BForm) (s : State) : Out :=
  .next (s.pipFrame x f.cond [] (f.creg == 0) false fun s => s.modCore x.core fun c =>
    let t := branchTarget c.pc f.offset
    { c with pc := t, levels := closeLevels c.levels t, cyc := c.cyc + 2, accBefore := [], loadedBefore := [] })

/-- CALL off: A7 = PC + 8; it closes no level (R131). -/
def execCall (x : PipAt) (f : BForm) (s : State) : Out :=
  .next (s.pipFrame x f.cond [0x27] (f.creg == 0) false fun s => s.modCore x.core fun c =>
    { c.putA 7 (c.pc + 8) with
        pc := branchTarget c.pc f.offset, cyc := c.cyc + 2, accBefore := [], loadedBefore := [] })

/-- JMP a: PC = a, a D or an A register (R123). -/
def execJmp (x : PipAt) (f : RForm) (s : State) : Out :=
  .next (s.pipFrame x f.cond [f.dst, f.sa, f.sb] (f.sa < 0x28) false fun s => s.modCore x.core fun c =>
    { c with pc := c.reg x.core f.sa % 2 ^ 32, cyc := c.cyc + 2, accBefore := [], loadedBefore := [] })

/-! Repeat. -/

/-- REP c, len (R129): the level opened, or none where the REP abandons its pip; `count` passes of `len` instructions. -/
def CoreDyn.openLevel (c : CoreDyn) (len count : Nat) : Option CoreDyn :=
  let last := c.pc + 8 * len
  let nested := c.levels.all fun l => !(l.start ≤ c.pc && c.pc ≤ l.last) || last ≤ l.last
  if c.levels.length ≥ 4 || !nested then none
  else
    let c := { c with cyc := c.cyc + 1, accBefore := [], loadedBefore := [] }
    if count = 0 then some { c with pc := last }.advance
    else some { c with levels := ⟨c.pc + 8, last, count⟩ :: c.levels, pc := c.pc + 8 }

/-- REP c, len: the count is ICOUNT, or bits [31:0] of a D register. -/
def execRep (x : PipAt) (f : BForm) (s : State) : Out :=
  .next (s.pipFrame x f.cond [f.creg] (isD f.creg || f.creg == 0x3F) false fun s =>
    let c := s.core[x.core]
    let count := if f.creg = 0x3F then f.icount else c.dreg f.creg % 2 ^ 32
    match c.openLevel (f.len + 1) count with
    | some c => s.modCore x.core fun _ => c
    | none => s.abandon x.core 5)

/-! Posts, fences and the end of a pip (R127). -/

/-- A post of edge e made known, once (R127). -/
def State.postEdge (s : State) (k : Core) (e : Nat) : State :=
  let c := s.core[k]
  if bit c.posted e = 1 then s
  else (s.modCore k fun c => { c with posted := setBit c.posted e }).note k (.post e)

/-- The end of a pip: every output edge not yet posted is posted, SAT is counted and may warn (LCn_CTRL.SATWARN). -/
def State.finishPip (s : State) (k : Core) : State :=
  let p := s.pipOf k
  let s := (upto 8).foldl (fun s e => if (s.outEdge p e).isSome then s.postEdge k e else s) s
  let s :=
    if s.core[k].flags.sat then
      let s := s.bump (R.LC_STAT_SATCNT k)
      if s.on (R.LC_CTRL_SATWARN k) && !s.core[k].satWarned then
        (s.modCore k fun c => { c with satWarned := true }).raiseGraph 0x0505 1 (s.pipGroup p)
      else s
    else s
  (s.endRun k).note k .done

/-- What a core does when every earlier store has been accepted (R127). -/
def State.afterStores (s : State) (k : Core) (w : CoreWait) : State :=
  let go := fun s : State => s.modCore k fun c => { c.advance with wait := .none }
  match w with
  | .none => s
  | .post e => go (s.postEdge k e)
  | .fence => go s
  | .done => s.finishPip k

/-- POST, FENCE or DONE: at once without stores outstanding, else waiting for them. -/
def State.waitStores (s : State) (k : Core) (w : CoreWait) : State :=
  let s := s.modCore k fun c => { c with cyc := c.cyc + 1, accBefore := [], loadedBefore := [] }
  if s.core[k].stores.isEmpty then s.afterStores k w else s.modCore k fun c => { c with wait := w }

/-- POST e, e = SH[2:0]; a post of an edge the pip does not have is illegal. -/
def execPost (x : PipAt) (f : RForm) (s : State) : Out :=
  .next (s.pipFrame x f.cond [f.dst, f.sa, f.sb] true false fun s =>
    if (s.outEdge (s.pipOf x.core) (f.sh % 8)).isSome then s.waitStores x.core (.post (f.sh % 8)) else s.abandon x.core 1)

/-- DONE. -/
def execDone (x : PipAt) (f : RForm) (s : State) : Out :=
  .next (s.pipFrame x f.cond [f.dst, f.sa, f.sb] true false fun s => s.waitStores x.core .done)

/-- FENCE. -/
def execFence (x : PipAt) (f : RForm) (s : State) : Out :=
  .next (s.pipFrame x f.cond [f.dst, f.sa, f.sb] true true fun s => s.waitStores x.core .fence)

/-- LOAD_DATA_ARRIVAL (R115): the oldest load under way writes its registers. -/
def execLoadDataArrival (k : Core) (s : State) : Out :=
  .next (s.modCore k fun c =>
    match c.loads with
    | [] => c
    | l :: t => { c.landLoad l with loads := t })

/-! Debugging (R128, R139). -/

/-- Whether the functions of SERVICE are served in full (R95). -/
def State.fullService (s : State) : Bool := s.dev == 4 && s.get R.SYS_CFG_SVCMODE == 2

/-- A write to LCn_DBG that is refused (R9, R95, R139): an F0 notice. -/
def State.dbgRefused (s : State) : State := s.raiseMod 0x0105 0

/-- BRK (R128): in SERVICE with BKEN it halts the core before the next instruction; else NOP, counted outside SERVICE. -/
def execBrk (x : PipAt) (f : RForm) (s : State) : Out :=
  .next (s.pipFrame x f.cond [f.dst, f.sa, f.sb] true true fun s =>
    let s := s.modCore x.core fun c => { c.advance with cyc := c.cyc + 1, accBefore := [], loadedBefore := [] }
    if s.dev != 4 then s.bump (R.LC_STAT_BRKCNT x.core)
    else if s.on (R.LC_DBG_BKEN x.core) then s.modCore x.core fun c => { c with stopReq := true }
    else s)

/-- HALT: LCn_DBG.HALT set (R139). -/
def State.dbgHalt (s : State) (k : Core) : State := if s.fullService then s.set (R.LC_DBG_HALT k) 1 else s.dbgRefused

/-- RESUME: LCn_DBG.HALT cleared (R139). -/
def State.dbgResume (s : State) (k : Core) : State :=
  if !s.fullService then s.dbgRefused
  else
    let s := (s.set (R.LC_DBG_HALT k) 0).modCore k fun c => { c with stopReq := false, stepArmed := false }
    if s.on (R.LC_DBG_HALTED k) then
      (s.set (R.LC_DBG_HALTED k) 0).set (R.LC_STAT_STATE k) (if s.core[k].run.isSome then 1 else 0)
    else s

/-- STEP: one instruction while halted (R139). -/
def State.dbgStep (s : State) (k : Core) : State :=
  if !s.fullService then s.dbgRefused
  else if s.on (R.LC_DBG_HALTED k) then s.modCore k fun c => { c with stepArmed := true }
  else s

def execHalt (k : Core) (s : State) : Out := .next (s.dbgHalt k)

def execResume (k : Core) (s : State) : Out := .next (s.dbgResume k)

def execStep (k : Core) (s : State) : Out := .next (s.dbgStep k)

/-- CORE_DEBUG_HALTED (R139, R200): at its instruction boundary, or before the next dispatch when idle, the core halts and the slices
that name it in FRZMASK freeze, each where its carrier stands (`place`). -/
def execCoreDebugHalted (k : Core) (place : List Nat) (s : State) : Out :=
  let st := s.get (R.LC_STAT_STATE k)
  let c := s.core[k]
  if s.dev == 4 && (st == 0 || st == 1) && c.wait == .none && (s.on (R.LC_DBG_HALT k) || c.stopReq) then
    let s := (s.set (R.LC_STAT_STATE k) 2).set (R.LC_DBG_HALTED k) 1
    let s := s.set (R.LC_DBG_PC k) c.pc
    let s := s.modCore k fun c => { c with stopReq := false }
    .next (s.each slices fun s n =>
      if s.bitOf (R.SLC_PWMCFG_FRZMASK n) k then s.freeze n (nthD place n.val 0) else s)
  else .next s

/-! Local memory and illegal words. -/

/-- LOCAL_MEMORY_SCRUB (R134): the next word read and corrected. -/
def execLocalMemoryScrub (k : Core) (ecc : EccSeen) (s : State) : Out :=
  if s.get (R.LC_STAT_STATE k) == 3 then .next s else
  let i := nthD s.arc.lcScrub k.val 0
  let a := localBase k + i % 32768 * 8
  let s := { s with arc := { s.arc with lcScrub := setNth s.arc.lcScrub k.val ((i + 1) % 32768) } }
  match ecc with
  | .clean => .next s
  | .single => .next ((s.bump (R.LC_ECC_CORR k)).set (R.LC_ECC_LASTADDR k) a)
  | .double => .next (s.coreUncorr k a)

/-- ILLEGAL_INSTRUCTION (R123): a word that names no instruction of Table PIP.9 or has a reserved code or bit set. -/
def execIllegalInstruction (x : PipAt) (_word : Nat) (s : State) : Out :=
  .next (s.pipFrame x 0 [] false true fun s => s)

end Sys2Proof.Machine
end

