-- ==== Sys2Proof/Machine/Ptp.lean ====
section
/-!
DEFINITION. Machine/Ptp.lean: PTP messages, the servo, the grandmaster's sources, and writes to the clock (R322 to R335, R344).
-/

namespace Sys2Proof.Machine

/-- Whether the time engine works and is not OFF (R327, R344). -/
def State.ptpRuns (s : State) : Bool := s.netRuns && s.clock.running && s.role != 3

/-- Whether a port carries the ordinary clock's messages: in FAILOVER the active one. -/
def State.ptpPort (s : State) (p : Fin 2) : Bool :=
  s.on (R.NET_PSTAT_LINK p) && (s.get R.NET_CFG_PMODE == 0 || s.get R.NET_FOSTAT_ACTIVE == p.val)

/-- An offset met by the servo (R330, R331): beyond STEPTH the clock steps with no axis on, else it slews at RATEMAX; within it RATE is
what the PI servo gives, a free value within ±RATEMAX. LOCK and its loss by the runs of R330; `present` says that nothing else withholds
LOCK. Offset in 2^−16 ns. -/
def State.servo (s : State) (ofs : Int) (present : Bool) : State :=
  let s :=
    if ofs.natAbs > s.get R.PTP_SERVO_STEPTH * 100 * 65536 then
      if s.get R.SYS_STATE_AX_ON = 0 then s.stepBy (-(ofs * 65536))
      else s.setRate (-(sgn ofs) * (s.get R.PTP_STAT_RATEMAX * 65536 : Nat))
    else (s.setRate (toS 48 s.free)).drawn
  let th := s.get R.PTP_SERVO_LOCKTH * 65536
  let near := ofs.natAbs ≤ th
  let far := s.on R.PTP_STAT_LOCK && 4 * th < ofs.natAbs
  let s := s.modTime fun t => { t with lockRun := if near then t.lockRun + 1 else 0, farRun := if far then t.farRun + 1 else 0 }
  if s.on R.PTP_STAT_LOCK then (if s.time.farRun ≥ 4 then s.loseLock else s)
  else if present && s.get R.PTP_SERVO_LOCKN ≤ s.time.lockRun then s.setLock
  else s

/-- SYNC_RECEIVED (R326, R329 to R332): a Sync of the selected master on the receiving port, its Follow_Up come where it has one. -/
def execSyncReceived (r : SyncRec) (s : State) : Out :=
  if !s.ptpRuns || s.isMaster || r.domain ≠ s.get R.PTP_CFG_DOMAIN || s.time.master ≠ some r.source
      || r.port.val ≠ s.get R.PTP_STAT_RXPORT || !s.ptpPort r.port || !r.sourceValid then .next s
  else
    let d := nthD s.time.delay r.port 0
    let d := if s.on R.PTP_CFG_PROF then d + Int.fdiv (d * r.rateRatio) (2 ^ 41) else d
    let asym := psStamp (s.getS (R.PTP_PORT_ASYM r.port))
    let ofs : Int := s.rxTime r.port r.arrival - (r.origin : Int) - r.correction - asym - d
    let s := s.setS R.PTP_OFFS_OFFSET (satS 32 (Int.fdiv ofs 4096))
    let s := s.modTime fun t => { t with qual := t.qual + 1, relay := t.relay.map fun x => (x.1, r.rateRatio) }
    if s.on R.PTP_STAT_HOLD && s.time.qual < s.get R.PTP_SERVO_QUALN then .next s else .next (s.servo ofs true)

/-- ANNOUNCE_RECEIVED (R327, R328): taken into the BMCA. -/
def execAnnounceReceived (r : AnnounceRec) (s : State) : Out :=
  if !s.ptpRuns || s.role == 1 || r.domain ≠ s.get R.PTP_CFG_DOMAIN || !s.on (R.NET_PSTAT_LINK r.port) || 255 ≤ r.stepsRemoved then .next s
  else
    let same := fun x : AnnounceRec => x.source == r.source && x.port == r.port
    let s := s.modTime fun t =>
      { t with heard := if t.heard.any same then t.heard.map fun x => if same x then r else x else t.heard ++ [r] }
    .next s.chooseMaster

/-- The path or link delay of a port measured, in 2^−16 ns. -/
def State.setDelay (s : State) (p : Fin 2) (d : Int) : State :=
  let s := s.modTime fun t => { t with delay := setNth t.delay p d }
  if s.get R.PTP_STAT_RXPORT = p.val then s.set R.PTP_OFFS_MPD (ofS 32 (satS 32 (Int.fdiv d 4096))) else s

/-- Whether the port uses peer delay. -/
def State.peerDelay (s : State) : Bool := s.on R.PTP_CFG_P2P || s.on R.PTP_CFG_PROF

/-- DELAY_MESSAGE_RECEIVED (R329, IEEE 1588-2019 clause 11): a response gives the delay, a request is answered. t1 and t2 are departure and
arrival of the first message, t3 and t4 those of the second. -/
def execDelayMessageReceived (r : DelayRec) (s : State) : Out :=
  if !s.ptpRuns || r.domain ≠ s.get R.PTP_CFG_DOMAIN || !s.on (R.NET_PSTAT_LINK r.port) then .next s
  else match r.kind with
    | .delayResp =>
      if s.peerDelay || s.isMaster || s.time.master ≠ some r.source then .next s
      else
        let d := Int.fdiv (s.rxTime r.port r.t2 - (r.t1 : Int) + (r.t4 : Int) - s.txTime r.port r.t3 - r.correction) 2
        .next (s.setDelay r.port d)
    | .pdelayResp =>
      if !s.peerDelay then .next s
      else
        let d := Int.fdiv (s.rxTime r.port r.t4 - s.txTime r.port r.t1 - ((r.t3 : Int) - (r.t2 : Int)) - r.correction) 2
        .next (s.setDelay r.port d)
    | .delayReq =>
      if s.peerDelay || !s.isMaster || !s.ptpPort r.port then .next s
      else .next (s.send r.port 3 (.ptp 9 (packedTime ((s.rxTime r.port r.t4).toNat * 65536) ++ leBytes 8 r.source)))
    | .pdelayReq =>
      if !s.peerDelay then .next s
      else .next (s.send r.port 3 (.ptp 3 (packedTime ((s.rxTime r.port r.t2).toNat * 65536) ++ leBytes 8 r.source)))

/-- The body of an Announce as grandmaster (R335): ptpTimescale, currentUtcOffset, priorities, clockClass, identity. -/
def State.announceBody (s : State) : List Nat :=
  [1, s.get R.PTP_SRC_UTCOFS, s.get R.PTP_CFG_PRIO1, s.ownClass, s.get R.PTP_CFG_PRIO2] ++ leBytes 8 s.ownClockId

/-- PTP_MESSAGE_INTERVAL (R327): Sync and Announce as master, a delay request as follower, a peer-delay request in any role. -/
def execPtpMessageInterval (p : Fin 2) (kind : PtpInterval) (s : State) : Out :=
  if !s.ptpRuns || !s.on (R.NET_PSTAT_LINK p) then .next s
  else match kind with
    | .sync =>
      if !s.isMaster || !s.ptpPort p then .next s
      else
        let t := packedTime s.clock.now
        if s.on R.PTP_CFG_PROF then .next ((s.send p 3 (.ptp 0 [])).send p 3 (.ptp 8 t)) else .next (s.send p 3 (.ptp 0 t))
    | .announce => .next (if s.isMaster && s.ptpPort p then s.send p 3 (.ptp 0xB s.announceBody) else s)
    | .delay =>
      if s.peerDelay then .next (s.send p 3 (.ptp 2 (packedTime s.clock.now)))
      else if s.isMaster || s.time.master.isNone || s.get R.PTP_STAT_RXPORT ≠ p.val then .next s
      else .next (s.send p 3 (.ptp 1 (packedTime s.clock.now)))

/-- SYNC_TIMEOUT (R333): no Sync from the selected master for 3 intervals. -/
def execSyncTimeout (s : State) : Out :=
  if !s.ptpRuns || s.isMaster || s.time.master.isNone then .next s else .next s.loseLock

/-- ANNOUNCE_TIMEOUT (R327, R333): no Announce from the selected master for ANNTO intervals; while listening, AUTO becomes master. -/
def execAnnounceTimeout (s : State) : Out :=
  if !s.ptpRuns || s.isMaster then .next s
  else match s.time.master with
    | none => .next (if s.role == 2 then s.becomeMaster else s)
    | some m =>
      let s := s.modTime fun t =>
        { t with master := none, heard := t.heard.filter fun r => !(r.source == m && r.port.val == s.get R.PTP_STAT_RXPORT) }
      let s := s.loseLock
      .next (if s.time.heard.isEmpty && s.role == 2 then s.becomeMaster else s.chooseMaster)

/-- TIMEDRIFT (R334): HOLDOVER has lasted HOTIME; once per holdover. -/
def execTimedrift (s : State) : Out :=
  if !s.on R.PTP_STAT_HOLD || s.time.drifted then .next s
  else .next (((s.set R.PTP_STAT_DRIFT 1).modTime fun t => { t with drifted := true }).raiseMod 0x0D02 1)

/-! Writes to the clock (R331, R335). -/

/-- Whether PTP_ADJ and PTP_SETSEC are accepted. -/
def State.stepAllowed (s : State) : Bool :=
  s.clock.running && (s.role == 1 || s.role == 3) && !s.on R.PTP_SRC_PPSDISC && s.get R.SYS_STATE_AX_ON == 0

/-- GO of PTP_ADJ, OFS in ns. -/
def State.adjust (s : State) (ofs : Int) : State :=
  if s.stepAllowed then s.stepBy (ofs * nsUnit) else s.heldWrite 0x310028

def execPtpAdj (ofs : Int) (s : State) : Out := .next (s.adjust ofs)

/-- PTP_SETSEC: staged for the local second. -/
def State.stageSec (s : State) (sec : Nat) : State :=
  if s.stepAllowed then s.stage ⟨R.PTP_SETSEC_SEC, sec % 2 ^ 48, .second, 0⟩ else s.heldWrite 0x310030

def execPtpSetsec (sec : Nat) (s : State) : Out := .next (s.stageSec sec)

/-- NS_CARRY (R322, R331): NS carries into SEC; a staged PTP_SETSEC gives the new second. -/
def execNsCarry (s : State) : Out :=
  if !s.clock.running then .next s else
  let s := s.clockTo ((s.clock.now + secUnit - 1) / secUnit * secUnit)
  match stagedVal (s.stagedFor .second 0) R.PTP_SETSEC_SEC with
  | some v => .next ((s.unstage .second 0).stepClock (v * secUnit + s.clock.now % secUnit))
  | none => .next s

/-- Whether RATE may be written (R335). -/
def State.rateWritable (s : State) : Bool :=
  (s.role == 1 || s.role == 3) && !s.on R.PTP_SRC_PPSDISC && !s.on R.PTP_SRC_REFSEL

/-! The grandmaster's sources (R335). -/

/-- SYNC_IN_EDGE (R335): the edge is stamped; under PPSDISC it is a whole second, and the servo steers to it. LOCK needs the source present
for 2 s (three pulses) and LOCKTH met for LOCKN of them. -/
def execSyncInEdge (stamp : Stamp) (s : State) : Out :=
  if !s.clock.running then .next s else
  let s := (s.set R.PTP_SIN_TS (compactOf (stamp * 65536))).set R.PTP_STAT_SINV 1
  if !s.isMaster || !s.on R.PTP_SRC_PPSDISC then .next s
  else
    let sec : Nat := 1000000000 * 65536
    let f : Int := (stamp % sec : Nat)
    let ofs := if f ≥ (sec / 2 : Nat) then f - (sec : Nat) else f
    let s := s.modTime fun t => { t with present := t.present + 1 }
    .next (s.servo ofs (3 ≤ s.time.present))

/-- A source of the grandmaster is gone: HOLDOVER, from the first time it has cleared on (R335). -/
def State.sourceLost (s : State) : State :=
  let s := s.modTime fun t => { t with present := 0, lockRun := 0 }
  if s.time.cleared then s.loseLock else s

/-- SYNC_IN_MISSING (R335): three consecutive pulses are missing under PPSDISC. -/
def execSyncInMissing (s : State) : Out :=
  let s := s.set R.PTP_STAT_SINV 0
  if s.clock.running && s.isMaster && s.on R.PTP_SRC_PPSDISC then .next s.sourceLost else .next s

/-- REF_IN_LOSS (R335): no REF_IN edge for 10 µs under REFSEL. -/
def execRefInLoss (s : State) : Out :=
  let s := s.set R.PTP_STAT_REFV 0
  if s.clock.running && s.isMaster && s.on R.PTP_SRC_REFSEL then .next s.sourceLost else .next s

/-- REF_GATE (R335): a gate of 1 s has counted `count` REF_IN cycles; RATE is steered so that a cycle is 100 ns. Without PPSDISC a gate
within LOCKTH counts as a pulse within it. -/
def execRefGate (count : Nat) (s : State) : Out :=
  if !s.clock.running then .next s else
  let s := s.set R.PTP_STAT_REFV 1
  if !s.isMaster || !s.on R.PTP_SRC_REFSEL then .next s
  else
    let err : Int := (count : Int) - 10000000
    let s := s.setRate (s.getS R.PTP_RATE_RATE + err * 100 * 65536)
    if s.on R.PTP_SRC_PPSDISC then .next s
    else
      let near := err.natAbs * 100 ≤ s.get R.PTP_SERVO_LOCKTH
      let s := s.modTime fun t => { t with present := t.present + 1, lockRun := if near then t.lockRun + 1 else 0 }
      if !s.on R.PTP_STAT_LOCK && 2 ≤ s.time.present && s.get R.PTP_SERVO_LOCKN ≤ s.time.lockRun then .next s.setLock else .next s

/-- RIND_TIME_COPY (R325): once per second the Rind time base copies the local clock. -/
def execRindTimeCopy (s : State) : Out :=
  if s.clock.running then .next { s with clock := { s.clock with rind := s.clock.now, rindSet := s.on R.PTP_STAT_TIMESET } } else .next s

/-- PTP_TIME0_READ (R324): the read latches SEC into PTP_TIME1. -/
def execPtpTime0Read (s : State) : Out := .next (s.afterRead 0x310018 8)

end Sys2Proof.Machine
end

