-- ==== Sys2Proof/Machine/Update.lean ====
section
/-!
DEFINITION. Machine/Update.lean: the commands of IMG_UPD (R88, R90 to R94): what is accepted, and what a command has done when it ends.
-/

namespace Sys2Proof.Machine

/-! The flash as commands change it (R90). -/

def State.setFlash (s : State) (k : Nat) (m : List Host.Cell) : State :=
  s.modBoot fun b => if k = 0 then { b with slotA := m } else { b with slotB := m }

/-- A slot without the cells of a range: erased there. -/
def flashErase (m : List Host.Cell) (o n : Nat) : List Host.Cell := m.filter fun c => !(o ≤ c.1 && c.1 < o + n)

/-- A byte programmed: bits only clear; an erased byte is not listed. -/
def flashByte (m : List Host.Cell) (o v : Nat) : List Host.Cell :=
  let b : BitVec 8 := BitVec.ofNat 8 (flashRd m o 1) &&& BitVec.ofNat 8 v
  let m := dropCell o m
  if b = 255 then m else insertCell o b m

/-- Bytes programmed from an offset on. -/
def flashProgram (m : List Host.Cell) (o : Nat) : List Nat → List Host.Cell
  | [] => m
  | b :: t => flashProgram (flashByte m o b) (o + 1) t

/-- Whether bytes of a slot are erased. -/
def isErased (m : List Host.Cell) (o n : Nat) : Bool := !m.any fun c => o ≤ c.1 && c.1 < o + n

/-- Free values drawn as `8 n` bytes. -/
def State.drawBytes (s : State) : Nat → State × List Nat
  | 0 => (s, [])
  | n + 1 =>
    let (t, l) := s.drawn.drawBytes n
    (t, leBytes 8 s.free ++ l)

/-- The update staging window (R76). -/
def stagingBase : Nat := 0x11780000

/-! Accepting a command. -/

/-- Whether the image reader is stopped, so that IMG_UPD takes commands: SERVICE or recovery HALT (R90 and the section's opening). -/
def State.updOpen (s : State) : Bool := s.dev == 4 || (s.dev == 5 && s.boot.recovery)

/-- The running slot; recovery HALT has none. -/
def State.runSlot (s : State) : Option Nat := if s.boot.recovery then none else some (s.get R.IMG_STAT_SLOT)

/-- A write refused as R9 describes, told as an F0 notice with the address. -/
def State.heldNotice (s : State) (a : Nat) : State := s.raiseMod 0x0105 0 a

/-- A command begun: STATE busy. -/
def State.updBegin (s : State) (cmd slot off pages : Nat) : State :=
  (s.set R.IMG_UPD_STATE 1).modBoot fun b => { b with updCmd := cmd, updSlot := slot, updOff := off, updPages := pages, updAbort := false }

/-- The code with which a command is refused at once, 0 where it begins: the flash failed at INTAKE or has lost its supply (R88, R39), the
running slot (R90), the staging window and the slot (R90), bytes not erased (R90), no fallback (R92), fused (R94). -/
def State.updCode (s : State) (cmd slot off pages : Nat) : Nat :=
  let c := s.get R.IMG_STAT_CODE
  if s.boot.recovery && 1 ≤ c && c ≤ 4 then c
  else if cmd ≠ 7 ∧ !s.boot.flOn then 0x01
  else
    match cmd with
    | 5 =>
      match s.runSlot with
      | some k => if headerCode (s.flash (1 - k)) false = 0 then 0 else 0x55
      | none => 0x55
    | 7 => if s.dev == 4 && !s.keyed && s.boot.feedA.stable && s.boot.feedB.stable then 0 else 0x56
    | _ =>
      if s.runSlot = some slot then 0x50
      else if cmd = 2 then
        if off % 256 ≠ 0 ∨ pages = 0 ∨ 256 < pages ∨ 0x800000 < off + pages * 256 then 0x51
        else if isErased (s.flash slot) off (pages * 256) then 0 else 0x54
      else 0

/-- A command of IMG_UPD (R90): refused as R9 describes outside SERVICE and recovery HALT and while busy. -/
def State.update (s : State) (cmd slot off pages : Nat) : State :=
  if !s.updOpen || s.leaving || s.boot.resetLow || s.get R.IMG_UPD_STATE == 1 then s.heldNotice 0x20010
  else
    match s.updCode cmd slot off pages with
    | 0 => s.updBegin cmd slot off pages
    | c => s.updateEnd c

/-- ABORT (R90): the command in progress stops at its next page or sector boundary; without one nothing happens. -/
def State.updStop (s : State) : State :=
  if !s.updOpen || s.leaving || s.boot.resetLow then s.heldNotice 0x20010
  else if s.boot.recovery && 1 ≤ s.get R.IMG_STAT_CODE && s.get R.IMG_STAT_CODE ≤ 4 then s.updateEnd (s.get R.IMG_STAT_CODE)
  else if s.get R.IMG_UPD_STATE = 1 then s.modBoot fun b => { b with updAbort := true } else s

/-! Ending a command. -/

/-- ERASE: the whole slot, or after an error or an ABORT a free number of its pages from the start (log entry 41). -/
def State.endErase (s : State) (whole : Bool) : State :=
  let k := s.boot.updSlot
  if whole then s.setFlash k [] else s.drawn.setFlash k (flashErase (s.flash k) 0 (s.free % 32769 * 256))

/-- PROGRAM: the pages from the staging window; after an ABORT a free number of them; after an error, the page it stopped in is a free value. -/
def State.endProgram (s : State) (whole failed : Bool) : State :=
  let k := s.boot.updSlot
  let o := s.boot.updOff
  let n := s.boot.updPages
  if whole then s.setFlash k (flashProgram (s.flash k) o (s.bytes stagingBase (n * 256)))
  else
    let done := s.free % (if failed then n else n + 1)
    let m := flashProgram (s.flash k) o (s.bytes stagingBase (done * 256))
    if failed then
      let (s, l) := s.drawn.drawBytes 32
      s.setFlash k (flashProgram m (o + done * 256) l)
    else s.drawn.setFlash k m

/-- The code of VERIFY's checks on a slot (R91): steps 4 to 6, the checks of step 7, and GEN. -/
def State.verifyCode (s : State) (m : List Host.Cell) : Nat :=
  let c := slotCode m true
  if c ≠ 0 then c
  else if (passOne m).2 ≠ 0 then (passOne m).2
  else if s.signCode m ≠ 0 then s.signCode m
  else if (passTwo m true).1 ≠ 0 then (passTwo m true).1
  else if (imgHeader m).gen ≤ s.get R.IMG_RGEN_GEN then 0x53
  else 0

/-- VERIFY ended (R91): COMMIT is programmed when every check passes; PROG_FAIL where it does not read back. -/
def State.endVerify (s : State) (flashOk : Bool) : State :=
  let k := s.boot.updSlot
  let m := s.flash k
  match s.verifyCode m with
  | 0 =>
    let n := flashProgram m 0xF8 (leBytes 8 commitWord)
    if flashOk then (s.setFlash k n).updateEnd (if flashRd n 0xF8 8 = commitWord then 0 else 0x52)
    else
      let (s, l) := s.drawBytes 1
      (s.setFlash k (flashProgram m 0xF8 ((leBytes 8 commitWord).zip l |>.map fun x => x.1 ||| x.2))).updateEnd 0x52
  | c => s.updateEnd c

/-- RETIRE ended (R92, R93): the single word either is zero or stays as it was. -/
def State.endRetire (s : State) (flashOk : Bool) : State :=
  let k := s.get R.IMG_STAT_SLOT
  let n := flashProgram (s.flash k) 0xF8 (leBytes 8 0)
  if flashOk then (s.setFlash k n).updateEnd 0
  else if s.free % 2 = 0 then s.drawn.updateEnd 0x52 else (s.drawn.setFlash k n).updateEnd 0x52

/-- The four words of KEY_HASH set from 32 bytes (R94). -/
def State.setKeyHash (s : State) (l : List Nat) : State :=
  s.each (upto 4) fun s i => s.set (R.IMG_KEYH_KEYH i) (ofLe ((l.drop (8 * i)).take 8))

/-- KEYFUSE ended (R94): the fuses hold the first 32 bytes of the window, or after an error some of their bits. -/
def State.endFuse (s : State) (flashOk : Bool) : State :=
  let l := s.bytes stagingBase 32
  if flashOk then (s.setKeyHash l).updateEnd 0
  else
    let (s, f) := s.drawBytes 4
    (s.setKeyHash (l.zip f |>.map fun x => x.1 &&& x.2)).updateEnd 0x52

/-- A command ended by ABORT: what STATE and UCODE then tell is not stated, so both are free (log entry 41). -/
def State.endAborted (s : State) : State :=
  let s' := (s.set R.IMG_UPD_STATE (nthD [0, 2, 3] (s.free % 3) 0)).drawn
  (s'.set R.IMG_UPD_UCODE s'.free).drawn.modBoot fun b => { b with updCmd := 0, updAbort := false }

/-- IMAGE_UPDATE_COMPLETE (R90): the command in progress ends; `flashOk` tells that the flash or the fuses reported no error and read back
as written. -/
def execImageUpdateComplete (flashOk : Bool) (s : State) : Out :=
  if s.get R.IMG_UPD_STATE ≠ 1 ∨ s.leaving ∨ s.boot.resetLow then .next s else
  let ab := s.boot.updAbort
  match s.boot.updCmd with
  | 1 => .next (if flashOk && !ab then (s.endErase true).updateEnd 0 else if flashOk then (s.endErase false).endAborted
                else (s.endErase false).updateEnd 0x52)
  | 2 => .next (if flashOk && !ab then (s.endProgram true false).updateEnd 0 else if flashOk then (s.endProgram false false).endAborted
                else (s.endProgram false true).updateEnd 0x52)
  | 3 => .next (if ab then s.endAborted else s.endVerify flashOk)
  | 5 => .next (s.endRetire flashOk)
  | 7 => .next (s.endFuse flashOk)
  | _ => .next s

/-- ERASE (R90). -/
def execErase (slot : Fin 2) (s : State) : Out := .next (s.update 1 slot 0 0)

/-- PROGRAM (R90). -/
def execProgram (slot : Fin 2) (offset pages : Nat) (s : State) : Out := .next (s.update 2 slot offset pages)

/-- VERIFY (R91). -/
def execVerify (slot : Fin 2) (s : State) : Out := .next (s.update 3 slot 0 0)

/-- RETIRE (R92). -/
def execRetire (s : State) : Out := .next (s.update 5 0 0 0)

/-- KEYFUSE (R94). -/
def execKeyfuse (s : State) : Out := .next (s.update 7 0 0 0)

/-- ABORT (R90). -/
def execAbort (s : State) : Out := .next s.updStop

end Sys2Proof.Machine
end

