-- ==== Sys2Proof/Machine/RegWrite.lean ====
section
/-!
DEFINITION. Machine/RegWrite.lean: writes to registers and memories: which fields a write reaches, the code with which a word is refused, and
what the fields do that accept it (R3 to R10, R26, R136, R141, R169, R246, R380, R468 to R475).
-/

namespace Sys2Proof.Machine

/-- A word of a write: its 8-byte-aligned address, its value, and the bits that it reaches (R469, R474). -/
structure WordW where
  a : Nat
  v : Nat
  m : Nat
deriving DecidableEq, Repr

/-- All bits of a word. -/
def allBits : Nat := 2 ^ 64 - 1

/-- Whether an address is aligned for an access (R469). -/
def accAligned (sz : AccSize) (a : Nat) : Bool :=
  match sz with
  | .b4 => a % 4 == 0
  | .b8 => a % 8 == 0
  | .b16 => a % 16 == 0

/-- Bytes of an access. -/
def accBytes : AccSize → Nat
  | .b4 => 4
  | .b8 => 8
  | .b16 => 16

/-- The words of an access (R469): one half of a word, one word, or two in ascending order. -/
def accWords (sz : AccSize) (a v : Nat) : List WordW :=
  match sz with
  | .b4 => if a % 8 = 0 then [⟨a, v % 2 ^ 32, 2 ^ 32 - 1⟩] else [⟨a - 4, v % 2 ^ 32 * 2 ^ 32, allBits - (2 ^ 32 - 1)⟩]
  | .b8 => [⟨a, v % 2 ^ 64, allBits⟩]
  | .b16 => [⟨a, v % 2 ^ 64, allBits⟩, ⟨a + 8, v / 2 ^ 64 % 2 ^ 64, allBits⟩]

/-! Fields (R473, R474). -/

/-- Whether a word reaches a field. -/
def FDef.reached (f : FDef) (w : WordW) : Bool := bitsOf w.m f.lo f.w != 0

/-- The bits that a word writes into a place. -/
def WordW.bitsAt (w : WordW) (lo n : Nat) : Nat := bitsOf w.v lo n &&& bitsOf w.m lo n

/-- The value that a word gives a field (R73, R353): WO fields read as zero. -/
def State.newVal (s : State) (f : FDef) (w : WordW) : Nat :=
  maskedWord (if f.acc == .wo then 0 else s.get (f.fld w.a)) (bitsOf w.v f.lo f.w) (bitsOf w.m f.lo f.w)

/-- The update class of a field and its owner; the words of SLC_PRPAR are L for the profile and H for homing. -/
def FDef.clsAt (f : FDef) (idx : List Nat) : Cls × Own :=
  if f.own == .prpar then (if nthD idx 1 0 < 4 then (.live, .servo) else (.hold, .homing)) else (f.cls, f.own)

/-- Sessions open beside one (0 for none). -/
def State.otherSessions (s : State) (sess : Nat) : Bool :=
  (upto 5).any fun i => i != 0 && i != sess && (match s.host.sessions[i]? with | some x => x.isOpen | none => false)

/-- Whether the owning block of an H field runs (R9, and the owner that each register table names). -/
def State.blockRuns (s : State) (sess : Nat) (own : Own) (idx : List Nat) : Bool :=
  let i := nthD idx 0 0
  match own with
  | .axis => s.axOn (s.lead (sliceOf i))
  | .homing => s.get (R.SLC_PRSTAT_PSTATE (s.lead (sliceOf i))) == 4
  | .group => s.get (R.GRP_STAT_STATE i) != 0
  | .comparator => s.on (R.PTP_CMP3_EN i)
  | .hostEngine => !(s.dev == 4 && !s.otherSessions sess)
  | .acq => s.on R.ACQ_CTL_RUN
  | .image => !s.updOpen
  | _ => false

/-- Whether a field is class I after INTAKE (R10). -/
def State.lockedI (s : State) (f : FDef) : Bool := f.cls == .image && s.dev != 0

/-- Whether a field is class H with its block running (R9). -/
def State.lockedH (s : State) (sess : Nat) (idx : List Nat) (f : FDef) : Bool :=
  (f.clsAt idx).1 == .hold && s.blockRuns sess (f.clsAt idx).2 idx

/-- Whether a word would change a field; a command of the image reader has no value in effect. -/
def State.wouldChange (s : State) (w : WordW) (f : FDef) : Bool :=
  (f.acc == .wo && f.own == .image) || s.newVal f w != s.get (f.fld w.a)

/-- The registers as they will stand when staged writes and the words of a request have taken effect (R473). -/
def State.asWritten (s : State) (ws : List WordW) : State :=
  (s.applyStaged (fieldWrites s.staged)).each ws fun s w =>
    match regAt w.a with
    | some (r, _) => s.each (r.fields.filter fun f => f.acc == .rw && f.reached w) fun t f => t.set (f.fld w.a) (t.newVal f w)
    | none => s

/-! What refuses a register word (R474). -/

/-- Fields that the host writes in SERVICE only (SLC_SVCMD0, SLC_SVCMD1, SLC_SLOBS.SEQ, SLC_STOBS.SEQ). -/
def serviceOnly (n : RegName) (w : WordW) : Bool :=
  match n with
  | .SLC_SVCMD0 => true
  | .SLC_SVCMD1 => true
  | .SLC_SLOBS => bitsOf w.m 56 8 != 0
  | .SLC_STOBS => bitsOf w.m 48 16 != 0
  | _ => false

/-- Whether a register is not served in the present device state (R88, R95, R139, HALT after an F5). -/
def State.notServed (s : State) (host : Bool) (n : RegName) (w : WordW) : Bool :=
  (n == .LC_DBG && !s.fullSvc) ||
  (host && ((s.dev == 5 && !s.boot.recovery && w.a != 0x18 && w.a != 0x40018) || (serviceOnly n w && s.dev != 4)))

/-- Whether a register is held by its slice: the image does not use it (R471), or R107, R290 or R298 refuses the odd slice of a pair. -/
def State.sliceHeld (s : State) (n : RegName) (w : WordW) : Bool :=
  match sliceAt w.a with
  | none => false
  | some k =>
    !s.ax[k].used ||
    (s.oddInPair k &&
     (match n with
      | .SLC_MODE => true
      | .SLC_AXCMD => true
      | .SLC_SHD0 => s.unusedOdd k || s.pairFunc k == 2
      | .SLC_SHD1 => s.unusedOdd k || s.pairFunc k == 2
      | .SLC_SHD2 => s.unusedOdd k || s.pairFunc k == 2
      | .SLC_SERVO => bitsOf w.m 16 1 != 0
      | _ => false))

/-- What R9 refuses beyond H fields: a busy command register (R90, R380), the time engine's registers (R331, R335), and values beyond CEIL
and VMAX (R169, R246, R278); `h` is the state as written. -/
def State.busyReg (s h : State) (n : RegName) (idx : List Nat) (w : WordW) : Bool :=
  let k := sliceOf (nthD idx 0 0)
  let on := fun lo n => bitsOf w.m lo n != 0
  match n with
  | .IMG_UPD => on 0 4 && (s.leaving || s.boot.resetLow || (s.updBusy && w.bitsAt 0 4 != 6))
  | .PTP_RATE => on 0 48 && !s.rateWritable
  | .PTP_ADJ => (on 0 40 || on 48 1) && !s.stepAllowed
  | .PTP_SETSEC => on 0 48 && !s.stepAllowed
  | .SLC_ISCFG => on 0 2 && !(h.rangeOk k && h.ilimOk k 0 && h.ilimOk k 1)
  | .SLC_GAIN =>
    on 0 40 && ((nthD idx 2 0 == 6 && !h.ilimOk k (nthD idx 1 0)) || (nthD idx 2 0 == 5 && !h.vlimOk k (nthD idx 1 0)))
  | .SLC_STCFG => (on 16 16 && !h.fracOk k (h.get (R.SLC_STCFG_IRUN k))) || (on 32 16 && !h.fracOk k (h.get (R.SLC_STCFG_IHOLD k)))
  | .CAN_TXREQ => s.txreqCode ⟨nthD idx 0 0 % 2, by omega⟩ (w.v &&& w.m) == 3
  | _ => false

/-- The pairs and further conditions that a register word must meet (R473): those in which its register takes part. -/
def State.badPair (s h : State) (n : RegName) (idx : List Nat) (w : WordW) : Bool :=
  let i := nthD idx 0 0
  let k := sliceOf i
  match n with
  | .SLC_ISCFG => !h.slicePairs k || !h.fracOk k (h.get (R.SLC_STCFG_IRUN k)) || !h.fracOk k (h.get (R.SLC_STCFG_IHOLD k))
  | .SLC_PWMCFG => !h.slicePairs k
  | .SLC_FBCFG => !h.slicePairs k
  | .SLC_FBSER => !h.slicePairs k
  | .SLC_LATCFG => !h.slicePairs k
  | .SLC_SVSTOP => !h.slicePairs k
  | .SLC_HMCFG => !h.slicePairs k
  | .GRP_CFG => !h.groupPairs i
  | .GRP_OVR => !h.groupPairs i
  | .GRP_CMD => w.bitsAt 0 3 == 5 && !(1 ≤ w.bitsAt 16 11 && w.bitsAt 16 11 ≤ 1024)
  | .FIO_PWM => !h.fioPairs i
  | .ACQ_CH => !h.chanPairs i
  | .ACQ_CLK => !(upto 64).all h.chanPairs
  | .ACQ_CFG => h.on R.ACQ_CFG_EN && !h.blockFits
  | .ACQ_CTL => w.bitsAt 0 1 == 1 && !s.on R.ACQ_CFG_EN
  | .PWR_WCFG => !h.wakePair
  | .CAN_TXREQ => s.txreqCode ⟨i % 2, by omega⟩ (w.v &&& w.m) == 5
  | _ => false

/-- Whether a value that a word gives an accepting field is not permitted (R473); OVR above 1.0 is taken as 1.0. -/
def State.badValue (s : State) (w : WordW) (f : FDef) : Bool := f.acc != .w1c && !f.perm.ok (s.newVal f w)

/-- The code of a register word once it is in reach (R474, from STATE on): 0 accepted, 7 STATE, 3 HELD, 4 IMAGE, 5 VALUE, 1 READONLY. `ws` is
the whole request. -/
def State.regCode (s : State) (host : Bool) (sess : Nat) (ws : List WordW) (w : WordW) (r : RegRow RegName) (idx : List Nat) : Nat :=
  let hit := r.fields.filter fun f => f.acc != .ro && f.reached w
  let open_ := hit.filter fun f => !s.lockedI f && !s.lockedH sess idx f
  let h := s.asWritten ws
  if s.notServed host r.name w then 7
  else if s.sliceHeld r.name w then 3
  else if hit.any fun f => s.lockedI f && s.wouldChange w f then 4
  else if (hit.any fun f => s.lockedH sess idx f && s.wouldChange w f) || s.busyReg h r.name idx w then 3
  else if open_.any (s.badValue w) || s.badPair h r.name idx w then 5
  else if open_.isEmpty then 1 else 0

/-! The code of a word (R26, R136, R141, R468, R474). -/

/-- The words of the CAN block's memory: the matrix (class I), transmit entries (HELD while PENDING, R380), receive entries, which the
controller alone writes (R383). -/
def State.canMemCode (s : State) (w : WordW) : Nat :=
  if 0x331000 ≤ w.a && w.a < 0x332000 then
    (if s.dev = 0 then 0 else if maskedWord (s.rd w.a 8) w.v w.m = s.rd w.a 8 then 1 else 4)
  else if 0x332000 ≤ w.a && w.a < 0x336000 then
    (let c : Fin 2 := ⟨(w.a - 0x332000) / 0x2000 % 2, by omega⟩
     if s.txPending c ((w.a - 0x332000) % 0x2000 / 0x80) then 3 else 0)
  else if 0x336000 ≤ w.a && w.a < 0x33E000 then 1
  else 2

/-- What recovery access may write (R88). -/
def recoveryWrite (a : Nat) : Bool :=
  inStaging a 8 || (match placeOf a with | .block b _ => b == 0 || b == 0x020000 || b == 0x040000 | _ => false)

/-- Whether an initiator may write a word, with the recovery access of R88 for the host. -/
def State.mayWrite (s : State) (who : Init) (a : Nat) : Bool :=
  if who == .host && s.boot.recovery then recoveryWrite a else s.mayReach who true a 8

/-- The code of an address outside what an initiator may write (R474): PARTITION; STATE for the host in recovery (R88, Table HPR.3). -/
def State.denied (s : State) (who : Init) : Nat := if who == .host && s.boot.recovery then 7 else 6

/-- HALT after an F5: the host writes SYS_CMD and FLT_CMD only. -/
def State.haltHost (s : State) (who : Init) : Bool := who == .host && s.dev == 5 && !s.boot.recovery

/-- The code of a word of a write (R474): 0 accepted. -/
def State.writeCode (s : State) (who : Init) (sess : Nat) (ws : List WordW) (w : WordW) : Nat :=
  match placeOf w.a with
  | .unmapped => 2
  | .beyond => if who == .host then 2 else 6
  | .localMem k =>
    (match who with
     | .core c => if c.val = k then 0 else 6
     | .imageReader => if s.dev = 0 then 0 else 6
     | .host => if !s.fullSvc then 7 else if s.get (R.LC_STAT_STATE k) = 0 || s.on (R.LC_DBG_HALTED k) then 0 else 3
     | _ => if !s.fullSvc then 6 else if s.get (R.LC_STAT_STATE k) = 0 || s.on (R.LC_DBG_HALTED k) then 0 else 3)
  | .graph =>
    if who == .imageReader && s.dev == 0 then 0
    else if who == .host && s.boot.recovery then 7
    else if who == .host || who == .sched then
      (if 0x660800 ≤ w.a then (if who == .sched then 0 else 1)
       else if maskedWord (s.rd w.a 8) w.v w.m = s.rd w.a 8 then 1 else 4)
    else 6
  | .bank _ => if !s.mayWrite who w.a then s.denied who else if s.haltHost who then 7 else 0
  | .block _ _ =>
    match regAt w.a with
    | some (r, idx) => if !s.mayWrite who w.a then s.denied who else s.regCode (who == .host) sess ws w r idx
    | none =>
      if 0x331000 ≤ w.a && w.a < 0x33E000 then
        (if !s.mayWrite who w.a then s.denied who else if s.haltHost who then 7 else s.canMemCode w)
      else 2

/-- The first refused word of a request: its index and code. -/
def firstBad (f : WordW → Nat) : Nat → List WordW → Option (Nat × Nat)
  | _, [] => none
  | i, w :: t => if f w ≠ 0 then some (i, f w) else firstBad f (i + 1) t

/-- The notice of a refused word (R9, R10, R26, R139, R473): F0 HELDWR, or F1 ACCESS. -/
def State.noteRefusal (s : State) (a code : Nat) : State :=
  if code = 3 ∨ code = 4 ∨ code = 5 then s.heldNotice a
  else if code = 6 then s.raiseMod 0x0103 1 a
  else if code = 7 ∧ (0x90000 ≤ a ∧ a < 0x98000) ∧ s.dev ≠ 4 then s.heldNotice a
  else s

/-! What an accepted word does. -/

/-- The cycle and index under which an L field waits for its boundary (R7); none where it takes effect at once (log entry 7). -/
def State.waitsFor (s : State) (r : RegName) (own : Own) (idx : List Nat) : Option (Own × Nat) :=
  let i := nthD idx 0 0
  match own with
  | .mcc => some (.mcc, 0)
  | .servo => if r == .SLC_SVCMD0 then none else some (.servo, i)
  | .current => some (.current, i)
  | .carrier => some (.carrier, i)
  | .group => if (s.members i).isEmpty then none else some (.group, i)
  | .pwmPeriod => if s.isOut i && s.get (R.FIO_CFG_SRC i) == 2 then some (.pwmPeriod, i) else none
  | _ => none

/-- Whether a register acts by its own rule and has no plain value to set: its fields are handled by State.regAction. -/
def isCommand (n : RegName) : Bool :=
  match n with
  | .SYS_CMD => true
  | .SLC_AXCMD => true
  | .SLC_PRCMD => true
  | .GRP_CMD => true
  | .SLC_PWMUPD => true
  | .SLC_SHD0 => true
  | .SLC_SHD1 => true
  | .SLC_SHD2 => true
  | .SLC_FBCMD => true
  | .SLC_SVCMD1 => true
  | .NET_CMD => true
  | .ACQ_TCMD => true
  | .CAN_TXREQ => true
  | .CAN_TXABT => true
  | .CAN_TXDONE => true
  | .CAN_RXFULL => true
  | .FIO_WDKICK => true
  | .FIO_CMD => true
  | .IMG_UPD => true
  | .LC_DBG => true
  | .PTP_RATE => true
  | .PTP_ADJ => true
  | .PTP_SETSEC => true
  | .FLT_CMD => true
  | .BUS_STAT => true
  | _ => false

/-- A field of a plain register written (R5 to R10): W1C bits clear, L fields wait for their boundary, the others change at once; the fields
with an action of their own are left to State.regAction. -/
def State.writeField (s : State) (r : RegName) (idx : List Nat) (w : WordW) (f : FDef) : State :=
  let fd := f.fld w.a
  if f.acc == .w1c then s.set fd (s.get fd - (s.get fd &&& w.bitsAt f.lo f.w))
  else if fd == R.PTP_CMP3_EN (nthD idx 0 0) || fd == R.ACQ_CTL_RUN || fd == R.GRP_SS_FIRE (nthD idx 0 0) then s
  else
    let v := s.newVal f w
    let v := if fd == R.GRP_OVR_OVR (nthD idx 0 0) then min v 0x10000 else v
    let v := if fd == R.FIO_OUT_OUT then (upto 24).foldl (fun v k => if s.get (R.FIO_CFG_FUNC k) = 2 ∧ s.get (R.FIO_CFG_SRC k) = 0 then v else clrBit v k) v
      else v
    match (f.clsAt idx).1, s.waitsFor r (f.clsAt idx).2 idx with
    | .live, some (o, i) => s.stage ⟨fd, v, o, i⟩
    | _, _ => s.set fd v

/-- A command register staged whole for its owning cycle (R7, R97, R102, R271). -/
def State.stageCmd (s : State) (w : WordW) (own : Own) (i : Nat) : State := s.stage ⟨cmdFld w.a, w.v &&& w.m, own, i⟩

/-- EV5EN as a write leaves it (R238): switched on it starts softly, switched off it discharges. -/
def State.ev5Switch (s : State) (n : Slice) : State :=
  if !s.ax[n].started then s
  else if s.on (R.SLC_FBCFG_EV5EN n) then
    (if s.fb[n].ev5 = 0 then s.modFb n fun x => { x with ev5 := 1, retries := 0, evWaited := false } else s)
  else (s.set (R.SLC_FBSTAT_EVON n) 0).modFb n fun x => { x with ev5 := 0 }

/-- The words that one write brings to a shadow window (R187, R353): those of its 32-byte range. -/
def shadowWords (ws : List WordW) (w : WordW) : List (Nat × Nat) :=
  (ws.filter fun x => x.a / 32 == w.a / 32).flatMap fun x =>
    let lo := bitsOf x.m 0 32 != 0
    let hi := bitsOf x.m 32 32 != 0
    match x.a % 32 with
    | 0 => (if lo then [(0, x.bitsAt 0 32)] else []) ++ (if hi then [(1, x.bitsAt 32 32)] else [])
    | 8 => if lo then [(2, x.bitsAt 0 32)] else []
    | 16 => if lo then [(3, x.bitsAt 0 32)] else []
    | _ => []

/-- A write to a shadow window of a slice (R187, R188, R201): its first word carries the whole range. -/
def State.shadowWrite (s : State) (n : Slice) (window : Nat) (ws : List WordW) (w : WordW) : State :=
  if (ws.find? fun x => x.a / 32 == w.a / 32) ≠ some w || !s.shadowOpen n then s
  else
    let l := shadowWords ws w
    s.modPwm n fun p => if window = 3 then l.foldl (fun p x => p.stageWord x.1 x.2) p else p.write window l

/-- LCn_DBG written (R139). -/
def State.dbgWrite (s : State) (k : Core) (w : WordW) : State :=
  let s := if bitsOf w.m 2 1 = 1 then s.set (R.LC_DBG_BKEN k) (w.bitsAt 2 1) else s
  let s := if bitsOf w.m 0 1 = 1 then (if w.bitsAt 0 1 = 1 then (if s.on (R.LC_DBG_HALT k) then s else s.dbgHalt k) else s.dbgResume k) else s
  if w.bitsAt 1 1 = 1 then s.dbgStep k else s

/-- A chopper's fault bits written (BUS_STAT.CHFAULT): a bit stays set while its bus is above VCH_OFF. -/
def State.clearChopper (s : State) (mask : Nat) : State :=
  s.each [(0 : Fin 4), 1, 2, 3] fun s k =>
    if bit mask k.val = 1 && s.get (measFld k) ≤ s.hl (R.BUS_VLIM_VCH_OFF k) then s.putBit R.BUS_STAT_CHFAULT k.val false else s

/-- What writing a register does beyond setting fields: the commands of Table MAP.3's command registers. -/
def State.regAction (s : State) (n : RegName) (idx : List Nat) (ws : List WordW) (w : WordW) : State :=
  let i := nthD idx 0 0
  let k := sliceOf i
  let c : Fin 2 := ⟨i % 2, by omega⟩
  let v := w.v &&& w.m
  match n with
  | .SYS_CMD => s.stageCmd w .mcc 0
  | .SLC_AXCMD => s.stageCmd w .servo i
  | .SLC_PRCMD => s.stageCmd w .servo i
  | .GRP_CMD => if (s.members i).isEmpty then s.grpCommand ⟨i % 8, by omega⟩ v else s.stageCmd w .group i
  | .SLC_PWMUPD => if bit v 0 = 1 then s.commitAt k (bitsOf v 1 2) else s
  | .SLC_SHD0 => s.shadowWrite k (nthD idx 1 0) ws w
  | .SLC_SHD1 => s.shadowWrite k (nthD idx 1 0) ws w
  | .SLC_SHD2 => s.shadowWrite k (nthD idx 1 0) ws w
  | .SLC_FBCMD =>
    let s := if bit v 0 = 1 then s.set (R.SLC_FBSTAT_ARMED k) 1 else s
    if bit v 1 = 1 then s.set (R.SLC_FBSTAT_ARMED k) 0 else s
  | .SLC_FBCFG => s.ev5Switch k
  | .SLC_SVCMD1 => s.svcmd1 k (bitsOf v 0 16)
  | .GRP_SS => if bit v 8 = 1 then s.fireLine i else s
  | .NET_CMD =>
    let s := if bit v 0 = 1 then s.flushTable else s
    if bit v 1 = 1 then s.switchPort else s
  | .ACQ_CTL => if bitsOf w.m 0 1 = 0 then s else if bit v 0 = 1 then s.acqStart else s.acqStopRun
  | .ACQ_TCMD =>
    let s := if bit v 0 = 1 then s.acqArm else s
    let s := if bit v 1 = 1 then s.trigIdle else s
    if bit v 2 = 1 then s.acqForce else s
  | .CAN_TXREQ => s.txRequest c v
  | .CAN_TXABT => s.txWithdraw c v
  | .CAN_TXDONE => s.txAck c v
  | .CAN_RXFULL => s.rxAck c (nthD idx 1 0) v
  | .FIO_WDKICK => s.kick (bitsOf v 0 8)
  | .FIO_CMD =>
    let s := s.clearChannels (bitsOf v 0 24)
    if bit v 24 = 1 then s.clearWatchdog else s
  | .IMG_UPD =>
    if bitsOf v 0 4 = 6 then s.updStop else s.update (bitsOf v 0 4) (bitsOf v 4 1) (bitsOf v 8 24) (bitsOf v 32 9)
  | .LC_DBG => s.dbgWrite ⟨i % 8, by omega⟩ w
  | .PTP_RATE => s.setRate (toS 48 (maskedWord (s.get R.PTP_RATE_RATE) (bitsOf w.v 0 48) (bitsOf w.m 0 48)))
  | .PTP_ADJ => if bit v 48 = 1 then s.adjust (toS 40 (bitsOf v 0 40)) else s
  | .PTP_SETSEC => s.stageSec (bitsOf v 0 48)
  | .PTP_CMP3 => if bitsOf w.m 0 1 = 1 then s.cmpWriteEn i (bit v 0 == 1) else s
  | .FLT_CMD => s.clearScope (bitsOf v 4 3) (bitsOf v 8 8)
  | .BUS_STAT => s.clearChopper (bitsOf v 4 4)
  | _ => s

/-- Reserved bits written as 1 (R4): ignored, with an F0 notice. -/
def State.noteReserved (s : State) (r : RegRow RegName) (w : WordW) : State :=
  if inMask (w.v &&& w.m) (fieldMask r.fields) then s else s.raiseMod 0x0104 0 w.a

/-- An accepted register word written. -/
def State.writeReg (s : State) (sess : Nat) (ws : List WordW) (w : WordW) (r : RegRow RegName) (idx : List Nat) : State :=
  let hit := r.fields.filter fun f => f.acc != .ro && f.reached w && !s.lockedI f && !s.lockedH sess idx f
  let s := s.noteReserved r w
  let s := if isCommand r.name then s else s.each hit fun s f => s.writeField r.name idx w f
  s.regAction r.name idx ws w

/-- An accepted word written (R353). -/
def State.writeWord (s : State) (sess : Nat) (ws : List WordW) (w : WordW) : State :=
  match placeOf w.a with
  | .block _ _ =>
    (match regAt w.a with
     | some (r, idx) => s.writeReg sess ws w r idx
     | none => s.wr w.a 8 (maskedWord (s.rd w.a 8) w.v w.m))
  | _ => s.wr w.a 8 (maskedWord (s.rd w.a 8) w.v w.m)

/-- L fields of the module current cycle take effect in the next fabric cycle while the scheduler is stopped (R7). -/
def State.mccAtOnce (s : State) : State :=
  if !s.schedRuns && (s.stagedFor .mcc 0) ≠ [] then s.mccBoundary else s

/-- The words of a request checked first and then written in ascending order (R353): the state, and the index and code of the first refused
word. -/
def State.writeWords (s : State) (who : Init) (sess : Nat) (ws : List WordW) : State × Option (Nat × Nat) :=
  match firstBad (s.writeCode who sess ws) 0 ws with
  | some (i, c) => (s.noteRefusal (match ws[i]? with | some w => w.a | none => 0) c, some (i, c))
  | none => ((s.each ws fun s w => s.writeWord sess ws w).mccAtOnce, none)

/-! Initiators. -/

/-- Whether an initiator is powered and works. -/
def State.initOn (s : State) (who : Init) : Bool :=
  s.domOn 0 &&
  (match who with
   | .core c => s.coreOn c.val
   | .sched => true
   | .network => s.netRuns
   | .host => s.netRuns
   | .acq => s.domOn 3 && s.dev != 0
   | .harso => s.domOn 4
   | .sliceA => s.on R.SYS_DLSTAT_LA_UP
   | .sliceB => s.on R.SYS_DLSTAT_LB_UP
   | .fieldLink => s.on R.SYS_DLSTAT_LF_UP
   | .imageReader => s.dev == 0 || s.updOpen)

/-- What the fabric answers to a write with a code. -/
def answerOf (code : Nat) : Answer := if code = 0 then .done else if code = 2 then .unmapped else .refused

/-- The fabric's answer kept. -/
def State.answer (s : State) (a : Answer) : State := { s with arc := { s.arc with answer := a } }

/-- REGISTER_WRITE (R469, R470, R474): an access of an initiator to a register block. A misaligned one is no access of the block. -/
def execRegisterWrite (who : Init) (sz : AccSize) (addr value : Nat) (s : State) : Out :=
  match placeOf addr with
  | .block _ _ =>
    if !s.initOn who then .next s
    else if !accAligned sz addr then .next (s.answer .refused)
    else
      let (t, r) := s.writeWords who 0 (accWords sz addr value)
      .next (t.answer (answerOf (match r with | some (_, c) => c | none => 0)))
  | _ => .next s

end Sys2Proof.Machine
end

