-- ==== Sys2Proof/Machine/Links.lean ====
section
/-!
DEFINITION. Machine/Links.lean: the die links, their watchdogs, accesses over the fabric and the scrubbers (R12 to R16, R22 to R27).
-/

namespace Sys2Proof.Machine

def State.modArc (s : State) (f : ArcDyn → ArcDyn) : State := { s with arc := f s.arc }

/-! Die links. -/

/-- A link's state. -/
def State.link (s : State) : Link → LinkDyn
  | .sliceA => s.arc.linkA
  | .sliceB => s.arc.linkB
  | .field => s.arc.linkF

def State.putLink (s : State) (l : Link) (x : LinkDyn) : State :=
  match l with
  | .sliceA => s.modArc fun a => { a with linkA := x }
  | .sliceB => s.modArc fun a => { a with linkB := x }
  | .field => s.modArc fun a => { a with linkF := x }

/-- The UP bit and the replay counter of a link (SYS_DLSTAT). -/
def linkFlds : Link → Fld × Fld
  | .sliceA => (R.SYS_DLSTAT_LA_UP, R.SYS_DLSTAT_LA_REPLAY)
  | .sliceB => (R.SYS_DLSTAT_LB_UP, R.SYS_DLSTAT_LB_REPLAY)
  | .field => (R.SYS_DLSTAT_LF_UP, R.SYS_DLSTAT_LF_REPLAY)

/-- The payload of an accepted flit delivered: a fault record of the far die reaches the fault engine. -/
def State.deliverLoad (s : State) (p : Payload) : State :=
  match p with
  | .other => s
  | .fault code sev skind sindex detail => s.raise { code := code, sev := sev, skind := skind, sindex := sindex, detail := detail }

/-- The watchdog of a slice die restarted by a valid flit (R14). -/
def State.feedDie (s : State) (l : Link) : State :=
  match l with
  | .sliceA => s.modArc fun a => { a with wdA := false }
  | .sliceB => s.modArc fun a => { a with wdB := false }
  | .field => s

/-- A link down for retraining (R13). -/
def State.retrain (s : State) (l : Link) : State :=
  ((s.putLink l { s.link l with up := false, failC := false, failD := false }).set (linkFlds l).1 0).bump R.SYS_DLSTAT_RETRAIN

/-- SLICE_LINK_FLIT (R12, R13): the flit expected next with a good CRC is accepted and its payload delivered. A CRC error or a sequence gap
asks for a replay, which is counted; until the flit comes again the flits after it are not taken. The same flit failing twice makes the
link retrain. Frames of the field link carry no sequence number. -/
def execSliceLinkFlit (link : Link) (toControl : Bool) (seq : Nat) (crcOk : Bool) (load : Payload) (s : State) : Out :=
  let x := s.link link
  if !x.up then .next s else
  let want := if toControl then x.expC else x.expD
  let failed := if toControl then x.failC else x.failD
  let mine := link == .field || seq % 256 == want
  let mark := fun (e : Nat) (f : Bool) => if toControl then { x with expC := e, failC := f } else { x with expD := e, failD := f }
  if mine && crcOk then
    let s := s.putLink link (mark (if link == .field then want else (want + 1) % 256) false)
    .next (if toControl then s.deliverLoad load else s.feedDie link)
  else if !failed then .next ((s.putLink link (mark want true)).bump (linkFlds link).2)
  else if mine then .next (s.retrain link)
  else .next s

/-- LINK_RETRAIN_COMPLETE (R13, R14, R455): the link passes flits again, its watchdog runs anew, and the records that the field die queued
are delivered with LATE set. -/
def execLinkRetrainComplete (link : Link) (s : State) : Out :=
  if (s.link link).up || !(s.dev != 0 || 2 ≤ s.boot.step) || !s.domOn 0 then .next s else
  let s := ((s.putLink link { LinkDyn.reset with up := true }).set (linkFlds link).1 1).feedDie link
  match link with
  | .field =>
    let q := s.faults.fieldQueue
    .next ({ s with faults := { s.faults with fieldQueue := [] } }.each q State.raise)
  | _ => .next s

/-- SLICE_LINK_WATCHDOG (R14): 2 µs without a valid flit: all gates of the die low, F4 of die scope; its slices stay torque off until they
are enabled again. -/
def execSliceLinkWatchdog (die : Fin 2) (s : State) : Out :=
  if s.wdExpired die.val || !s.domOn (6 + die.val) || s.dev == 0 then .next s else
  let s := s.modArc fun a => if die = 0 then { a with wdA := true } else { a with wdB := true }
  let s := s.each (slices.filter fun n => dieOf n == die.val) fun s n => s.modAx n fun a => { a with linkLost := true }
  .next (s.raiseDie 0x0101 4 die.val)

/-! Errors in memory (R24, R27). -/

/-- A corrected error counted: in LCn_ECC for local memory (R134), else in the count of the fabric's memories. -/
def State.corrAt (s : State) (a : Nat) : State :=
  match placeOf a with
  | .localMem k => (s.bump (R.LC_ECC_CORR k)).set (R.LC_ECC_LASTADDR k) a
  | _ => s.modArc fun x => { x with eccCorr := x.eccCorr + 1 }

/-- Whether an address has ECC: the banks, local memory and graph memory. -/
def hasEcc (a : Nat) : Bool :=
  match placeOf a with
  | .bank _ => true
  | .localMem _ => true
  | .graph => true
  | _ => false

/-- The severity of an uncorrectable error met by an access that no pip consumes (Table ARC.10): F0 in the acquisition ring, else F1. -/
def State.eccSev (s : State) (a : Nat) : Nat := match placeOf a with | .bank b => if s.bankUse b = 2 then 0 else 1 | _ => 1

/-- An uncorrectable error met by an access other than a pip's. -/
def State.uncorrAt (s : State) (a : Nat) : State :=
  let s := match placeOf a with
    | .localMem k => s.bump (R.LC_ECC_UNCORR k) |>.set (R.LC_ECC_LASTADDR k) a
    | _ => s
  s.raiseMod 0x0102 (s.eccSev a) a

/-! Accesses. -/

/-- A refused access of a core abandons its pip (R113, R133). -/
def State.refuseCore (s : State) (who : Init) (code : Nat) : State :=
  match who with
  | .core k => if s.core[k].run.isSome then s.abandon k code else s
  | _ => s

/-- A read over the fabric (R26, R136, R141, R468, R469). -/
def State.fabricRead (s : State) (who : Init) (sz : AccSize) (a : Nat) (ecc : EccSeen) : State :=
  let n := accBytes sz
  match s.readCode who a n with
  | 0 =>
    if hasEcc a && ecc == .double then
      (match who with
       | .core k =>
         if s.core[k].run.isSome then
           ((if inLocal k.val a n then s.coreUncorr k a else s).abandon k (if inLocal k.val a n then 6 else 8)).answer .error
         else (s.uncorrAt a).answer .error
       | _ => (s.uncorrAt a).answer .error)
    else
      let s := if hasEcc a && ecc == .single then s.corrAt a else s
      (s.afterRead a n).answer (.data (leBytes n (s.readVal a n)))
  | 2 => (s.refuseCore who 3).answer .unmapped
  | 6 => ((s.raiseMod 0x0103 1 a).refuseCore who 3).answer .refused
  | _ => s.answer .refused

/-- FABRIC_ACCESS (R22, R26, R27): an initiator's access, checked against its grants, served or refused with an F1 warning. -/
def execFabricAccess (who : Init) (write : Bool) (sz : AccSize) (addr value : Nat) (ecc : EccSeen) (s : State) : Out :=
  if !s.initOn who then .next s
  else if !accAligned sz addr then .next ((s.refuseCore who 2).answer .refused)
  else if !write then .next (s.fabricRead who sz addr ecc)
  else
    let (t, r) := s.writeWords who 0 (accWords sz addr value)
    let code := match r with | some (_, c) => c | none => 0
    .next ((if code = 2 ∨ code = 6 then t.refuseCore who 3 else t).answer (answerOf code))

/-! Scrubbing (R25). -/

/-- SRAM_SCRUB (R25): the bank's next word read and corrected; an uncorrectable word is logged, as no access consumes it. -/
def execSramScrub (bank : Fin 48) (ecc : EccSeen) (s : State) : Out :=
  if !s.domOn 0 || s.pw.sleep != 0 then .next s else
  let i := nthD s.arc.scrub bank.val 0
  let a := 0x10000000 + bank.val * 0x80000 + i % 65536 * 8
  let s := s.modArc fun x => { x with scrub := setNth x.scrub bank.val ((i + 1) % 65536) }
  match ecc with
  | .clean => .next s
  | .single => .next (s.corrAt a)
  | .double => .next (s.uncorrAt a)

end Sys2Proof.Machine
end

