-- ==== Sys2Proof/Machine/HostProtocol.lean ====
section
/-!
DEFINITION. Machine/HostProtocol.lean: the host protocol: sessions, ordered requests, register access, setpoints, segments, reports and notices (R345
to R362).
-/

namespace Sys2Proof.Machine

/-! Sessions (R347 to R349). -/

/-- A session; the closed one for a number that names none. -/
def State.session (s : State) (i : Nat) : Session := match s.host.sessions[i]? with | some x => x | none => Session.reset

def State.modSession (s : State) (i : Nat) (f : Session → Session) : State :=
  { s with host := { s.host with sessions := setNth s.host.sessions i (f (s.session i)) } }

/-- Whether the host-protocol engine takes a frame from a port: its network runs, and in recovery port 0 with raw Ethernet only (R88). -/
def State.hpOn (s : State) (q : HpReq) : Bool :=
  s.netRuns && !s.leaving && !s.boot.resetLow && s.pw.sleep == 0 && s.pw.entry == 0 && s.on (R.NET_PSTAT_LINK q.port.val) &&
  (!s.boot.recovery || (q.port == 0 && !q.udp))

/-- Whether a frame's session is open: 1 to 4, or 0 in recovery (R349). -/
def State.sessOpen (s : State) (i : Nat) : Bool := if s.boot.recovery then i == 0 else i != 0 && (s.session i).isOpen

/-- A reply on the port of its request (R319, R351), counted where its code is not OK. -/
def State.reply (s : State) (q : HpReq) (type sess code : Nat) (dup : Bool) (body : List Nat) : State :=
  let s := if code = 0 then s else s.bump R.NET_HPCNT_REFUSED
  s.send (s.outPort q.port.val) 2 (.reply type sess q.seq code dup body)

/-- A frame past the framing and the tag (R345, R348, R349): UDP needs an address; with AUTH a frame without a valid tag, which a session that
is not open cannot have, is discarded and counted; without AUTH and in recovery a frame with a tag is discarded. -/
def State.takeRequest (s : State) (q : HpReq) (opening : Bool) (go : State → State) : State :=
  if !s.hpOn q then s
  else if q.udp && s.get R.NET_HPCFG0_IPV4 == 0 then s.bump R.NET_HPSTAT_BADFRM
  else if !s.boot.recovery && s.on R.NET_HPCFG1_AUTH then
    (if q.tag == .valid && (opening || s.sessOpen q.session) then go s else s.bump R.NET_HPSTAT_AUTHFAIL)
  else if q.tag != .absent then s
  else go s

/-- The end of a session (R347): its report and notices go, and a stream that it received has no session (R369). -/
def State.endSession (s : State) (i : Nat) : State :=
  let s := s.modSession i fun _ => Session.reset
  let s := (s.putBit R.NET_HPSTAT_OPEN (i - 1) false).putBit R.NET_HPSTAT_NOTIFY (i - 1) false
  if s.get R.ACQ_CTL_SESS = i then s.set R.ACQ_CTL_SESS 0 else s

/-- The lowest free session. -/
def State.freeSession (s : State) : Option Nat := [1, 2, 3, 4].find? fun i => !(s.session i).isOpen

/-- OPEN (R347, R348): the lowest free session takes the source, the port and NOTIFY, and starts at a SEQ drawn at random. The reply names
the session. -/
def execHpOpen (q : HpReq) (notify : Bool) (s : State) : Out :=
  .next (s.takeRequest q true fun s =>
    if s.boot.recovery then s.reply q 1 0 7 false []
    else
      match s.freeSession with
      | none => s.reply q 1 0 0xB false []
      | some i =>
        let e := s.free % 2 ^ 32
        let s := s.drawn
        let n0 := s.free
        let s := s.drawn
        let n1 := s.free
        let s := s.drawn
        let x : Session := { Session.reset with isOpen := true, notify := notify, port := q.port.val, src := q.src, udp := q.udp,
                                                expect := e, nonce := n0 + n1 * 2 ^ 64 }
        let s := (s.modSession i fun _ => x).putBit R.NET_HPSTAT_OPEN (i - 1) true
        (s.putBit R.NET_HPSTAT_NOTIFY (i - 1) notify).reply q 1 i 0 false (leBytes 8 n0 ++ leBytes 8 n1 ++ beBytes 4 e))

/-! Ordered requests (R350, R351). -/

/-- A reply kept, the last 16 of them, and E advanced. -/
def Session.keep (x : Session) (r : Nat × Nat × Nat × List Nat) : Session :=
  { x with kept := (x.kept ++ [r]).drop (x.kept.length - 15), expect := (x.expect + 1) % 2 ^ 32 }

/-- An ordered request: executed once at its SEQ, its kept reply sent again, or OUTSEQ. `run` gives the state, the code and the body. -/
def State.ordered (s : State) (q : HpReq) (type : Nat) (run : State → State × Nat × List Nat) : State :=
  s.takeRequest q false fun s =>
    if !s.sessOpen q.session then s.reply q type q.session 0xB false []
    else
      let x := s.session q.session
      let seq := q.seq % 2 ^ 32
      if seq = x.expect then
        let (t, code, body) := run s
        (t.modSession q.session fun x => x.keep (seq, type, code, body)).reply q type q.session code false body
      else
        match x.kept.find? fun r => r.1 == seq with
        | some (_, t, code, body) => s.reply q t q.session code true body
        | none => s.reply q type q.session 0xA false (beBytes 4 x.expect)

/-- CLOSE (R347): the session ends after its reply. -/
def execHpClose (q : HpReq) (s : State) : Out :=
  let runs := s.hpOn q && s.sessOpen q.session && q.seq % 2 ^ 32 == (s.session q.session).expect && !s.boot.recovery &&
    !(q.udp && s.get R.NET_HPCFG0_IPV4 == 0) && (if s.on R.NET_HPCFG1_AUTH then q.tag == .valid else q.tag == .absent)
  let t := s.ordered q 2 fun s => (s, if s.boot.recovery then 7 else 0, [])
  .next (if runs then t.endSession q.session else t)

/-- NOP. -/
def execHpNop (q : HpReq) (s : State) : Out := .next (s.ordered q 3 fun s => (s, 0, []))

/-! Register and memory access (R352, R353). -/

/-- Bytes of a host frame of a session with a body. -/
def State.hostLength (s : State) (sess body : Nat) : Nat := s.ownLength (.reply 0 sess 0 0 false (List.replicate body 0))

/-- The code of the shape of a request (R352): ALIGN, TOOBIG; 0 where it may go on. -/
def State.shapeCode (s : State) (q : HpReq) (addr count most reqBody repBody : Nat) : Nat :=
  let big := fun n => s.get (R.NET_PCFG_MAXFRM q.port.val) < s.hostLength q.session n
  let last := addr + 8 * count - 1
  if addr % 8 ≠ 0 then 8
  else if count = 0 || most < count || big reqBody || big repBody then 9
  else
    match placeOf addr with
    | .unmapped => 2
    | .block b n => if last < b + n then 0 else 8
    | .localMem k => if placeOf last = .localMem k then 0 else 8
    | .graph => if placeOf last = .graph then 0 else 8
    | .beyond => if placeOf last = .beyond then 0 else 8
    | .bank b =>
      (match placeOf last with
       | .bank c => if (upto (c - b + 1)).all fun i => s.bankUse (b + i) == s.bankUse b then 0 else 8
       | _ => 8)

/-- The code of a word that the host reads (R26, R88, R136, R141): in recovery SYS, IMG and FLT only. -/
def State.hostReadCode (s : State) (a : Nat) : Nat :=
  if s.boot.recovery then
    (match placeOf a with
     | .block b _ => if b == 0 || b == 0x020000 || b == 0x040000 then 0 else 7
     | .unmapped => 2
     | _ => 7)
  else s.readCode .host a 8

/-- The words of a READ, or the code of the first refused one. -/
def State.hostRead (s : State) (q : HpReq) (addr count : Nat) : State × Nat × List Nat :=
  match s.shapeCode q addr count 512 8 (8 * count) with
  | 0 =>
    let as := (upto count).map fun i => addr + 8 * i
    match as.find? fun a => s.hostReadCode a != 0 with
    | some a => (s.noteRefusal a (if s.hostReadCode a = 6 then 6 else 0), s.hostReadCode a, [])
    | none => (s.each as fun s a => s.afterRead a 8, 0, as.flatMap fun a => leBytes 8 (s.wordAt a))
  | c => (s, c, [])

/-- READ (R352). -/
def execHpRead (q : HpReq) (addr count : Nat) (s : State) : Out :=
  .next (s.ordered q 0x10 fun s => s.hostRead q addr count)

/-- Words written for the host, all or none (R353). -/
def State.hostWrite (s : State) (q : HpReq) (shape : Nat) (ws : List WordW) : State × Nat × List Nat :=
  if shape ≠ 0 then (s, shape, [])
  else
    let (t, r) := s.writeWords .host q.session ws
    match r with
    | some (i, c) => (t, c, beBytes 2 i)
    | none => (t, 0, [])

/-- Consecutive words from an address. -/
def wordsFrom (addr : Nat) : List (Nat × Nat) → List WordW
  | [] => []
  | (v, m) :: t => ⟨addr, v % 2 ^ 64, m % 2 ^ 64⟩ :: wordsFrom (addr + 8) t

/-- WRITE (R353). -/
def execHpWrite (q : HpReq) (addr : Nat) (words : List Nat) (s : State) : Out :=
  .next (s.ordered q 0x11 fun s =>
    s.hostWrite q (s.shapeCode q addr words.length 512 (8 + 8 * words.length) 2) (wordsFrom addr (words.map fun v => (v, allBits))))

/-- WRITEM (R353). -/
def execHpWritem (q : HpReq) (addr : Nat) (writes : List MaskWrite) (s : State) : Out :=
  .next (s.ordered q 0x12 fun s =>
    s.hostWrite q (s.shapeCode q addr writes.length 256 (8 + 16 * writes.length) 2) (wordsFrom addr (writes.map fun x => (x.data, x.mask))))

/-! Setpoint streams (R355, R356). -/

/-- The stream of an element (Table HPR.4). -/
def elemStream (e : List Nat) : Nat := bitsOf (nthD e 2 0) 32 6

/-- Its element number. -/
def elemSeq (e : List Nat) : Nat := nthD e 2 0 % 2 ^ 32

/-- Whether a stream has a source of kind SETPT. -/
def State.streamUsed (s : State) (k : Nat) : Bool := s.usedSources.any fun x => x.2 % 16 == 5 && bitsOf x.2 8 8 == k

/-- The last ESEQ accepted on a stream. -/
def State.lastElem (s : State) (k : Nat) : Option Nat := (s.host.streams.find? fun x => x.1 == k).map (·.2)

/-- The eight words of an element. -/
def elemWords (e : List Nat) : List Nat := (upto 8).map fun i => nthD e i 0 % 2 ^ 64

/-- One element: accepted and posted as its source's token, or discarded with its count; the outcome is 0 accepted, 1 no source, 2
otherwise discarded. -/
def State.takeElem (s : State) (e : List Nat) : State × Nat :=
  let k := elemStream e
  let t : Int := unpackTime (nthD e 0 0 % 2 ^ 64) (nthD e 1 0 % 2 ^ 64)
  let now : Int := s.clock.now
  if !s.streamUsed k then (s.bump R.NET_HPCNT_SPNOSRC, 1)
  else if (match s.lastElem k with | some l => decide (elemSeq e ≤ l) | none => false) then (s.bump R.NET_HPCNT_SPDUP, 2)
  else if t + s.get R.NET_HPCFG1_SPLATE * 1000 * nsUnit < now || now + secUnit < t then
    ((s.bump R.NET_HPCNT_SPLATE_CNT).raiseMod 0x1301 0 k, 2)
  else
    let s := { s with host := { s.host with streams := (k, elemSeq e) :: s.host.streams.filter fun x => x.1 != k } }
    (s.arrive 5 k (elemWords e), 0)

/-- The elements of a frame in order: the state and the outcome of each. -/
def State.takeElems (s : State) : List (List Nat) → State × List Nat
  | [] => (s, [])
  | e :: t =>
    let (s, r) := s.takeElem e
    let (s, rs) := s.takeElems t
    (s, r :: rs)

/-- SETPT (R356): each element checked on its own; ACKREQ is answered with the accepted ones. Recovery discards it (R349). -/
def execSetpt (q : HpReq) (elements : List (List Nat)) (ackReq : Bool) (s : State) : Out :=
  .next (s.takeRequest q false fun s =>
    if s.boot.recovery then s
    else if !s.sessOpen q.session then (if ackReq then s.reply q 0x20 q.session 0xB false [] else s)
    else
      let (s, rs) := s.takeElems (elements.take 16)
      let mask := maskOf rs.length fun i => nthD rs i 1 == 0
      if ackReq then s.reply q 0x20 q.session (if rs.contains 1 then 0xC else 0) false (beBytes 2 mask) else s)

/-! Path segments (R357). -/

/-- The words of segments in the slots of a group's queue from a slot on. -/
def State.segWords (s : State) (g : Nat) (from_ : Nat) : List (List Nat) → List WordW
  | [] => []
  | w :: t => wordsFrom (s.slotAddr g from_) ((upto 32).map fun i => (nthD w i 0, allBits)) ++ s.segWords g (from_ + 1) t

/-- SEGMENT run: QFULL, the code of the first refused word, or the segments written and appended. -/
def State.runSegment (s : State) (q : HpReq) (g : Fin 8) (segs : List (List Nat)) : State × Nat × List Nat :=
  let n := segs.length
  if s.boot.recovery then (s, 7, [])
  else if n = 0 then (s, 5, [])
  else if 35 < n || s.get (R.NET_PCFG_MAXFRM q.port.val) < s.hostLength q.session (8 + 256 * n) then (s, 9, [])
  else if 1024 < s.get (R.GRP_STAT_COUNT g.val) + n then (s, 0xD, [])
  else
    let (t, r) := s.writeWords .host q.session (s.segWords g.val (s.get (R.GRP_STAT_HEAD g.val) + s.get (R.GRP_STAT_COUNT g.val)) segs)
    match r with
    | some (i, c) => (t, c, beBytes 2 i)
    | none =>
      let u := t.grpAppend g n
      (u, 0, [u.get (R.GRP_STAT_RES g.val)] ++ beBytes 2 (u.grp[g].queue.length - t.grp[g].queue.length))

/-- SEGMENT (R357). -/
def execSegment (q : HpReq) (g : Fin 8) (segs : List (List Nat)) (s : State) : Out :=
  .next (s.ordered q 0x21 fun s => s.runSegment q g segs)

/-! Reports and notices (R358, R361). -/

/-- The code of a report configuration: OFFSET below 5 µs, a comparator or a count out of range, an address that is not aligned or not
readable. -/
def State.reportCode (s : State) (cmp offset : Nat) (addrs : List Nat) : Nat :=
  if s.boot.recovery then 7
  else if offset < 5000 || 15 < cmp || 32 < addrs.length then 5
  else if addrs.any fun a => a % 8 != 0 then 8
  else match addrs.find? fun a => s.hostReadCode a != 0 with
    | some a => s.hostReadCode a
    | none => 0

/-- REPCFG (R361): it replaces the session's report at the next firing. -/
def execRepcfg (q : HpReq) (cmp offset : Nat) (addrs : List Nat) (s : State) : Out :=
  .next (s.ordered q 0x22 fun s =>
    let c := s.reportCode cmp offset addrs
    if c ≠ 0 then (s, c, []) else (s.modSession q.session fun x => { x with nextReport := some ⟨cmp, offset, addrs⟩ }, 0, []))

/-- EVACK (R358): every notice of the session up to that number is acknowledged. Recovery answers STATE (R349). -/
def execEvack (q : HpReq) (nseq : Nat) (s : State) : Out :=
  .next (s.takeRequest q false fun s =>
    if s.boot.recovery then (if q.session = 0 then s.reply q 0x31 0 7 false [] else s)
    else if !s.sessOpen q.session then s
    else s.modSession q.session fun x =>
      { x with notices := x.notices.filter (fun n => 2 ^ 31 ≤ (nseq + 2 ^ 32 - n.seq) % 2 ^ 32), lost := 0 })

/-- HP_UNKNOWN_TYPE (Table HPR.2): answered with TYPE on a valid session, else discarded. -/
def execHpUnknownType (q : HpReq) (type : Nat) (s : State) : Out :=
  .next (s.takeRequest q false fun s => if s.sessOpen q.session then s.reply q type q.session 0xE false [] else s)

/-- NOTICE_RETRY (R358): NRTO has passed since a notice was last sent: it is sent again, or after NRET resends dropped and counted. -/
def execNoticeRetry (session nseq : Nat) (s : State) : Out :=
  let x := s.session session
  if !x.isOpen || !s.netRuns || s.pw.sleep != 0 then .next s else
  match x.notices.find? fun n => n.seq == nseq with
  | none => .next s
  | some n =>
    if s.get R.NET_HPCFG1_NRET ≤ n.resends then
      .next ((s.modSession session fun x => { x with notices := x.notices.filter (fun m => m.seq != nseq), lost := x.lost + 1 }).bump
        R.NET_HPSTAT_NOTELOST)
    else
      let n' : Notice := { n with resends := n.resends + 1 }
      let s := s.modSession session fun x => { x with notices := x.notices.map fun m => if m.seq == nseq then n' else m }
      .next (s.send (s.outPort x.port) 2 (.notice session n'))

/-- SESSION_TIMEOUT (R347): SESSTO has passed without an accepted frame. Session 0 never times out (R349). -/
def execSessionTimeout (session : Nat) (s : State) : Out :=
  if session = 0 || !(s.session session).isOpen then .next s else .next (s.endSession session)

end Sys2Proof.Machine
end

