-- ==== Sys2Proof/Machine/PipArith.lean ====
section
/-!
DEFINITION. Machine/PipArith.lean: moves, arithmetic, logic, shifts, lane operations, multiplication, SINCOS, VLIM and the searches of
Table PIP.9 (R117, R118, R125, R126, R132).
-/

namespace Sys2Proof.Machine

/-! Moves. -/

/-- MOV d, a: the whole register, or with a half selector d.x = a.y and the other half kept (log entry 32). -/
def execMov (x : PipAt) (f : RForm) (s : State) : Out :=
  .next (s.pipR x f (isDst f.dst && isSrc f.sa) 1 fun c =>
    let a := c.reg x.core f.sa
    let v := if f.hd || f.ha || f.hb then putLane (c.reg x.core f.dst) f.hd (lane a f.ha) else a
    (c.putReg f.dst v).setNZ f.sf v)

/-- MOVI d, imm: zero-extended. -/
def execMovi (x : PipAt) (f : IForm) (s : State) : Out :=
  .next (s.pipI x f (isDst f.dst) fun c => let v := f.imm % 2 ^ 32; (c.putReg f.dst v).setNZ f.sf v)

/-- MOVIS d, imm: sign-extended. -/
def execMovis (x : PipAt) (f : IForm) (s : State) : Out :=
  .next (s.pipI x f (isDst f.dst) fun c => let v := ofS 64 (toS 32 f.imm); (c.putReg f.dst v).setNZ f.sf v)

/-- MOVHI d, imm: the high half. -/
def execMovhi (x : PipAt) (f : IForm) (s : State) : Out :=
  .next (s.pipI x f (isDst f.dst) fun c => c.putReg f.dst (putLane (c.reg x.core f.dst) true f.imm))

/-- SWAP d, a. -/
def execSwap (x : PipAt) (f : RForm) (s : State) : Out :=
  .next (s.pipR x f (isD f.dst && isD f.sa) 1 fun c =>
    let a := c.dreg f.sa
    c.putD f.dst (lanes (lane a true) (lane a false)))

/-- EXT d, a.y. -/
def execExt (x : PipAt) (f : RForm) (s : State) : Out :=
  .next (s.pipR x f (isD f.dst && isD f.sa) 1 fun c =>
    let v := ofS 64 (laneS (c.dreg f.sa) f.ha)
    (c.putD f.dst v).setNZ f.sf v)

/-- INS d.x, a.y. -/
def execIns (x : PipAt) (f : RForm) (s : State) : Out :=
  .next (s.pipR x f (isD f.dst && isD f.sa) 1 fun c =>
    c.putD f.dst (putLane (c.dreg f.dst) f.hd (lane (c.dreg f.sa) f.ha)))

/-! Sums and differences (R118). -/

/-- A signed result narrowed to `w` bits: clamped with SAT, else wrapped; with it, whether it was clamped and V. -/
def narrow (w : Nat) (sat : Bool) (v : Int) : Int × Bool × Bool :=
  let c := satS w v
  if c = v then (v, false, false)
  else if sat then (c, true, false)
  else (toS w (ofS w v), false, true)

/-- Carry of an addition of two 64-bit values. -/
def addCarry (a b : Nat) : Bool := a % 2 ^ 64 + b % 2 ^ 64 ≥ 2 ^ 64

/-- C of a subtraction (log entry 30). -/
def subCarry (a b : Nat) : Bool := (decide (a % 2 ^ 64 < b % 2 ^ 64)) == Config.subBorrow

/-- A 64-bit result written with SAT, N, Z, C and V. -/
def CoreDyn.result64 (c : CoreDyn) (dst : Nat) (sat sf : Bool) (v : Int) (cy : Bool) : CoreDyn :=
  let r := narrow 64 sat v
  let w := ofS 64 r.1
  ((((c.putReg dst w).stick r.2.1).setNZ sf w).setC sf cy).setV sf r.2.2

/-- The flags of a difference, always (CMP, CMPI). -/
def CoreDyn.compare (c : CoreDyn) (a b : Nat) : CoreDyn :=
  let r := narrow 64 false (toS 64 a - toS 64 b)
  (((c.setNZ true (ofS 64 r.1)).setC true (subCarry a b)).setV true r.2.2)

/-- ADD d, a, b. -/
def execAdd (x : PipAt) (f : RForm) (s : State) : Out :=
  .next (s.pipR x f (isDst f.dst && isSrc f.sa && isSrc f.sb) 1 fun c =>
    let a := c.reg x.core f.sa
    let b := c.reg x.core f.sb
    c.result64 f.dst f.sat f.sf (toS 64 a + toS 64 b) (addCarry a b))

/-- SUB d, a, b. -/
def execSub (x : PipAt) (f : RForm) (s : State) : Out :=
  .next (s.pipR x f (isDst f.dst && isSrc f.sa && isSrc f.sb) 1 fun c =>
    let a := c.reg x.core f.sa
    let b := c.reg x.core f.sb
    c.result64 f.dst f.sat f.sf (toS 64 a - toS 64 b) (subCarry a b))

/-- ADDI d, a, imm. -/
def execAddi (x : PipAt) (f : IForm) (s : State) : Out :=
  .next (s.pipI x f (isDst f.dst && isSrc f.sa) fun c =>
    let a := c.reg x.core f.sa
    let b := ofS 64 (toS 32 f.imm)
    c.result64 f.dst f.sat f.sf (toS 64 a + toS 64 b) (addCarry a b))

/-- CMP a, b. -/
def execCmp (x : PipAt) (f : RForm) (s : State) : Out :=
  .next (s.pipR x f (f.dst == 0x3F && isSrc f.sa && isSrc f.sb) 1 fun c => c.compare (c.reg x.core f.sa) (c.reg x.core f.sb))

/-- CMPI a, imm. -/
def execCmpi (x : PipAt) (f : IForm) (s : State) : Out :=
  .next (s.pipI x f (f.dst == 0x3F && isSrc f.sa) fun c => c.compare (c.reg x.core f.sa) (ofS 64 (toS 32 f.imm)))

/-- A 64-bit result of one D operand with SAT, N, Z and V (NEG, ABS). -/
def CoreDyn.unary64 (c : CoreDyn) (f : RForm) (v : Int) : CoreDyn :=
  let r := narrow 64 f.sat v
  let w := ofS 64 r.1
  (((c.putD f.dst w).stick r.2.1).setNZ f.sf w).setV f.sf r.2.2

/-- NEG d, a. -/
def execNeg (x : PipAt) (f : RForm) (s : State) : Out :=
  .next (s.pipR x f (isD f.dst && isD f.sa) 1 fun c => c.unary64 f (-(toS 64 (c.dreg f.sa))))

/-- ABS d, a. -/
def execAbs (x : PipAt) (f : RForm) (s : State) : Out :=
  .next (s.pipR x f (isD f.dst && isD f.sa) 1 fun c => c.unary64 f ((toS 64 (c.dreg f.sa)).natAbs : Int))

/-- A 64-bit value of three D registers' operation, with N and Z. -/
def CoreDyn.plain64 (c : CoreDyn) (f : RForm) (w : Nat) : CoreDyn := (c.putD f.dst w).setNZ f.sf w

/-- Whether an instruction's three registers are D registers. -/
def allD (f : RForm) : Bool := isD f.dst && isD f.sa && isD f.sb

/-- MIN d, a, b. -/
def execMin (x : PipAt) (f : RForm) (s : State) : Out :=
  .next (s.pipR x f (allD f) 1 fun c =>
    let a := c.dreg f.sa
    let b := c.dreg f.sb
    c.plain64 f (if toS 64 a ≤ toS 64 b then a else b))

/-- MAX d, a, b. -/
def execMax (x : PipAt) (f : RForm) (s : State) : Out :=
  .next (s.pipR x f (allD f) 1 fun c =>
    let a := c.dreg f.sa
    let b := c.dreg f.sb
    c.plain64 f (if toS 64 a ≥ toS 64 b then a else b))

/-- CLAMP d, a, b: C always tells whether a changed. -/
def execClamp (x : PipAt) (f : RForm) (s : State) : Out :=
  .next (s.pipR x f (allD f) 1 fun c =>
    let a := toS 64 (c.dreg f.sa)
    let b : Int := (toS 64 (c.dreg f.sb)).natAbs
    let r := clampI (-b) b a
    (c.plain64 f (ofS 64 r)).setC true (r != a))

/-! Logic. -/

/-- AND d, a, b. -/
def execAnd (x : PipAt) (f : RForm) (s : State) : Out :=
  .next (s.pipR x f (allD f) 1 fun c => c.plain64 f (c.dreg f.sa &&& c.dreg f.sb))

/-- OR d, a, b. -/
def execOr (x : PipAt) (f : RForm) (s : State) : Out :=
  .next (s.pipR x f (allD f) 1 fun c => c.plain64 f (c.dreg f.sa ||| c.dreg f.sb))

/-- XOR d, a, b. -/
def execXor (x : PipAt) (f : RForm) (s : State) : Out :=
  .next (s.pipR x f (allD f) 1 fun c => c.plain64 f (c.dreg f.sa ^^^ c.dreg f.sb))

/-- NOT d, a. -/
def execNot (x : PipAt) (f : RForm) (s : State) : Out :=
  .next (s.pipR x f (isD f.dst && isD f.sa) 1 fun c => c.plain64 f (2 ^ 64 - 1 - c.dreg f.sa))

/-! Shifts. -/

/-- The count of a shift: b[6:0], or SH when SB is 0x3F. -/
def CoreDyn.count (c : CoreDyn) (f : RForm) : Nat := if f.sb = 0x3F then f.sh % 128 else c.dreg f.sb % 128

/-- Whether the registers of a shift are D registers, SB being none for an immediate count. -/
def shiftRegs (f : RForm) : Bool := isD f.dst && isD f.sa && (isD f.sb || f.sb == 0x3F)

/-- SHL d, a, b: V when a bit unequal to the sign is lost; C is not stated (log entry 30). -/
def execShl (x : PipAt) (f : RForm) (s : State) : Out :=
  .next (s.pipR x f (shiftRegs f) 1 fun c =>
    let a := c.dreg f.sa
    let n := c.count f
    let w := if n ≥ 64 then 0 else a * 2 ^ n % 2 ^ 64
    ((c.plain64 f w).setC f.sf (Config.shlCarry (BitVec.ofNat 64 a) n)).setV f.sf (toS 64 w != toS 64 a * (2 ^ n : Nat)))

/-- ASR d, a, b: arithmetic, rounded. -/
def execAsr (x : PipAt) (f : RForm) (s : State) : Out :=
  let m := s.rmode x.core f.rm
  .next (s.pipR x f (shiftRegs f) 1 fun c => c.plain64 f (ofS 64 (rnd m (toS 64 (c.dreg f.sa)) (c.count f))))

/-- LSR d, a, b: logical, dropped bits discarded. -/
def execLsr (x : PipAt) (f : RForm) (s : State) : Out :=
  .next (s.pipR x f (shiftRegs f) 1 fun c => c.plain64 f (c.dreg f.sa / 2 ^ c.count f))

/-- Redundant sign bits of a signed `w`-bit value, `w − 1` for zero. -/
def redundant (w : Nat) (v : Int) : Nat := w - 1 - bitLen (if v < 0 then (-v - 1).toNat else v.toNat)

/-- CLS d, a. -/
def execCls (x : PipAt) (f : RForm) (s : State) : Out :=
  .next (s.pipR x f (isD f.dst && isD f.sa) 1 fun c =>
    let r := redundant 64 (toS 64 (c.dreg f.sa))
    (c.putD f.dst r).setZ f.sf (r == 0))

/-! Lanes. -/

/-- Two lane results narrowed to 32 bits with SAT and V of either lane (ADD2, SUB2). -/
def CoreDyn.pair32 (c : CoreDyn) (f : RForm) (l h : Int) : CoreDyn :=
  let rl := narrow 32 f.sat l
  let rh := narrow 32 f.sat h
  ((c.putD f.dst (lanes (ofS 32 rl.1) (ofS 32 rh.1))).stick (rl.2.1 || rh.2.1)).setV f.sf (rl.2.2 || rh.2.2)

/-- ADD2 d, a, b. -/
def execAdd2 (x : PipAt) (f : RForm) (s : State) : Out :=
  .next (s.pipR x f (allD f) 1 fun c =>
    let a := c.dreg f.sa
    let b := c.dreg f.sb
    c.pair32 f (laneS a false + laneS b false) (laneS a true + laneS b true))

/-- SUB2 d, a, b. -/
def execSub2 (x : PipAt) (f : RForm) (s : State) : Out :=
  .next (s.pipR x f (allD f) 1 fun c =>
    let a := c.dreg f.sa
    let b := c.dreg f.sb
    c.pair32 f (laneS a false - laneS b false) (laneS a true - laneS b true))

/-- NEGH d.x, a.y. -/
def execNegh (x : PipAt) (f : RForm) (s : State) : Out :=
  .next (s.pipR x f (isD f.dst && isD f.sa) 1 fun c =>
    let r := narrow 32 f.sat (-(laneS (c.dreg f.sa) f.ha))
    ((c.putD f.dst (putLane (c.dreg f.dst) f.hd (ofS 32 r.1))).stick r.2.1).setV f.sf r.2.2)

/-- QMUL2 d, a, b: always saturates (R118). -/
def execQmul2 (x : PipAt) (f : RForm) (s : State) : Out :=
  let m := s.rmode x.core f.rm
  .next (s.pipR x f (allD f) 1 fun c =>
    let a := c.dreg f.sa
    let b := c.dreg f.sb
    let l := rnd m (laneS a false * laneS b false) 31
    let h := rnd m (laneS a true * laneS b true) 31
    let past := satS 32 l != l || satS 32 h != h
    ((c.putD f.dst (lanes (ofS 32 (satS 32 l)) (ofS 32 (satS 32 h)))).stick past).setV f.sf past)

/-! Multiplication. -/

/-- MULL d, a.x, b.y: exact. -/
def execMull (x : PipAt) (f : RForm) (s : State) : Out :=
  .next (s.pipR x f (allD f) 1 fun c => c.plain64 f (ofS 64 (laneS (c.dreg f.sa) f.ha * laneS (c.dreg f.sb) f.hb)))

/-- MUL d, a, b: bits [63:0]; V when inexact. -/
def execMul (x : PipAt) (f : RForm) (s : State) : Out :=
  .next (s.pipR x f (allD f) 2 fun c =>
    let v := toS 64 (c.dreg f.sa) * toS 64 (c.dreg f.sb)
    (c.plain64 f (ofS 64 v)).setV f.sf (satS 64 v != v))

/-! SINCOS and VLIM: the spec bounds the error and does not fix it (log entry 31). -/

/-- An integer within `e` of ref/2^32, the `pick`-th modulo their number. -/
def within (ref : Int) (e : Nat) (pick : Nat) : Int :=
  let lo := -(Int.fdiv (-(ref - (e * 2 ^ 32 : Nat))) (2 ^ 32 : Nat))
  let hi := Int.fdiv (ref + (e * 2 ^ 32 : Nat)) (2 ^ 32 : Nat)
  lo + (pick : Int) % (hi - lo + 1)

/-- SINCOS d, a: cosine and sine of a[31:0] × 2π/2^32 in Q1.31, within 3 LSB, 1.0 given as 0x7FFF_FFFF. -/
def execSincos (x : PipAt) (f : RForm) (s : State) : Out :=
  .next (s.pipR x f (isD f.dst && isD f.sa) 4 fun c =>
    let t := c.dreg f.sa % 2 ^ 32
    let q := qTurn 32 t
    let b := BitVec.ofNat 32 t
    let co := satS 32 (within (q.1 / 2 ^ 57) 3 (Config.sincosPick b false))
    let si := satS 32 (within (q.2 / 2 ^ 57) 3 (Config.sincosPick b true))
    c.putD f.dst (lanes (ofS 32 co) (ofS 32 si)))

/-- VLIM d, a, b: a scaled to magnitude |b.l| within 4 LSB where it is longer, C always (R118: saturates). -/
def execVlim (x : PipAt) (f : RForm) (s : State) : Out :=
  .next (s.pipR x f (allD f) 8 fun c =>
    let a := c.dreg f.sa
    let b := c.dreg f.sb
    let l := laneS a false
    let h := laneS a true
    let lim : Int := (laneS b false).natAbs
    let m2 := (l * l + h * h).toNat
    if (m2 : Int) > lim * lim then
      let r : Int := isqrt (m2 * 2 ^ 64)
      let ba := BitVec.ofNat 64 a
      let bb := BitVec.ofNat 64 b
      let vl := within (Int.fdiv (l * lim * 2 ^ 64) r) 4 (Config.vlimPick ba bb false)
      let vh := within (Int.fdiv (h * lim * 2 ^ 64) r) 4 (Config.vlimPick ba bb true)
      let past := satS 32 vl != vl || satS 32 vh != vh
      ((c.putD f.dst (lanes (ofS 32 (satS 32 vl)) (ofS 32 (satS 32 vh)))).stick past).setC true true
    else (c.putD f.dst a).setC true false)

/-! Searches (R132). -/

/-- One element of a search: the register (BEST, IDX, CNT) after it, `better v best` telling whether v wins. -/
def search (better : Int → Int → Bool) (r : Nat) (v : Int) : Nat :=
  let cnt := bitsOf r 48 16
  let r := if better v (toS 32 r) then putBits (putBits r 0 32 (ofS 32 v)) 32 16 cnt else r
  putBits r 48 16 ((cnt + 1) % 65536)

/-- MAXI d, a. -/
def execMaxi (x : PipAt) (f : RForm) (s : State) : Out :=
  .next (s.pipR x f (isD f.dst && isD f.sa) 1 fun c =>
    let a := c.dreg f.sa
    let p := fun v b : Int => decide (v > b)
    c.putD f.dst (search p (search p (c.dreg f.dst) (laneS a false)) (laneS a true)))

/-- MINI d, a. -/
def execMini (x : PipAt) (f : RForm) (s : State) : Out :=
  .next (s.pipR x f (isD f.dst && isD f.sa) 1 fun c =>
    let a := c.dreg f.sa
    let p := fun v b : Int => decide (v < b)
    c.putD f.dst (search p (search p (c.dreg f.dst) (laneS a false)) (laneS a true)))

/-- The magnitude of a 32-bit value, |−2^31| taken as 2^31 − 1 (R132). -/
def mag32 (v : Int) : Int := satS 32 (v.natAbs : Int)

/-- MAXAI d, a. -/
def execMaxai (x : PipAt) (f : RForm) (s : State) : Out :=
  .next (s.pipR x f (isD f.dst && isD f.sa) 1 fun c =>
    let a := c.dreg f.sa
    let p := fun v b : Int => decide (v > b)
    c.putD f.dst (search p (search p (c.dreg f.dst) (mag32 (laneS a false))) (mag32 (laneS a true))))

/-- NOP. -/
def execNop (x : PipAt) (f : RForm) (s : State) : Out := .next (s.pipR x f true 1 fun c => c)

end Sys2Proof.Machine
end

