-- ==== Sys2Proof/Machine/PipAcc.lean ====
section
/-!
DEFINITION. Machine/PipAcc.lean: the accumulator and block-floating instructions of Table PIP.9 (R118 to R122, R126).
-/

namespace Sys2Proof.Machine

/-! Multiply-accumulate. -/

/-- MAC1 k, a.x, b.y. -/
def execMac1 (x : PipAt) (f : RForm) (s : State) : Out :=
  .next (s.pipR x f (isAcc f.dst && isD f.sa && isD f.sb) 1 fun c =>
    c.putAcc (f.dst - 0x30) (c.accS (f.dst - 0x30) + laneS (c.dreg f.sa) f.ha * laneS (c.dreg f.sb) f.hb))

/-- MSU1 k, a.x, b.y. -/
def execMsu1 (x : PipAt) (f : RForm) (s : State) : Out :=
  .next (s.pipR x f (isAcc f.dst && isD f.sa && isD f.sb) 1 fun c =>
    c.putAcc (f.dst - 0x30) (c.accS (f.dst - 0x30) - laneS (c.dreg f.sa) f.ha * laneS (c.dreg f.sb) f.hb))

/-- MAC1Z k, a.x, b.y. -/
def execMac1z (x : PipAt) (f : RForm) (s : State) : Out :=
  .next (s.pipR x f (isAcc f.dst && isD f.sa && isD f.sb) 1 fun c =>
    c.putAcc (f.dst - 0x30) (laneS (c.dreg f.sa) f.ha * laneS (c.dreg f.sb) f.hb))

/-- ACCi = g ACCi (Xi × y) for the four lanes Xi. -/
def CoreDyn.acc4 (c : CoreDyn) (g : Int → Int → Int) (lo hi : Nat) (y : Int) : CoreDyn :=
  let c := c.putAcc 0 (g (c.accS 0) (laneS lo false * y))
  let c := c.putAcc 1 (g (c.accS 1) (laneS lo true * y))
  let c := c.putAcc 2 (g (c.accS 2) (laneS hi false * y))
  c.putAcc 3 (g (c.accS 3) (laneS hi true * y))

/-- MAC4, MSU4 and MAC4Z: the lanes of a and a + 1 by the broadcast b.y. -/
def State.mac4 (s : State) (x : PipAt) (f : RForm) (g : Int → Int → Int) : State :=
  s.pipR x f (f.dst == 0x3F && isD f.sa && f.sa != 31 && isD f.sb) 1 (more := [f.sa + 1]) fun c =>
    c.acc4 g (c.dreg f.sa) (c.dreg (f.sa + 1)) (laneS (c.dreg f.sb) f.hb)

/-- MAC4 a, b.y. -/
def execMac4 (x : PipAt) (f : RForm) (s : State) : Out := .next (s.mac4 x f fun a p => a + p)

/-- MSU4 a, b.y. -/
def execMsu4 (x : PipAt) (f : RForm) (s : State) : Out := .next (s.mac4 x f fun a p => a - p)

/-- MAC4Z a, b.y. -/
def execMac4z (x : PipAt) (f : RForm) (s : State) : Out := .next (s.mac4 x f fun _ p => p)

/-! Moves of accumulators. -/

/-- One cycle, and one more when the instruction just before wrote an accumulator that this one reads (Table PIP.9). -/
def CoreDyn.accWait (c : CoreDyn) (base : Nat) (ks : List Nat) : Nat := if ks.any c.accBefore.contains then base + 1 else base

/-- MVA d.x, k, sh: sat32(rnd(ACCk >> sh)). -/
def execMva (x : PipAt) (f : RForm) (s : State) : Out :=
  let m := s.rmode x.core f.rm
  let k := f.sa - 0x30
  .next (s.pipCore x f.cond [f.dst, f.sa, f.sb] (isD f.dst && isAcc f.sa && f.sh ≤ 95) (fun c => c.accWait 1 [k]) fun c =>
    let v := rnd m (c.accS k) f.sh
    let r := satS 32 v
    ((c.putD f.dst (putLane (c.dreg f.dst) f.hd (ofS 32 r))).stick (r != v)).setV f.sf (r != v))

/-- MVAW d, k, sh: sat64(rnd(ACCk >> sh)). -/
def execMvaw (x : PipAt) (f : RForm) (s : State) : Out :=
  let m := s.rmode x.core f.rm
  let k := f.sa - 0x30
  .next (s.pipCore x f.cond [f.dst, f.sa, f.sb] (isD f.dst && isAcc f.sa && f.sh ≤ 95) (fun c => c.accWait 1 [k]) fun c =>
    let v := rnd m (c.accS k) f.sh
    let r := satS 64 v
    ((c.putD f.dst (ofS 64 r)).stick (r != v)).setV f.sf (r != v))

/-- LDA k, a, sh: sign-extended a << sh. -/
def execLda (x : PipAt) (f : RForm) (s : State) : Out :=
  .next (s.pipR x f (isAcc f.dst && isD f.sa && f.sh ≤ 32) 1 fun c =>
    c.putAcc (f.dst - 0x30) (toS 64 (c.dreg f.sa) * (2 ^ f.sh : Nat)))

/-- CLRA mask: ACCi = 0 for each set bit i of SH[3:0]. -/
def execClra (x : PipAt) (f : RForm) (s : State) : Out :=
  .next (s.pipR x f true 1 fun c =>
    [0, 1, 2, 3].foldl (fun c i => if bit f.sh i = 1 then c.putAcc i 0 else c) c)

/-! Block-floating stages. -/

/-- The smallest count of redundant sign bits of some `w`-bit values. -/
def minRedundant (w : Nat) (l : List Int) : Nat := l.foldl (fun m v => if redundant w v < m then redundant w v else m) (w - 1)

/-- An exponent register read (R119): bits [15:0], signed. -/
def CoreDyn.expo (c : CoreDyn) (i : Nat) : Int := toS 16 (c.dreg i)

/-- Four mantissas in Dd and Dd+1. -/
def CoreDyn.putMant4 (c : CoreDyn) (d : Nat) (m : List Int) : CoreDyn :=
  let g := fun i => ofS 32 (nthD m i 0)
  (c.putD d (lanes (g 0) (g 1))).putD (d + 1) (lanes (g 2) (g 3))

/-- ANRM d, e (R122). A mantissa at exponent e' is ACC × 2^(a − 31 − e'). -/
def execAnrm (x : PipAt) (f : RForm) (s : State) : Out :=
  let m := s.rmode x.core f.rm
  .next (s.pipCore x f.cond [f.dst, f.sa, f.sb, f.dst + 1] (isD f.dst && f.dst != 31 && isD f.sa) (fun c => c.accWait 2 [0, 1, 2, 3])
    fun c =>
      let accs := [c.accS 0, c.accS 1, c.accS 2, c.accS 3]
      let a := c.expo f.sa
      if accs.all (· == 0) then
        let c := (c.putMant4 f.dst [0, 0, 0, 0]).putD f.sa (ofS 64 (-128))
        (c.setZ f.sf true).setV f.sf false
      else
        let at_ := fun e : Int => accs.map fun v => rndScale m v (a - 31 - e)
        let sh := minRedundant 96 accs
        let e := a + 33 - (sh : Int)
        let e := if e < -128 then -128 else e
        let e := if (at_ e).any (fun v => satS 32 v != v) then e + 1 else e
        let past := e > 127
        let mant := if past then (at_ e).map fun v => satS 32 (v * (2 ^ (e - 127).toNat : Nat)) else at_ e
        let e := if past then 127 else e
        let c := (c.putMant4 f.dst mant).putD f.sa (ofS 64 e)
        ((c.setZ f.sf false).setV f.sf past).stick past)

/-- The mantissas of a stage in registers (R119): Dn to Dn + cnt − 1, .l first. -/
def CoreDyn.mants (c : CoreDyn) (n cnt : Nat) : List Int :=
  (upto cnt).flatMap fun i => [laneS (c.dreg (n + i)) false, laneS (c.dreg (n + i)) true]

/-- The mantissas of a stage written. -/
def CoreDyn.putMants (c : CoreDyn) (n cnt : Nat) (m : List Int) : CoreDyn :=
  (upto cnt).foldl (fun c i => c.putD (n + i) (lanes (ofS 32 (nthD m (2 * i) 0)) (ofS 32 (nthD m (2 * i + 1) 0)))) c

/-- Whether a stage of cnt registers from Dn is named rightly: cnt from 1 to 8, within D31. -/
def stageOk (n cnt : Nat) : Bool := isD n && 1 ≤ cnt && cnt ≤ 8 && n + cnt ≤ 32

/-- The registers of a stage. -/
def stageRegs (n cnt : Nat) : List Nat := (upto (if cnt ≤ 8 then cnt else 0)).map (n + ·)

/-- SNRM n, cnt, e (R120); an exponent outside −128 to 127 is clamped first, with V (R119). -/
def execSnrm (x : PipAt) (f : RForm) (s : State) : Out :=
  .next (s.pipR x f (stageOk f.dst f.sh && isD f.sa) 2 (more := stageRegs f.dst f.sh) fun c =>
    let e0 := c.expo f.sa
    let e := clampI (-128) 127 e0
    let c := if e != e0 then c.setV f.sf true else c
    let ms := c.mants f.dst f.sh
    if ms.all (· == 0) then (c.putD f.sa (ofS 64 (-128))).setZ f.sf true
    else
      let sh : Int := minRedundant 32 ms
      let sh := if e - sh < -128 then e + 128 else sh
      let c := c.putMants f.dst f.sh (ms.map fun v => v * (2 ^ sh.toNat : Nat))
      (c.putD f.sa (ofS 64 (e - sh))).setZ f.sf false)

/-- SALN n, cnt, e, f (R121). -/
def execSaln (x : PipAt) (f : RForm) (s : State) : Out :=
  let m := s.rmode x.core f.rm
  .next (s.pipR x f (stageOk f.dst f.sh && isD f.sa && isD f.sb) 2 (more := stageRegs f.dst f.sh) fun c =>
    let e0 := c.expo f.sa
    let f0 := c.expo f.sb
    let e := clampI (-128) 127 e0
    let g := clampI (-128) 127 f0
    let c := c.setV f.sf (e != e0 || g != f0)
    let c := if g > e then c.putMants f.dst f.sh ((c.mants f.dst f.sh).map fun v => rnd m v (g - e).toNat) else c
    c.putD f.sa (ofS 64 (if g > e then g else e)))

end Sys2Proof.Machine
end

