-- ==== Sys2Proof/Machine/PipMem.lean ====
section
/-!
DEFINITION. Machine/PipMem.lean: the memory instructions of Table PIP.9: addressing, loads and posted stores (R113 to R116, R126, R127).
-/

namespace Sys2Proof.Machine

/-! Addressing (Table PIP.4, R116). -/

/-- DISP as a signed number of bytes. -/
def mDisp (f : MForm) : Int := toS 30 (f.disp % 2 ^ 30)

/-- MOD of an O register, signed. -/
def CoreDyn.modOf (c : CoreDyn) (i : Nat) : Int := toS 32 (c.oreg i % 2 ^ 32)

/-- LOG2L of an O register. -/
def CoreDyn.logOf (c : CoreDyn) (i : Nat) : Nat := bitsOf (c.oreg i) 32 5

/-- A 32-bit address moved by a signed amount. -/
def addrPlus (a : Nat) (d : Int) : Nat := ofS 32 ((a : Int) + d)

/-- The effective address. -/
def CoreDyn.effAddr (c : CoreDyn) (f : MForm) : Nat :=
  match f.amode with
  | 0 => addrPlus (c.areg f.areg) (mDisp f)
  | 3 => addrPlus (c.areg f.areg) (mDisp f)
  | 4 => addrPlus (c.areg f.areg) (c.modOf f.oreg)
  | _ => c.areg f.areg

/-- The A register after the access; a circular buffer of L bytes keeps the bits above it (R116). -/
def CoreDyn.stepA (c : CoreDyn) (f : MForm) : CoreDyn :=
  let a := c.areg f.areg
  match f.amode with
  | 1 =>
    let n := addrPlus a (c.modOf f.oreg)
    let k := c.logOf f.oreg
    c.putA f.areg (if k = 0 then n else a / 2 ^ k * 2 ^ k + n % 2 ^ k)
  | 2 => c.putA f.areg (addrPlus a (mDisp f))
  | 3 => c.putA f.areg (addrPlus a (mDisp f))
  | _ => c

/-- Whether the addressing mode is legal (Table PIP.4). -/
def mModeOk (f : MForm) : Bool := f.amode ≤ 4

/-- Whether the O register that mode 1 uses has a legal LOG2L (R116). -/
def CoreDyn.logOk (c : CoreDyn) (f : MForm) : Bool :=
  f.amode != 1 || c.logOf f.oreg == 0 || (3 ≤ c.logOf f.oreg && c.logOf f.oreg ≤ 16)

/-- The registers that form the address. -/
def addrRegs (f : MForm) : List Nat :=
  (0x20 + f.areg % 8) :: (if f.amode = 1 ∨ f.amode = 4 then [0x28 + f.oreg % 8] else [])

/-! Loads. -/

/-- Bytes as a core with posted stores outstanding reads them (R115). -/
def overlayStores (l : List StoreDyn) (a : Nat) (b : List Nat) : List Nat :=
  l.foldl (fun b x => (upto b.length).map fun i =>
    if x.addr ≤ a + i ∧ a + i < x.addr + x.size then x.data / 256 ^ (a + i - x.addr) % 256 else nthD b i 0) b

/-- The value that `n` bytes from an address have for a core. -/
def State.coreValue (s : State) (k : Core) (a n : Nat) : Nat := ofLe (overlayStores s.core[k].stores a (leBytes n (s.readVal a n)))

/-- An access that the fabric refuses: F1, and the pip is abandoned (R113, R468). -/
def State.refuseAccess (s : State) (k : Core) (a : Nat) : State := (s.raiseMod 0x0103 1 a).abandon k 3

/-- A load of `n` bytes: refused, failed by ECC, or taken with its value (R113, R114, R133, R134); `take` goes on with the value. -/
def State.loadWith (s : State) (k : Core) (f : MForm) (n : Nat) (dataEcc : EccSeen) (take : State → Nat → State) : State :=
  let c := s.core[k]
  let a := c.effAddr f
  if !c.logOk f then s.abandon k 1
  else if a % n ≠ 0 then s.abandon k 2
  else if s.readCode (.core k) a n ≠ 0 then s.refuseAccess k a
  else if hasEcc a && dataEcc == .double then
    (if inLocal k.val a n then (s.coreUncorr k a).abandon k 6 else s.abandon k 8)
  else
    let s := if hasEcc a && dataEcc == .single then (if inLocal k.val a n then s.coreCorr k a else s.corrAt a) else s
    take (s.afterRead a n) (s.coreValue k a n)

/-- A load instruction of `n` bytes that writes registers (Table PIP.3): from local memory they are there after the next cycle, from elsewhere
when the data arrives. -/
def State.pipLoad (s : State) (x : PipAt) (f : MForm) (n : Nat) (dest : List Nat) (legal : Bool) (dataEcc : EccSeen)
    (writes : Nat → List (Nat × Nat)) (half : Option Bool) : State :=
  s.pipFrame x f.cond (addrRegs f ++ dest) (legal && mModeOk f) true fun s =>
    let k := x.core
    s.loadWith k f n dataEcc fun t v =>
      let near := inLocal k.val (s.core[k].effAddr f) n
      t.modCore k fun c =>
        let c := c.stepA f
        let l : LoadDyn := ⟨writes v, half⟩
        let c := if near then c.landLoad l else { c with loads := c.loads ++ [l] }
        { c with cyc := c.cyc + 1, accBefore := [], loadedBefore := if near then dest else [] }.advance

/-- LD d, [ea]: 64 bits. -/
def execLd (x : PipAt) (f : MForm) (dataEcc : EccSeen) (s : State) : Out :=
  .next (s.pipLoad x f 8 [f.dt] (isDst f.dt) dataEcc (fun v => [(f.dt, v)]) none)

/-- LDW d, [ea]: 32 bits, sign-extended. -/
def execLdw (x : PipAt) (f : MForm) (dataEcc : EccSeen) (s : State) : Out :=
  .next (s.pipLoad x f 4 [f.dt] (isD f.dt) dataEcc (fun v => [(f.dt, ofS 64 (toS 32 v))]) none)

/-- LDH d.x, [ea]: 32 bits into one half. -/
def execLdh (x : PipAt) (f : MForm) (dataEcc : EccSeen) (s : State) : Out :=
  .next (s.pipLoad x f 4 [f.dt] (isD f.dt) dataEcc (fun v => [(f.dt, v)]) (some f.hd))

/-- LDQ d, [ea]: 128 bits into d and d + 1. -/
def execLdq (x : PipAt) (f : MForm) (dataEcc : EccSeen) (s : State) : Out :=
  .next (s.pipLoad x f 16 [f.dt, f.dt + 1] (isD f.dt && f.dt != 31) dataEcc
    (fun v => [(f.dt, v % 2 ^ 64), (f.dt + 1, v / 2 ^ 64 % 2 ^ 64)]) none)

/-- MACL4 [ea], DT.y: four lanes of own local memory, then as MAC4 with DT.y; modes 0 to 2. -/
def execMacl4 (x : PipAt) (f : MForm) (dataEcc : EccSeen) (s : State) : Out :=
  .next (s.pipFrame x f.cond (addrRegs f ++ [f.dt]) (f.amode ≤ 2 && isD f.dt) true fun s =>
    let k := x.core
    let a := s.core[k].effAddr f
    if s.core[k].logOk f && a % 16 == 0 && !inLocal k.val a 16 then s.refuseAccess k a
    else
      s.loadWith k f 16 dataEcc fun t v =>
        t.modCore k fun c =>
          let y := laneS (c.dreg f.dt) f.hd
          let c := { c.stepA f with cyc := c.cyc + 1, accBefore := [], loadedBefore := [] }
          (c.acc4 (fun a p => a + p) (v % 2 ^ 64) (v / 2 ^ 64 % 2 ^ 64) y).advance)

/-! Stores. -/

/-- Whether a core may store `n` bytes at an address (R113): own local memory, granted banks and register blocks. -/
def State.coreMayStore (s : State) (k : Core) (a n : Nat) : Bool :=
  match placeOf a with
  | .unmapped => false
  | .beyond => false
  | .graph => false
  | _ => s.mayReach (.core k) true a n

/-- A store instruction of `n` bytes (R114, R115, R127): into own local memory at once, else posted. -/
def State.pipStore (s : State) (x : PipAt) (f : MForm) (n : Nat) (codes : List Nat) (legal : Bool) (data : CoreDyn → Nat) : State :=
  s.pipFrame x f.cond (addrRegs f ++ codes) (legal && mModeOk f) true fun s =>
    let k := x.core
    let c := s.core[k]
    let a := c.effAddr f
    let v := data c
    if !c.logOk f then s.abandon k 1
    else if a % n ≠ 0 then s.abandon k 2
    else if !s.coreMayStore k a n then s.refuseAccess k a
    else
      let near := inLocal k.val a n
      let s := if near then s.wr a n v else s
      s.modCore k fun c =>
        let c := c.stepA f
        let c := if near then c else { c with stores := c.stores ++ [⟨a, n, v⟩] }
        { c with cyc := c.cyc + 1, accBefore := [], loadedBefore := [] }.advance

/-- ST [ea], d: 64 bits. -/
def execSt (x : PipAt) (f : MForm) (s : State) : Out :=
  .next (s.pipStore x f 8 [f.dt] (isSrc f.dt) fun c => c.reg x.core f.dt)

/-- STH [ea], d.x: 32 bits. -/
def execSth (x : PipAt) (f : MForm) (s : State) : Out :=
  .next (s.pipStore x f 4 [f.dt] (isD f.dt) fun c => lane (c.dreg f.dt) f.hd)

/-- STQ [ea], d: 128 bits of d and d + 1. -/
def execStq (x : PipAt) (f : MForm) (s : State) : Out :=
  .next (s.pipStore x f 16 [f.dt, f.dt + 1] (isD f.dt && f.dt != 31) fun c => c.dreg f.dt + c.dreg (f.dt + 1) * 2 ^ 64)

/-- The size of a posted store as an access. -/
def StoreDyn.acc (x : StoreDyn) : AccSize := if x.size = 4 then .b4 else if x.size = 16 then .b16 else .b8

/-- A posted store taking effect at its target. -/
def State.landStore (s : State) (k : Core) (x : StoreDyn) : State :=
  match placeOf x.addr with
  | .block _ _ => (s.writeWords (.core k) 0 (accWords x.acc x.addr x.data)).1
  | _ => s.wr x.addr x.size x.data

/-- STORE_ACCEPTED (R115, R127): the oldest posted store of a core is accepted and takes effect; with none left a POST, DONE or FENCE that
waits goes on. -/
def execStoreAccepted (c : Core) (s : State) : Out :=
  match s.core[c].stores with
  | [] => .next s
  | x :: t =>
    let s := (s.modCore c fun y => { y with stores := t }).landStore c x
    if s.core[c].stores.isEmpty then .next ((s.afterStores c s.core[c].wait).showPc c) else .next s

end Sys2Proof.Machine
end

