-- ==== Sys2Proof/Machine/PowerUp.lean ====
section
/-!
DEFINITION. Machine/PowerUp.lean: presence, feeds, power-fail, the power sequencer, reset, straps and the test access port (R35, R41 to R62,
R476).
-/

namespace Sys2Proof.Machine

/-! The Rind (R476). -/

/-- Register words that fuses or pins hold: SYS_STRAP's live levels and IMG_KEYHk. -/
def fixedWord (key : Nat) : Bool := [0x50, 0x20020, 0x20028, 0x20030, 0x20038].contains (key / 64 * 8)

/-- Everything lost with the Rind's supply (R53, R62, R449, R465): flash, fuses and the pins' levels stay. -/
def State.rindLost (s : State) : State :=
  { State.reset with pending := s.pending, draws := s.draws, regs := s.regs.filter fun x => fixedWord x.1,
                     boot := { BootDyn.reset with slotA := s.boot.slotA, slotB := s.boot.slotB, resetLow := s.boot.resetLow } }

/-- RIND_START (R476, R53): an empty log, counters clear, PFAIL set. -/
def execRindStart (s : State) : Out :=
  if s.boot.rind then .next s
  else .next ((((s.rindLost.modBoot fun b => { b with rind := true }).set R.PWR_STAT_PFAIL 1).set R.NET_MAC_MAC factoryMac))

/-- RIND_DROPOUT (R476). -/
def execRindDropout (s : State) : Out := .next s.rindLost

/-! Presence (R35, R59, R60). -/

/-- PRESENCE_RECOGNISED (R35, R59): with a stable intake the power sequencer starts. -/
def execPresenceRecognised (s : State) : Out :=
  if !s.boot.rind then .next s else
  let s := (s.set R.PWR_STAT_PRESENT 1).set R.SYS_STRAP_PRES0 1
  .next (s.set R.SYS_STRAP_PRES1 1).startSequence

/-- REMOVAL_RECOGNISED (R35, R60): the leave sequence. At least one contact reads high; which is a free value. -/
def execRemovalRecognised (s : State) : Out :=
  if !s.boot.rind || !s.on R.PWR_STAT_PRESENT then .next s else
  let f := s.free % 3
  let s := ((s.drawn.set R.PWR_STAT_PRESENT 0).set R.SYS_STRAP_PRES0 (f % 2)).set R.SYS_STRAP_PRES1 (f / 2)
  .next (s.leaveFor false).forgive

/-- DEPARTURE_NOTICE (R60, R359): once on each linked port, with the cause that began the sequence. -/
def execDepartureNotice (s : State) : Out :=
  if !s.leaving || s.boot.departed || !s.domOn 3 then .next s else
  let byPower := s.boot.pfailed && !s.boot.removed
  .next ((s.broadcast (.depart (if byPower then 2 else 1))).modBoot fun b => { b with departed := true })

/-- SWITCHED_DOMAINS_OFF (R60): the end of the leave sequence; after a power-fail an intake that is stable again starts the module. -/
def execSwitchedDomainsOff (s : State) : Out := .next (if s.leaving then s.domainsOff.startSequence else s)

/-! Feeds (R48 to R52). -/

def State.feed (s : State) (f : Fin 2) : FeedDyn := if f = 0 then s.boot.feedA else s.boot.feedB

def State.modFeed (s : State) (f : Fin 2) (g : FeedDyn → FeedDyn) : State :=
  s.modBoot fun b => if f = 0 then { b with feedA := g b.feedA } else { b with feedB := g b.feedB }

/-- Registers of a feed: VALID, ACT, LOST, LOSS. -/
def feedFields (f : Fin 2) : Fld × Fld × Fld × Fld :=
  if f = 0 then (R.PWR_STAT_FA_VALID, R.PWR_STAT_FA_ACT, R.PWR_STAT_FA_LOST, R.PWR_CNT_FA_LOSS)
  else (R.PWR_STAT_FB_VALID, R.PWR_STAT_FB_ACT, R.PWR_STAT_FB_LOST, R.PWR_CNT_FB_LOSS)

/-- FA_ACT and FB_ACT (R49): a single valid feed conducts; how two share the load is not specified, so their bits are free values. -/
def State.feedActs (s : State) : State :=
  let a := s.boot.feedA.valid
  let b := s.boot.feedB.valid
  if a && b then
    let f := s.free
    (s.drawn.set R.PWR_STAT_FA_ACT (f % 2)).set R.PWR_STAT_FB_ACT (f / 2 % 2)
  else (s.setB R.PWR_STAT_FA_ACT a).setB R.PWR_STAT_FB_ACT b

/-- A fault of module scope told through the fault engine, or by the Rind alone while FAB is off. -/
def State.rindRaise (s : State) (code sev detail : Nat) : State :=
  if s.domOn 0 then s.raiseMod code sev detail else s.rindLog code sev detail

/-- FEED_VALID (R48). -/
def execFeedValid (f : Fin 2) (s : State) : Out :=
  if !s.boot.rind || (s.feed f).isOpen then .next s
  else .next (((s.modFeed f fun x => { x with valid := true }).set (feedFields f).1 1).feedActs)

/-- A feed no longer valid (R48, R51): counted, and with the other stable told as FEEDLOST. -/
def State.feedOut (s : State) (f : Fin 2) : State :=
  if !(s.feed f).valid then s else
  let r := feedFields f
  let s := (s.modFeed f fun x => { x with valid := false, stable := false }).set r.1 0
  let s := (s.bump r.2.2.2).feedActs
  if (s.feed (1 - f)).stable then
    ((s.set r.2.2.1 1).modFeed f fun x => { x with lost := true }).rindRaise 0x0201 1 f.val
  else if (s.feed (1 - f)).valid then s
  else s.forgive

/-- FEED_INVALID (R48, R51). -/
def execFeedInvalid (f : Fin 2) (s : State) : Out := .next (s.feedOut f)

/-- FEED_STABLE (R48, R51, R59): a loss told before is told over; with presence the sequencer starts. -/
def execFeedStable (f : Fin 2) (s : State) : Out :=
  if !(s.feed f).valid then .next s else
  let back := (s.feed f).lost
  let s := s.modFeed f fun x => { x with stable := true, lost := false }
  let s := if back then s.rindRaise 0x0202 0 f.val else s
  .next s.startSequence

/-- FEED_CURRENT_LIMIT (R50): the feed's path opens, and it does not count as valid. -/
def execFeedCurrentLimit (f : Fin 2) (s : State) : Out := .next ((s.feedOut f).modFeed f fun x => { x with isOpen := true })

/-- FEED_RETRY (R50): the path closes again. -/
def execFeedRetry (f : Fin 2) (s : State) : Out := .next (s.modFeed f fun x => { x with isOpen := false })

/-- POWER_FAIL (R52): the leave sequence with power failure as its cause; no feed is stable. -/
def execPowerFail (s : State) : Out :=
  if !s.boot.rind then .next s else
  let s := s.leaveFor true
  .next ((s.modFeed 0 fun x => { x with stable := false }).modFeed 1 fun x => { x with stable := false })

/-! The power sequencer (R55 to R57). -/

/-- POWER_SEQUENCE_STEP (R55): 100 µs after the domain before it, the next domain is switched on, if that one is ready. -/
def execPowerSequenceStep (s : State) : Out :=
  let b := s.boot
  .next (if 1 ≤ b.seq && b.seq ≤ 7 && b.ready && !s.leaving then s.modBoot fun b => { b with seq := b.seq + 1, ready := false } else s)

/-- DOMAIN_READY (R55, R57): the domain switched on last is ready; after SNB, INTAKE starts unless RESET_N is low. -/
def execDomainReady (d : Fin 8) (s : State) : Out :=
  let b := s.boot
  if b.seq != d.val + 1 || b.ready || s.leaving then .next s else
  let s := (s.putBit R.PWR_STAT_DOM_ON d.val true).modBoot fun b => { b with ready := true }
  let s := if d.val = 5 then s.fieldOn else s.coreLevels
  if d.val != 7 then .next s
  else
    let s := s.modBoot fun b => { b with seq := 9, retries := 0 }
    .next (if s.boot.resetLow then s else s.beginIntake)

/-- DOMAIN_READY_TIMEOUT (R56): every domain off; the sequence repeats after 10 ms, or after the third failed retry the module stays in the
Rind with F5 PWRUPFAIL. -/
def execDomainReadyTimeout (s : State) : Out :=
  let b := s.boot
  if b.seq = 0 || 9 ≤ b.seq || b.ready || s.leaving then .next s else
  let s := ((s.domainsOff).set R.PWR_STAT_LAST_FAIL_DOM b.seq).set R.PWR_STAT_PWRUP_RETRY 1
  .next (if b.retries = 3 then (s.modBoot fun b => { b with failed := true }).rindLog 0x0205 5 b.seq
         else s.modBoot fun b => { b with waitRetry := true })

/-- POWER_UP_RETRY (R56): the whole sequence again, 10 ms later. -/
def execPowerUpRetry (s : State) : Out :=
  .next (if s.boot.waitRetry && s.inserted then
           s.modBoot fun b => { b with waitRetry := false, retries := b.retries + 1, seq := 1, ready := false } else s)

/-! Reset and straps (R41, R42, R57). -/

/-- RESET_ASSERTED (R41): the switched domains are held in reset; the sequence carries on (R57); FL_VDD off (R39). -/
def execResetAsserted (s : State) : Out :=
  if !s.boot.rind then .next (s.modBoot fun b => { b with resetLow := true })
  else
    let s := s.releaseToken false
    .next (s.clearDomains.modBoot fun b => { b with resetLow := true, flOn := false })

/-- RESET_RELEASED (R41, R56, R57): INTAKE starts once every domain is on; a module that sleeps or has failed runs the power sequence. -/
def execResetReleased (s : State) : Out :=
  if !s.boot.resetLow then .next s else
  let s := (s.modBoot fun b => { b with resetLow := false }).forgive
  .next (if s.leaving then s else if s.boot.seq = 9 then s.beginIntake else s.startSequence)

/-- STRAP_CHANGE (R42): STRAP_CHG and F0 on the first sample that differs from the latched value. -/
def execStrapChange (addr rank : Nat) (s : State) : Out :=
  let same := fun (s : State) => s.get R.SYS_STRAP_ADDR_LIVE == s.get R.SYS_STRAP_ADDR && s.get R.SYS_STRAP_RANK_LIVE == s.get R.SYS_STRAP_RANK
  let was := same s
  let s := (s.set R.SYS_STRAP_ADDR_LIVE addr).set R.SYS_STRAP_RANK_LIVE rank
  if was && !same s && s.boot.seq == 9 then .next ((s.set R.SYS_STRAP_STRAP_CHG 1).raiseMod 0x0106 0) else .next s

/-! The test access port (R45, R46, Table PIN.11). -/

/-- SERVICE instructions act in SERVICE with SVCMODE 2 (R46, R95). -/
def State.tapService (s : State) : Bool := s.dev == 4 && s.get R.SYS_CFG_SVCMODE == 2

/-- An instruction loaded: outside its permitted states it acts as BYPASS, with an F0 notice. -/
def State.tapLoad (s : State) (ir : Nat) (service : Bool) : State :=
  let bad := service && !s.tapService
  let s := s.modBoot fun b => { b with tapIr := ir % 256, tapEff := if bad then 0xFF else ir % 256, tapIdle := false }
  if bad then s.rindRaise 0x0401 0 ir else s

/-- TAP_RESET (R45): the instruction register holds IDCODE. -/
def execTapReset (s : State) : Out := .next (s.modBoot fun b => { b with tapIr := 1, tapEff := 1, tapIdle := true })

/-- TAP_EXTEST (R46). -/
def execTapExtest (s : State) : Out := .next (s.tapLoad 0 true)

/-- What IDCODE reads (R46). -/
def idcode : Nat := 0x0162414B

/-- TAP_IDCODE (R46): `idcode` stands in the data register. -/
def execTapIdcode (s : State) : Out := .next (s.tapLoad 1 false)

/-- TAP_SAMPLE_PRELOAD (R45): the pins are sampled and the cells preloaded with what is shifted in. -/
def execTapSamplePreload (pins shifted : List Bool) (s : State) : Out :=
  .next ((s.tapLoad 2 false).modBoot fun b => { b with bsr := if shifted.isEmpty then pins else shifted })

/-- TAP_HIGHZ (R46). -/
def execTapHighz (s : State) : Out := .next (s.tapLoad 4 true)

/-- TAP_CLAMP (R46). -/
def execTapClamp (s : State) : Out := .next (s.tapLoad 5 true)

/-- TAP_BYPASS (R45): its own code, or any that is not supported. -/
def execTapBypass (code : Nat) (s : State) : Out :=
  if [0, 1, 2, 4, 5].contains (code % 256) then .next s else .next (s.tapLoad code false |>.modBoot fun b => { b with tapEff := 0xFF })

end Sys2Proof.Machine
end

