-- ==== Sys2Proof/Machine/Dispatch.lean ====
section
/-!
DEFINITION. Machine/Dispatch.lean: one arm per command, each one direct call of its meaning.
-/

namespace Sys2Proof.Machine

def exec (i : Instr) (s : State) : Host.Outcome State Fault Refusal :=
  match i with
  | .registerWrite who sz addr value => Sys2Proof.Machine.execRegisterWrite who sz addr value s
  | .ptpTime0Read => Sys2Proof.Machine.execPtpTime0Read s
  | .sliceLinkFlit link toControl seq crcOk load => Sys2Proof.Machine.execSliceLinkFlit link toControl seq crcOk load s
  | .linkRetrainComplete link => Sys2Proof.Machine.execLinkRetrainComplete link s
  | .sliceLinkWatchdog die => Sys2Proof.Machine.execSliceLinkWatchdog die s
  | .fabricAccess who write sz addr value ecc => Sys2Proof.Machine.execFabricAccess who write sz addr value ecc s
  | .sramScrub bank ecc => Sys2Proof.Machine.execSramScrub bank ecc s
  | .localMemoryScrub core ecc => Sys2Proof.Machine.execLocalMemoryScrub core ecc s
  | .presenceRecognised => Sys2Proof.Machine.execPresenceRecognised s
  | .removalRecognised => Sys2Proof.Machine.execRemovalRecognised s
  | .departureNotice => Sys2Proof.Machine.execDepartureNotice s
  | .switchedDomainsOff => Sys2Proof.Machine.execSwitchedDomainsOff s
  | .resetAsserted => Sys2Proof.Machine.execResetAsserted s
  | .resetReleased => Sys2Proof.Machine.execResetReleased s
  | .strapChange addr rank => Sys2Proof.Machine.execStrapChange addr rank s
  | .flashSupplyLimit => Sys2Proof.Machine.execFlashSupplyLimit s
  | .tapReset => Sys2Proof.Machine.execTapReset s
  | .tapExtest => Sys2Proof.Machine.execTapExtest s
  | .tapIdcode => Sys2Proof.Machine.execTapIdcode s
  | .tapSamplePreload pins shifted => Sys2Proof.Machine.execTapSamplePreload pins shifted s
  | .tapHighz => Sys2Proof.Machine.execTapHighz s
  | .tapClamp => Sys2Proof.Machine.execTapClamp s
  | .tapBypass code => Sys2Proof.Machine.execTapBypass code s
  | .rindStart => Sys2Proof.Machine.execRindStart s
  | .rindDropout => Sys2Proof.Machine.execRindDropout s
  | .feedValid feed => Sys2Proof.Machine.execFeedValid feed s
  | .feedInvalid feed => Sys2Proof.Machine.execFeedInvalid feed s
  | .feedStable feed => Sys2Proof.Machine.execFeedStable feed s
  | .feedCurrentLimit feed => Sys2Proof.Machine.execFeedCurrentLimit feed s
  | .feedRetry feed => Sys2Proof.Machine.execFeedRetry feed s
  | .powerFail => Sys2Proof.Machine.execPowerFail s
  | .powerSequenceStep => Sys2Proof.Machine.execPowerSequenceStep s
  | .domainReady dom => Sys2Proof.Machine.execDomainReady dom s
  | .domainReadyTimeout => Sys2Proof.Machine.execDomainReadyTimeout s
  | .powerUpRetry => Sys2Proof.Machine.execPowerUpRetry s
  | .intakeStepDone o => Sys2Proof.Machine.execIntakeStepDone o s
  | .intakeTimeout => Sys2Proof.Machine.execIntakeTimeout s
  | .flashBurstTimeout => Sys2Proof.Machine.execFlashBurstTimeout s
  | .erase slot => Sys2Proof.Machine.execErase slot s
  | .program slot offset pages => Sys2Proof.Machine.execProgram slot offset pages s
  | .verify slot => Sys2Proof.Machine.execVerify slot s
  | .retire => Sys2Proof.Machine.execRetire s
  | .abort => Sys2Proof.Machine.execAbort s
  | .keyfuse => Sys2Proof.Machine.execKeyfuse s
  | .imageUpdateComplete flashOk => Sys2Proof.Machine.execImageUpdateComplete flashOk s
  | .sysRun => Sys2Proof.Machine.execSysRun s
  | .sysHold => Sys2Proof.Machine.execSysHold s
  | .sysService => Sys2Proof.Machine.execSysService s
  | .leaveService => Sys2Proof.Machine.execLeaveService s
  | .restart => Sys2Proof.Machine.execRestart s
  | .enable n => Sys2Proof.Machine.execEnable n s
  | .stop n => Sys2Proof.Machine.execStop n s
  | .quickStop n => Sys2Proof.Machine.execQuickStop n s
  | .disable n => Sys2Proof.Machine.execDisable n s
  | .clear n => Sys2Proof.Machine.execClear n s
  | .enableStepDone n o => Sys2Proof.Machine.execEnableStepDone n o s
  | .bootstrapPrechargeStart => Sys2Proof.Machine.execBootstrapPrechargeStart s
  | .prechargePhase n o => Sys2Proof.Machine.execPrechargePhase n o s
  | .sliceStart => Sys2Proof.Machine.execSliceStart s
  | .fieldGroupEnable => Sys2Proof.Machine.execFieldGroupEnable s
  | .mov x f => Sys2Proof.Machine.execMov x f s
  | .movi x f => Sys2Proof.Machine.execMovi x f s
  | .movhi x f => Sys2Proof.Machine.execMovhi x f s
  | .swap x f => Sys2Proof.Machine.execSwap x f s
  | .ext x f => Sys2Proof.Machine.execExt x f s
  | .ins x f => Sys2Proof.Machine.execIns x f s
  | .movis x f => Sys2Proof.Machine.execMovis x f s
  | .add x f => Sys2Proof.Machine.execAdd x f s
  | .sub x f => Sys2Proof.Machine.execSub x f s
  | .addi x f => Sys2Proof.Machine.execAddi x f s
  | .cmp x f => Sys2Proof.Machine.execCmp x f s
  | .cmpi x f => Sys2Proof.Machine.execCmpi x f s
  | .neg x f => Sys2Proof.Machine.execNeg x f s
  | .abs x f => Sys2Proof.Machine.execAbs x f s
  | .min x f => Sys2Proof.Machine.execMin x f s
  | .max x f => Sys2Proof.Machine.execMax x f s
  | .clamp x f => Sys2Proof.Machine.execClamp x f s
  | .and x f => Sys2Proof.Machine.execAnd x f s
  | .or x f => Sys2Proof.Machine.execOr x f s
  | .xor x f => Sys2Proof.Machine.execXor x f s
  | .not x f => Sys2Proof.Machine.execNot x f s
  | .shl x f => Sys2Proof.Machine.execShl x f s
  | .asr x f => Sys2Proof.Machine.execAsr x f s
  | .lsr x f => Sys2Proof.Machine.execLsr x f s
  | .cls x f => Sys2Proof.Machine.execCls x f s
  | .add2 x f => Sys2Proof.Machine.execAdd2 x f s
  | .sub2 x f => Sys2Proof.Machine.execSub2 x f s
  | .negh x f => Sys2Proof.Machine.execNegh x f s
  | .qmul2 x f => Sys2Proof.Machine.execQmul2 x f s
  | .mull x f => Sys2Proof.Machine.execMull x f s
  | .mul x f => Sys2Proof.Machine.execMul x f s
  | .sincos x f => Sys2Proof.Machine.execSincos x f s
  | .vlim x f => Sys2Proof.Machine.execVlim x f s
  | .mac1 x f => Sys2Proof.Machine.execMac1 x f s
  | .msu1 x f => Sys2Proof.Machine.execMsu1 x f s
  | .mac1z x f => Sys2Proof.Machine.execMac1z x f s
  | .mac4 x f => Sys2Proof.Machine.execMac4 x f s
  | .msu4 x f => Sys2Proof.Machine.execMsu4 x f s
  | .mac4z x f => Sys2Proof.Machine.execMac4z x f s
  | .macl4 x f dataEcc => Sys2Proof.Machine.execMacl4 x f dataEcc s
  | .mva x f => Sys2Proof.Machine.execMva x f s
  | .mvaw x f => Sys2Proof.Machine.execMvaw x f s
  | .lda x f => Sys2Proof.Machine.execLda x f s
  | .clra x f => Sys2Proof.Machine.execClra x f s
  | .anrm x f => Sys2Proof.Machine.execAnrm x f s
  | .snrm x f => Sys2Proof.Machine.execSnrm x f s
  | .saln x f => Sys2Proof.Machine.execSaln x f s
  | .maxi x f => Sys2Proof.Machine.execMaxi x f s
  | .mini x f => Sys2Proof.Machine.execMini x f s
  | .maxai x f => Sys2Proof.Machine.execMaxai x f s
  | .ld x f dataEcc => Sys2Proof.Machine.execLd x f dataEcc s
  | .ldw x f dataEcc => Sys2Proof.Machine.execLdw x f dataEcc s
  | .ldh x f dataEcc => Sys2Proof.Machine.execLdh x f dataEcc s
  | .ldq x f dataEcc => Sys2Proof.Machine.execLdq x f dataEcc s
  | .st x f => Sys2Proof.Machine.execSt x f s
  | .sth x f => Sys2Proof.Machine.execSth x f s
  | .stq x f => Sys2Proof.Machine.execStq x f s
  | .br x f => Sys2Proof.Machine.execBr x f s
  | .call x f => Sys2Proof.Machine.execCall x f s
  | .jmp x f => Sys2Proof.Machine.execJmp x f s
  | .rep x f => Sys2Proof.Machine.execRep x f s
  | .post x f => Sys2Proof.Machine.execPost x f s
  | .done x f => Sys2Proof.Machine.execDone x f s
  | .nop x f => Sys2Proof.Machine.execNop x f s
  | .brk x f => Sys2Proof.Machine.execBrk x f s
  | .fence x f => Sys2Proof.Machine.execFence x f s
  | .loadDataArrival c => Sys2Proof.Machine.execLoadDataArrival c s
  | .storeAccepted c => Sys2Proof.Machine.execStoreAccepted c s
  | .halt c => Sys2Proof.Machine.execHalt c s
  | .resume c => Sys2Proof.Machine.execResume c s
  | .step c => Sys2Proof.Machine.execStep c s
  | .coreDebugHalted c place => Sys2Proof.Machine.execCoreDebugHalted c place s
  | .schedulerTick => Sys2Proof.Machine.execSchedulerTick s
  | .delayRelease p => Sys2Proof.Machine.execDelayRelease p s
  | .deadlineMiss p => Sys2Proof.Machine.execDeadlineMiss p s
  | .pipOverrun c => Sys2Proof.Machine.execPipOverrun c s
  | .pipRuntimeExpiry c => Sys2Proof.Machine.execPipRuntimeExpiry c s
  | .currentSample n => Sys2Proof.Machine.execCurrentSample n s
  | .isampleSet n conv => Sys2Proof.Machine.execIsampleSet n conv s
  | .vsampleSet n avg count => Sys2Proof.Machine.execVsampleSet n avg count s
  | .overcurrentTrip n leg negative => Sys2Proof.Machine.execOvercurrentTrip n leg negative s
  | .tripReleaseQualified n leg => Sys2Proof.Machine.execTripReleaseQualified n leg s
  | .switchNodeCheckFail n leg => Sys2Proof.Machine.execSwitchNodeCheckFail n leg s
  | .startSequencerCycle n o => Sys2Proof.Machine.execStartSequencerCycle n o s
  | .listenElapsed n o => Sys2Proof.Machine.execListenElapsed n o s
  | .brakeTime n => Sys2Proof.Machine.execBrakeTime n s
  | .syncCyclesComplete n => Sys2Proof.Machine.execSyncCyclesComplete n s
  | .alignComplete n => Sys2Proof.Machine.execAlignComplete n s
  | .forcedLockHeld n => Sys2Proof.Machine.execForcedLockHeld n s
  | .lockTimeout n => Sys2Proof.Machine.execLockTimeout n s
  | .blendComplete n => Sys2Proof.Machine.execBlendComplete n s
  | .fallback n => Sys2Proof.Machine.execFallback n s
  | .obsLoss n => Sys2Proof.Machine.execObsLoss n s
  | .coastComplete n => Sys2Proof.Machine.execCoastComplete n s
  | .slobsStale n => Sys2Proof.Machine.execSlobsStale n s
  | .carrierBoundary n trim cal => Sys2Proof.Machine.execCarrierBoundary n trim cal s
  | .shadowWrite n window word value => Sys2Proof.Machine.execShadowWrite n window word value s
  | .shadowStageWrite n word value => Sys2Proof.Machine.execShadowStageWrite n word value s
  | .commit n tgt => Sys2Proof.Machine.execCommit n tgt s
  | .delayLineCalibration die => Sys2Proof.Machine.execDelayLineCalibration die s
  | .vdrvUndervoltage die => Sys2Proof.Machine.execVdrvUndervoltage die s
  | .vdrvRecovered die => Sys2Proof.Machine.execVdrvRecovered die s
  | .bootstrapUndervoltage n leg => Sys2Proof.Machine.execBootstrapUndervoltage n leg s
  | .bootstrapRecovered n leg heldUs => Sys2Proof.Machine.execBootstrapRecovered n leg heldUs s
  | .bootuvPersistent n leg => Sys2Proof.Machine.execBootuvPersistent n leg s
  | .haltGuard n => Sys2Proof.Machine.execHaltGuard n s
  | .sliceResume n passed => Sys2Proof.Machine.execSliceResume n passed s
  | .chopperOn k v => Sys2Proof.Machine.execChopperOn k v s
  | .chopperOff k v => Sys2Proof.Machine.execChopperOff k v s
  | .chopperCheck k chi v => Sys2Proof.Machine.execChopperCheck k chi v s
  | .regenEntry k v => Sys2Proof.Machine.execRegenEntry k v s
  | .regenRelease k v => Sys2Proof.Machine.execRegenRelease k v s
  | .activeShortEntry k v => Sys2Proof.Machine.execActiveShortEntry k v s
  | .activeShortRelease k v => Sys2Proof.Machine.execActiveShortRelease k v s
  | .busAbsEntry k v => Sys2Proof.Machine.execBusAbsEntry k v s
  | .busAbsRelease k v => Sys2Proof.Machine.execBusAbsRelease k v s
  | .backstop k => Sys2Proof.Machine.execBackstop k s
  | .backstopEnd => Sys2Proof.Machine.execBackstopEnd s
  | .busuv k => Sys2Proof.Machine.execBusuv k s
  | .quadratureEdge n a b => Sys2Proof.Machine.execQuadratureEdge n a b s
  | .indexEvent n stamp => Sys2Proof.Machine.execIndexEvent n stamp s
  | .hallChange n h => Sys2Proof.Machine.execHallChange n h s
  | .wireFault n => Sys2Proof.Machine.execWireFault n s
  | .sincosConversion n a b => Sys2Proof.Machine.execSincosConversion n a b s
  | .sincosCorrectionUpdate n offA offB gain phase => Sys2Proof.Machine.execSincosCorrectionUpdate n offA offB gain phase s
  | .servoCapture n o => Sys2Proof.Machine.execServoCapture n o s
  | .serialFrameComplete n r => Sys2Proof.Machine.execSerialFrameComplete n r s
  | .arm n => Sys2Proof.Machine.execArm n s
  | .disarm n => Sys2Proof.Machine.execDisarm n s
  | .fbvalidWaitElapsed n => Sys2Proof.Machine.execFbvalidWaitElapsed n s
  | .fbvalidTimeout n => Sys2Proof.Machine.execFbvalidTimeout n s
  | .ev5CurrentLimit n => Sys2Proof.Machine.execEv5CurrentLimit n s
  | .ev5Retry n => Sys2Proof.Machine.execEv5Retry n s
  | .servoBoundary n => Sys2Proof.Machine.execServoBoundary n s
  | .svcmd1Write n seq => Sys2Proof.Machine.execSvcmd1Write n seq s
  | .supervisionStep n emfLow => Sys2Proof.Machine.execSupervisionStep n emfLow s
  | .cmdstale n => Sys2Proof.Machine.execCmdstale n s
  | .stoptime n => Sys2Proof.Machine.execStoptime n s
  | .move n ssw ssel probe => Sys2Proof.Machine.execMove n ssw ssel probe s
  | .moveRel n ssw ssel probe => Sys2Proof.Machine.execMoveRel n ssw ssel probe s
  | .jog n negative => Sys2Proof.Machine.execJog n negative s
  | .home n => Sys2Proof.Machine.execHome n s
  | .homeAbort n => Sys2Proof.Machine.execHomeAbort n s
  | .hardstopReference n => Sys2Proof.Machine.execHardstopReference n s
  | .stepHoldCurrent n => Sys2Proof.Machine.execStepHoldCurrent n s
  | .stall n => Sys2Proof.Machine.execStall n s
  | .fire k => Sys2Proof.Machine.execFire k s
  | .go g ssw ssel => Sys2Proof.Machine.execGo g ssw ssel s
  | .groupHold g => Sys2Proof.Machine.execGroupHold g s
  | .groupResume g => Sys2Proof.Machine.execGroupResume g s
  | .groupAbort g => Sys2Proof.Machine.execGroupAbort g s
  | .append g napp => Sys2Proof.Machine.execAppend g napp s
  | .frameReceived p f => Sys2Proof.Machine.execFrameReceived p f s
  | .pauseRefresh p => Sys2Proof.Machine.execPauseRefresh p s
  | .pauseReceived p r => Sys2Proof.Machine.execPauseReceived p r s
  | .pauseHoldExpiry p q => Sys2Proof.Machine.execPauseHoldExpiry p q s
  | .frameTransmitStart p stamp => Sys2Proof.Machine.execFrameTransmitStart p stamp s
  | .frameTransmitted p => Sys2Proof.Machine.execFrameTransmitted p s
  | .linkUp p speed pauseOk => Sys2Proof.Machine.execLinkUp p speed pauseOk s
  | .linkDown p => Sys2Proof.Machine.execLinkDown p s
  | .failoverRevert => Sys2Proof.Machine.execFailoverRevert s
  | .learnAgeout mac => Sys2Proof.Machine.execLearnAgeout mac s
  | .flush => Sys2Proof.Machine.execFlush s
  | .switch => Sys2Proof.Machine.execSwitch s
  | .arpRequest p f target => Sys2Proof.Machine.execArpRequest p f target s
  | .syncReceived r => Sys2Proof.Machine.execSyncReceived r s
  | .announceReceived r => Sys2Proof.Machine.execAnnounceReceived r s
  | .delayMessageReceived r => Sys2Proof.Machine.execDelayMessageReceived r s
  | .ptpMessageInterval p kind => Sys2Proof.Machine.execPtpMessageInterval p kind s
  | .syncTimeout => Sys2Proof.Machine.execSyncTimeout s
  | .announceTimeout => Sys2Proof.Machine.execAnnounceTimeout s
  | .timedrift => Sys2Proof.Machine.execTimedrift s
  | .ptpAdj ofs => Sys2Proof.Machine.execPtpAdj ofs s
  | .ptpSetsec sec => Sys2Proof.Machine.execPtpSetsec sec s
  | .syncInEdge stamp => Sys2Proof.Machine.execSyncInEdge stamp s
  | .syncInMissing => Sys2Proof.Machine.execSyncInMissing s
  | .refInLoss => Sys2Proof.Machine.execRefInLoss s
  | .refGate count => Sys2Proof.Machine.execRefGate count s
  | .rindTimeCopy => Sys2Proof.Machine.execRindTimeCopy s
  | .comparatorFire k => Sys2Proof.Machine.execComparatorFire k s
  | .syncOutPulseEnd => Sys2Proof.Machine.execSyncOutPulseEnd s
  | .burstSampleSet n conv => Sys2Proof.Machine.execBurstSampleSet n conv s
  | .launch p => Sys2Proof.Machine.execLaunch p s
  | .hpOpen q notify => Sys2Proof.Machine.execHpOpen q notify s
  | .hpClose q => Sys2Proof.Machine.execHpClose q s
  | .hpNop q => Sys2Proof.Machine.execHpNop q s
  | .hpRead q addr count => Sys2Proof.Machine.execHpRead q addr count s
  | .hpWrite q addr words => Sys2Proof.Machine.execHpWrite q addr words s
  | .hpWritem q addr writes => Sys2Proof.Machine.execHpWritem q addr writes s
  | .setpt q elements ackReq => Sys2Proof.Machine.execSetpt q elements ackReq s
  | .segment q g segs => Sys2Proof.Machine.execSegment q g segs s
  | .repcfg q cmp offset addrs => Sys2Proof.Machine.execRepcfg q cmp offset addrs s
  | .evack q nseq => Sys2Proof.Machine.execEvack q nseq s
  | .hpUnknownType q type => Sys2Proof.Machine.execHpUnknownType q type s
  | .noticeRetry session nseq => Sys2Proof.Machine.execNoticeRetry session nseq s
  | .sessionTimeout session => Sys2Proof.Machine.execSessionTimeout session s
  | .acqRowTaken c stamp ecc => Sys2Proof.Machine.execAcqRowTaken c stamp ecc s
  | .acqFlushTimeout c ecc => Sys2Proof.Machine.execAcqFlushTimeout c ecc s
  | .triggerTimer => Sys2Proof.Machine.execTriggerTimer s
  | .acqArm => Sys2Proof.Machine.execAcqArm s
  | .acqStop => Sys2Proof.Machine.execAcqStop s
  | .acqForce => Sys2Proof.Machine.execAcqForce s
  | .acqRunStart => Sys2Proof.Machine.execAcqRunStart s
  | .acqRunStop => Sys2Proof.Machine.execAcqRunStop s
  | .canFrameReceived c f => Sys2Proof.Machine.execCanFrameReceived c f s
  | .canTxStart c => Sys2Proof.Machine.execCanTxStart c s
  | .canTxComplete c r stamp => Sys2Proof.Machine.execCanTxComplete c r stamp s
  | .canBusError c kind tx mark => Sys2Proof.Machine.execCanBusError c kind tx mark s
  | .canBusoffRecovery c => Sys2Proof.Machine.execCanBusoffRecovery c s
  | .txreq c mask => Sys2Proof.Machine.execTxreq c mask s
  | .txabt c mask => Sys2Proof.Machine.execTxabt c mask s
  | .txdone c mask => Sys2Proof.Machine.execTxdone c mask s
  | .rxfull c h mask => Sys2Proof.Machine.execRxfull c h mask s
  | .canTxdTimeout => Sys2Proof.Machine.execCanTxdTimeout s
  | .canWakePattern => Sys2Proof.Machine.execCanWakePattern s
  | .canTtWindow c col => Sys2Proof.Machine.execCanTtWindow c col s
  | .canTtReferenceSend c => Sys2Proof.Machine.execCanTtReferenceSend c s
  | .canTtSyncLoss c => Sys2Proof.Machine.execCanTtSyncLoss c s
  | .fioInputEvent k level stamp => Sys2Proof.Machine.execFioInputEvent k level stamp s
  | .fioOpenWire k => Sys2Proof.Machine.execFioOpenWire k s
  | .fioChannelLatch k cause => Sys2Proof.Machine.execFioChannelLatch k cause s
  | .fioRetry k => Sys2Proof.Machine.execFioRetry k s
  | .fioClr mask => Sys2Proof.Machine.execFioClr mask s
  | .offPulseTest k readHigh => Sys2Proof.Machine.execOffPulseTest k readHigh s
  | .fioPwmPeriod k => Sys2Proof.Machine.execFioPwmPeriod k s
  | .fioCmpPulseEnd k => Sys2Proof.Machine.execFioCmpPulseEnd k s
  | .brakeDisbrkTimeout n => Sys2Proof.Machine.execBrakeDisbrkTimeout n s
  | .fieldSupplyWarning sup => Sys2Proof.Machine.execFieldSupplyWarning sup s
  | .fieldSupplyCutoff sup => Sys2Proof.Machine.execFieldSupplyCutoff sup s
  | .fieldSupplyRecovery sup => Sys2Proof.Machine.execFieldSupplyRecovery sup s
  | .wdkick value => Sys2Proof.Machine.execWdkick value s
  | .wdclr => Sys2Proof.Machine.execWdclr s
  | .fieldWatchdogExpiry => Sys2Proof.Machine.execFieldWatchdogExpiry s
  | .stoEngage offUs => Sys2Proof.Machine.execStoEngage offUs s
  | .stoReleaseRequest => Sys2Proof.Machine.execStoReleaseRequest s
  | .stoReleaseStep o => Sys2Proof.Machine.execStoReleaseStep o s
  | .torqueOffClear => Sys2Proof.Machine.execTorqueOffClear s
  | .stoOpenCheck o => Sys2Proof.Machine.execStoOpenCheck o s
  | .stoSwitchTest sw ok => Sys2Proof.Machine.execStoSwitchTest sw ok s
  | .stoInputDisagree => Sys2Proof.Machine.execStoInputDisagree s
  | .stoClockFailure => Sys2Proof.Machine.execStoClockFailure s
  | .stoFbMismatch => Sys2Proof.Machine.execStoFbMismatch s
  | .harsoLinkUp => Sys2Proof.Machine.execHarsoLinkUp s
  | .harsoLinkDown => Sys2Proof.Machine.execHarsoLinkDown s
  | .mirrorFrameSend => Sys2Proof.Machine.execMirrorFrameSend s
  | .mirrorFrameReceived f => Sys2Proof.Machine.execMirrorFrameReceived f s
  | .twinFrameTimeout k => Sys2Proof.Machine.execTwinFrameTimeout k s
  | .holdInChange level => Sys2Proof.Machine.execHoldInChange level s
  | .claim => Sys2Proof.Machine.execClaim s
  | .arbWindowEnd => Sys2Proof.Machine.execArbWindowEnd s
  | .tokenconf => Sys2Proof.Machine.execTokenconf s
  | .leaseExpiry => Sys2Proof.Machine.execLeaseExpiry s
  | .switchoverGapEnd => Sys2Proof.Machine.execSwitchoverGapEnd s
  | .reclaim => Sys2Proof.Machine.execReclaim s
  | .perfLevelChangeDone => Sys2Proof.Machine.execPerfLevelChangeDone s
  | .sleepS1 => Sys2Proof.Machine.execSleepS1 s
  | .sleepS2 => Sys2Proof.Machine.execSleepS2 s
  | .sleepS3 => Sys2Proof.Machine.execSleepS3 s
  | .sleepEntryComplete => Sys2Proof.Machine.execSleepEntryComplete s
  | .wakeEvent src window => Sys2Proof.Machine.execWakeEvent src window s
  | .wakeStepDone => Sys2Proof.Machine.execWakeStepDone s
  | .wakeStepTimeout => Sys2Proof.Machine.execWakeStepTimeout s
  | .wakeRetry => Sys2Proof.Machine.execWakeRetry s
  | .housekeepingSample readings => Sys2Proof.Machine.execHousekeepingSample readings s
  | .graceExpiry => Sys2Proof.Machine.execGraceExpiry s
  | .throttleStep zone => Sys2Proof.Machine.execThrottleStep zone s
  | .faultRecord records => Sys2Proof.Machine.execFaultRecord records s
  | .fltClear skind sindex => Sys2Proof.Machine.execFltClear skind sindex s
  | .illegalInstruction x word => Sys2Proof.Machine.execIllegalInstruction x word s
  | .freezeSwitchRead n => Sys2Proof.Machine.execFreezeSwitchRead n s
  | .ev5InRegulation n => Sys2Proof.Machine.execEv5InRegulation n s
  | .nsCarry => Sys2Proof.Machine.execNsCarry s
  | .fieldSupplyWarningClear sup => Sys2Proof.Machine.execFieldSupplyWarningClear sup s
  | .fioOpenWireClear k => Sys2Proof.Machine.execFioOpenWireClear k s

end Sys2Proof.Machine
end

