-- ==== Sys2Proof/Safety.lean ====
section
/-!
DEFINITION. Safety.lean: what holds of every state that a run reaches: the canonical forms of the register file, the memory and
the flash, and the limits that the spec sets to its lists.
-/

namespace Sys2Proof.Machine

/-- Keys of an association list rise strictly from a bound on. -/
def risingFrom {α : Type} : Nat → List (Nat × α) → Bool
  | _, [] => true
  | lo, (a, _) :: t => decide (lo ≤ a) && risingFrom (a + 1) t

/-- A memory list in its canonical form: addresses rise and no cell holds what an unlisted address reads as. -/
def Memory.wf (m : List Host.Cell) : Bool := risingFrom 0 m && m.all fun c => c.2 != 0

/-- A flash slot in its canonical form: addresses rise and no cell holds the erased byte. -/
def Flash.wf (m : List Host.Cell) : Bool := risingFrom 0 m && m.all fun c => c.2 != 255

/-- A register file in its canonical form: bit addresses rise. -/
def Regs.wf (r : List (Nat × Nat)) : Bool := risingFrom 0 r

/-- A session keeps at most 16 replies (R350) and 32 unacknowledged notices (R358). -/
def Session.wf (x : Session) : Bool := x.kept.length ≤ 16 && x.notices.length ≤ 32

/-- The invariant of the module. -/
structure Inv (s : State) : Prop where
  /-- the memory is canonical -/
  mem : Memory.wf s.mem = true
  /-- the register file is canonical -/
  regs : Regs.wf s.regs = true
  /-- flash slot A is canonical -/
  slotA : Flash.wf s.boot.slotA = true
  /-- flash slot B is canonical -/
  slotB : Flash.wf s.boot.slotB = true
  /-- the fault log holds at most 256 entries (R462) -/
  log : s.faults.log.length ≤ 256
  /-- the field die queues at most 16 records while its link is down (R455) -/
  queue : s.faults.fieldQueue.length ≤ 16
  /-- every session keeps at most 16 replies and 32 notices (R350, R358) -/
  sessions : s.host.sessions.all Session.wf = true
  /-- the learning table holds at most 1024 addresses (R309) -/
  learn : s.net.learn.length ≤ 1024
  /-- each launch queue holds at most 64 descriptors (R343) -/
  launch : ∀ p : Fin 3, s.net.ports[p].launch.length ≤ 64

end Sys2Proof.Machine
end

