-- ==== Sys2Proof/WellFormed.lean ====
section
/-!
DEFINITION. WellFormed.lean: which terms of Instr the module can meet: every operand within the width that the spec gives it. The meanings
take a wider operand modulo its width; statements name `Instr.wf` where that matters.
-/

namespace Sys2Proof

/-- A value fits an access size (R469). -/
def AccSize.fits (sz : AccSize) (v : Nat) : Bool :=
  match sz with
  | .b4 => v < 2 ^ 32
  | .b8 => v < 2 ^ 64
  | .b16 => v < 2 ^ 128

/-- The fields of an R-format word have their widths (Table PIP.7). -/
def RForm.wf (f : RForm) : Bool := f.cond < 16 && f.rm < 4 && f.dst < 64 && f.sa < 64 && f.sb < 64 && f.sh < 128

/-- The fields of an I-format word have their widths (Table PIP.7). -/
def IForm.wf (f : IForm) : Bool := f.cond < 16 && f.rm < 4 && f.dst < 64 && f.sa < 64 && f.imm < 2 ^ 32

/-- The fields of an M-format word have their widths (Table PIP.7). -/
def MForm.wf (f : MForm) : Bool := f.cond < 16 && f.rm < 4 && f.dt < 64 && f.areg < 8 && f.amode < 8 && f.oreg < 8 && f.disp < 2 ^ 30

/-- The fields of a B-format word have their widths (Table PIP.7). -/
def BForm.wf (f : BForm) : Bool := f.cond < 16 && f.creg < 64 && f.len < 64 && f.icount < 64 && f.offset < 2 ^ 32

/-- The header fields of a host frame have their widths (Table HPR.1). -/
def HpReq.wf (q : HpReq) : Bool := q.src < 2 ^ 48 && q.session < 2 ^ 16 && q.seq < 2 ^ 32

/-- A pair of a WRITEM is two words. -/
def MaskWrite.wf (x : MaskWrite) : Bool := x.data < 2 ^ 64 && x.mask < 2 ^ 64

/-- The header of an Ethernet frame has its widths. -/
def Frame.wf (f : Frame) : Bool :=
  f.dst < 2 ^ 48 && f.src < 2 ^ 48 && f.etherType < 2 ^ 16 && f.vid < 2 ^ 12 && f.pcp < 8 && f.length < 2 ^ 16

/-- A CAN frame as R379 lets it be: a 29-bit identifier field, a DLC of 4 bits, at most 64 bytes. -/
def CanFrame.wf (f : CanFrame) : Bool := f.id < 2 ^ 29 && f.dlc < 16 && f.data.length ≤ 64 && f.data.all (· < 256)

/-- The words of a serial frame. -/
def SerialFrame.wf (r : SerialFrame) : Bool := r.position < 2 ^ 64 && r.crc < 2 ^ 16 && r.parity < 2

/-- A PAUSE or PFC frame: eight priorities, quanta of 16 bits. -/
def PauseRec.wf (r : PauseRec) : Bool := r.enable < 256 && r.quanta.length ≤ 8 && r.quanta.all (· < 2 ^ 16)

/-- An Announce: the widths of IEEE 1588. -/
def AnnounceRec.wf (r : AnnounceRec) : Bool :=
  r.priority1 < 256 && r.clockClass < 256 && r.accuracy < 256 && r.variance < 2 ^ 16 && r.priority2 < 256 && r.gmId < 2 ^ 64 &&
  r.stepsRemoved < 2 ^ 16

/-- A fault record has the widths of Table FLT.3. -/
def FaultSpec.wf (r : FaultSpec) : Bool :=
  r.code < 2 ^ 16 && r.sev < 6 && r.skind < 7 && r.sindex < 256 && r.origin < 256 && r.detail < 2 ^ 32

/-- A payload that carries a fault record carries one with its widths. -/
def Payload.wf (p : Payload) : Bool :=
  match p with
  | .other => true
  | .fault c v k i d => c < 2 ^ 16 && v < 6 && k < 7 && i < 256 && d < 2 ^ 32

/-- A reading names a sensor of Table THM.1 and has a 12-bit word. -/
def Reading.wf (r : Reading) : Bool := r.sensor < 20 && r.raw < 2 ^ 12

/-- A mirror frame has at most 16 axes and 8 groups. -/
def MirrorFrame.wf (f : MirrorFrame) : Bool := f.axes.length ≤ 16 && f.groups.length ≤ 8 && f.rank < 2 && f.epoch < 2 ^ 32

/-- Every operand of a command is within its width. -/
def Instr.wf (i : Instr) : Bool :=
  match i with
  | .registerWrite _ sz addr value => addr < 2 ^ 32 && sz.fits value
  | .ptpTime0Read => true
  | .sliceLinkFlit _ _ _ _ load => load.wf
  | .linkRetrainComplete _ => true
  | .sliceLinkWatchdog _ => true
  | .fabricAccess _ _ sz addr value _ => addr < 2 ^ 32 && sz.fits value
  | .sramScrub _ _ => true
  | .localMemoryScrub _ _ => true
  | .presenceRecognised => true
  | .removalRecognised => true
  | .departureNotice => true
  | .switchedDomainsOff => true
  | .resetAsserted => true
  | .resetReleased => true
  | .strapChange addr rank => addr < 16 && rank < 2
  | .flashSupplyLimit => true
  | .tapReset => true
  | .tapExtest => true
  | .tapIdcode => true
  | .tapSamplePreload _ _ => true
  | .tapHighz => true
  | .tapClamp => true
  | .tapBypass code => code < 256
  | .rindStart => true
  | .rindDropout => true
  | .feedValid _ => true
  | .feedInvalid _ => true
  | .feedStable _ => true
  | .feedCurrentLimit _ => true
  | .feedRetry _ => true
  | .powerFail => true
  | .powerSequenceStep => true
  | .domainReady _ => true
  | .domainReadyTimeout => true
  | .powerUpRetry => true
  | .intakeStepDone _ => true
  | .intakeTimeout => true
  | .flashBurstTimeout => true
  | .erase _ => true
  | .program _ offset pages => offset < 2 ^ 23 && pages < 2 ^ 16
  | .verify _ => true
  | .retire => true
  | .abort => true
  | .keyfuse => true
  | .imageUpdateComplete _ => true
  | .sysRun => true
  | .sysHold => true
  | .sysService => true
  | .leaveService => true
  | .restart => true
  | .enable _ => true
  | .stop _ => true
  | .quickStop _ => true
  | .disable _ => true
  | .clear _ => true
  | .enableStepDone _ _ => true
  | .bootstrapPrechargeStart => true
  | .prechargePhase _ _ => true
  | .sliceStart => true
  | .fieldGroupEnable => true
  | .mov _ f => f.wf
  | .movi _ f => f.wf
  | .movhi _ f => f.wf
  | .swap _ f => f.wf
  | .ext _ f => f.wf
  | .ins _ f => f.wf
  | .movis _ f => f.wf
  | .add _ f => f.wf
  | .sub _ f => f.wf
  | .addi _ f => f.wf
  | .cmp _ f => f.wf
  | .cmpi _ f => f.wf
  | .neg _ f => f.wf
  | .abs _ f => f.wf
  | .min _ f => f.wf
  | .max _ f => f.wf
  | .clamp _ f => f.wf
  | .and _ f => f.wf
  | .or _ f => f.wf
  | .xor _ f => f.wf
  | .not _ f => f.wf
  | .shl _ f => f.wf
  | .asr _ f => f.wf
  | .lsr _ f => f.wf
  | .cls _ f => f.wf
  | .add2 _ f => f.wf
  | .sub2 _ f => f.wf
  | .negh _ f => f.wf
  | .qmul2 _ f => f.wf
  | .mull _ f => f.wf
  | .mul _ f => f.wf
  | .sincos _ f => f.wf
  | .vlim _ f => f.wf
  | .mac1 _ f => f.wf
  | .msu1 _ f => f.wf
  | .mac1z _ f => f.wf
  | .mac4 _ f => f.wf
  | .msu4 _ f => f.wf
  | .mac4z _ f => f.wf
  | .macl4 _ f _ => f.wf
  | .mva _ f => f.wf
  | .mvaw _ f => f.wf
  | .lda _ f => f.wf
  | .clra _ f => f.wf
  | .anrm _ f => f.wf
  | .snrm _ f => f.wf
  | .saln _ f => f.wf
  | .maxi _ f => f.wf
  | .mini _ f => f.wf
  | .maxai _ f => f.wf
  | .ld _ f _ => f.wf
  | .ldw _ f _ => f.wf
  | .ldh _ f _ => f.wf
  | .ldq _ f _ => f.wf
  | .st _ f => f.wf
  | .sth _ f => f.wf
  | .stq _ f => f.wf
  | .br _ f => f.wf
  | .call _ f => f.wf
  | .jmp _ f => f.wf
  | .rep _ f => f.wf
  | .post _ f => f.wf
  | .done _ f => f.wf
  | .nop _ f => f.wf
  | .brk _ f => f.wf
  | .fence _ f => f.wf
  | .loadDataArrival _ => true
  | .storeAccepted _ => true
  | .halt _ => true
  | .resume _ => true
  | .step _ => true
  | .coreDebugHalted _ _ => true
  | .schedulerTick => true
  | .delayRelease p => p < 4096
  | .deadlineMiss p => p < 4096
  | .pipOverrun _ => true
  | .pipRuntimeExpiry _ => true
  | .currentSample _ => true
  | .isampleSet _ _ => true
  | .vsampleSet _ _ _ => true
  | .overcurrentTrip _ _ _ => true
  | .tripReleaseQualified _ _ => true
  | .switchNodeCheckFail _ _ => true
  | .startSequencerCycle _ _ => true
  | .listenElapsed _ _ => true
  | .brakeTime _ => true
  | .syncCyclesComplete _ => true
  | .alignComplete _ => true
  | .forcedLockHeld _ => true
  | .lockTimeout _ => true
  | .blendComplete _ => true
  | .fallback _ => true
  | .obsLoss _ => true
  | .coastComplete _ => true
  | .slobsStale _ => true
  | .carrierBoundary _ _ _ => true
  | .shadowWrite _ _ _ value => value < 2 ^ 64
  | .shadowStageWrite _ _ value => value < 2 ^ 64
  | .commit _ _ => true
  | .delayLineCalibration _ => true
  | .vdrvUndervoltage _ => true
  | .vdrvRecovered _ => true
  | .bootstrapUndervoltage _ _ => true
  | .bootstrapRecovered _ _ _ => true
  | .bootuvPersistent _ _ => true
  | .haltGuard _ => true
  | .sliceResume _ _ => true
  | .chopperOn _ v => v < 2 ^ 16
  | .chopperOff _ v => v < 2 ^ 16
  | .chopperCheck _ _ v => v < 2 ^ 16
  | .regenEntry _ v => v < 2 ^ 16
  | .regenRelease _ v => v < 2 ^ 16
  | .activeShortEntry _ v => v < 2 ^ 16
  | .activeShortRelease _ v => v < 2 ^ 16
  | .busAbsEntry _ v => v < 2 ^ 16
  | .busAbsRelease _ v => v < 2 ^ 16
  | .backstop _ => true
  | .backstopEnd => true
  | .busuv _ => true
  | .quadratureEdge _ _ _ => true
  | .indexEvent _ _ => true
  | .hallChange _ _ => true
  | .wireFault _ => true
  | .sincosConversion _ _ _ => true
  | .sincosCorrectionUpdate _ _ _ _ _ => true
  | .servoCapture _ _ => true
  | .serialFrameComplete _ r => r.wf
  | .arm _ => true
  | .disarm _ => true
  | .fbvalidWaitElapsed _ => true
  | .fbvalidTimeout _ => true
  | .ev5CurrentLimit _ => true
  | .ev5Retry _ => true
  | .servoBoundary _ => true
  | .svcmd1Write _ seq => seq < 2 ^ 16
  | .supervisionStep _ _ => true
  | .cmdstale _ => true
  | .stoptime _ => true
  | .move _ _ _ _ => true
  | .moveRel _ _ _ _ => true
  | .jog _ _ => true
  | .home _ => true
  | .homeAbort _ => true
  | .hardstopReference _ => true
  | .stepHoldCurrent _ => true
  | .stall _ => true
  | .fire _ => true
  | .go _ _ _ => true
  | .groupHold _ => true
  | .groupResume _ => true
  | .groupAbort _ => true
  | .append _ napp => napp < 2 ^ 16
  | .frameReceived _ f => f.wf
  | .pauseRefresh _ => true
  | .pauseReceived _ r => r.wf
  | .pauseHoldExpiry _ _ => true
  | .frameTransmitStart _ _ => true
  | .frameTransmitted _ => true
  | .linkUp _ speed _ => speed < 8
  | .linkDown _ => true
  | .failoverRevert => true
  | .learnAgeout mac => mac < 2 ^ 48
  | .flush => true
  | .switch => true
  | .arpRequest _ f target => f.wf && target < 2 ^ 32
  | .syncReceived _ => true
  | .announceReceived r => r.wf
  | .delayMessageReceived _ => true
  | .ptpMessageInterval _ _ => true
  | .syncTimeout => true
  | .announceTimeout => true
  | .timedrift => true
  | .ptpAdj _ => true
  | .ptpSetsec sec => sec < 2 ^ 48
  | .syncInEdge _ => true
  | .syncInMissing => true
  | .refInLoss => true
  | .refGate _ => true
  | .rindTimeCopy => true
  | .comparatorFire _ => true
  | .syncOutPulseEnd => true
  | .burstSampleSet _ _ => true
  | .launch _ => true
  | .hpOpen q _ => q.wf
  | .hpClose q => q.wf
  | .hpNop q => q.wf
  | .hpRead q addr count => q.wf && addr < 2 ^ 32 && count < 2 ^ 16
  | .hpWrite q addr words => q.wf && addr < 2 ^ 32 && words.all (· < 2 ^ 64)
  | .hpWritem q addr writes => q.wf && addr < 2 ^ 32 && writes.all MaskWrite.wf
  | .setpt q elements _ => q.wf && elements.all fun e => e.length == 8 && e.all (· < 2 ^ 64)
  | .segment q _ segs => q.wf && segs.all fun e => e.length == 32 && e.all (· < 2 ^ 64)
  | .repcfg q c offset addrs => q.wf && c < 2 ^ 16 && offset < 2 ^ 32 && addrs.all (· < 2 ^ 32)
  | .evack q nseq => q.wf && nseq < 2 ^ 32
  | .hpUnknownType q type => q.wf && type < 256
  | .noticeRetry session nseq => session < 2 ^ 16 && nseq < 2 ^ 32
  | .sessionTimeout session => session < 2 ^ 16
  | .acqRowTaken _ _ _ => true
  | .acqFlushTimeout _ _ => true
  | .triggerTimer => true
  | .acqArm => true
  | .acqStop => true
  | .acqForce => true
  | .acqRunStart => true
  | .acqRunStop => true
  | .canFrameReceived _ f => f.wf
  | .canTxStart _ => true
  | .canTxComplete _ _ _ => true
  | .canBusError _ _ _ _ => true
  | .canBusoffRecovery _ => true
  | .txreq _ mask => mask < 2 ^ 64
  | .txabt _ mask => mask < 2 ^ 64
  | .txdone _ mask => mask < 2 ^ 64
  | .rxfull _ _ mask => mask < 2 ^ 64
  | .canTxdTimeout => true
  | .canWakePattern => true
  | .canTtWindow _ col => col < 64
  | .canTtReferenceSend _ => true
  | .canTtSyncLoss _ => true
  | .fioInputEvent _ _ _ => true
  | .fioOpenWire _ => true
  | .fioChannelLatch _ _ => true
  | .fioRetry _ => true
  | .fioClr mask => mask < 2 ^ 24
  | .offPulseTest _ _ => true
  | .fioPwmPeriod _ => true
  | .fioCmpPulseEnd _ => true
  | .brakeDisbrkTimeout _ => true
  | .fieldSupplyWarning _ => true
  | .fieldSupplyCutoff _ => true
  | .fieldSupplyRecovery _ => true
  | .wdkick value => value < 2 ^ 64
  | .wdclr => true
  | .fieldWatchdogExpiry => true
  | .stoEngage _ => true
  | .stoReleaseRequest => true
  | .stoReleaseStep _ => true
  | .torqueOffClear => true
  | .stoOpenCheck _ => true
  | .stoSwitchTest _ _ => true
  | .stoInputDisagree => true
  | .stoClockFailure => true
  | .stoFbMismatch => true
  | .harsoLinkUp => true
  | .harsoLinkDown => true
  | .mirrorFrameSend => true
  | .mirrorFrameReceived f => f.wf
  | .twinFrameTimeout _ => true
  | .holdInChange _ => true
  | .claim => true
  | .arbWindowEnd => true
  | .tokenconf => true
  | .leaseExpiry => true
  | .switchoverGapEnd => true
  | .reclaim => true
  | .perfLevelChangeDone => true
  | .sleepS1 => true
  | .sleepS2 => true
  | .sleepS3 => true
  | .sleepEntryComplete => true
  | .wakeEvent _ _ => true
  | .wakeStepDone => true
  | .wakeStepTimeout => true
  | .wakeRetry => true
  | .housekeepingSample readings => readings.all Reading.wf
  | .graceExpiry => true
  | .throttleStep _ => true
  | .faultRecord records => records.all FaultSpec.wf
  | .fltClear skind sindex => skind < 8 && sindex < 256
  | .illegalInstruction _ word => word < 2 ^ 64
  | .freezeSwitchRead _ => true
  | .ev5InRegulation _ => true
  | .nsCarry => true
  | .fieldSupplyWarningClear _ => true
  | .fioOpenWireClear _ => true

end Sys2Proof
end

