-- ==== Sys2Proof/Certificates/Slice0/Obligations.lean ====
section
/-!
DEFINITION. Certificates/Slice0/Obligations.lean: the statements for the provers. The words they share stand first, in
Sys2Proof.Claims.
-/

namespace Sys2Proof.Claims

open Sys2Proof.Machine

/-- The command answers a next state, of which `P` holds. -/
def Gives (i : Instr) (s : State) (P : State → Prop) : Prop := ∃ t, exec i s = .next t ∧ P t

/-- No register field but the listed ones changes. -/
def OnlyRegs (s t : State) (l : List Fld) : Prop := ∀ f : Fld, f.key ∉ l.map Fld.key → t.get f = s.get f

/-- The fault records that a command hands to the fault engine: code, severity, scope kind and scope index of each, in order. -/
def Raises (s t : State) (l : List (Nat × Nat × Nat × Nat)) : Prop :=
  ∃ r : List FaultRec, t.faults.inbox = s.faults.inbox ++ r ∧ r.map (fun x => (x.code, x.sev, x.skind, x.sindex)) = l

/-- `t` is `s` but for the listed register fields, which hold the values beside them, and the fault records handed on. -/
def Only (s t : State) (l : List (Fld × Nat)) (r : List (Nat × Nat × Nat × Nat)) : Prop :=
  { t with regs := s.regs, faults := { t.faults with inbox := s.faults.inbox } } = s ∧
    (∀ f : Fld, f.key ∉ l.map (fun x => x.1.key) → t.get f = s.get f) ∧ (∀ x ∈ l, t.get x.1 = x.2) ∧ Raises s t r

/-- A counter one higher, saturating at its width (R6). -/
def more (s : State) (f : Fld) : Nat := min (2 ^ f.w - 1) (s.get f + 1)

/-- The register file and the memory stay. -/
def SameMap (s t : State) : Prop := t.regs = s.regs ∧ t.mem = s.mem

/-- The absolute value. -/
def ab (x : Int) : Int := x.natAbs

/-- Core `x.core` takes an instruction of condition `cond` that names the registers `codes`, and executes it: it is running or steps
(R139), the fetch is from its own local memory (R112) and meets no uncorrectable error (R133, R134), no register read has bad parity (R135),
the condition holds (R124), and no load under way writes a register named (R115). -/
structure PipMeets (s : State) (x : PipAt) (cond : Nat) (codes : List Nat) : Prop where
  ready : s.coreReady x.core = true
  place : inLocal x.core.val s.core[x.core].pc 8 = true
  aligned : s.core[x.core].pc % 8 = 0
  ecc : x.ecc ≠ .double
  parity : x.parityBad = false
  condOk : cond < 14
  holds : s.core[x.core].flags.holds cond = true
  named : ∀ c ∈ codes, codeOk c = true
  landed : s.core[x.core].needs codes = false

/-- The registers and flags of a core (Table PIP.1). -/
def regsOf (c : CoreDyn) : Vector Word 32 × Vector (BitVec 32) 8 × Vector Word 8 × Vector (BitVec 96) 4 × PipFlags :=
  (c.d, c.a, c.o, c.acc, c.flags)

/-- Nothing changes but core `k`, its LCn_DBG.PC while it is halted, and its LCn_ECC for a corrected fetch. -/
structure PipFrame (s t : State) (k : Core) : Prop where
  rest : { t with core := s.core, regs := s.regs } = s
  cores : ∀ j : Core, j ≠ k → t.core[j] = s.core[j]
  fields : OnlyRegs s t [R.LC_DBG_PC k, R.LC_ECC_CORR k, R.LC_ECC_LASTADDR k]

/-- The frame of an instruction that falls through: besides the core's registers and flags only its pc goes on, past the instruction
or back to the start of a repeat body that ends here (R130); loads and stores under way stay, and the run goes on. -/
structure PipNext (s t : State) (k : Core) : Prop extends PipFrame s t k where
  next : (t.core[k].levels, t.core[k].pc) = stepPast s.core[k].levels s.core[k].pc
  loads : t.core[k].loads = s.core[k].loads
  stores : t.core[k].stores = s.core[k].stores
  goes : t.core[k].run = s.core[k].run ∧ t.core[k].wait = .none ∧ t.core[k].posted = s.core[k].posted

/-- The command falls through and leaves the core with the registers and flags of `c`. -/
def Leaves (i : Instr) (s : State) (x : PipAt) (c : CoreDyn) : Prop :=
  Gives i s fun t => PipNext s t x.core ∧ regsOf t.core[x.core] = regsOf c

/-- A D register written, with the flags that follow. -/
def putsD (c : CoreDyn) (d : Fin 32) (v : Word) (f : PipFlags) : CoreDyn := { c with d := c.d.set d v, flags := f }

/-- An instruction of three D registers. -/
def OpDDD (op : PipAt → RForm → Instr) (g : PipAt → RForm → State → CoreDyn → Word → Word → Word × PipFlags) : Prop :=
  ∀ (x : PipAt) (f : RForm) (s : State) (d a b : Fin 32), f.dst = d.val → f.sa = a.val → f.sb = b.val →
    PipMeets s x f.cond [f.dst, f.sa, f.sb] →
    let c := s.core[x.core]
    Leaves (op x f) s x (putsD c d (g x f s c c.d[a] c.d[b]).1 (g x f s c c.d[a] c.d[b]).2)

/-- An instruction of two D registers; `SB` is any code that is not reserved. -/
def OpDD (op : PipAt → RForm → Instr) (g : PipAt → RForm → State → CoreDyn → Word → Word → Word × PipFlags) : Prop :=
  ∀ (x : PipAt) (f : RForm) (s : State) (d a : Fin 32), f.dst = d.val → f.sa = a.val →
    PipMeets s x f.cond [f.dst, f.sa, f.sb] →
    let c := s.core[x.core]
    Leaves (op x f) s x (putsD c d (g x f s c c.d[d] c.d[a]).1 (g x f s c c.d[d] c.d[a]).2)

/-- A half of a D register: .l (false) or .h (true). -/
def half (v : Word) (h : Bool) : BitVec 32 := if h then v.extractLsb' 32 32 else v.extractLsb' 0 32

/-- A D register with one half replaced. -/
def withHalf (v : Word) (h : Bool) (y : BitVec 32) : Word := if h then y ++ v.extractLsb' 0 32 else v.extractLsb' 32 32 ++ y

/-- N and Z of a result with SF (R125). -/
def nz (sf : Bool) (v : Word) (f : PipFlags) : PipFlags := if sf then { f with n := v.msb, z := v == 0 } else f

/-- N, Z, C and V with SF, and the sticky SAT (R118, R125). -/
def nzcv (f : RForm) (v : Word) (cy ovf : Bool) (p : PipFlags) : PipFlags :=
  let p := { p with sat := p.sat || (ovf && f.sat) }
  if f.sf then { p with n := v.msb, z := v == 0, c := cy, v := ovf && !f.sat } else p

/-- A signed result of `w` bits: the exact value where it fits, else clamped (R118). -/
def clamped (w : Nat) (v : Int) : BitVec w := BitVec.ofInt w (max (-(2 ^ (w - 1) : Int)) (min (2 ^ (w - 1) - 1) v))

/-- Whether an exact result does not fit `w` bits. -/
def misfit (w : Nat) (v : Int) : Bool := decide (v < -(2 ^ (w - 1) : Int) ∨ (2 ^ (w - 1) : Int) ≤ v)

/-- A result with a saturating form: clamped with SAT, else wrapped (R118). -/
def formed (w : Nat) (sat : Bool) (v : Int) : BitVec w := if sat then clamped w v else BitVec.ofInt w v
/-- One element of a search (R132): BEST in [31:0], IDX in [47:32], CNT in [63:48]. -/
def searched (better : Int → Int → Bool) (v : Int) (d : Word) : Word :=
  let best := d.extractLsb' 0 32
  let idx := d.extractLsb' 32 16
  let cnt := d.extractLsb' 48 16
  if better v best.toInt then ((cnt + 1) ++ cnt) ++ BitVec.ofInt 32 v else ((cnt + 1) ++ idx) ++ best

/-- A shift of a D register: the count is SH where SB is 0x3F, else b[6:0] of a D register. -/
def OpShift (op : PipAt → RForm → Instr) (g : PipAt → RForm → State → CoreDyn → Word → Nat → Word × PipFlags) : Prop :=
  ∀ (x : PipAt) (f : RForm) (s : State) (d a : Fin 32) (n : Nat), f.dst = d.val → f.sa = a.val →
    (f.sb = 0x3F ∧ n = f.sh % 128 ∨ ∃ b : Fin 32, f.sb = b.val ∧ n = s.core[x.core].d[b].toNat % 128) →
    PipMeets s x f.cond [f.dst, f.sa, f.sb] →
    let c := s.core[x.core]
    Leaves (op x f) s x (putsD c d (g x f s c c.d[a] n).1 (g x f s c c.d[a] n).2)

/-- Two lanes with their saturating form and V (ADD2, SUB2). -/
def lanes2 (f : RForm) (c : CoreDyn) (l h : Int) : Word × PipFlags :=
  let ovf := misfit 32 l || misfit 32 h
  let p := { c.flags with sat := c.flags.sat || (ovf && f.sat) }
  (formed 32 f.sat h ++ formed 32 f.sat l, if f.sf then { p with v := ovf && !f.sat } else p)

/-- A multiply-accumulate of two halves into one accumulator. -/
def OpAcc (op : PipAt → RForm → Instr) (g : Int → Int → Int) : Prop :=
  ∀ (x : PipAt) (f : RForm) (s : State) (a b : Fin 32) (i : Fin 4), f.dst = 0x30 + i.val → f.sa = a.val → f.sb = b.val →
    PipMeets s x f.cond [f.dst, f.sa, f.sb] →
    let c := s.core[x.core]
    let r := g c.acc[i].toInt ((half c.d[a] f.ha).toInt * (half c.d[b] f.hb).toInt)
    Leaves (op x f) s x
      { c with acc := c.acc.set i (clamped 96 r), flags := { c.flags with sat := c.flags.sat || misfit 96 r } }

/-- The four accumulators after `g` of each with a lane times `y`. -/
def accs4 (g : Int → Int → Int) (c : CoreDyn) (lo hi : Word) (y : Int) : CoreDyn :=
  let r : Fin 4 → Int := fun i => g c.acc[i].toInt ((half (if i.val < 2 then lo else hi) (i.val % 2 == 1)).toInt * y)
  { c with acc := Vector.ofFn fun i => clamped 96 (r i),
           flags := { c.flags with sat := c.flags.sat || misfit 96 (r 0) || misfit 96 (r 1) || misfit 96 (r 2) || misfit 96 (r 3) } }

/-- A multiply-accumulate of the four lanes of two D registers with a broadcast half. -/
def OpAcc4 (op : PipAt → RForm → Instr) (g : Int → Int → Int) : Prop :=
  ∀ (x : PipAt) (f : RForm) (s : State) (a b : Fin 32) (ha : a.val < 31), f.dst = 0x3F → f.sa = a.val → f.sb = b.val →
    PipMeets s x f.cond [f.dst, f.sa, f.sb, f.sa + 1] →
    let c := s.core[x.core]
    Leaves (op x f) s x (accs4 g c c.d[a] (c.d[(⟨a.val + 1, by omega⟩ : Fin 32)]) (half c.d[b] f.hb).toInt)

/-- The core meets a memory instruction whose access it can make (R114, R116, R123): legal mode and LOG2L, aligned address, and neither
the fetch nor the data meets an ECC error. -/
structure MemMeets (s : State) (x : PipAt) (f : MForm) (codes : List Nat) (n : Nat) (data : EccSeen) : Prop where
  meets : PipMeets s x f.cond (addrRegs f ++ codes)
  clean : x.ecc = .clean
  data : data = .clean
  mode : f.amode ≤ 4
  log : s.core[x.core].logOk f = true
  aligned : s.core[x.core].effAddr f % n = 0

/-- A load of `n` bytes that falls through: from own local memory the registers `w v` are written, from elsewhere they are under way; the
address register moves by its mode (Table PIP.4), memory and the other cores stay. -/
def Loads (op : Instr) (s : State) (x : PipAt) (f : MForm) (n : Nat) (w : Nat → List (Nat × Nat)) (h : Option Bool) : Prop :=
  Gives op s fun t =>
    let c := s.core[x.core]
    let a := c.effAddr f
    let l : LoadDyn := ⟨w (s.coreValue x.core a n), h⟩
    t.mem = s.mem ∧ t.faults = s.faults ∧ (∀ j : Core, j ≠ x.core → t.core[j] = s.core[j]) ∧
    (t.core[x.core].levels, t.core[x.core].pc) = stepPast c.levels c.pc ∧ t.core[x.core].stores = c.stores ∧
    if inLocal x.core.val a n then
      regsOf t.core[x.core] = regsOf ((c.stepA f).landLoad l) ∧ t.core[x.core].loads = c.loads
    else
      regsOf t.core[x.core] = regsOf (c.stepA f) ∧ t.core[x.core].loads = c.loads ++ [l]

/-- A store of `n` bytes of value `v` that falls through: into own local memory at once, byte by byte, elsewhere posted (R115); nothing
else of memory changes. -/
def Stores (op : Instr) (s : State) (x : PipAt) (f : MForm) (n v : Nat) : Prop :=
  Gives op s fun t =>
    let c := s.core[x.core]
    let a := c.effAddr f
    t.faults = s.faults ∧ (∀ j : Core, j ≠ x.core → t.core[j] = s.core[j]) ∧
    (t.core[x.core].levels, t.core[x.core].pc) = stepPast c.levels c.pc ∧ t.core[x.core].loads = c.loads ∧
    regsOf t.core[x.core] = regsOf (c.stepA f) ∧
    if inLocal x.core.val a n then
      t.core[x.core].stores = c.stores ∧
      ∀ b : Nat, t.byte b = if a ≤ b ∧ b < a + n then v / 256 ^ (b - a) % 256 else s.byte b
    else t.core[x.core].stores = c.stores ++ [⟨a, n, v⟩] ∧ ∀ b : Nat, t.byte b = s.byte b

/-- INTAKE is in step `k`, and nothing interrupts it. -/
def AtStep (s : State) (k : Nat) : Prop := s.boot.step = k ∧ s.leaving = false ∧ s.boot.resetLow = false ∧ s.dev = 0

/-- INTAKE has ended in HALT with recovery access and a code (R86, R88). -/
def HaltedWith (t : State) (code : Nat) : Prop :=
  t.dev = 5 ∧ t.boot.recovery = true ∧ t.boot.step = 0 ∧ t.get R.IMG_STAT_CODE = code

/-- IMG_UPD takes a command now (R90). -/
def UpdReady (s : State) : Prop :=
  s.updOpen = true ∧ s.leaving = false ∧ s.boot.resetLow = false ∧ s.get R.IMG_UPD_STATE ≠ 1

/-- The command begins: STATE busy, and nothing else but its operands. -/
def UpdBegins (i : Instr) (s : State) (cmd slot off pages : Nat) : Prop :=
  Gives i s fun t => Only { s with boot := { s.boot with updCmd := cmd, updSlot := slot, updOff := off, updPages := pages, updAbort := false } } t
    [(R.IMG_UPD_STATE, 1)] []

/-- A command is in progress, its unit powered, with no ABORT asked. -/
def UpdRuns (s : State) (cmd : Nat) : Prop :=
  s.get R.IMG_UPD_STATE = 1 ∧ s.leaving = false ∧ s.boot.resetLow = false ∧ s.boot.updCmd = cmd ∧ s.boot.updAbort = false

/-- The command has ended without error. -/
def UpdDone (t : State) : Prop := t.get R.IMG_UPD_STATE = 2 ∧ t.get R.IMG_UPD_UCODE = 0 ∧ t.boot.updCmd = 0

/-- The next tick. -/
def nextTick (s : State) : Nat := (s.get R.SCH_TICK_TICK + 1) % 2 ^ 64

/-- The scheduler runs, no core and no source has anything for it at the next tick, no delay or deadline falls due then, and no pip with
tokens becomes ready. -/
structure QuietTick (s : State) : Prop where
  powered : s.domOn 0 = true
  runs : s.get R.SCH_STAT_STATE = 1
  notes : s.sched.notes = []
  arrived : s.sched.arrived = []
  delayed : ∀ q ∈ s.sched.delayed, nextTick s < q.tick
  deadlines : ∀ d ∈ s.sched.deadlines, nextTick s < d.due ∨ d.missed = true
  ready : ∀ p ∈ s.fedPips, s.pipReady p = false

/-- A converter code as a signed sample in Q1.31 of full scale (R162). -/
def q31 (s : State) (n : Slice) (leg : Fin 3) (code : Int) : Int :=
  let d := code - s.offsetOf n leg
  satS 32 ((if s.on (R.SLC_ISCFG_POL n) then d else -d) * 65536)

/-- A code inside the converter's range (R165). -/
def inRange (code : Int) : Prop := -32768 < code ∧ code < 32767

/-- A set of a single slice as delivered: kept as the last one, its number advanced, and an ISAMPLE event with its first word and the
low half and the number of its second. -/
def DeliversSet (s t : State) (n : Slice) (u v w : Int) : Prop :=
  t.sense[n].lastSet = ⟨u, v, w⟩ ∧ t.sense[n].seq = (s.sense[n].seq + 1) % 65536 ∧ t.sense[n].waiting = false ∧
  (∀ m : Slice, m ≠ n → t.sense[m] = s.sense[m]) ∧ t.mem = s.mem ∧
  ∃ x, t.sched.arrived = s.sched.arrived ++ [⟨2, n.val, [ofS 32 u + ofS 32 v * 2 ^ 32, x]⟩] ∧ x % 2 ^ 32 = ofS 32 w ∧
    x / 2 ^ 48 = s.sense[n].seq % 65536

/-- The registers of the start sequencer that a phase change may write. -/
def slFields (n : Slice) : List Fld :=
  [R.SLC_SLSTAT_PHASE n, R.SLC_SLSTAT_RETRY n, R.SLC_SLSTAT_FALLBACK n, R.SLC_SLSTAT_OMEGA_M n, R.SLC_SLSTAT_CAUSE n, R.SLC_SLSTAT_STARTS n,
   R.SLC_SLSTAT_FAILS n, R.SLC_SLCMD_THETA n, R.SLC_SLCMD_IREF n, R.SLC_SLCMD_MODE n, R.SLC_SLCMD_SEQ n]

/-- The command takes the sequencer of slice `n` to phase `ph` with MODE `mode`; nothing changes but this sequencer, its registers and
the fault records handed on. -/
def Phases (i : Instr) (s : State) (n : Slice) (ph mode : Nat) (P : State → Prop) : Prop :=
  Gives i s fun t =>
    t.get (R.SLC_SLSTAT_PHASE n) = ph ∧ t.get (R.SLC_SLCMD_MODE n) = mode ∧ OnlyRegs s t (slFields n) ∧
    { t with regs := s.regs, startq := s.startq, faults := s.faults } = s ∧ (∀ m : Slice, m ≠ n → t.startq[m] = s.startq[m]) ∧ P t

/-- FAIL entered with a cause (Table CMT.7). -/
def Fails (s t : State) (n : Slice) (cause : Nat) : Prop :=
  t.get (R.SLC_SLSTAT_CAUSE n) = cause ∧ t.get (R.SLC_SLSTAT_FAILS n) = more s (R.SLC_SLSTAT_FAILS n) ∧
  Raises s t [(0x0606 + cause, 3, 1, (s.lead n).val)]

/-- The high-side time that a request `a` of a period `T` gets (R191, Table PWM.3): none below the minimum pulse, its own where dead times
and a minimum low pulse fit, else the whole period. -/
def highTime (T td tm a : Nat) : Nat := if a < tm then 0 else if a + 2 * td + tm ≤ T then a else T

/-- The boundary at which a word written through a window now takes effect (Table PWM.2, R20). -/
def takesAt (p : PwmDyn) (window : Nat) : Nat := max (p.bnum + 1) (targetOf p window)

/-- The registers that a sample of a bus writes. -/
def sampleFlds (k : Fin 4) : List Fld := [measFld k, R.BUS_STAT_UV]

/-- The field bit `b` of bus `k` becomes `v`, the others of the field stay. -/
def BusBit (s t : State) (f : Fld) (k : Fin 4) (v : Bool) : Prop :=
  t.bitOf f k = v ∧ ∀ j : Fin 4, j ≠ k → t.bitOf f j = s.bitOf f j

/-- Bus `k` is enabled, its sample `v` fits, and it stands above a limit. -/
def BusAbove (s : State) (k : Fin 4) (v lim : Nat) : Prop := s.busEn k = true ∧ lim < v ∧ v < 65536

/-- Nothing but the feedback port of slice `n` and the register file differs. -/
def PortOnly (s t : State) (n : Slice) : Prop :=
  { t with fb := s.fb, regs := s.regs } = s ∧ ∀ m : Slice, m ≠ n → t.fb[m] = s.fb[m]

/-- The slice has started and its port is in mode `m` (Table FBK.1). -/
def PortIn (s : State) (n : Slice) (m : Nat) : Prop := s.ax[n].started = true ∧ s.fbMode n = m

/-- The place of the line levels after one edge forward or backward from the present ones (R215). -/
def EdgeTo (s : State) (n : Slice) (up a b : Bool) : Prop :=
  quadPlace a b = (quadPlace s.fb[n].lineA s.fb[n].lineB + if up then 1 else 3) % 4

/-- A capture as delivered: the registers and the first two words of the FBCAP event (Table FBK.4). -/
def Captures (s t : State) (n : Slice) (p v : Int) : Prop :=
  t.get (R.SLC_FBPOS_POS n) = ofS 64 p ∧ t.get (R.SLC_FBSPD_SPD n) = ofS 64 v ∧
  ∃ x y, t.sched.arrived = s.sched.arrived ++ [⟨4, n.val, [ofS 64 p, ofS 64 v, x, y]⟩]

/-- No run of invalid captures, and no Hall check, reaches its limit with the next capture (R232). -/
def NoRunEnds (s : State) (n : Slice) : Prop :=
  s.pairFunc n = 0 ∧ s.on (R.SLC_FBCFG_HALLEN n) = false ∧ s.fb[n].badRun + 1 < s.get (R.SLC_FBLIM_FBERR_N n)

/-- The amplitude of two corrected sin/cos voltages is inside 0.2 V to 0.8 V (R224), in 10 µV. -/
def AmpIn (x y : Int) : Prop :=
  let r := x / qOne * (x / qOne) + y / qOne * (y / qOne)
  20000 * 20000 ≤ r ∧ r ≤ 80000 * 80000

/-- `new` lies between `old` and `est`, no farther from `old` than a quarter of the way (R223). -/
def QuarterWay (old est new : Int) : Prop := ab (new - old) * 4 ≤ ab (est - old) ∧ ab (est - new) ≤ ab (est - old)

/-- The following error of a pair of capture and command, in Q40.24 (R247). -/
def feOf (c : Capture) (pc : Int) : Int := toS 64 (ofS 64 (pc - c.p))

/-- A POSITION axis under supervision with feedback and no ramp, whose speed, travel and switches raise nothing in the step that judges
the pair of capture `c` and command `pc`. -/
structure Judged (s : State) (n : Slice) (c : Capture) (pc : Int) : Prop where
  runs : s.supRuns n = true
  enabled : s.axst n = 2
  mode : s.axmode n = 2
  single : s.pairFunc n = 0
  feedback : s.hasFb n = true
  going : s.on (R.SLC_PWMSTAT_FROZEN n) = false
  noRamp : s.sup[n].ramp = none
  pair : s.sup[n].paired = some (c, pc)
  valid : c.valid = true
  speed : ab c.v ≤ q16to24 (s.hl (R.SLC_SVGROSS_VMAX n))
  noWarn : s.get (R.SLC_SVCTL_FEWARN n) = 0
  noTravel : s.hl (R.SLC_SVTRAV2_TRAV_EN n) = 0
  noSwitches : s.hl (R.SLC_SVTRAV2_LIMP_EN n) = 0 ∧ s.hl (R.SLC_SVTRAV2_LIMN_EN n) = 0

/-- A servo boundary of a single running slice with nothing staged, no correction, no arming, homing or replan waiting. -/
structure PlainBoundary (s : State) (n : Slice) : Prop where
  started : s.ax[n].started = true
  going : s.on (R.SLC_PWMSTAT_FROZEN n) = false
  single : s.pairFunc n = 0
  driving : s.dev ≠ 3
  noTwin : s.on R.TWN_CFG_EN = false
  noStaged : s.staged = []
  noCorr : s.fb[n].corr = none
  position : s.axmode n = 2
  noHome : s.prof[n].home = none
  noArmed : s.prof[n].armed = none
  noReplan : s.prof[n].replan = false
  factors : (s.zoneFactors n).1 = s.get (R.THM_SLC_VSCALE n)

/-- The command of slice `n` is refused with a code: RES takes it, F0 MOTREF, nothing else (R260). -/
def MoveRefused (i : Instr) (s : State) (n : Slice) (code : Nat) : Prop :=
  Gives i s fun t => Only s t [(R.SLC_PRSTAT_RES n, code)] [(0x0A07, 0, 1, (s.lead n).val)]

/-- The command of slice `n` is accepted: RES 0, INPOS clear, PSTATE `ps`; nothing changes but these and the generator of `n`. -/
def MoveTaken (i : Instr) (s : State) (n : Slice) (ps : Nat) (P : State → Prop) : Prop :=
  Gives i s fun t =>
    t.get (R.SLC_PRSTAT_RES n) = 0 ∧ t.get (R.SLC_PRSTAT_INPOS n) = 0 ∧ t.get (R.SLC_PRSTAT_PSTATE n) = ps ∧
    OnlyRegs s t [R.SLC_PRSTAT_RES n, R.SLC_PRSTAT_INPOS n, R.SLC_PRSTAT_PSTATE n, R.SLC_PRSTAT_HSTEP n] ∧
    { t with regs := s.regs, prof := s.prof } = s ∧ (∀ m : Slice, m ≠ n → t.prof[m] = s.prof[m]) ∧ P t

/-- A HOME command of a POSITION axis passes the checks of R282 that its method does not add. -/
structure HomeReady (s : State) (n : Slice) : Prop where
  position : s.axmode n = 2
  enabled : s.axst n = 2
  idle : s.get (R.SLC_PRSTAT_PSTATE n) = 0
  words : 0 < s.prWord n 4 ∧ 0 < s.prWord n 5 ∧ 0 < s.prWord n 6
  dist : 0 < s.getS (R.SLC_HMDIST_HDIST n)

/-- The command of group `g` is refused with a code (Table MOT.4). -/
def GroupRefused (i : Instr) (s : State) (g : Fin 8) (code : Nat) : Prop :=
  Gives i s fun t => Only s t [(R.GRP_STAT_RES g, code)] [(0x0A07, 0, 5, g.val)]

/-- The command of group `g` is taken: RES 0, its state `st`; nothing changes but the group and the listed fields. -/
def GroupTaken (i : Instr) (s : State) (g : Fin 8) (st : Nat) (l : List Fld) (P : State → Prop) : Prop :=
  Gives i s fun t =>
    t.get (R.GRP_STAT_RES g) = 0 ∧ t.gstate g = st ∧ OnlyRegs s t (R.GRP_STAT_RES g :: R.GRP_STAT_STATE g :: l) ∧
    { t with regs := s.regs, grp := s.grp } = s ∧ (∀ k : Fin 8, k ≠ g → t.grp[k] = s.grp[k]) ∧ P t

/-- The checks of GO (Table MOT.4) pass, without a time base. -/
structure GoReady (s : State) (g : Fin 8) : Prop where
  idle : s.gstate g = 0
  enabled : s.allEnabled g = true
  queued : s.grp[g].queue ≠ []
  homed : ∀ n ∈ s.members g, s.on (R.SLC_PRCFG_REQHOME n) = false ∨ s.lost n = false
  noBase : s.on (R.GRP_CFG_TBASE g) = false

/-- No own frame waits for its queue, and no session carries the acquisition stream. -/
def NetQuiet (s : State) : Prop := s.outbox = [] ∧ s.get R.ACQ_CTL_SESS = 0

/-- An external port that works, without flow control, VLANs or anything of the module's own in its way. -/
structure PlainPort (s : State) (p : Fin 3) : Prop where
  external : p ≠ 2
  up : s.portUp p = true
  quiet : NetQuiet s
  noFc : s.get (R.NET_PCFG_FC p) = 0
  noVlan : s.on R.NET_CFG_VLANEN = false

/-- A frame that passes the checks of R305 and fits the ingress buffer. -/
def GoodFrame (s : State) (p : Fin 3) (f : Frame) : Prop :=
  f.fcsOk = true ∧ f.codeError = false ∧ 64 ≤ f.length ∧ f.length ≤ s.get (R.NET_PCFG_MAXFRM p) ∧
  s.net.ports[p].used none + cellsOf f.length ≤ s.ingressLimit p

/-- A port of the switch changes only as the function says, the other two stay. -/
def PortBecomes (s t : State) (p : Fin 3) (x : PortDyn) : Prop :=
  t.net.ports[p] = x ∧ ∀ q : Fin 3, q ≠ p → t.net.ports[q] = s.net.ports[q]

/-- In FAILOVER, with port `p` linked and not the active one. -/
def CanMove (s : State) (p : Nat) : Prop := s.get R.NET_CFG_PMODE = 1 ∧ s.on (R.NET_PSTAT_LINK p) = true

/-- Port `p` has become the active one: counted, and one PORTMOVE notice on it (R319). -/
def Moved (s t : State) (p : Nat) : Prop :=
  t.get R.NET_FOSTAT_ACTIVE = p ∧ t.get R.NET_FOSTAT_FOCNT = more s R.NET_FOSTAT_FOCNT ∧ t.outbox = s.outbox ++ [(p, 2, .portMove p)]

/-- A Sync that the ordinary clock takes: it follows the sending master on this port, in its domain (R328, R330). -/
structure SyncTaken (s : State) (r : SyncRec) : Prop where
  runs : s.ptpRuns = true
  follows : s.isMaster = false
  domain : r.domain = s.get R.PTP_CFG_DOMAIN
  master : s.time.master = some r.source
  port : r.port.val = s.get R.PTP_STAT_RXPORT
  carried : s.ptpPort r.port = true
  valid : r.sourceValid = true
  plain : s.on R.PTP_CFG_PROF = false

/-- The offset that a Sync gives (R329, R330), in 2^−16 ns. -/
def offsetOfSync (s : State) (r : SyncRec) : Int :=
  s.rxTime r.port r.arrival - r.origin - r.correction - psStamp (s.getS (R.PTP_PORT_ASYM r.port)) - nthD s.time.delay r.port 0

/-- No comparator is enabled. -/
def NoCmp (s : State) : Prop := ∀ k : Nat, k < 16 → s.on (R.PTP_CMP3_EN k) = false

/-- Only the listed registers, the time engine's and the scheduler's event list change. -/
def ClockOnly (s t : State) (l : List Fld) : Prop := OnlyRegs s t l ∧ { t with regs := s.regs, time := s.time } = s

/-- A frame that the host-protocol engine takes outside recovery, without authentication (R345 to R349). -/
structure HostReady (s : State) (q : HpReq) : Prop where
  on_ : s.hpOn q = true
  noRecovery : s.boot.recovery = false
  noAuth : s.on R.NET_HPCFG1_AUTH = false
  noTag : q.tag = .absent
  addressed : q.udp = true → s.get R.NET_HPCFG0_IPV4 ≠ 0
  sessions : s.host.sessions.length = 5

/-- An ordered request at its session's turn (R350). -/
def InTurn (s : State) (q : HpReq) : Prop :=
  HostReady s q ∧ s.sessOpen q.session = true ∧ q.seq % 2 ^ 32 = (s.session q.session).expect

/-- The reply as it leaves on the request's port. -/
def ReplyOf (s : State) (q : HpReq) (type code : Nat) (dup : Bool) (body : List Nat) : Nat × Nat × OwnMsg :=
  (s.outPort q.port.val, 2, .reply type q.session q.seq code dup body)

/-- The request has been answered in its turn, its reply kept and the next number expected (R350, R351). -/
def Replied (s t : State) (q : HpReq) (type code : Nat) (body : List Nat) : Prop :=
  t.outbox = s.outbox ++ [ReplyOf s q type code false body] ∧
  (t.session q.session).expect = ((s.session q.session).expect + 1) % 2 ^ 32 ∧
  (q.seq % 2 ^ 32, type, code, body) ∈ (t.session q.session).kept

/-- A session has ended: closed, its bits clear, and no stream left with it (R347). -/
def SessionGone (t : State) (i : Nat) : Prop :=
  t.session i = Session.reset ∧ t.bitOf R.NET_HPSTAT_OPEN (i - 1) = false ∧ t.bitOf R.NET_HPSTAT_NOTIFY (i - 1) = false ∧
  t.get R.ACQ_CTL_SESS ≠ i

/-- The one word of a host write, to memory, is accepted. -/
def WordTaken (s : State) (q : HpReq) (addr v m : Nat) : Prop :=
  s.schedRuns = true ∧ (∃ b, placeOf addr = .bank b) ∧
  s.writeCode .host q.session (wordsFrom addr [(v, m)]) ⟨addr, v % 2 ^ 64, m % 2 ^ 64⟩ = 0

/-- The word at `addr` becomes `v`, no other byte and no register changes. -/
def WordBecomes (s t : State) (addr v : Nat) : Prop :=
  t.rd addr 8 = v ∧ (∀ a : Nat, (a < addr ∨ addr + 8 ≤ a) → t.byte a = s.byte a) ∧ t.regs = s.regs ∧ t.faults = s.faults

/-- An element of a setpoint stream that is taken (R355, R356). -/
def ElemTaken (s : State) (e : List Nat) : Prop :=
  let T : Int := unpackTime (nthD e 0 0 % 2 ^ 64) (nthD e 1 0 % 2 ^ 64)
  s.streamUsed (elemStream e) = true ∧ (∀ l, s.lastElem (elemStream e) = some l → l < elemSeq e) ∧
  (s.clock.now : Int) ≤ T + s.get R.NET_HPCFG1_SPLATE * 1000 * nsUnit ∧ T ≤ s.clock.now + secUnit

/-- The engine works with no session for its stream, clock `c` has a kind, and its event now is the (DIV + 1)-th (R363, R373). -/
structure RowDue (s : State) (c : Fin 4) : Prop where
  runs : s.acqRuns = true
  kind : s.get (R.ACQ_CLK_KIND c) ≠ 0
  four : s.acq.clocks.length = 4
  due : ((s.acqClock c).events + 1) % (s.get (R.ACQ_CLK_DIV c) + 1) = 0
  silent : s.acqSession = none
  other : s.get R.ACQ_CFG_TCLK ≠ c.val

/-- The rows and words that the open block of a clock holds. -/
def openRows (s : State) (c : Nat) : Nat := match (s.acqClock c).block with | some b => b.rows | none => 0

def openWords (s : State) (c : Nat) : List Nat := match (s.acqClock c).block with | some b => b.words | none => []

/-- The registers of the trigger sequencer that a change of state writes. -/
def trigFlds : List Fld := [R.ACQ_TSTAT_ACTIVE, R.ACQ_TSTAT_STATE, R.ACQ_TSTAT_CNT]

/-- The sequencer stands in a state it has just entered, or in IDLE (R370). -/
def TrigAt (t : State) (active k : Nat) : Prop :=
  t.get R.ACQ_TSTAT_ACTIVE = active ∧ t.get R.ACQ_TSTAT_STATE = k ∧ t.get R.ACQ_TSTAT_CNT = 0 ∧ t.acq.trig.rows = 0 ∧
  t.acq.trig.armed = true ∧ t.acq.trig.force = false

/-- A controller takes part in the bus with its error counters below 128: it is error active (R384). -/
structure CanActive (s : State) (c : Fin 2) : Prop where
  on_ : s.canOn c = true
  active : s.get (R.CAN_STAT_STATE c) = 1
  tec : s.get (R.CAN_STAT_TEC c) < 128
  rec_ : s.get (R.CAN_STAT_REC c) < 128

/-- A transmit entry is DONE with a RESULT, and its ATTEMPTS (R380). -/
def TxDone (t : State) (c : Fin 2) (e result attempts : Nat) : Prop :=
  t.bitOf (R.CAN_TXPEND_PEND c) e = false ∧ t.bitOf (R.CAN_TXDONE_DONE c) e = true ∧
  t.byte (txEntry c e + 0x10) = result ∧ t.byte (txEntry c e + 0x11) = min 255 attempts

/-- No byte outside a transmit entry's words of SOF, RESULT and ATTEMPTS changes. -/
def TxBytes (s t : State) (c : Fin 2) (e : Nat) : Prop :=
  ∀ a : Nat, (a < txEntry c e + 8 ∨ txEntry c e + 0x12 ≤ a) → t.byte a = s.byte a

/-- The attempts of an entry so far. -/
def tries (s : State) (c : Fin 2) (e : Nat) : Nat := nthD s.can[c].attempts e 0

/-- The field domain is on and the field link up, so that the field die's faults are handed on at once (R455). -/
structure FieldUp (s : State) : Prop where
  on_ : s.domOn 5 = true
  link : s.arc.linkF.up = true

/-- The status fields of a channel's members that a latch writes. -/
def latchFlds (s : State) (k : Nat) : List Fld :=
  (s.membersOf k).flatMap fun m => [R.FIO_CHST_LATCHED m, R.FIO_CHST_CAUSE m, R.FIO_CHST_LATCNT m]

/-- A channel is latched off with its pair or quad, and the fault of R406 raised if it has run clean for 1 s (R401, R402, R403). -/
def ChannelOff (s t : State) (k cause code : Nat) : Prop :=
  (∀ m ∈ s.membersOf k, t.get (R.FIO_CHST_LATCHED m) = 1 ∧ t.get (R.FIO_CHST_CAUSE m) = cause ∧
    t.get (R.FIO_CHST_LATCNT m) = more s (R.FIO_CHST_LATCNT m)) ∧
  OnlyRegs s t (latchFlds s k) ∧ t.mem = s.mem ∧
  Raises s t (if s.ranClean k then (match s.brakeAxis k with
    | some n => [(code, 3, 1, n.val)]
    | none => [(code, 1, 0, 0)]) else [])

/-- An input event of a channel for a level (R394). -/
def edgeSelected (s : State) (k : Fin 24) (level : Bool) : Prop :=
  s.get (R.FIO_CFG_FUNC k) = 1 ∧ (s.get (R.FIO_CFG_EVEDGE k) = 2 ∨ s.get (R.FIO_CFG_EVEDGE k) = (if level then 0 else 1))

/-- The registers of a supply's cut-off. -/
def cutFlds (sup : Nat) : List Fld := [(supFields sup).2.1, (supFields sup).2.2, R.FIO_SUP_CUTCNT, R.FIO_IN_INVALID]

/-- Each input channel is INVALID exactly while its supply is cut off (R396). -/
def InvalidShown (t : State) : Prop :=
  ∀ k : Fin 24, t.bitOf R.FIO_IN_INVALID k = (t.get (R.FIO_CFG_FUNC k) == 1 && t.cutOff k)

/-- The BRAKE axes in use of a supply. -/
def brakesOf (s : State) (sup : Nat) : List Slice :=
  (supChannels sup).filterMap fun k => if s.leadOf k = k then s.brakeAxis k else none

/-- Every axis that was on is DISABLED with a cause, the others stay (R99). -/
def AxesOut (s t : State) (cause : Nat) : Prop :=
  ∀ n : Slice, if s.axOn n then t.axst n = 0 ∧ t.get (R.SLC_AXST_CAUSE n) = cause else t.axst n = s.axst n

/-- Both switches are commanded open and TORQUE-OFF stands, with every axis out (R99, R412). -/
def TorqueRemoved (s t : State) : Prop :=
  t.sto.cmd1 = false ∧ t.sto.cmd2 = false ∧ t.sto.step = 0 ∧ t.get R.SAF_STAT_RELSEQ = 0 ∧ t.get R.SAF_STAT_ENGAGED = 1 ∧
  t.get R.SYS_STATE_TORQUE_OFF = 1 ∧ AxesOut s t 2 ∧ t.mem = s.mem

/-- A diagnostic failure has acted (R416). -/
def Diagnosed (s t : State) (cause : Nat) : Prop :=
  t.get R.SAF_STAT_DIAG = 1 ∧ t.get R.SAF_STAT_DCAUSE = cause ∧ t.get R.SAF_STAT_FB = 0 ∧ TorqueRemoved s t ∧ Raises s t [(0x1002, 4, 0, 0)]

/-- The live sensor bits that a check writes. -/
def sensorFlds : List Fld := [R.SAF_STAT_I_SW1, R.SAF_STAT_I_SW2, R.SAF_STAT_VGS_HI]

def Sensors (t : State) (o : StoObs) : Prop :=
  t.get R.SAF_STAT_I_SW1 = b2n o.i1 ∧ t.get R.SAF_STAT_I_SW2 = b2n o.i2 ∧ t.get R.SAF_STAT_VGS_HI = b2n o.vgs90

/-- The release sequence may begin (R414). -/
structure MayRelease (s : State) : Prop where
  diag : s.on R.SAF_STAT_DIAG = false
  backstop : s.on R.BUS_STAT_BACKSTOP = false
  step10 : s.sto.step10 = true
  relseq : s.on R.SAF_STAT_RELSEQ = false
  open1 : s.sto.cmd1 = false
  open2 : s.sto.cmd2 = false

/-- A twin member is synchronised (R422). -/
def InStep (s : State) : Prop :=
  s.dev = 3 ∧ s.on R.TWN_STAT_LINK = true ∧ s.on R.TWN_STAT_IMGDIFF = false ∧
  ∀ n : Slice, n ∈ s.axes → s.bitOf R.TWN_STAT_MIRRORED n = true ∧ s.bitOf R.TWN_STAT_ALIGNED n = true

/-- SYNCED shows whether the member is synchronised. -/
def SyncShown (t : State) : Prop := t.on R.TWN_STAT_SYNCED = true ↔ InStep t

/-- A member whose twin logic takes frames (R420, R421). -/
structure TwinOn (s : State) : Prop where
  en : s.on R.TWN_CFG_EN = true
  past : s.dev ≠ 0
  link : s.on R.TWN_STAT_LINK = true

/-- The token is given up: HOLD_OUT and TOKEN low, the logic in a state of Table TWN.3, a counter one higher. -/
def TokenGone (s t : State) (lstate : Nat) (cnt : Fld) : Prop :=
  t.get R.TWN_STAT_LSTATE = lstate ∧ t.get R.TWN_STAT_HOLD_OUT = 0 ∧ t.get R.SYS_STATE_TOKEN = 0 ∧ t.get cnt = more s cnt

/-- The faults that a good frame's header raises (R424). -/
def headerFaults (s : State) (f : MirrorFrame) : List (Nat × Nat × Nat × Nat) :=
  (if f.imgId ≠ s.boot.imgId ∧ s.on R.TWN_STAT_IMGDIFF = false then [(0x1102, 1, 0, 0)] else []) ++
  (if f.rank = s.get R.SYS_STRAP_RANK ∧ s.on R.TWN_STAT_RANKSAME = false then [(0x1103, 4, 0, 0)] else [])

/-- A zone that counts is in order: its sensor is neither broken nor has a bad reading (R448). -/
def ZonesRead (s : State) : Prop :=
  ∀ z : Nat, z < 14 → s.zoneCounts z = true → s.bitOf R.THM_STAT_BROKEN z = false ∧ readingBad z (s.zone z) = false

/-- The zones whose T exceeds TSHUT and whose fault is not latched (R445). -/
def shutZones (s : State) : List Nat :=
  (upto 14).filter fun z => s.zoneCounts z && decide ((s.zone z).temp > s.getS (R.THM_ZONE_TSHUT z)) &&
    !s.faults.latched.any fun l => l.code == 0x1202 && l.sindex == z

/-- The registers in which the Rind keeps what woke the module. -/
def wakeFlds : List Fld :=
  [R.PWR_WSTAT_WSRC, R.PWR_WSTAT_PRE, R.PWR_WSTAT_REPLAYED, R.PWR_WSTAT_WRETRY, R.PWR_WSTAT_WAKE_FAIL]

/-- An event of an enabled source reaches the Rind (R441). -/
structure WakeHeard (s : State) (x : WakeSrc) : Prop where
  stays : s.leaving = false
  free : s.boot.resetLow = false
  armed : s.srcOn x = true

/-- One fault reaches the fault engine alone. -/
structure FaultAlone (s : State) (r : FaultSpec) : Prop where
  fab : s.domOn 0 = true
  alone : s.faults.inbox = []
  whole : s.isHalf (Sys2Proof.Machine.FaultSpec.rec r) = false

/-- A latched fault lies in a scope. -/
def LatchedIn (s : State) (k i : Nat) (p : Latched → Prop) : Prop := ∃ l ∈ s.faults.latched, l.skind = k ∧ l.sindex = i ∧ p l

/-- A CLEAR is refused with a code: RESULT, F0 and nothing else (R475). -/
def ClearRefused (s : State) (k i code : Nat) : Prop :=
  Gives (.fltClear k i) s fun t =>
    Only s t [(R.FLT_CMD_RESULT, code)] [(0x0401, 0, if code = 4 then 0 else k, if code = 4 then 0 else i)]

end Sys2Proof.Claims

open Sys2Proof Sys2Proof.Machine Sys2Proof.Claims

/-- A step takes the command at the front of the queue; idling is log entry 6. -/
def Obligations.StepRunsFrontCommand : Prop :=
  (∀ (c : Instr) (rest : List Instr) (s : State), step { s with pending := c :: rest } = exec c { s with pending := rest }) ∧
  (∀ s : State, s.pending = [] → ∃ t, step s = .next t ∧ t.pending = [] ∧ t.regs = s.regs ∧ t.mem = s.mem ∧ t.faults = s.faults)

/-- No command stops the module, and none touches the queue. -/
def Obligations.EveryCommandCompletes : Prop :=
  ∀ (c : Instr) (s : State), ∃ t, exec c s = .next t ∧ t.pending = s.pending

/-- Inv is kept by every step. -/
def Obligations.InvariantKept : Prop := ∀ s t : State, Inv s → step s = .next t → Inv t

/-- Inv holds at State.reset. -/
def Obligations.InvariantAtReset : Prop := Inv State.reset

/-- Reset values of the register tables. -/
def Obligations.ResetValues : Prop :=
  (∀ f : Fld, f.rst < 2 ^ f.w → State.reset.get f = f.rst) ∧ State.reset.regWord 0 = 0x00A50A01162400A0 ∧ State.reset.dev = 0 ∧
  (∀ n : Slice, State.reset.axst n = 0 ∧ State.reset.axOn n = false) ∧ (∀ a : Nat, State.reset.byte a = 0) ∧
  State.reset.faults.latched = [] ∧ State.reset.faults.log = [] ∧ State.reset.pending = [] ∧
  (∀ x ∈ State.reset.host.sessions, x.isOpen = false) ∧ (∀ k : Core, State.reset.core[k].run = none)

/-- Read after write, for register fields and for bytes of memory. -/
def Obligations.RegisterFile : Prop :=
  (∀ (s : State) (f : Fld) (v : Nat), (s.set f v).get f = v % 2 ^ f.w ∧ (∀ g : Fld, g.key ≠ f.key → (s.set f v).get g = s.get g) ∧
    { s.set f v with regs := s.regs } = s) ∧
  (∀ (s : State) (a v b : Nat), (s.putByte a v).byte b = (if b = a then v % 256 else s.byte b) ∧ { s.putByte a v with mem := s.mem } = s)

/-- R8. -/
def Obligations.StagedReadsInEffect : Prop :=
  ∀ (s : State) (l : List Staged) (a : Nat), ({ s with staged := l } : State).regWord a = s.regWord a

/-- R4, R6, R7, R9, R10, R473. -/
def Obligations.RegisterWrites : Prop :=
  (∀ (v : Nat) (s : State), s.initOn .imageReader = true → s.dev = 0 → s.staged = [] → 1 ≤ v % 8 → v % 8 ≤ 5 →
    Gives (.registerWrite .imageReader .b8 0x40000 v) s fun t =>
      Only (s.answer .done) t [(R.FLT_CFG_FNSEV, v % 8)] (if v % 2 ^ 64 < 8 then [] else [(0x0104, 0, 0, 0)])) ∧
  (∀ (v : Nat) (s : State), s.initOn .imageReader = true → s.dev = 0 → (v % 8 = 0 ∨ 5 < v % 8) →
    Gives (.registerWrite .imageReader .b8 0x40000 v) s fun t => Only (s.answer .refused) t [] [(0x0105, 0, 0, 0)]) ∧
  (∀ (v : Nat) (s : State), s.initOn .host = true → s.dev ≠ 0 → s.dev ≠ 5 → s.boot.recovery = false →
    s.mayReach .host true 0x40000 8 = true → v % 8 ≠ s.get R.FLT_CFG_FNSEV →
    Gives (.registerWrite .host .b8 0x40000 v) s fun t => Only (s.answer .refused) t [] [(0x0105, 0, 0, 0)]) ∧
  (∀ (k : Core) (n : Slice) (v : Nat) (s : State), s.initOn (.core k) = true → s.dev ≠ 0 → s.ax[n].used = true → s.oddInPair n = false →
    s.mayReach (.core k) true (0x101800 + n.val * 0x4000) 8 = true → s.axOn (s.lead n) = true →
    v % 8 ≠ s.get (R.SLC_MODE_MODE n) →
    Gives (.registerWrite (.core k) .b8 (0x101800 + n.val * 0x4000) v) s fun t =>
      Only (s.answer .refused) t [] [(0x0105, 0, 0, 0)]) ∧
  (∀ (v : Nat) (s : State), s.initOn .imageReader = true → s.dev = 0 →
    Gives (.registerWrite .imageReader .b8 0 v) s fun t => Only (s.answer .refused) t [] []) ∧
  (∀ (k : Core) (n : Slice) (v : Nat) (s : State), s.initOn (.core k) = true → s.dev ≠ 0 → s.schedRuns = true → s.ax[n].used = true →
    s.mayReach (.core k) true (0x101868 + n.val * 0x4000) 8 = true → v / 2 ^ 49 % 2 ^ 7 = 0 →
    Gives (.registerWrite (.core k) .b8 (0x101868 + n.val * 0x4000) v) s fun t =>
      t = { s.answer .done with staged := s.staged ++
        [⟨R.SLC_SLOBS_THETA_EST n, v % 2 ^ 32, .current, n⟩, ⟨R.SLC_SLOBS_OMEGA_EST n, v / 2 ^ 32 % 2 ^ 16, .current, n⟩,
         ⟨R.SLC_SLOBS_LOCK n, v / 2 ^ 48 % 2, .current, n⟩, ⟨R.SLC_SLOBS_SEQ n, v / 2 ^ 56 % 2 ^ 8, .current, n⟩] })

/-- R22, R26, R27, R469. -/
def Obligations.FabricAccesses : Prop :=
  (∀ (who : Init) (a v : Nat) (s : State), s.initOn who = true → 0x10000000 ≤ a → a < 0x11800000 → a % 8 = 0 →
    s.mayReach who false a 8 = true →
    exec (.fabricAccess who false .b8 a v .clean) s = .next (s.answer (.data (s.bytes a 8)))) ∧
  (∀ (who : Init) (a v : Nat) (s : State), s.initOn who = true → 0x10000000 ≤ a → a < 0x11800000 → a % 8 = 0 →
    s.mayWrite who a = true → s.haltHost who = false → s.schedRuns = true →
    Gives (.fabricAccess who true .b8 a v .clean) s fun t =>
      { t with mem := s.mem } = s.answer .done ∧
      ∀ b : Nat, t.byte b = if a ≤ b ∧ b < a + 8 then v / 256 ^ (b - a) % 256 else s.byte b) ∧
  (∀ (who : Init) (w : Bool) (a v : Nat) (e : EccSeen) (s : State), s.initOn who = true → (∀ k : Core, who ≠ .core k) →
    0x10000000 ≤ a → a < 0x11800000 → a % 8 = 0 → s.boot.recovery = false → s.mayReach who w a 8 = false →
    Gives (.fabricAccess who w .b8 a v e) s fun t => Only (s.answer .refused) t [] [(0x0103, 1, 0, 0)]) ∧
  (∀ (who : Init) (a v : Nat) (s : State), s.initOn who = true → (∀ k : Core, who ≠ .core k) → 0x10000000 ≤ a → a < 0x11800000 →
    a % 8 = 0 → s.mayReach who false a 8 = true →
    Gives (.fabricAccess who false .b8 a v .double) s fun t =>
      Only (s.answer .error) t [] [(0x0102, if s.bankUse ((a - 0x10000000) / 0x80000) = 2 then 0 else 1, 0, 0)]) ∧
  (∀ (bank : Fin 48) (s : State), s.domOn 0 = true → s.pw.sleep = 0 →
    let i := nthD s.arc.scrub bank.val 0
    let u := s.modArc fun x => { x with scrub := setNth x.scrub bank.val ((i + 1) % 65536) }
    exec (.sramScrub bank .clean) s = .next u ∧
    exec (.sramScrub bank .single) s = .next (u.modArc fun x => { x with eccCorr := x.eccCorr + 1 }) ∧
    Gives (.sramScrub bank .double) s fun t => Only u t [] [(0x0102, if s.bankUse bank.val = 2 then 0 else 1, 0, 0)])

/-- R12, R13, R14, R15, R455. -/
def Obligations.DieLinks : Prop :=
  (∀ (l : Link) (c : Bool) (seq : Nat) (s : State), l ≠ .field → (s.link l).up = true →
    seq % 256 = (if c then (s.link l).expC else (s.link l).expD) →
    Gives (.sliceLinkFlit l c seq true .other) s fun t =>
      SameMap s t ∧ t.faults = s.faults ∧
      t.link l = (if c then { s.link l with expC := (seq + 1) % 256, failC := false }
                  else { s.link l with expD := (seq + 1) % 256, failD := false })) ∧
  (∀ (l : Link) (seq code sev skind sindex detail : Nat) (s : State), l ≠ .field → (s.link l).up = true → seq % 256 = (s.link l).expC →
    Gives (.sliceLinkFlit l true seq true (.fault code sev skind sindex detail)) s fun t =>
      SameMap s t ∧ Raises s t [(code, sev, skind, sindex)]) ∧
  (∀ (l : Link) (c : Bool) (seq : Nat) (load : Payload) (s : State), (s.link l).up = true →
    (if c then (s.link l).failC else (s.link l).failD) = false →
    Gives (.sliceLinkFlit l c seq false load) s fun t =>
      OnlyRegs s t [(linkFlds l).2] ∧ t.get (linkFlds l).2 = more s (linkFlds l).2 ∧ t.faults = s.faults ∧
      (if c then (t.link l).failC else (t.link l).failD) = true ∧ (t.link l).up = true) ∧
  (∀ (l : Link) (c : Bool) (seq : Nat) (load : Payload) (s : State), (s.link l).up = true →
    (if c then (s.link l).failC else (s.link l).failD) = true → (l = .field ∨ seq % 256 = if c then (s.link l).expC else (s.link l).expD) →
    Gives (.sliceLinkFlit l c seq false load) s fun t =>
      (t.link l).up = false ∧ t.get (linkFlds l).1 = 0 ∧ t.get R.SYS_DLSTAT_RETRAIN = more s R.SYS_DLSTAT_RETRAIN ∧
      OnlyRegs s t [(linkFlds l).1, R.SYS_DLSTAT_RETRAIN]) ∧
  (∀ (l : Link) (s : State), (s.link l).up = false → (s.dev ≠ 0 ∨ 2 ≤ s.boot.step) → s.domOn 0 = true →
    Gives (.linkRetrainComplete l) s fun t =>
      t.link l = { LinkDyn.reset with up := true } ∧ t.get (linkFlds l).1 = 1 ∧ OnlyRegs s t [(linkFlds l).1] ∧
      t.faults.inbox = s.faults.inbox ++ (if l = .field then s.faults.fieldQueue else []) ∧
      (l = .field → t.faults.fieldQueue = [])) ∧
  (∀ (d : Fin 2) (s : State), s.wdExpired d.val = false → s.domOn (6 + d.val) = true → s.dev ≠ 0 →
    Gives (.sliceLinkWatchdog d) s fun t =>
      SameMap s t ∧ t.wdExpired d.val = true ∧ Raises s t [(0x0101, 4, 3, d.val)] ∧
      ∀ n : Slice, t.ax[n] = if dieOf n = d.val then { s.ax[n] with linkLost := true } else s.ax[n])

/-- Table PIP.9, moves; the half form of MOV is log entry 32, R117: the rounding modes of Table PIP.5, and RM 0. -/
def Obligations.PipMoves : Prop :=
  (∀ (x : PipAt) (f : RForm) (s : State), isDst f.dst = true → isSrc f.sa = true → PipMeets s x f.cond [f.dst, f.sa, f.sb] →
    let c := s.core[x.core]
    let a := BitVec.ofNat 64 (c.reg x.core f.sa)
    let v := if f.hd || f.ha || f.hb then withHalf (BitVec.ofNat 64 (c.reg x.core f.dst)) f.hd (half a f.ha) else a
    let e := c.putReg f.dst v.toNat
    Leaves (.mov x f) s x { e with flags := nz f.sf v e.flags }) ∧
  (∀ (x : PipAt) (f : IForm) (s : State), isDst f.dst = true → PipMeets s x f.cond [f.dst, f.sa] →
    let v := (BitVec.ofNat 32 f.imm).setWidth 64
    let e := s.core[x.core].putReg f.dst v.toNat
    Leaves (.movi x f) s x { e with flags := nz f.sf v e.flags }) ∧
  (∀ (x : PipAt) (f : IForm) (s : State), isDst f.dst = true → PipMeets s x f.cond [f.dst, f.sa] →
    let v := (BitVec.ofNat 32 f.imm).signExtend 64
    let e := s.core[x.core].putReg f.dst v.toNat
    Leaves (.movis x f) s x { e with flags := nz f.sf v e.flags }) ∧
  (∀ (x : PipAt) (f : IForm) (s : State), isDst f.dst = true → PipMeets s x f.cond [f.dst, f.sa] →
    let c := s.core[x.core]
    Leaves (.movhi x f) s x
      (c.putReg f.dst (withHalf (BitVec.ofNat 64 (c.reg x.core f.dst)) true (BitVec.ofNat 32 f.imm)).toNat)) ∧
  OpDD .swap (fun _ _ _ c _ a => (a.rotateLeft 32, c.flags)) ∧
  OpDD .ext (fun _ f _ c _ a => let v := (half a f.ha).signExtend 64; (v, nz f.sf v c.flags)) ∧
  OpDD .ins (fun _ f _ c d a => (withHalf d f.hd (half a f.ha), c.flags)) ∧
  (∀ (x : Int) (n : Nat), 2 * ((x - rnd 1 x n * 2 ^ n).natAbs : Int) ≤ 2 ^ n ∧ (2 * ((x - rnd 1 x n * 2 ^ n).natAbs : Int) = 2 ^ n → rnd 1 x n % 2 = 0)) ∧
  (∀ (x : Int) (n : Nat), rnd 2 x n * 2 ^ n ≤ x ∧ x < (rnd 2 x n + 1) * 2 ^ n) ∧
  (∀ (x : Int) (n : Nat), 2 * ((x - rnd 3 x n * 2 ^ n).natAbs : Int) ≤ 2 ^ n ∧
    (2 * ((x - rnd 3 x n * 2 ^ n).natAbs : Int) = 2 ^ n → x.natAbs ≤ (rnd 3 x n * 2 ^ n).natAbs)) ∧
  (∀ (s : State) (k : Core) (rm : Nat), s.rmode k rm = if rm = 0 then s.get (R.LC_CTRL_RMODE k) else rm)

/-- Table PIP.9, sums and differences (R118, R125); C of a subtraction by log entry 30. -/
def Obligations.PipSums : Prop :=
  (∀ (x : PipAt) (f : RForm) (s : State), isDst f.dst = true → isSrc f.sa = true → isSrc f.sb = true →
    PipMeets s x f.cond [f.dst, f.sa, f.sb] →
    let c := s.core[x.core]
    let a := BitVec.ofNat 64 (c.reg x.core f.sa)
    let b := BitVec.ofNat 64 (c.reg x.core f.sb)
    let v := formed 64 f.sat (a.toInt + b.toInt)
    let e := c.putReg f.dst v.toNat
    Leaves (.add x f) s x { e with flags := nzcv f v (decide (2 ^ 64 ≤ a.toNat + b.toNat)) (misfit 64 (a.toInt + b.toInt)) e.flags }) ∧
  (∀ (x : PipAt) (f : RForm) (s : State), isDst f.dst = true → isSrc f.sa = true → isSrc f.sb = true →
    PipMeets s x f.cond [f.dst, f.sa, f.sb] →
    let c := s.core[x.core]
    let a := BitVec.ofNat 64 (c.reg x.core f.sa)
    let b := BitVec.ofNat 64 (c.reg x.core f.sb)
    let v := formed 64 f.sat (a.toInt - b.toInt)
    let e := c.putReg f.dst v.toNat
    Leaves (.sub x f) s x { e with flags := nzcv f v (decide (a.toNat < b.toNat) == Config.subBorrow) (misfit 64 (a.toInt - b.toInt)) e.flags }) ∧
  (∀ (x : PipAt) (f : IForm) (s : State), isDst f.dst = true → isSrc f.sa = true → PipMeets s x f.cond [f.dst, f.sa] →
    let c := s.core[x.core]
    let a := BitVec.ofNat 64 (c.reg x.core f.sa)
    let b := (BitVec.ofNat 32 f.imm).signExtend 64
    let v := formed 64 f.sat (a.toInt + b.toInt)
    let e := c.putReg f.dst v.toNat
    let ovf := misfit 64 (a.toInt + b.toInt)
    let p := { e.flags with sat := e.flags.sat || (ovf && f.sat) }
    Leaves (.addi x f) s x { e with flags :=
      if f.sf then { p with n := v.msb, z := v == 0, c := decide (2 ^ 64 ≤ a.toNat + b.toNat), v := ovf && !f.sat } else p }) ∧
  OpDD .neg (fun _ f _ c _ a =>
    let v := formed 64 f.sat (-a.toInt)
    let ovf := misfit 64 (-a.toInt)
    let p := { c.flags with sat := c.flags.sat || (ovf && f.sat) }
    (v, if f.sf then { p with n := v.msb, z := v == 0, v := ovf && !f.sat } else p)) ∧
  OpDD .abs (fun _ f _ c _ a =>
    let v := formed 64 f.sat (ab a.toInt)
    let ovf := misfit 64 (ab a.toInt)
    let p := { c.flags with sat := c.flags.sat || (ovf && f.sat) }
    (v, if f.sf then { p with n := v.msb, z := v == 0, v := ovf && !f.sat } else p)) ∧
  (∀ (x : PipAt) (f : RForm) (s : State), f.dst = 0x3F → isSrc f.sa = true → isSrc f.sb = true →
    PipMeets s x f.cond [f.dst, f.sa, f.sb] →
    let c := s.core[x.core]
    let a := BitVec.ofNat 64 (c.reg x.core f.sa)
    let b := BitVec.ofNat 64 (c.reg x.core f.sb)
    Leaves (.cmp x f) s x { c with flags := { c.flags with
      n := (a - b).msb, z := a == b, c := decide (a.toNat < b.toNat) == Config.subBorrow, v := misfit 64 (a.toInt - b.toInt) } }) ∧
  (∀ (x : PipAt) (f : IForm) (s : State), f.dst = 0x3F → isSrc f.sa = true → PipMeets s x f.cond [f.dst, f.sa] →
    let c := s.core[x.core]
    let a := BitVec.ofNat 64 (c.reg x.core f.sa)
    let b := (BitVec.ofNat 32 f.imm).signExtend 64
    Leaves (.cmpi x f) s x { c with flags := { c.flags with
      n := (a - b).msb, z := a == b, c := decide (a.toNat < b.toNat) == Config.subBorrow, v := misfit 64 (a.toInt - b.toInt) } })

/-- Table PIP.9, logic, shifts and CLS; C of SHL by log entry 30, order and searches (R132). -/
def Obligations.PipLogic : Prop :=
  OpDDD .and (fun _ f _ c a b => (a &&& b, nz f.sf (a &&& b) c.flags)) ∧
  OpDDD .or (fun _ f _ c a b => (a ||| b, nz f.sf (a ||| b) c.flags)) ∧
  OpDDD .xor (fun _ f _ c a b => (a ^^^ b, nz f.sf (a ^^^ b) c.flags)) ∧
  OpDD .not (fun _ f _ c _ a => (~~~a, nz f.sf (~~~a) c.flags)) ∧
  OpShift .shl (fun _ f _ c a n =>
    let v := a <<< n
    let p := nz f.sf v c.flags
    (v, if f.sf then { p with c := Config.shlCarry a n, v := decide (v.toInt ≠ a.toInt * 2 ^ n) } else p)) ∧
  OpShift .asr (fun x f s c a n => let v := BitVec.ofInt 64 (rnd (s.rmode x.core f.rm) a.toInt n); (v, nz f.sf v c.flags)) ∧
  OpShift .lsr (fun _ f _ c a n => (a >>> n, nz f.sf (a >>> n) c.flags)) ∧
  (∀ (x : PipAt) (f : RForm) (s : State) (d a : Fin 32), f.dst = d.val → f.sa = a.val →
    PipMeets s x f.cond [f.dst, f.sa, f.sb] →
    let c := s.core[x.core]
    ∃ r : Nat, r ≤ 63 ∧ -(2 ^ (63 - r) : Int) ≤ c.d[a].toInt ∧ c.d[a].toInt < 2 ^ (63 - r) ∧
      (r < 63 → c.d[a].toInt < -(2 ^ (62 - r) : Int) ∨ (2 ^ (62 - r) : Int) ≤ c.d[a].toInt) ∧
      Leaves (.cls x f) s x (putsD c d (BitVec.ofNat 64 r) (if f.sf then { c.flags with z := r == 0 } else c.flags))) ∧
  OpDDD .min (fun _ f _ c a b => let v := if a.toInt ≤ b.toInt then a else b; (v, nz f.sf v c.flags)) ∧
  OpDDD .max (fun _ f _ c a b => let v := if b.toInt ≤ a.toInt then a else b; (v, nz f.sf v c.flags)) ∧
  OpDDD .clamp (fun _ f _ c a b =>
    let r : Int := max (-ab b.toInt) (min (ab b.toInt) a.toInt)
    let v := BitVec.ofInt 64 r
    (v, { nz f.sf v c.flags with c := decide (r ≠ a.toInt) })) ∧
  OpDD .maxi (fun _ _ _ c d a => (searched (fun v b => decide (b < v)) (half a true).toInt
    (searched (fun v b => decide (b < v)) (half a false).toInt d), c.flags)) ∧
  OpDD .mini (fun _ _ _ c d a => (searched (fun v b => decide (v < b)) (half a true).toInt
    (searched (fun v b => decide (v < b)) (half a false).toInt d), c.flags)) ∧
  OpDD .maxai (fun _ _ _ c d a => (searched (fun v b => decide (b < v)) (min (2 ^ 31 - 1) (ab (half a true).toInt))
    (searched (fun v b => decide (b < v)) (min (2 ^ 31 - 1) (ab (half a false).toInt)) d), c.flags))

/-- Table PIP.9, lane arithmetic and multiplication (R118). -/
def Obligations.PipLanes : Prop :=
  OpDDD .add2 (fun _ f _ c a b => lanes2 f c ((half a false).toInt + (half b false).toInt) ((half a true).toInt + (half b true).toInt)) ∧
  OpDDD .sub2 (fun _ f _ c a b => lanes2 f c ((half a false).toInt - (half b false).toInt) ((half a true).toInt - (half b true).toInt)) ∧
  OpDD .negh (fun _ f _ c d a =>
    let e := -(half a f.ha).toInt
    let p := { c.flags with sat := c.flags.sat || (misfit 32 e && f.sat) }
    (withHalf d f.hd (formed 32 f.sat e), if f.sf then { p with v := misfit 32 e && !f.sat } else p)) ∧
  OpDDD .qmul2 (fun x f s c a b =>
    let l := rnd (s.rmode x.core f.rm) ((half a false).toInt * (half b false).toInt) 31
    let h := rnd (s.rmode x.core f.rm) ((half a true).toInt * (half b true).toInt) 31
    let past := misfit 32 l || misfit 32 h
    let p := { c.flags with sat := c.flags.sat || past }
    (clamped 32 h ++ clamped 32 l, if f.sf then { p with v := past } else p)) ∧
  OpDDD .mull (fun _ f _ c a b =>
    let v := BitVec.ofInt 64 ((half a f.ha).toInt * (half b f.hb).toInt)
    (v, nz f.sf v c.flags)) ∧
  OpDDD .mul (fun _ f _ c a b =>
    let p := nz f.sf (a * b) c.flags
    (a * b, if f.sf then { p with v := misfit 64 (a.toInt * b.toInt) } else p))

/-- SINCOS and VLIM within their error bounds (log entries 22 and 31). -/
def Obligations.PipBounded : Prop :=
  (∀ (x : PipAt) (f : RForm) (s : State) (d a : Fin 32), f.dst = d.val → f.sa = a.val →
    PipMeets s x f.cond [f.dst, f.sa, f.sb] →
    let c := s.core[x.core]
    let q := qTurn 32 (c.d[a].toNat % 2 ^ 32)
    ∃ co si : Int, ab (co * 2 ^ 32 - q.1 / 2 ^ 57) ≤ 3 * 2 ^ 32 ∧ ab (si * 2 ^ 32 - q.2 / 2 ^ 57) ≤ 3 * 2 ^ 32 ∧
      Leaves (.sincos x f) s x (putsD c d (clamped 32 si ++ clamped 32 co) c.flags)) ∧
  (∀ (x : PipAt) (f : RForm) (s : State) (d a b : Fin 32), f.dst = d.val → f.sa = a.val → f.sb = b.val →
    PipMeets s x f.cond [f.dst, f.sa, f.sb] →
    let c := s.core[x.core]
    let l := (half c.d[a] false).toInt
    let h := (half c.d[a] true).toInt
    let m := ab ((half c.d[b] false).toInt)
    (l * l + h * h ≤ m * m → Leaves (.vlim x f) s x (putsD c d c.d[a] { c.flags with c := false })) ∧
    (m * m < l * l + h * h →
      let r : Int := isqrt ((l * l + h * h).toNat * 2 ^ 64)
      ∃ vl vh : Int, ab (vl * 2 ^ 32 - Int.fdiv (l * m * 2 ^ 64) r) ≤ 4 * 2 ^ 32 ∧ ab (vh * 2 ^ 32 - Int.fdiv (h * m * 2 ^ 64) r) ≤ 4 * 2 ^ 32 ∧
        Leaves (.vlim x f) s x (putsD c d (clamped 32 vh ++ clamped 32 vl)
          { c.flags with c := true, sat := c.flags.sat || misfit 32 vl || misfit 32 vh })))

/-- Table PIP.9, accumulators (R118). -/
def Obligations.PipAccumulate : Prop :=
  OpAcc .mac1 (fun acc p => acc + p) ∧ OpAcc .msu1 (fun acc p => acc - p) ∧ OpAcc .mac1z (fun _ p => p) ∧
  OpAcc4 .mac4 (fun acc p => acc + p) ∧ OpAcc4 .msu4 (fun acc p => acc - p) ∧ OpAcc4 .mac4z (fun _ p => p) ∧
  (∀ (x : PipAt) (f : RForm) (s : State) (a : Fin 32) (i : Fin 4), f.dst = 0x30 + i.val → f.sa = a.val → f.sh ≤ 32 →
    PipMeets s x f.cond [f.dst, f.sa, f.sb] →
    let c := s.core[x.core]
    Leaves (.lda x f) s x { c with acc := c.acc.set i (BitVec.ofInt 96 (c.d[a].toInt * 2 ^ f.sh)) }) ∧
  (∀ (x : PipAt) (f : RForm) (s : State), PipMeets s x f.cond [f.dst, f.sa, f.sb] →
    let c := s.core[x.core]
    Leaves (.clra x f) s x { c with acc := Vector.ofFn fun i : Fin 4 => if f.sh.testBit i.val then 0 else c.acc[i] }) ∧
  (∀ (x : PipAt) (f : RForm) (s : State) (d : Fin 32) (i : Fin 4), f.dst = d.val → f.sa = 0x30 + i.val → f.sh ≤ 95 →
    PipMeets s x f.cond [f.dst, f.sa, f.sb] →
    let c := s.core[x.core]
    let v := rnd (s.rmode x.core f.rm) c.acc[i].toInt f.sh
    let p := { c.flags with sat := c.flags.sat || misfit 32 v }
    Leaves (.mva x f) s x
      (putsD c d (withHalf c.d[d] f.hd (clamped 32 v)) (if f.sf then { p with v := misfit 32 v } else p))) ∧
  (∀ (x : PipAt) (f : RForm) (s : State) (d : Fin 32) (i : Fin 4), f.dst = d.val → f.sa = 0x30 + i.val → f.sh ≤ 95 →
    PipMeets s x f.cond [f.dst, f.sa, f.sb] →
    let c := s.core[x.core]
    let v := rnd (s.rmode x.core f.rm) c.acc[i].toInt f.sh
    let p := { c.flags with sat := c.flags.sat || misfit 64 v }
    Leaves (.mvaw x f) s x (putsD c d (clamped 64 v) (if f.sf then { p with v := misfit 64 v } else p)))

/-- R120, R121, R122. -/
def Obligations.PipStages : Prop :=
  (∀ (x : PipAt) (f : RForm) (s : State) (n a : Fin 32), f.dst = n.val → f.sa = a.val → 1 ≤ f.sh → f.sh ≤ 8 → n.val + f.sh ≤ 32 →
    (a.val < n.val ∨ n.val + f.sh ≤ a.val) → PipMeets s x f.cond ([f.dst, f.sa, f.sb] ++ stageRegs f.dst f.sh) →
    let c := s.core[x.core]
    let e := (c.d[a].setWidth 16).toInt
    e ≥ -128 → e ≤ 127 →
    Gives (.snrm x f) s fun t =>
      let u := t.core[x.core]
      PipNext s t x.core ∧ (u.a, u.o, u.acc) = (c.a, c.o, c.acc) ∧
      (∀ j : Fin 32, j ≠ a → (j.val < n.val ∨ n.val + f.sh ≤ j.val) → u.d[j] = c.d[j]) ∧
      ((∀ j : Fin 32, n.val ≤ j.val → j.val < n.val + f.sh → c.d[j] = 0) →
        u.d = c.d.set a (BitVec.ofInt 64 (-128)) ∧ u.flags = if f.sf then { c.flags with z := true } else c.flags) ∧
      ((∃ j : Fin 32, n.val ≤ j.val ∧ j.val < n.val + f.sh ∧ c.d[j] ≠ 0) →
        ∃ k : Nat, -128 ≤ e - k ∧ u.d[a] = BitVec.ofInt 64 (e - k) ∧
          (∀ j : Fin 32, n.val ≤ j.val → j.val < n.val + f.sh → ∀ h : Bool, (half u.d[j] h).toInt = (half c.d[j] h).toInt * 2 ^ k) ∧
          u.flags = if f.sf then { c.flags with z := false } else c.flags)) ∧
  (∀ (x : PipAt) (f : RForm) (s : State) (n a b : Fin 32), f.dst = n.val → f.sa = a.val → f.sb = b.val → 1 ≤ f.sh → f.sh ≤ 8 →
    n.val + f.sh ≤ 32 → (a.val < n.val ∨ n.val + f.sh ≤ a.val) →
    PipMeets s x f.cond ([f.dst, f.sa, f.sb] ++ stageRegs f.dst f.sh) →
    let c := s.core[x.core]
    let e := (c.d[a].setWidth 16).toInt
    let g := (c.d[b].setWidth 16).toInt
    e ≥ -128 → e ≤ 127 → g ≥ -128 → g ≤ 127 →
    Gives (.saln x f) s fun t =>
      let u := t.core[x.core]
      PipNext s t x.core ∧ (u.a, u.o, u.acc) = (c.a, c.o, c.acc) ∧
      (∀ j : Fin 32, j ≠ a → (j.val < n.val ∨ n.val + f.sh ≤ j.val) → u.d[j] = c.d[j]) ∧
      u.d[a] = BitVec.ofInt 64 (max e g) ∧ u.flags = (if f.sf then { c.flags with v := false } else c.flags) ∧
      (∀ j : Fin 32, n.val ≤ j.val → j.val < n.val + f.sh → ∀ h : Bool,
        (half u.d[j] h).toInt = if e < g then rnd (s.rmode x.core f.rm) (half c.d[j] h).toInt (g - e).toNat else (half c.d[j] h).toInt)) ∧
  (∀ (x : PipAt) (f : RForm) (s : State) (d a : Fin 32) (hd : d.val < 31), f.dst = d.val → f.sa = a.val → a ≠ d → a.val ≠ d.val + 1 →
    PipMeets s x f.cond [f.dst, f.sa, f.sb, f.dst + 1] →
    let c := s.core[x.core]
    let e := (c.d[a].setWidth 16).toInt
    let d1 : Fin 32 := ⟨d.val + 1, by omega⟩
    Gives (.anrm x f) s fun t =>
      let u := t.core[x.core]
      PipNext s t x.core ∧ (u.a, u.o, u.acc) = (c.a, c.o, c.acc) ∧ (∀ j : Fin 32, j ≠ a → j ≠ d → j ≠ d1 → u.d[j] = c.d[j]) ∧
      ((∀ i : Fin 4, c.acc[i] = 0) → u.d[d] = 0 ∧ u.d[d1] = 0 ∧ u.d[a] = BitVec.ofInt 64 (-128) ∧
        u.flags = if f.sf then { c.flags with z := true, v := false } else c.flags) ∧
      ((∃ i : Fin 4, c.acc[i] ≠ 0) → ∃ n : Int, -128 ≤ n ∧ n ≤ 127 ∧ u.d[a] = BitVec.ofInt 64 n ∧
        (u.flags.sat = c.flags.sat → c.flags.sat = false →
          (half u.d[d] false).toInt = rndScale (s.rmode x.core f.rm) c.acc[(0 : Fin 4)].toInt (e - 31 - n) ∧
          (half u.d[d] true).toInt = rndScale (s.rmode x.core f.rm) c.acc[(1 : Fin 4)].toInt (e - 31 - n) ∧
          (half u.d[d1] false).toInt = rndScale (s.rmode x.core f.rm) c.acc[(2 : Fin 4)].toInt (e - 31 - n) ∧
          (half u.d[d1] true).toInt = rndScale (s.rmode x.core f.rm) c.acc[(3 : Fin 4)].toInt (e - 31 - n))))

/-- R113, R114, R115, Table PIP.4, Table PIP.9: loads. That the value is the one at issue is log entry 32. -/
def Obligations.PipLoads : Prop :=
  (∀ (x : PipAt) (f : MForm) (e : EccSeen) (s : State), isDst f.dt = true → MemMeets s x f [f.dt] 8 e →
    s.readCode (.core x.core) (s.core[x.core].effAddr f) 8 = 0 →
    Loads (.ld x f e) s x f 8 (fun v => [(f.dt, v)]) none) ∧
  (∀ (x : PipAt) (f : MForm) (e : EccSeen) (s : State), isD f.dt = true → MemMeets s x f [f.dt] 4 e →
    s.readCode (.core x.core) (s.core[x.core].effAddr f) 4 = 0 →
    Loads (.ldw x f e) s x f 4 (fun v => [(f.dt, ((BitVec.ofNat 32 v).signExtend 64).toNat)]) none) ∧
  (∀ (x : PipAt) (f : MForm) (e : EccSeen) (s : State), isD f.dt = true → MemMeets s x f [f.dt] 4 e →
    s.readCode (.core x.core) (s.core[x.core].effAddr f) 4 = 0 →
    Loads (.ldh x f e) s x f 4 (fun v => [(f.dt, v)]) (some f.hd)) ∧
  (∀ (x : PipAt) (f : MForm) (e : EccSeen) (s : State), f.dt < 31 → MemMeets s x f [f.dt, f.dt + 1] 16 e →
    s.readCode (.core x.core) (s.core[x.core].effAddr f) 16 = 0 →
    Loads (.ldq x f e) s x f 16 (fun v => [(f.dt, v % 2 ^ 64), (f.dt + 1, v / 2 ^ 64 % 2 ^ 64)]) none) ∧
  (∀ (x : PipAt) (f : MForm) (e : EccSeen) (s : State) (b : Fin 32), f.dt = b.val → f.amode ≤ 2 → MemMeets s x f [f.dt] 16 e →
    inLocal x.core.val (s.core[x.core].effAddr f) 16 = true →
    let c := s.core[x.core]
    let v := s.coreValue x.core (c.effAddr f) 16
    Gives (.macl4 x f e) s fun t =>
      PipNext s t x.core ∧
      regsOf t.core[x.core] = regsOf (accs4 (fun acc p => acc + p) (c.stepA f) (BitVec.ofNat 64 v) (BitVec.ofNat 64 (v / 2 ^ 64))
        (half c.d[b] f.hd).toInt)) ∧
  (∀ (k : Core) (s : State) (l : LoadDyn) (r : List LoadDyn), s.core[k].loads = l :: r →
    Gives (.loadDataArrival k) s fun t =>
      { t with core := s.core } = s ∧ (∀ j : Core, j ≠ k → t.core[j] = s.core[j]) ∧
      t.core[k] = { s.core[k].landLoad l with loads := r })

/-- R113, R114, R115, Table PIP.9: stores. -/
def Obligations.PipStores : Prop :=
  (∀ (x : PipAt) (f : MForm) (s : State), isSrc f.dt = true → MemMeets s x f [f.dt] 8 .clean →
    s.coreMayStore x.core (s.core[x.core].effAddr f) 8 = true →
    Stores (.st x f) s x f 8 (s.core[x.core].reg x.core f.dt)) ∧
  (∀ (x : PipAt) (f : MForm) (s : State) (d : Fin 32), f.dt = d.val → MemMeets s x f [f.dt] 4 .clean →
    s.coreMayStore x.core (s.core[x.core].effAddr f) 4 = true →
    Stores (.sth x f) s x f 4 (half s.core[x.core].d[d] f.hd).toNat) ∧
  (∀ (x : PipAt) (f : MForm) (s : State) (d : Fin 32) (hd : d.val < 31), f.dt = d.val → MemMeets s x f [f.dt, f.dt + 1] 16 .clean →
    s.coreMayStore x.core (s.core[x.core].effAddr f) 16 = true →
    Stores (.stq x f) s x f 16 (s.core[x.core].d[(⟨d.val + 1, by omega⟩ : Fin 32)] ++ s.core[x.core].d[d]).toNat) ∧
  (∀ (k : Core) (s : State) (w : StoreDyn) (r : List StoreDyn), s.core[k].stores = w :: r →
    (match placeOf w.addr with | .block _ _ => False | _ => True) → s.core[k].wait = .none →
    Gives (.storeAccepted k) s fun t =>
      t.core[k] = { s.core[k] with stores := r } ∧ (∀ j : Core, j ≠ k → t.core[j] = s.core[j]) ∧
      OnlyRegs s t [R.LC_DBG_PC k] ∧
      ∀ b : Nat, t.byte b = if w.addr ≤ b ∧ b < w.addr + w.size then w.data / 256 ^ (b - w.addr) % 256 else s.byte b)

/-- Table PIP.9, control flow; R127 to R131. -/
def Obligations.PipFlow : Prop :=
  (∀ (x : PipAt) (f : BForm) (s : State), f.creg = 0 → PipMeets s x f.cond [] → (∀ l ∈ s.core[x.core].levels, l.last ≠ s.core[x.core].pc) →
    Gives (.br x f) s fun t =>
      let c := s.core[x.core]
      PipFrame s t x.core ∧ regsOf t.core[x.core] = regsOf c ∧
      t.core[x.core].pc = (BitVec.ofNat 32 c.pc + 8 * BitVec.ofNat 32 f.offset).toNat ∧
      t.core[x.core].levels = closeLevels c.levels t.core[x.core].pc) ∧
  (∀ (x : PipAt) (f : BForm) (s : State), f.creg = 0 → PipMeets s x f.cond [0x27] →
    (∀ l ∈ s.core[x.core].levels, l.last ≠ s.core[x.core].pc) →
    Gives (.call x f) s fun t =>
      let c := s.core[x.core]
      PipFrame s t x.core ∧ regsOf t.core[x.core] = regsOf { c with a := c.a.set 7 (BitVec.ofNat 32 (c.pc + 8)) } ∧
      t.core[x.core].pc = (BitVec.ofNat 32 c.pc + 8 * BitVec.ofNat 32 f.offset).toNat ∧ t.core[x.core].levels = c.levels) ∧
  (∀ (x : PipAt) (f : RForm) (s : State), f.sa < 0x28 → PipMeets s x f.cond [f.dst, f.sa, f.sb] →
    (∀ l ∈ s.core[x.core].levels, l.last ≠ s.core[x.core].pc) →
    Gives (.jmp x f) s fun t =>
      let c := s.core[x.core]
      PipFrame s t x.core ∧ regsOf t.core[x.core] = regsOf c ∧ t.core[x.core].pc = c.reg x.core f.sa % 2 ^ 32 ∧
      t.core[x.core].levels = c.levels) ∧
  (∀ (x : PipAt) (f : BForm) (s : State) (n : Nat), PipMeets s x f.cond [f.creg] → s.core[x.core].levels = [] →
    (f.creg = 0x3F ∧ n = f.icount ∨ ∃ b : Fin 32, f.creg = b.val ∧ n = s.core[x.core].d[b].toNat % 2 ^ 32) →
    Gives (.rep x f) s fun t =>
      let c := s.core[x.core]
      PipFrame s t x.core ∧ regsOf t.core[x.core] = regsOf c ∧
      if n = 0 then t.core[x.core].levels = [] ∧ t.core[x.core].pc = c.pc + 8 * (f.len + 1) + 8
      else t.core[x.core].levels = [⟨c.pc + 8, c.pc + 8 * (f.len + 1), n⟩] ∧ t.core[x.core].pc = c.pc + 8) ∧
  (∀ (x : PipAt) (f : RForm) (s : State), PipMeets s x f.cond [f.dst, f.sa, f.sb] → Leaves (.nop x f) s x s.core[x.core]) ∧
  (∀ (x : PipAt) (f : RForm) (s : State), PipMeets s x f.cond [f.dst, f.sa, f.sb] → s.core[x.core].stores = [] →
    Leaves (.fence x f) s x s.core[x.core]) ∧
  (∀ (x : PipAt) (f : RForm) (s : State), PipMeets s x f.cond [f.dst, f.sa, f.sb] → x.ecc = .clean → s.dev ≠ 4 →
    Gives (.brk x f) s fun t =>
      { t with core := s.core, regs := s.regs } = s ∧ (∀ j : Core, j ≠ x.core → t.core[j] = s.core[j]) ∧
      regsOf t.core[x.core] = regsOf s.core[x.core] ∧
      (t.core[x.core].levels, t.core[x.core].pc) = stepPast s.core[x.core].levels s.core[x.core].pc ∧
      OnlyRegs s t [R.LC_DBG_PC x.core, R.LC_STAT_BRKCNT x.core] ∧
      t.get (R.LC_STAT_BRKCNT x.core) = satN (2 ^ (R.LC_STAT_BRKCNT x.core).w - 1) (s.get (R.LC_STAT_BRKCNT x.core) + 1))

/-- R123, R127, R133, Table PIP.10. -/
def Obligations.PipEnds : Prop :=
  (∀ (x : PipAt) (f : RForm) (s : State), PipMeets s x f.cond [f.dst, f.sa, f.sb] →
    (∀ l ∈ s.core[x.core].levels, l.last ≠ s.core[x.core].pc) →
    s.core[x.core].stores = [] → (s.outEdge (s.pipOf x.core) (f.sh % 8)).isSome = true →
    Gives (.post x f) s fun t =>
      t.mem = s.mem ∧ regsOf t.core[x.core] = regsOf s.core[x.core] ∧ t.core[x.core].wait = .none ∧
      (t.core[x.core].levels, t.core[x.core].pc) = stepPast s.core[x.core].levels s.core[x.core].pc ∧
      t.core[x.core].posted.testBit (f.sh % 8) = true ∧
      t.sched.notes = s.sched.notes ++ (if s.core[x.core].posted.testBit (f.sh % 8) then [] else [(x.core.val, .post (f.sh % 8))])) ∧
  (∀ (x : PipAt) (f : RForm) (s : State), PipMeets s x f.cond [f.dst, f.sa, f.sb] →
    (∀ l ∈ s.core[x.core].levels, l.last ≠ s.core[x.core].pc) →
    s.core[x.core].stores = [] → s.core[x.core].flags.sat = false →
    Gives (.done x f) s fun t =>
      t.mem = s.mem ∧ t.faults = s.faults ∧ regsOf t.core[x.core] = regsOf s.core[x.core].landAll ∧ t.core[x.core].run = none ∧
      t.core[x.core].levels = [] ∧ t.core[x.core].loads = [] ∧
      t.get (R.LC_STAT_STATE x.core) = (if s.on (R.LC_DBG_HALTED x.core) then 2 else 0) ∧
      t.sched.notes = s.sched.notes ++ ((upto 8).filter fun e =>
        (s.outEdge (s.pipOf x.core) e).isSome && !s.core[x.core].posted.testBit e).map (fun e => (x.core.val, .post e)) ++
        [(x.core.val, .done)]) ∧
  (∀ (x : PipAt) (w : Nat) (s : State), s.coreReady x.core = true → inLocal x.core.val s.core[x.core].pc 8 = true →
    s.core[x.core].pc % 8 = 0 → x.ecc ≠ .double → s.pipOf x.core < 4096 → s.core[x.core].pc < 2 ^ 32 →
    Gives (.illegalInstruction x w) s fun t =>
      t.mem = s.mem ∧ t.core[x.core].run = none ∧ t.get (R.LC_FAULT_CODE x.core) = 1 ∧ t.get (R.LC_FAULT_VALID x.core) = 1 ∧
      t.get (R.LC_FAULT_PIPID x.core) = s.pipOf x.core ∧ t.get (R.LC_FAULT_PC x.core) = s.core[x.core].pc ∧
      t.sched.notes = s.sched.notes ++ [(x.core.val, .abandoned)] ∧
      Raises s t (if s.dev = 5 then [] else [(0x0501, 4, 4, s.pipGroup (s.pipOf x.core))]))

/-- R134, R139, R200. -/
def Obligations.CoreDebug : Prop :=
  (∀ (k : Core) (s : State), s.fullService = true → exec (.halt k) s = .next (s.set (R.LC_DBG_HALT k) 1)) ∧
  (∀ (k : Core) (s : State), s.fullService = true →
    Gives (.resume k) s fun t =>
      t.get (R.LC_DBG_HALT k) = 0 ∧ t.get (R.LC_DBG_HALTED k) = 0 ∧ t.mem = s.mem ∧
      t.core[k] = { s.core[k] with stopReq := false, stepArmed := false } ∧
      (s.get (R.LC_DBG_HALTED k) = 1 → t.get (R.LC_STAT_STATE k) = if s.core[k].run.isSome then 1 else 0)) ∧
  (∀ (k : Core) (s : State), s.fullService = true → s.get (R.LC_DBG_HALTED k) = 1 →
    exec (.step k) s = .next (s.modCore k fun c => { c with stepArmed := true })) ∧
  (∀ (k : Core) (pl : List Nat) (s : State), s.dev = 4 → s.get (R.LC_STAT_STATE k) ≤ 1 → s.core[k].wait = .none →
    s.get (R.LC_DBG_HALT k) = 1 → (∀ n : Slice, s.bitOf (R.SLC_PWMCFG_FRZMASK n) k = false) → s.core[k].pc < 2 ^ 32 →
    Gives (.coreDebugHalted k pl) s fun t =>
      t.get (R.LC_STAT_STATE k) = 2 ∧ t.get (R.LC_DBG_HALTED k) = 1 ∧ t.get (R.LC_DBG_PC k) = s.core[k].pc ∧ t.pwm = s.pwm ∧
      t.core[k] = { s.core[k] with stopReq := false }) ∧
  (∀ (k : Core) (s : State), s.get (R.LC_STAT_STATE k) ≠ 3 →
    let i := nthD s.arc.lcScrub k.val 0
    let u := { s with arc := { s.arc with lcScrub := setNth s.arc.lcScrub k.val ((i + 1) % 32768) } }
    exec (.localMemoryScrub k .clean) s = .next u ∧
    exec (.localMemoryScrub k .single) s =
      .next ((u.bump (R.LC_ECC_CORR k)).set (R.LC_ECC_LASTADDR k) (0x400000 + k.val * 0x40000 + i % 32768 * 8)))

/-- R35, R52, R53, R59, R60, R359, R476. -/
def Obligations.RindAndPresence : Prop :=
  (∀ s : State, s.boot.rind = false → Gives .rindStart s fun t =>
    t.boot.rind = true ∧ t.mem = [] ∧ t.faults = State.reset.faults ∧ (t.boot.slotA, t.boot.slotB) = (s.boot.slotA, s.boot.slotB) ∧
    t.get R.PWR_STAT_PFAIL = 1 ∧ t.get R.NET_MAC_MAC = factoryMac ∧
    ∀ f : Fld, f.key ≠ R.PWR_STAT_PFAIL.key → f.key ≠ R.NET_MAC_MAC.key →
      t.get f = if fixedWord f.key then s.get f else f.rst % 2 ^ f.w) ∧
  (∀ s : State, Gives .rindDropout s fun t =>
    t.boot.rind = false ∧ t.mem = [] ∧ t.faults = State.reset.faults ∧ (t.boot.slotA, t.boot.slotB) = (s.boot.slotA, s.boot.slotB) ∧
    ∀ f : Fld, t.get f = if fixedWord f.key then s.get f else f.rst % 2 ^ f.w) ∧
  (∀ s : State, s.boot.rind = true → s.boot.seq = 0 → s.boot.waitRetry = false → s.boot.failed = false → s.pw.sleep = 0 →
    s.leaving = false → s.boot.pfailed = false →
    Gives .presenceRecognised s fun t =>
      t.get R.PWR_STAT_PRESENT = 1 ∧ t.get R.SYS_STRAP_PRES0 = 1 ∧ t.get R.SYS_STRAP_PRES1 = 1 ∧
      OnlyRegs s t [R.PWR_STAT_PRESENT, R.SYS_STRAP_PRES0, R.SYS_STRAP_PRES1] ∧
      t.boot.seq = if s.boot.feedA.stable || s.boot.feedB.stable then 1 else 0) ∧
  (∀ s : State, s.boot.rind = true → s.on R.PWR_STAT_PRESENT = true → s.leaving = false →
    Gives .removalRecognised s fun t =>
      t.leaving = true ∧ t.boot.removed = true ∧ t.boot.step = 0 ∧ t.boot.failed = false ∧
      t.get R.PWR_STAT_PRESENT = 0 ∧ ¬(t.get R.SYS_STRAP_PRES0 = 1 ∧ t.get R.SYS_STRAP_PRES1 = 1) ∧
      t.get R.PWR_CNT_REMOVE = more s R.PWR_CNT_REMOVE ∧ ∀ n : Slice, t.drive n = .low) ∧
  (∀ s : State, s.boot.rind = true → s.leaving = false →
    Gives .powerFail s fun t =>
      t.leaving = true ∧ t.boot.pfailed = true ∧ t.boot.feedA.stable = false ∧ t.boot.feedB.stable = false ∧
      t.get R.PWR_CNT_PFAIL_CNT = more s R.PWR_CNT_PFAIL_CNT ∧ ∀ n : Slice, t.drive n = .low) ∧
  (∀ s : State, s.leaving = true → s.boot.departed = false → s.domOn 3 = true →
    let m : OwnMsg := .depart (if s.boot.pfailed && !s.boot.removed then 2 else 1)
    exec .departureNotice s = .next { s with
      boot := { s.boot with departed := true },
      outbox := s.outbox ++ (if s.on (R.NET_PSTAT_LINK 0) then [(0, 2, m)] else []) ++ (if s.on (R.NET_PSTAT_LINK 1) then [(1, 2, m)] else []) }) ∧
  (∀ s : State, s.leaving = true → Gives .switchedDomainsOff s fun t =>
    t.get R.PWR_STAT_DOM_ON = 0 ∧ t.mem = [] ∧ t.boot.flOn = false ∧ t.faults.log = s.faults.log ∧ t.faults.latched = [] ∧ t.dev = 0 ∧
    (s.on R.PWR_STAT_PRESENT = false → t.leaving = true ∧ t.boot.seq = 0))

/-- R48, R49, R50, R51. -/
def Obligations.Feeds : Prop :=
  (∀ (f : Fin 2) (s : State), s.boot.rind = true → (s.feed f).isOpen = false →
    Gives (.feedValid f) s fun t =>
      t.feed f = { s.feed f with valid := true } ∧ t.feed (1 - f) = s.feed (1 - f) ∧ t.mem = s.mem ∧ t.faults = s.faults ∧
      t.get (feedFields f).1 = 1 ∧ OnlyRegs s t [(feedFields f).1, R.PWR_STAT_FA_ACT, R.PWR_STAT_FB_ACT] ∧
      ((s.feed (1 - f)).valid = false → t.get (feedFields f).2.1 = 1 ∧ t.get (feedFields (1 - f)).2.1 = 0)) ∧
  (∀ (f : Fin 2) (s : State), (s.feed f).valid = true → (s.feed (1 - f)).stable = true → s.domOn 0 = true →
    Gives (.feedInvalid f) s fun t =>
      (t.feed f).valid = false ∧ (t.feed f).stable = false ∧ (t.feed f).lost = true ∧ t.feed (1 - f) = s.feed (1 - f) ∧
      t.get (feedFields f).1 = 0 ∧ t.get (feedFields f).2.2.1 = 1 ∧ t.get (feedFields f).2.2.2 = more s (feedFields f).2.2.2 ∧
      Raises s t [(0x0201, 1, 0, 0)] ∧
      OnlyRegs s t [(feedFields f).1, (feedFields f).2.2.1, (feedFields f).2.2.2, R.PWR_STAT_FA_ACT, R.PWR_STAT_FB_ACT]) ∧
  (∀ (f : Fin 2) (s : State), (s.feed f).valid = true → s.domOn 0 = true →
    Gives (.feedStable f) s fun t =>
      t.feed f = { s.feed f with stable := true, lost := false } ∧ t.feed (1 - f) = s.feed (1 - f) ∧
      Raises s t (if (s.feed f).lost then [(0x0202, 0, 0, 0)] else [])) ∧
  (∀ (f : Fin 2) (s : State), Gives (.feedCurrentLimit f) s fun t =>
    (t.feed f).isOpen = true ∧ (t.feed f).valid = false ∧ t.feed (1 - f) = s.feed (1 - f)) ∧
  (∀ (f : Fin 2) (s : State), Gives (.feedRetry f) s fun t =>
    t.feed f = { s.feed f with isOpen := false } ∧ t.feed (1 - f) = s.feed (1 - f) ∧ t.regs = s.regs)

/-- R55, R56, R57, R42, R408. -/
def Obligations.PowerSequencer : Prop :=
  (∀ s : State, 1 ≤ s.boot.seq → s.boot.seq ≤ 7 → s.boot.ready = true → s.leaving = false →
    exec .powerSequenceStep s = .next { s with boot := { s.boot with seq := s.boot.seq + 1, ready := false } }) ∧
  (∀ (d : Fin 8) (s : State), s.boot.seq = d.val + 1 → s.boot.ready = false → s.leaving = false → d.val < 7 →
    Gives (.domainReady d) s fun t =>
      t.domOn d.val = true ∧ (∀ k : Nat, k < 8 → k ≠ d.val → t.domOn k = s.domOn k) ∧ t.boot = { s.boot with ready := true } ∧
      (d.val = 5 → t.sto = StoDyn.reset ∧ t.get R.SYS_STATE_TORQUE_OFF = 1)) ∧
  (∀ s : State, s.boot.seq = 8 → s.boot.ready = false → s.leaving = false → s.boot.resetLow = false →
    Gives (.domainReady 7) s fun t =>
      t.boot.seq = 9 ∧ t.boot.step = 1 ∧ t.boot.flOn = true ∧ t.dev = 0 ∧ t.mem = [] ∧ t.domOn 7 = true ∧
      t.get R.SYS_STRAP_ADDR = s.get R.SYS_STRAP_ADDR_LIVE ∧ t.get R.SYS_STRAP_RANK = s.get R.SYS_STRAP_RANK_LIVE) ∧
  (∀ s : State, 1 ≤ s.boot.seq → s.boot.seq ≤ 8 → s.boot.ready = false → s.leaving = false →
    Gives .domainReadyTimeout s fun t =>
      t.get R.PWR_STAT_DOM_ON = 0 ∧ t.get R.PWR_STAT_LAST_FAIL_DOM = s.boot.seq ∧ t.get R.PWR_STAT_PWRUP_RETRY = 1 ∧ t.boot.seq = 0 ∧
      t.mem = [] ∧ t.faultN = true ∧
      (if s.boot.retries = 3 then t.boot.failed = true ∧ t.boot.waitRetry = s.boot.waitRetry else t.boot.waitRetry = true)) ∧
  (∀ s : State, s.boot.waitRetry = true → s.inserted = true →
    exec .powerUpRetry s = .next { s with boot :=
      { s.boot with waitRetry := false, retries := s.boot.retries + 1, seq := 1, ready := false } })

/-- R41, R42, R45, R46, R57. -/
def Obligations.ResetAndStraps : Prop :=
  (∀ s : State, s.boot.rind = true → Gives .resetAsserted s fun t =>
    t.boot.resetLow = true ∧ t.boot.flOn = false ∧ t.boot.step = 0 ∧ t.dev = 0 ∧ t.mem = [] ∧ t.faults.latched = [] ∧
    t.get R.TWN_STAT_HOLD_OUT = 0 ∧ ∀ n : Slice, t.drive n = .low) ∧
  (∀ s : State, s.boot.resetLow = true → s.boot.seq = 9 → s.leaving = false →
    Gives .resetReleased s fun t =>
      t.boot.resetLow = false ∧ t.boot.step = 1 ∧ t.boot.flOn = true ∧ t.dev = 0 ∧ t.mem = [] ∧ t.faults.log = s.faults.log ∧
      t.get R.SYS_STRAP_ADDR = s.get R.SYS_STRAP_ADDR_LIVE ∧ t.get R.SYS_STRAP_RANK = s.get R.SYS_STRAP_RANK_LIVE) ∧
  (∀ (a r : Nat) (s : State), s.boot.seq = 9 → s.get R.SYS_STRAP_ADDR_LIVE = s.get R.SYS_STRAP_ADDR →
    s.get R.SYS_STRAP_RANK_LIVE = s.get R.SYS_STRAP_RANK → (a % 16 ≠ s.get R.SYS_STRAP_ADDR ∨ r % 2 ≠ s.get R.SYS_STRAP_RANK) →
    Gives (.strapChange a r) s fun t =>
      Only s t [(R.SYS_STRAP_ADDR_LIVE, a % 16), (R.SYS_STRAP_RANK_LIVE, r % 2), (R.SYS_STRAP_STRAP_CHG, 1)] [(0x0106, 0, 0, 0)]) ∧
  (∀ s : State, exec .tapReset s = .next { s with boot := { s.boot with tapIr := 1, tapEff := 1, tapIdle := true } }) ∧
  (∀ s : State, exec .tapIdcode s = .next { s with boot := { s.boot with tapIr := 1, tapEff := 1, tapIdle := false } } ∧ idcode = 0x0162414B) ∧
  (∀ (p q : List Bool) (s : State), exec (.tapSamplePreload p q) s =
    .next { s with boot := { s.boot with tapIr := 2, tapEff := 2, tapIdle := false, bsr := if q = [] then p else q } }) ∧
  (∀ (c : Instr) (k : Nat) (s : State), (c, k) ∈ [(Instr.tapExtest, 0), (.tapHighz, 4), (.tapClamp, 5)] →
    (s.dev = 4 ∧ s.get R.SYS_CFG_SVCMODE = 2 →
      exec c s = .next { s with boot := { s.boot with tapIr := k, tapEff := k, tapIdle := false } }) ∧
    (¬(s.dev = 4 ∧ s.get R.SYS_CFG_SVCMODE = 2) → s.domOn 0 = true →
      Gives c s fun t => Only { s with boot := { s.boot with tapIr := k, tapEff := 0xFF, tapIdle := false } } t [] [(0x0401, 0, 0, 0)])) ∧
  (∀ (k : Nat) (s : State), k % 256 ∉ [0, 1, 2, 4, 5] →
    exec (.tapBypass k) s = .next { s with boot := { s.boot with tapIr := k % 256, tapEff := 0xFF, tapIdle := false } })

/-- R81, R82, R83, R86, R87; Table IMG.4. -/
def Obligations.IntakeSteps : Prop :=
  (∀ (o : IntakeObs) (s : State), AtStep s 1 → o.ecc = .clean → o.linksOk = true →
    Gives (.intakeStepDone o) s fun t =>
      t.boot.step = 2 ∧ (∀ l : Link, t.link l = { LinkDyn.reset with up := true } ∧ t.get (linkFlds l).1 = 1) ∧ t.mem = s.mem) ∧
  (∀ (o : IntakeObs) (s : State), AtStep s 2 → o.ecc = .clean →
    Gives (.intakeStepDone o) s fun t => t.boot = { s.boot with step := 3 } ∧ SameMap s t ∧ t.faults = s.faults) ∧
  (∀ (o : IntakeObs) (s : State), AtStep s 3 → o.ecc = .clean → o.sfdp = true → o.bfpt = true → 24 ≤ o.densityLog2 → o.densityLog2 < 256 →
    Gives (.intakeStepDone o) s fun t =>
      t.boot = { s.boot with step := 4 } ∧ t.get R.IMG_STAT_RMODE = (if o.octal then 2 else 1) ∧ t.get R.IMG_STAT_FL_DENS = o.densityLog2 ∧
      Raises s t (if o.octal then [] else [(0x0303, 1, 0, 0)]) ∧ OnlyRegs s t [R.IMG_STAT_RMODE, R.IMG_STAT_FL_DENS]) ∧
  (∀ (o : IntakeObs) (s : State), AtStep s 4 → o.ecc = .clean → o.readOk = true →
    (slotCode s.boot.slotA false = 0 ∨ slotCode s.boot.slotB false = 0) →
    Gives (.intakeStepDone o) s fun t =>
      t.boot.step = 5 ∧ t.get R.IMG_CTRL_NEXT = 0 ∧ t.mem = s.mem ∧ slotCode (t.flash t.boot.slot) false = 0 ∧
      (slotCode s.boot.slotA false = 0 → slotCode s.boot.slotB false = 0 →
        t.boot.slot = if s.get R.IMG_CTRL_NEXT = 1 then 0 else if s.get R.IMG_CTRL_NEXT = 2 then 1
          else if (imgHeader s.boot.slotA).gen < (imgHeader s.boot.slotB).gen then 1 else 0)) ∧
  (∀ (o : IntakeObs) (s : State), AtStep s 4 → o.ecc = .clean → o.readOk = true →
    slotCode s.boot.slotA false ≠ 0 → slotCode s.boot.slotB false ≠ 0 →
    Gives (.intakeStepDone o) s fun t => HaltedWith t 0x40) ∧
  (∀ (o : IntakeObs) (s : State), AtStep s 5 → o.ecc = .clean → o.readOk = true → (passOne (s.flash s.boot.slot)).2 = 0 →
    Gives (.intakeStepDone o) s fun t => t.boot = { s.boot with step := 6 } ∧ t.faults = s.faults) ∧
  (∀ (o : IntakeObs) (s : State), AtStep s 6 → o.ecc = .clean → s.signCode (s.flash s.boot.slot) = 0 →
    Gives (.intakeStepDone o) s fun t => t.boot = { s.boot with step := 7 } ∧ SameMap s t) ∧
  (∀ (o : IntakeObs) (s : State), AtStep s 7 → o.ecc = .clean → o.readOk = true → (passTwo (s.flash s.boot.slot) o.rereadOk).1 = 0 →
    Gives (.intakeStepDone o) s fun t => t.boot.step = 8 ∧ t.arc.banks = (passTwo (s.flash s.boot.slot) o.rereadOk).2.1) ∧
  (∀ (o : IntakeObs) (s : State), AtStep s 8 → o.ecc = .clean → s.consistent (s.flash s.boot.slot) = true →
    Gives (.intakeStepDone o) s fun t => t.boot.step = 9 ∧ ∀ n : Slice, t.ax[n] = { s.ax[n] with used := s.slicesUsed.contains n }) ∧
  (∀ (o : IntakeObs) (s : State), AtStep s 9 → o.ecc = .clean → o.hlAck = true →
    Gives (.intakeStepDone o) s fun t =>
      t.boot.step = 0 ∧ t.boot.starting = true ∧ t.boot.slicesLeft = slices.filter (fun n => s.ax[n].used) ∧ t.sto.step10 = true ∧
      t.get R.IMG_STAT_CODE = 0 ∧ t.get R.SCH_STAT_STATE = 1) ∧
  (∀ (o : IntakeObs) (k : Nat) (s : State), AtStep s k → k ≠ 0 → o.ecc = .double →
    Gives (.intakeStepDone o) s fun t => HaltedWith t 0x30)

/-- R85. -/
def Obligations.IntakeTimeLimit : Prop :=
  ∀ (k : Nat) (s : State), AtStep s k → k ≠ 0 → Gives .intakeTimeout s fun t => HaltedWith t 0x3F

/-- R39, R58, R82, R87, R404. -/
def Obligations.IntakeEnds : Prop :=
  (∀ (k : Nat) (s : State), AtStep s k → k ∈ [3, 4, 5, 7] → s.get R.IMG_UPD_STATE ≠ 1 →
    Gives .flashBurstTimeout s fun t => t.dev = 5 ∧ t.get R.IMG_STAT_CODE = 0x04 ∧ (k < 5 → HaltedWith t 0x04)) ∧
  (∀ s : State, UpdRuns s 3 → Gives .flashBurstTimeout s fun t =>
    t.get R.IMG_UPD_STATE = 3 ∧ t.get R.IMG_UPD_UCODE = 4 ∧ t.boot.updCmd = 0 ∧ t.mem = s.mem ∧
    OnlyRegs s t [R.IMG_UPD_STATE, R.IMG_UPD_UCODE]) ∧
  (∀ (k : Nat) (s : State), AtStep s k → k ≠ 0 → s.boot.flOn = true →
    Gives .flashSupplyLimit s fun t => HaltedWith t 0x01 ∧ t.boot.flOn = false) ∧
  (∀ (n : Slice) (r : List Slice) (s : State), s.boot.starting = true → s.boot.slicesLeft = n :: r → s.leaving = false →
    s.boot.resetLow = false →
    Gives .sliceStart s fun t =>
      t.boot.slicesLeft = r ∧ t.ax[n].started = true ∧ t.pwm[n].running = true ∧ t.pwm[n].bnum = 0 ∧
      t.pwm[n].per = s.get (R.SLC_PWMCFG_CPER n) ∧ t.sense[n] = SenseDyn.reset ∧ t.get (R.SLC_PRSTAT_HOMED n) = 0 ∧
      ∀ m : Slice, m ≠ n → t.ax[m] = s.ax[m] ∧ t.pwm[m] = s.pwm[m] ∧ t.sense[m] = s.sense[m]) ∧
  (∀ s : State, s.leaving = false → s.boot.resetLow = false → s.fio.waiting = 0 → s.boot.starting = true → s.boot.slicesLeft = [] →
    s.boot.groupsDone < 6 →
    Gives .fieldGroupEnable s fun t =>
      bit t.fio.groups s.boot.groupsDone = 1 ∧ t.boot.groupsDone = s.boot.groupsDone + 1 ∧ t.fio.wdRun = true ∧
      (s.boot.groupsDone = 5 → t.boot.starting = false ∧ (s.dev = 0 → t.dev = 1)) ∧ (s.boot.groupsDone < 5 → t.regs = s.regs)) ∧
  (∀ (g : Nat) (s : State), s.leaving = false → s.boot.resetLow = false → g < 6 → bit s.fio.waiting g = 1 →
    (∀ j : Nat, j < g → bit s.fio.waiting j = 0) →
    exec .fieldGroupEnable s = .next { s with fio := { s.fio with waiting := clrBit s.fio.waiting g } })

/-- R90, R91, R92, R93, R94. -/
def Obligations.ImageUpdate : Prop :=
  (∀ (k : Fin 2) (s : State), UpdReady s → s.updCode 1 k 0 0 = 0 → UpdBegins (.erase k) s 1 k 0 0) ∧
  (∀ (k : Fin 2) (o n : Nat) (s : State), UpdReady s → s.updCode 2 k o n = 0 → UpdBegins (.program k o n) s 2 k o n) ∧
  (∀ (k : Fin 2) (s : State), UpdReady s → s.updCode 3 k 0 0 = 0 → UpdBegins (.verify k) s 3 k 0 0) ∧
  (∀ s : State, UpdReady s → s.updCode 5 0 0 0 = 0 → UpdBegins .retire s 5 0 0 0) ∧
  (∀ s : State, UpdReady s → s.updCode 7 0 0 0 = 0 → UpdBegins .keyfuse s 7 0 0 0) ∧
  (∀ (c : Instr) (k : Fin 2) (s : State), c ∈ [Instr.erase k, .program k 0 1, .verify k] → UpdReady s → s.boot.recovery = false →
    s.boot.flOn = true → s.get R.IMG_STAT_SLOT = k.val →
    Gives c s fun t => Only { s with boot := { s.boot with updCmd := 0, updAbort := false } } t [(R.IMG_UPD_STATE, 3), (R.IMG_UPD_UCODE, 0x50)] []) ∧
  (∀ (c : Instr) (k : Fin 2) (s : State), c ∈ [Instr.erase k, .program k 0 1, .verify k, .retire, .keyfuse, .abort] → s.updOpen = false →
    Gives c s fun t => Only s t [] [(0x0105, 0, 0, 0)]) ∧
  (∀ s : State, s.updOpen = true → s.leaving = false → s.boot.resetLow = false → s.boot.recovery = false → s.get R.IMG_UPD_STATE = 1 →
    exec .abort s = .next { s with boot := { s.boot with updAbort := true } }) ∧
  (∀ s : State, UpdRuns s 1 → Gives (.imageUpdateComplete true) s fun t =>
    UpdDone t ∧ t.flash s.boot.updSlot = [] ∧ (∀ k : Nat, k < 2 → (s.boot.updSlot = 0 ↔ k ≠ 0) → t.flash k = s.flash k)) ∧
  (∀ s : State, UpdRuns s 2 → Flash.wf (s.flash s.boot.updSlot) = true →
    isErased (s.flash s.boot.updSlot) s.boot.updOff (s.boot.updPages * 256) = true →
    Gives (.imageUpdateComplete true) s fun t =>
      UpdDone t ∧ (∀ k : Nat, k < 2 → (s.boot.updSlot = 0 ↔ k ≠ 0) → t.flash k = s.flash k) ∧
      ∀ i : Nat, flashRd (t.flash s.boot.updSlot) i 1 =
        if s.boot.updOff ≤ i ∧ i < s.boot.updOff + s.boot.updPages * 256 then s.byte (0x11780000 + (i - s.boot.updOff))
        else flashRd (s.flash s.boot.updSlot) i 1) ∧
  (∀ s : State, UpdRuns s 3 → s.verifyCode (s.flash s.boot.updSlot) = 0 → Flash.wf (s.flash s.boot.updSlot) = true →
    flashRd (s.flash s.boot.updSlot) 0xF8 8 = 2 ^ 64 - 1 →
    Gives (.imageUpdateComplete true) s fun t => UpdDone t ∧ flashRd (t.flash s.boot.updSlot) 0xF8 8 = commitWord) ∧
  (∀ s : State, UpdRuns s 5 → Flash.wf (s.flash (s.get R.IMG_STAT_SLOT)) = true → Gives (.imageUpdateComplete true) s fun t =>
    UpdDone t ∧ flashRd (t.flash (s.get R.IMG_STAT_SLOT)) 0xF8 8 = 0) ∧
  (∀ s : State, UpdRuns s 7 → Gives (.imageUpdateComplete true) s fun t =>
    UpdDone t ∧ (∀ i : Fin 4, t.get (R.IMG_KEYH_KEYH i.val) = s.rd (0x11780000 + 8 * i.val) 8) ∧ t.mem = s.mem)

/-- R95, R96, R97, R98, Table STA.2, Table STA.3. -/
def Obligations.DeviceCommands : Prop :=
  (∀ s : State, s.dev = 1 → s.cmdsOn = true → s.on R.TWN_CFG_EN = false →
    Gives .sysRun s fun t => t.dev = 2 ∧ t.get R.SYS_CMD_RESULT = 0 ∧ t.mem = s.mem ∧ t.faults = s.faults ∧ t.ax = s.ax) ∧
  (∀ s : State, s.dev = 1 → s.runCode = 0 → s.on R.TWN_CFG_EN = true → s.rclm = false →
    Gives .sysRun s fun t => t.dev = 3 ∧ t.get R.SYS_CMD_RESULT = 0 ∧ t.get R.TWN_STAT_SYNCED = 0 ∧ t.twin.recs = []) ∧
  (∀ s : State, s.dev = 1 → s.runCode = 0 → s.on R.TWN_CFG_EN = true → s.rclm = true →
    Gives .sysRun s fun t =>
      t.get R.TWN_STAT_LSTATE = 1 ∧ t.get R.TWN_STAT_HOLD_OUT = 1 ∧ t.get R.SYS_STATE_TOKEN = 1 ∧
      ∀ n : Slice, t.pwm[n] = { s.pwm[n] with claimHold := true }) ∧
  (∀ s : State, s.dev = 2 → s.cmdsOn = true → s.axesOff = true →
    Gives .sysHold s fun t => t.dev = 1 ∧ t.get R.SYS_CMD_RESULT = 0 ∧ t.mem = s.mem ∧ t.faults = s.faults ∧
      (s.get R.TWN_STAT_LSTATE = 2 → t.get R.TWN_STAT_HOLD_OUT = 0 ∧ t.get R.TWN_STAT_LSTATE = 0 ∧ t.twin.orderly = true)) ∧
  (∀ s : State, s.serviceCode = 0 → Gives .sysService s fun t =>
    t.dev = 4 ∧ t.get R.SYS_CMD_RESULT = 0 ∧ t.mem = s.mem ∧ t.faults = s.faults ∧ t.ax = s.ax) ∧
  (∀ s : State, s.leaveServiceCode = 0 → Gives .leaveService s fun t =>
    t.dev = 1 ∧ t.get R.SYS_CMD_RESULT = 0 ∧ t.mem = s.mem ∧ t.faults = s.faults ∧ t.ax = s.ax) ∧
  (∀ s : State, s.restartCode = 0 → Gives .restart s fun t =>
    t.dev = 0 ∧ t.boot.step = 1 ∧ t.boot.flOn = true ∧ t.mem = [] ∧ t.faults.latched = [] ∧ t.faults.log = s.faults.log ∧
    ∀ n : Slice, t.axst n = 0) ∧
  (∀ (c : Instr) (code : Nat) (s : State),
    (c, code) ∈ [(Instr.sysRun, s.runCode), (.sysHold, s.holdCode), (.sysService, s.serviceCode), (.leaveService, s.leaveServiceCode),
      (.restart, s.restartCode)] → code ≠ 0 →
    Gives c s fun t => Only s t [(R.SYS_CMD_RESULT, code)] [(0x0401, 0, 0, 0)])

/-- R102, R103, R459, R475, Table STA.5, Table STA.5a. -/
def Obligations.AxisCommands : Prop :=
  (∀ (n : Slice) (s : State), s.enableCheck n = 0 →
    Gives (.enable n) s fun t =>
      t.axst n = 1 ∧ t.get (R.SLC_AXST_PHASE n) = 1 ∧ t.bitOf R.SYS_STATE_AX_ON n = true ∧ t.faults = s.faults ∧ t.mem = s.mem ∧
      t.get (R.SLC_SVSTAT_FE n) = 0 ∧ t.ax[n].precharged = false ∧ t.ax[n].linkLost = false ∧ ∀ m : Slice, m ≠ n → t.axst m = s.axst m) ∧
  (∀ (n : Slice) (s : State), s.enableCheck n ≠ 0 →
    Gives (.enable n) s fun t => Only s t [(R.SLC_AXST_REFUSE n, s.enableCheck n)] [(0x0401, 0, 1, (s.lead n).val)]) ∧
  (∀ (n : Slice) (c : Instr) (k : StopKind) (s : State), (c, k) ∈ [(Instr.stop n, StopKind.stop), (.quickStop n, .quick)] → s.axst n = 2 →
    Gives c s fun t =>
      t.axst n = 3 ∧ t.ax[n].stop = k ∧ t.prof[n].plan = none ∧ t.mem = s.mem ∧ t.faults = s.faults ∧
      ∀ m : Slice, m ≠ n → t.axst m = s.axst m) ∧
  (∀ (n : Slice) (s : State), s.axst n = 3 →
    exec (.stop n) s = .next s ∧
    Gives (.quickStop n) s fun t =>
      t.ax[n].stop = (if s.ax[n].stop = .f2 then .f2 else .quick) ∧ t.axst n = 3 ∧ t.faults = s.faults ∧ t.mem = s.mem) ∧
  (∀ (n : Slice) (c : Instr) (s : State), c ∈ [Instr.stop n, .quickStop n, .disable n] → s.axst n = 1 →
    Gives c s fun t => t.axst n = 0 ∧ t.get (R.SLC_AXST_PHASE n) = 0 ∧ t.mem = s.mem ∧ t.faults = s.faults ∧
      ∀ m : Slice, m ≠ n → t.axst m = s.axst m) ∧
  (∀ (n : Slice) (s : State), s.axst n = 2 ∨ s.axst n = 3 →
    Gives (.disable n) s fun t =>
      t.axst n = 0 ∧ (n ∉ s.followers n → t.get (R.SLC_AXST_CAUSE n) = 1) ∧ t.ax[n].brakeHold = true ∧ t.prof[n].plan = none ∧ t.mem = s.mem ∧
      t.faults = s.faults ∧ (s.lead n = n → t.drive n ≠ .run) ∧ ∀ m : Slice, m ≠ n → t.axst m = s.axst m) ∧
  (∀ (n : Slice) (s : State), s.clearAxisCode n = 0 →
    Gives (.clear n) s fun t =>
      t.get R.FLT_CMD_RESULT = 0 ∧ t.faults.latched = s.faults.latched.filter (fun l => !(l.skind == 1 && l.sindex == n.val)) ∧
      t.faults.inbox = s.faults.inbox ∧ t.axst n = (if s.axst n = 4 then 0 else s.axst n) ∧ t.get (R.SLC_OCSTAT_TRIP n) = 0 ∧
      t.get (R.SLC_OCSTAT_SWFAULT n) = 0 ∧ t.mem = s.mem) ∧
  (∀ (n : Slice) (s : State), s.clearAxisCode n ≠ 0 →
    Gives (.clear n) s fun t => Only s t [(R.FLT_CMD_RESULT, s.clearAxisCode n)]
      [(0x0401, 0, if s.clearAxisCode n = 4 then 0 else 1, if s.clearAxisCode n = 4 then 0 else n.val)])

/-- R58, R108, R167, R199, R264, R398, Table STA.8. -/
def Obligations.EnableSteps : Prop :=
  (∀ (n : Slice) (o : EnableObs) (s : State), s.lead n = n → s.axst n = 1 → s.get (R.SLC_AXST_PHASE n) = 1 →
    (∀ k : Fin 3, o.spread.leg k ≤ 64 ∧ (o.mean.leg k).natAbs ≤ s.get (R.SLC_ISCFG_OFFLIM n) ∧ (o.mean.leg k).natAbs < 2 ^ 15) →
    Gives (.enableStepDone n o) s fun t =>
      t.get (R.SLC_AXST_PHASE n) = 2 ∧ t.getS (R.SLC_ISOFF_OFFU n) = o.mean.u ∧ t.getS (R.SLC_ISOFF_OFFV n) = o.mean.v ∧
      t.getS (R.SLC_ISOFF_OFFW n) = o.mean.w ∧ t.get (R.SLC_ISOFF_CAL_OK n) = 1 ∧ { t with regs := s.regs } = s ∧
      OnlyRegs s t [R.SLC_AXST_PHASE n, R.SLC_ISOFF_OFFU n, R.SLC_ISOFF_OFFV n, R.SLC_ISOFF_OFFW n, R.SLC_ISOFF_CAL_OK n,
        R.SLC_ISOFF_OFF_KEPT n]) ∧
  (∀ (n : Slice) (o : EnableObs) (s : State), s.lead n = n → s.axst n = 1 → s.get (R.SLC_AXST_PHASE n) = 2 →
    s.get (R.SLC_COMM_ASRC n) ≠ 1 → (∀ m ∈ s.prechargers n, s.ax[m].precharged = true) →
    Gives (.enableStepDone n o) s fun t => Only s t [(R.SLC_AXST_PHASE n, 3)] []) ∧
  (∀ (n : Slice) (o : EnableObs) (s : State), s.lead n = n → s.axst n = 1 → s.get (R.SLC_AXST_PHASE n) = 3 → s.axmode n = 2 →
    s.get (R.SLC_COMM_ASRC n) ≠ 1 → s.on (R.SLC_FBSTAT_FBVALID n) = true → s.pairFunc n ≠ 4 → o.angleOk = true →
    Gives (.enableStepDone n o) s fun t =>
      t.get (R.SLC_AXST_PHASE n) = 5 ∧ t.ax[n].closing = true ∧ t.prof[n].pcmd = s.actualPos n ∧ t.prof[n].target = s.actualPos n ∧
      OnlyRegs s t [R.SLC_AXST_PHASE n] ∧ t.faults = s.faults) ∧
  (∀ (n : Slice) (o : EnableObs) (s : State), s.lead n = n → s.axst n = 1 → s.get (R.SLC_AXST_PHASE n) = 5 → s.ax[n].closing = true →
    Gives (.enableStepDone n o) s fun t =>
      t.axst n = 2 ∧ t.get (R.SLC_AXST_PHASE n) = 0 ∧ t.ax[n].closing = false ∧ t.mem = s.mem ∧ ∀ m : Slice, m ≠ n → t.axst m = s.axst m) ∧
  (∀ (n : Slice) (s : State), s.prechargeWaits n = true → (∀ m : Slice, m < n → s.prechargeWaits m = false) →
    exec .bootstrapPrechargeStart s = .next (s.modPwm n fun p => { p with precharge := some 0 })) ∧
  (∀ (n : Slice) (o : EnableObs) (s : State),
    (s.pwm[n].precharge = some 0 → exec (.prechargePhase n o) s = .next (s.modPwm n fun p => { p with precharge := some 1 })) ∧
    (s.pwm[n].precharge = some 1 → exec (.prechargePhase n o) s = .next (s.modPwm n fun p => { p with precharge := some 2 })) ∧
    (s.pwm[n].precharge = some 2 → Gives (.prechargePhase n o) s fun t =>
      t.pwm[n].precharge = none ∧ t.regs = s.regs ∧
      if o.bootOk = ⟨true, true, true⟩ then t.ax[n].precharged = true ∧ t.faults = s.faults
      else t.ax = s.ax ∧ Raises s t [(0x0701, 3, 1, (s.lead n).val)])) ∧
  (∀ (n : Slice) (s : State), exec (.brakeDisbrkTimeout n) s = .next (s.modAx n fun a => { a with brakeHold := false }))

/-- R109, R146, R150, R151, R153, R158, R133, R154, R157. -/
def Obligations.SchedulerTicks : Prop :=
  (∀ s : State, QuietTick s → s.sched.queue = [] → exec .schedulerTick s = .next (s.set R.SCH_TICK_TICK (nextTick s))) ∧
  (∀ (s : State) (q : QueueDyn) (k : Core), QuietTick s → s.sched.queue = [q] → s.choose (nextTick s) [] q = some k.val → q.pip < 4096 →
    Gives .schedulerTick s fun t =>
      t.sched.queue = [] ∧ t.get R.SCH_TICK_TICK = nextTick s ∧ t.faults = s.faults ∧
      t.core[k].run = some ⟨q.pip, nextTick s, s.originOf q.pip (nextTick s), false⟩ ∧
      t.core[k].pc = localBase k + bitsOf (s.pipWord q.pip 0) 0 18 ∧ t.core[k].flags = ⟨false, false, false, false, false⟩ ∧
      t.core[k].acc = Vector.replicate 4 0 ∧ t.core[k].levels = [] ∧ t.core[k].d = s.core[k].d ∧
      t.get (R.LC_STAT_STATE k) = 1 ∧ t.get (R.LC_STAT_PIPID k) = q.pip ∧ t.bitOf R.SCH_STAT_IDLE k = false ∧
      (∀ j : Core, j ≠ k → t.core[j] = s.core[j]) ∧
      ∀ a : Nat, (a < localBase k + 0x3FF80 ∨ localBase k + 0x40000 ≤ a) → t.byte a = s.byte a) ∧
  (∀ (s : State) (b : BusyDyn) (k : Core), s.domOn 0 = true → s.get R.SCH_STAT_STATE = 0 → s.sched.notes = [(k.val, .done)] →
    s.sched.busy = [b] → b.core = k.val → s.sched.deadlines = [] →
    Gives .schedulerTick s fun t =>
      t.get R.SCH_TICK_TICK = nextTick s ∧ t.sched.notes = [] ∧ t.sched.busy = [] ∧ t.bitOf R.SCH_STAT_IDLE k = true ∧
      t.mem = s.mem ∧ t.core = s.core ∧ t.faults = s.faults ∧ OnlyRegs s t [R.SCH_TICK_TICK, R.SCH_STAT_IDLE]) ∧
  (∀ (p : Nat) (q : QueueDyn) (s : State), s.sched.delayed.find? (fun x => x.pip == p) = some q →
    Gives (.delayRelease p) s fun t =>
      t.sched.delayed = s.sched.delayed.filter (fun x => x.pip != p) ∧
      t.sched.queue = queueIn ⟨p, bitsOf (s.pipWord p 0) 32 5, q.tick⟩ s.sched.queue ∧ OnlyRegs s t [R.SCH_TICK_TICK] ∧
      { t with sched := s.sched, regs := s.regs } = s) ∧
  (∀ (p : Nat) (d : DeadlineDyn) (s : State), s.sched.deadlines.find? (fun x => x.pip == p && !x.missed) = some d → s.dev ≠ 5 →
    Gives (.deadlineMiss p) s fun t =>
      t.get R.SCH_CNT_MISS = more s R.SCH_CNT_MISS ∧ t.get R.SCH_LAST_PIPID = p % 4096 ∧ t.get R.SCH_LAST_GRP = s.pipGroup p ∧
      t.get R.SCH_LAST_LATE = 0 ∧ t.get R.SCH_LAST_VALID = 1 ∧
      Raises s t [(0x0502, bit (s.groupWord (s.pipGroup p)) 40, 4, s.pipGroup p)] ∧
      (∀ x ∈ t.sched.deadlines, x.pip = p → x.missed = true) ∧ t.core = s.core ∧ t.mem = s.mem ∧
      OnlyRegs s t [R.SCH_TICK_TICK, R.SCH_CNT_MISS, R.SCH_LAST_PIPID, R.SCH_LAST_GRP, R.SCH_LAST_LATE, R.SCH_LAST_VALID]) ∧
  (∀ (k : Core) (r : RunDyn) (s : State), s.core[k].run = some r → r.counted = false → bitsOf (s.pipWord r.pip 3) 0 24 ≠ 0 →
    Gives (.pipOverrun k) s fun t =>
      t.core[k] = { s.core[k] with run := some { r with counted := true } } ∧ (∀ j : Core, j ≠ k → t.core[j] = s.core[j]) ∧
      t.get R.SCH_CNT_OVERRUN = more s R.SCH_CNT_OVERRUN ∧ Raises s t [(0x0504, 0, 4, s.pipGroup r.pip)] ∧
      OnlyRegs s t [R.SCH_TICK_TICK, R.SCH_CNT_OVERRUN] ∧ t.mem = s.mem) ∧
  (∀ (k : Core) (r : RunDyn) (s : State), s.core[k].run = some r → r.pip < 4096 →
    Gives (.pipRuntimeExpiry k) s fun t =>
      t.core[k].run = none ∧ t.core[k].levels = [] ∧ t.get R.SCH_CNT_RUNABT = more s R.SCH_CNT_RUNABT ∧ t.get (R.LC_FAULT_CODE k) = 9 ∧
      t.get (R.LC_FAULT_PIPID k) = r.pip ∧ t.get (R.LC_FAULT_VALID k) = 1 ∧ t.sched.notes = s.sched.notes ++ [(k.val, .abandoned)] ∧
      (∀ j : Core, j ≠ k → t.core[j] = s.core[j]) ∧ t.mem = s.mem ∧
      Raises s t (if s.dev = 5 then [] else [(0x0501, 4, 4, s.pipGroup r.pip)]))

/-- R162, R163, R164, R165, R168. -/
def Obligations.CurrentSamples : Prop :=
  (∀ (n : Slice) (s : State), s.pwm[n].running = true → s.on (R.SLC_PWMSTAT_FROZEN n) = false → s.pwm[n].place = 0 → s.pairFunc n = 0 →
    Gives (.currentSample n) s fun t =>
      t.sense[n] = { s.sense[n] with legOk := ⟨s.legValid n 0, s.legValid n 1, s.legValid n 2⟩, waiting := true } ∧
      t.pwm[n] = { s.pwm[n] with sampled := true, sampleBnd := s.pwm[n].bnum, cycle := s.pwm[n].cycle + 1 } ∧
      { t with sense := s.sense, pwm := s.pwm } = s ∧ ∀ m : Slice, m ≠ n → t.sense[m] = s.sense[m] ∧ t.pwm[m] = s.pwm[m]) ∧
  (∀ (n : Slice) (c : Tri Int) (s : State), s.pairFunc n = 0 → s.sense[n].waiting = true → s.sense[n].legOk = ⟨true, true, true⟩ →
    inRange c.u → inRange c.v → inRange c.w →
    Gives (.isampleSet n c) s fun t =>
      DeliversSet s t n (q31 s n 0 c.u) (q31 s n 1 c.v) (q31 s n 2 c.w) ∧
      OnlyRegs s t [R.SLC_ISCNT_SUMERR n] ∧ t.sense[n].staleRun = 0) ∧
  (∀ (n : Slice) (c : Tri Int) (s : State), s.pairFunc n = 0 → s.sense[n].waiting = true → s.sense[n].legOk = ⟨true, true, false⟩ →
    inRange c.u → inRange c.v → inRange c.w →
    Gives (.isampleSet n c) s fun t =>
      DeliversSet s t n (q31 s n 0 c.u) (q31 s n 1 c.v) (satS 32 (-(q31 s n 0 c.u + q31 s n 1 c.v))) ∧
      t.get (R.SLC_ISCNT_REC n) = more s (R.SLC_ISCNT_REC n) ∧ OnlyRegs s t [R.SLC_ISCNT_REC n] ∧ t.faults = s.faults) ∧
  (∀ (n : Slice) (c : Tri Int) (s : State), s.pairFunc n = 0 → s.sense[n].waiting = true → s.sense[n].legOk = ⟨false, false, true⟩ →
    inRange c.u → inRange c.v → inRange c.w →
    Gives (.isampleSet n c) s fun t =>
      DeliversSet s t n s.sense[n].lastSet.u s.sense[n].lastSet.v s.sense[n].lastSet.w ∧
      t.get (R.SLC_ISCNT_STALE n) = more s (R.SLC_ISCNT_STALE n) ∧ OnlyRegs s t [R.SLC_ISCNT_STALE n]) ∧
  (∀ (n : Slice) (a : Tri Nat) (k : Nat) (s : State), s.pwm[n].running = true → s.on (R.SLC_PWMSTAT_FROZEN n) = false →
    Gives (.vsampleSet n a k) s fun t =>
      t.sched.arrived = s.sched.arrived ++ [⟨3, n.val, [a.u % 2 ^ 32 + a.v % 2 ^ 32 * 2 ^ 32,
        a.w % 2 ^ 32 + k % 128 * 2 ^ 32 + s.sense[n].vseq % 65536 * 2 ^ 48]⟩] ∧
      t.sense[n] = { s.sense[n] with vseq := (s.sense[n].vseq + 1) % 65536 } ∧ SameMap s t ∧ t.faults = s.faults)

/-- R171, R172, R173. -/
def Obligations.OvercurrentTrips : Prop :=
  (∀ (n : Slice) (leg : Fin 3) (neg : Bool) (s : State), s.domOn (6 + dieOf n) = true → s.bitOf (R.SLC_OCSTAT_TRIP n) leg = false →
    Gives (.overcurrentTrip n leg neg) s fun t =>
      t.bitOf (R.SLC_OCSTAT_TRIP n) leg = true ∧ t.bitOf (R.SLC_OCSTAT_TPOL n) leg = neg ∧
      (∀ l : Fin 3, l ≠ leg → t.bitOf (R.SLC_OCSTAT_TRIP n) l = s.bitOf (R.SLC_OCSTAT_TRIP n) l) ∧
      t.get (R.SLC_OCSTAT_TRIPCNT n) = more s (R.SLC_OCSTAT_TRIPCNT n) ∧ t.drive n = .low ∧
      Raises s t [(0x0601, 3, 1, (s.lead n).val)] ∧ t.mem = s.mem ∧
      OnlyRegs s t [R.SLC_OCSTAT_TRIP n, R.SLC_OCSTAT_TPOL n, R.SLC_OCSTAT_TRIPCNT n]) ∧
  (∀ (n : Slice) (leg : Fin 3) (s : State), s.bitOf (R.SLC_OCSTAT_TRIP n) leg = true →
    exec (.tripReleaseQualified n leg) s = .next (s.modSense n fun x => { x with releasable := x.releasable.put leg true })) ∧
  (∀ (n : Slice) (leg : Fin 3) (s : State), 1000 ≤ s.busMeas n → s.on (R.SLC_OCSTAT_SWFAULT n) = false → s.drive n ≠ .low →
    Gives (.switchNodeCheckFail n leg) s fun t =>
      t.get (R.SLC_OCSTAT_SWFAULT n) = 1 ∧ t.get (R.SLC_OCSTAT_SWLEG n) = leg.val ∧ t.drive n = .low ∧
      Raises s t [(0x0602, 3, 1, (s.lead n).val)] ∧ t.mem = s.mem ∧ OnlyRegs s t [R.SLC_OCSTAT_SWFAULT n, R.SLC_OCSTAT_SWLEG n])

/-- R176, R177, R178, R179, R180, Table CMT.7. -/
def Obligations.StartSequencer : Prop :=
  (∀ (n : Slice) (o : StartObs) (s : State), s.oddInPair n = false → s.pwm[n].running = true → s.slPhase n = 0 → s.sensorless n = true →
    s.axst n = 2 → o.command ≠ 0 →
    Phases (.startSequencerCycle n o) s n 1 0 fun t =>
      t.get (R.SLC_SLSTAT_RETRY n) = 0 ∧ t.startq[n].dir = sgn o.command ∧ t.get (R.SLC_SLCMD_SEQ n) = (s.get (R.SLC_SLCMD_SEQ n) + 1) % 256) ∧
  (∀ (n : Slice) (o : StartObs) (s : State), s.slPhase n = 1 →
    let w : Int := if o.amplitude < 500 ∨ o.crossings < 2 then 0 else o.speed
    let wc : Int := s.get (R.SLC_SLCFG1_W_CATCH n)
    let high := 3 * (95 * s.busMeas n * 10) ^ 2 < (200 * o.amplitude) ^ 2
    (high → Phases (.listenElapsed n o) s n 9 (s.get (R.SLC_SLCMD_MODE n)) fun t => Fails s t n 2) ∧
    (¬high → w.natAbs < wc → Phases (.listenElapsed n o) s n 4 1 fun t =>
      t.get (R.SLC_SLCMD_THETA n) = 0 ∧ t.get (R.SLC_SLCMD_IREF n) = 0 ∧ t.faults = s.faults) ∧
    (¬high → wc ≤ w.natAbs → wc ≤ w * s.startq[n].dir → Phases (.listenElapsed n o) s n 3 2 fun t =>
      t.get (R.SLC_SLCMD_THETA n) = o.angle % 2 ^ 32 ∧ t.faults = s.faults) ∧
    (¬high → wc ≤ w.natAbs → w * s.startq[n].dir < wc → Phases (.listenElapsed n o) s n 2 (s.get (R.SLC_SLCMD_MODE n)) fun t =>
      t.faults = s.faults)) ∧
  (∀ (n : Slice) (s : State), s.slPhase n = 2 → Phases (.brakeTime n) s n 9 (s.get (R.SLC_SLCMD_MODE n)) fun t => Fails s t n 3) ∧
  (∀ (n : Slice) (s : State), s.slPhase n = 3 → 16 ≤ s.startq[n].syncCycles →
    (s.obsLock n = true → Phases (.syncCyclesComplete n) s n 7 0 fun t =>
      t.get (R.SLC_SLSTAT_STARTS n) = more s (R.SLC_SLSTAT_STARTS n) ∧ t.faults = s.faults) ∧
    (s.obsLock n = false → s.get (R.SLC_SLSTAT_RETRY n) < s.get (R.SLC_SLCFG0_RETRIES n) →
      Phases (.syncCyclesComplete n) s n 8 0 fun t =>
        t.get (R.SLC_SLSTAT_RETRY n) = (s.get (R.SLC_SLSTAT_RETRY n) + 1) % 8 ∧ t.faults = s.faults)) ∧
  (∀ (n : Slice) (s : State), s.slPhase n = 4 → s.axst n ≠ 1 →
    Phases (.alignComplete n) s n 5 1 fun t => t.startq[n].omegaF = 0) ∧
  (∀ (n : Slice) (s : State), s.slPhase n = 5 → s.atHandover n = true → 64 ≤ s.startq[n].lockRun →
    Phases (.forcedLockHeld n) s n 6 3 fun t =>
      t.startq[n].iref0 = s.get (R.SLC_SLCMD_IREF n) ∧ t.get (R.SLC_SLCMD_THETA n) = s.get (R.SLC_SLCMD_THETA n) ∧ t.faults = s.faults) ∧
  (∀ (n : Slice) (s : State), s.slPhase n = 5 → s.atHandover n = true → s.obsLock n = false →
    (s.get (R.SLC_SLSTAT_RETRY n) < s.get (R.SLC_SLCFG0_RETRIES n) → Phases (.lockTimeout n) s n 8 0 fun t => t.faults = s.faults) ∧
    (s.get (R.SLC_SLCFG0_RETRIES n) ≤ s.get (R.SLC_SLSTAT_RETRY n) →
      Phases (.lockTimeout n) s n 9 (s.get (R.SLC_SLCMD_MODE n)) fun t => Fails s t n 1)) ∧
  (∀ (n : Slice) (s : State), s.slPhase n = 6 → s.obsLock n = true → Phases (.blendComplete n) s n 7 0 fun t =>
    t.get (R.SLC_SLSTAT_STARTS n) = more s (R.SLC_SLSTAT_STARTS n) ∧ t.faults = s.faults) ∧
  (∀ (n : Slice) (s : State), s.slPhase n = 7 → 8 ≤ s.startq[n].lowRun → Phases (.fallback n) s n 5 1 fun t =>
    t.get (R.SLC_SLSTAT_FALLBACK n) = 1 ∧ t.get (R.SLC_SLCMD_THETA n) = s.get (R.SLC_SLOBS_THETA_EST n) ∧
    t.get (R.SLC_SLCMD_IREF n) = s.get (R.SLC_SLCFG0_I_GO n) ∧ t.startq[n].omegaF = s.getS (R.SLC_SLOBS_OMEGA_EST n) * 2 ^ 32 ∧
    t.faults = s.faults) ∧
  (∀ (n : Slice) (s : State), s.slPhase n = 7 → s.get (R.SLC_SLCFG2_N_LOSS n) ≤ s.startq[n].noLock →
    s.get (R.SLC_SLCFG1_W_LOW n) ≤ (s.getS (R.SLC_SLOBS_OMEGA_EST n)).natAbs →
    Phases (.obsLoss n) s n 9 (s.get (R.SLC_SLCMD_MODE n)) fun t => Fails s t n 4) ∧
  (∀ (n : Slice) (s : State), s.slPhase n = 8 → Phases (.coastComplete n) s n 1 0 fun t => t.faults = s.faults) ∧
  (∀ (n : Slice) (s : State), s.get (R.SLC_SLOBS_SEQ n) = s.startq[n].obsSeq →
    Gives (.slobsStale n) s fun t => t.obsLock n = false ∧ { t with startq := s.startq } = s)

/-- R20, R187, R188, R201, Table PWM.2. -/
def Obligations.ShadowWords : Prop :=
  (∀ (n : Slice) (window : Fin 3) (word : Fin 4) (v : Nat) (s : State), s.shadowOpen n = true →
    Gives (.shadowWrite n window word v) s fun t =>
      (∃ x ∈ t.pwm[n].shadows, x.word = word.val ∧ x.val = v % 2 ^ 32 ∧ x.target = takesAt s.pwm[n] window.val) ∧
      (∀ x ∈ s.pwm[n].shadows, (x.word ≠ word.val ∨ x.target ≠ takesAt s.pwm[n] window.val) → x ∈ t.pwm[n].shadows) ∧
      t.pwm[n].leg = s.pwm[n].leg ∧ t.pwm[n].stage = s.pwm[n].stage ∧ { t with pwm := s.pwm } = s ∧
      ∀ m : Slice, m ≠ n → t.pwm[m] = s.pwm[m]) ∧
  (∀ (n : Slice) (word : Fin 4) (v : Nat) (s : State), s.shadowOpen n = true →
    Gives (.shadowStageWrite n word v) s fun t =>
      t.pwm[n] = { s.pwm[n] with stage := s.pwm[n].stage.filter (fun y => y.1 != word.val) ++ [(word.val, v % 2 ^ 32)] } ∧
      { t with pwm := s.pwm } = s ∧ ∀ m : Slice, m ≠ n → t.pwm[m] = s.pwm[m]) ∧
  (∀ (n : Slice) (tgt : Fin 3) (w v : Nat) (s : State), s.shadowOpen n = true → s.pairFunc n = 0 → s.pwm[n].stage = [(w, v)] →
    Gives (.commit n tgt) s fun t =>
      t.pwm[n].stage = [] ∧ (∃ x ∈ t.pwm[n].shadows, x.word = w ∧ x.val = v ∧ x.target = takesAt s.pwm[n] tgt.val) ∧
      (∀ x ∈ s.pwm[n].shadows, (x.word ≠ w ∨ x.target ≠ takesAt s.pwm[n] tgt.val) → x ∈ t.pwm[n].shadows) ∧
      { t with pwm := s.pwm } = s ∧ ∀ m : Slice, m ≠ n → t.pwm[m] = s.pwm[m])

/-- R184, R185, R190, R191, Table PWM.3. -/
def Obligations.CarrierBoundaries : Prop :=
  (∀ (n : Slice) (trim : Int) (s : State), s.pwm[n].running = true → s.on (R.SLC_PWMSTAT_FROZEN n) = false → s.pairFunc n = 0 →
    s.staged = [] → s.pwm[n].claimHold = false → s.get (R.SLC_SLSTAT_PHASE n) ≠ 2 → s.pwm[n].shadows = [] →
    s.get (R.SLC_PWMCFG_CTYPE n) = 0 → s.on (R.SLC_PWMCFG_CARRY n) = false → s.ceilClamps n = ⟨0, 0, 0⟩ →
    let p := s.pwm[n]
    let T := ((s.get (R.SLC_PWMCFG_CPER n) : Int) + max (-32) (min 32 trim)).toNat
    let td := s.hl (R.SLC_PWMLIM_TD n)
    let tm := s.hl (R.SLC_PWMLIM_TMIN n)
    let ref := s.hl (R.SLC_PWMLIM_REFMAX n) * 128000
    1 ≤ tm → T ≤ 2 ^ 20 → p.leg.u ≤ T → p.leg.v ≤ T → p.leg.w ≤ T → p.lowAge.u < ref → p.lowAge.v < ref → p.lowAge.w < ref →
    vceilActs T (s.hl (R.SLC_PWMLIM_VCEIL n)) (max p.leg.u (max p.leg.v p.leg.w)) (min p.leg.u (min p.leg.v p.leg.w)) = false →
    Gives (.carrierBoundary n trim none) s fun t =>
      t.pwm[n].bnum = p.bnum + 1 ∧ t.pwm[n].place = (p.place + 1) % (s.get (R.SLC_PWMCFG_NCUR n) + 1) ∧ t.pwm[n].leg = p.leg ∧
      t.get (R.SLC_PWMEFF1_EFFT n) = T ∧ t.get (R.SLC_PWMEFF0_EFFU n) = highTime T td tm p.leg.u ∧
      t.get (R.SLC_PWMEFF0_EFFV n) = highTime T td tm p.leg.v ∧ t.get (R.SLC_PWMEFF1_EFFW n) = highTime T td tm p.leg.w ∧
      t.faults = s.faults ∧ t.mem = s.mem ∧ (∀ m : Slice, m ≠ n → t.pwm[m] = s.pwm[m]) ∧
      OnlyRegs s t [R.SLC_PWMEFF0_EFFU n, R.SLC_PWMEFF0_EFFV n, R.SLC_PWMEFF1_EFFW n, R.SLC_PWMEFF1_EFFT n, R.SLC_PWMCNT_DROPCNT n]) ∧
  (∀ (n : Slice) (trim : Int) (x : Shadow) (s : State), s.pwm[n].running = true → s.on (R.SLC_PWMSTAT_FROZEN n) = false →
    s.pairFunc n = 0 → s.staged = [] → s.pwm[n].shadows = [x] → x.word = 0 →
    Gives (.carrierBoundary n trim none) s fun t =>
      if x.target ≤ s.pwm[n].bnum + 1 then t.pwm[n].leg = { s.pwm[n].leg with u := x.val } ∧ t.pwm[n].shadows = []
      else t.pwm[n].leg = s.pwm[n].leg ∧ t.pwm[n].shadows = [x]) ∧
  (∀ (d : Fin 2) (s : State), Gives (.delayLineCalibration d) s fun t =>
    { t with pwm := s.pwm } = s ∧
    ∀ n : Slice, t.pwm[n] = if dieOf n = d.val then { s.pwm[n] with calNew := s.pwm[n].calNew + 1 } else s.pwm[n])

/-- R197, R198, R200, R202, R203. -/
def Obligations.GateSupplies : Prop :=
  (∀ (d : Fin 2) (s : State), Gives (.vdrvUndervoltage d) s fun t =>
    t.get (vdrvFld d) = 0 ∧ OnlyRegs s t [vdrvFld d] ∧ t.mem = s.mem ∧ (∀ n : Slice, dieOf n = d.val → t.drive n = .low) ∧
    (∀ n : Slice, dieOf n ≠ d.val → t.pwm[n] = s.pwm[n]) ∧
    Raises s t (if s.on R.SYS_STATE_TORQUE_OFF ∨ s.on R.BUS_STAT_BACKSTOP then [] else [(0x0704, 4, 3, d.val)])) ∧
  (∀ (d : Fin 2) (s : State), Gives (.vdrvRecovered d) s fun t => Only s t [(vdrvFld d, 1)] []) ∧
  (∀ (n : Slice) (leg : Fin 3) (s : State), Gives (.bootstrapUndervoltage n leg) s fun t =>
    t.highHeld n leg = true ∧ (∀ l : Fin 3, l ≠ leg → t.highHeld n l = s.highHeld n l) ∧ OnlyRegs s t [R.SLC_PWMSTAT_BOOTUV n] ∧
    { t with regs := s.regs, faults := s.faults } = s ∧ Raises s t [(0x070D, 0, 1, (s.lead n).val)]) ∧
  (∀ (n : Slice) (leg : Fin 3) (us : Nat) (s : State), Gives (.bootstrapRecovered n leg us) s fun t =>
    t.highHeld n leg = false ∧ (∀ l : Fin 3, l ≠ leg → t.highHeld n l = s.highHeld n l) ∧ OnlyRegs s t [R.SLC_PWMSTAT_BOOTUV n] ∧
    t.faults = s.faults ∧ t.mem = s.mem ∧
    t.pwm[n].bootHeld.leg leg = s.pwm[n].bootHeld.leg leg + (if s.axst (s.lead n) = 2 ∨ s.axst (s.lead n) = 3 then us else 0)) ∧
  (∀ (n : Slice) (leg : Fin 3) (s : State), (s.axst (s.lead n) = 2 ∨ s.axst (s.lead n) = 3) → Gives (.bootuvPersistent n leg) s fun t =>
    SameMap s t ∧ 1000 ≤ t.pwm[n].bootHeld.leg leg ∧ Raises s t [(0x0702, 3, 1, (s.lead n).val)]) ∧
  (∀ (n : Slice) (s : State), s.on (R.SLC_PWMSTAT_FROZEN n) = true → s.hl (R.SLC_PWMLIM_HG_EN n) ≠ 0 → Gives (.haltGuard n) s fun t =>
    t.get (R.SLC_PWMSTAT_HG_FIRED n) = 1 ∧ OnlyRegs s t [R.SLC_PWMSTAT_HG_FIRED n] ∧ t.mem = s.mem ∧
    (∀ m ∈ s.axisSlices n, t.pwm[m].frozenOff = true) ∧ Raises s t [(0x0703, 3, 1, (s.lead n).val)]) ∧
  (∀ (n : Slice) (k : Nat) (s : State), s.on (R.SLC_PWMSTAT_FROZEN n) = true →
    (∀ c : Core, s.bitOf (R.SLC_PWMCFG_FRZMASK n) c = true → s.on (R.LC_DBG_HALTED c) = false) →
    Gives (.sliceResume n k) s fun t =>
      t.get (R.SLC_PWMSTAT_FROZEN n) = 0 ∧ t.faults = s.faults ∧ t.mem = s.mem ∧
      t.pwm[n].bnum = s.pwm[n].bnum + (if s.get (R.SLC_PWMCFG_CTYPE n) = 0 then k + 1 else 1) ∧
      OnlyRegs s t [R.SLC_PWMSTAT_FROZEN n, R.SLC_SVSTAT_FECNT (s.lead n), R.SLC_SVSTAT_FETMR (s.lead n)])

/-- R204, R205, R206. -/
def Obligations.BusLadder : Prop :=
  (∀ (k : Fin 4) (v : Nat) (s : State), BusAbove s k v (s.hl (R.BUS_VLIM_VCH_ON k)) → s.hl (R.BUS_CLIM_CHEN k) ≠ 0 →
    s.bitOf R.BUS_STAT_CHON k = false → s.leaving = false →
    Gives (.chopperOn k v) s fun t =>
      BusBit s t R.BUS_STAT_CHON k true ∧ t.get (measFld k) = v ∧ (t.bus[k].onValue, t.bus[k].checked) = (v, false) ∧
      OnlyRegs s t (R.BUS_STAT_CHON :: sampleFlds k) ∧ t.faults = s.faults ∧ t.mem = s.mem) ∧
  (∀ (k : Fin 4) (v : Nat) (s : State), s.bitOf R.BUS_STAT_CHON k = true → v < s.hl (R.BUS_VLIM_VCH_OFF k) → v < 65536 →
    Gives (.chopperOff k v) s fun t =>
      BusBit s t R.BUS_STAT_CHON k false ∧ t.get (measFld k) = v ∧ OnlyRegs s t (R.BUS_STAT_CHON :: sampleFlds k) ∧ t.faults = s.faults) ∧
  (∀ (k : Fin 4) (chi : Int) (v : Nat) (s : State), s.bitOf R.BUS_STAT_CHON k = true → s.bus[k].checked = false → v < 65536 →
    Gives (.chopperCheck k chi v) s fun t =>
      t.bus[k].checked = true ∧ t.get (measFld k) = v ∧
      if (s.hl (R.BUS_CLIM_ICH_MIN k) : Int) * 1000 ≤ chi ∧ v < s.bus[k].onValue then
        OnlyRegs s t (sampleFlds k) ∧ t.faults = s.faults
      else BusBit s t R.BUS_STAT_CHFAULT k true ∧ t.get (R.BUS_CNT_CHFCNT) = more s (R.BUS_CNT_CHFCNT) ∧
        OnlyRegs s t (R.BUS_STAT_CHFAULT :: R.BUS_CNT_CHFCNT :: sampleFlds k) ∧ Raises s t [(0x0705, 3, 2, k.val)]) ∧
  (∀ (k : Fin 4) (v : Nat) (s : State), BusAbove s k v (s.hl (R.BUS_VLIM_VREGEN k)) → s.bitOf R.BUS_STAT_REGEN k = false →
    Gives (.regenEntry k v) s fun t =>
      BusBit s t R.BUS_STAT_REGEN k true ∧ t.get (measFld k) = v ∧ OnlyRegs s t (R.BUS_STAT_REGEN :: sampleFlds k) ∧
      Raises s t [(0x0706, 1, 2, k.val)]) ∧
  (∀ (k : Fin 4) (v : Nat) (s : State), v < s.hl (R.BUS_VLIM_VCH_ON k) → v < 65536 →
    Gives (.regenRelease k v) s fun t =>
      BusBit s t R.BUS_STAT_REGEN k false ∧ t.get (measFld k) = v ∧ OnlyRegs s t (R.BUS_STAT_REGEN :: sampleFlds k) ∧ t.faults = s.faults) ∧
  (∀ (k : Fin 4) (v : Nat) (s : State), BusAbove s k v (s.hl (R.BUS_VLIM_VSHORT k)) → s.bitOf R.BUS_STAT_SHORT k = false →
    Gives (.activeShortEntry k v) s fun t =>
      BusBit s t R.BUS_STAT_SHORT k true ∧ t.get (R.BUS_CNT_SHORTCNT) = more s (R.BUS_CNT_SHORTCNT) ∧
      OnlyRegs s t (R.BUS_STAT_SHORT :: R.BUS_CNT_SHORTCNT :: sampleFlds k) ∧ Raises s t [(0x0707, 3, 2, k.val)]) ∧
  (∀ (k : Fin 4) (v : Nat) (s : State), v < s.hl (R.BUS_VLIM_VCH_OFF k) → v < 65536 →
    Gives (.activeShortRelease k v) s fun t =>
      BusBit s t R.BUS_STAT_SHORT k false ∧ OnlyRegs s t (R.BUS_STAT_SHORT :: sampleFlds k) ∧ t.faults = s.faults) ∧
  (∀ (k : Fin 4) (v : Nat) (s : State), BusAbove s k v (s.hl (R.BUS_CLIM_VABS k)) → s.bitOf R.BUS_STAT_ABS k = false →
    Gives (.busAbsEntry k v) s fun t =>
      BusBit s t R.BUS_STAT_ABS k true ∧ t.get (R.BUS_CNT_ABSCNT) = more s (R.BUS_CNT_ABSCNT) ∧
      (∀ n : Slice, s.busOf n = k.val → t.drive n = .low) ∧
      OnlyRegs s t (R.BUS_STAT_ABS :: R.BUS_CNT_ABSCNT :: sampleFlds k) ∧ Raises s t [(0x0708, 4, 2, k.val)]) ∧
  (∀ (k : Fin 4) (v : Nat) (s : State), v < s.hl (R.BUS_VLIM_VCH_OFF k) → v < 65536 →
    Gives (.busAbsRelease k v) s fun t =>
      BusBit s t R.BUS_STAT_ABS k false ∧ OnlyRegs s t (R.BUS_STAT_ABS :: sampleFlds k) ∧ t.faults = s.faults)

/-- R212, R215, R216, R217, R220, R221, R232, R233, R236. -/
def Obligations.FeedbackCounts : Prop :=
  (∀ (n : Slice) (up a b : Bool) (s : State), PortIn s n 1 → s.on (R.SLC_FBCFG_HYST n) = false → EdgeTo s n up a b →
    Gives (.quadratureEdge n a b) s fun t =>
      let e := if up then s.fbSign n else -(s.fbSign n)
      t.fb[n].c = wrapPos (s.fb[n].c + e * 2 ^ 24) ∧ t.fb[n].p = t.fb[n].c ∧ t.fb[n].net = s.fb[n].net + e ∧
      t.fb[n].lineA = a ∧ t.fb[n].lineB = b ∧ t.regs = s.regs ∧ PortOnly s t n) ∧
  (∀ (n : Slice) (a b : Bool) (s : State), (PortIn s n 1 ∨ PortIn s n 2) → a ≠ s.fb[n].lineA → b ≠ s.fb[n].lineB →
    Gives (.quadratureEdge n a b) s fun t =>
      t.fb[n] = { s.fb[n] with lineA := a, lineB := b, bad := true } ∧ t.get (R.SLC_FBCNT_QERR n) = more s (R.SLC_FBCNT_QERR n) ∧
      t.get (R.SLC_FBSTAT_POSLOST n) = 1 ∧ OnlyRegs s t [R.SLC_FBCNT_QERR n, R.SLC_FBSTAT_POSLOST n] ∧ PortOnly s t n) ∧
  (∀ (n : Slice) (s : State), Gives (.arm n) s fun t => Only s t [(R.SLC_FBSTAT_ARMED n, 1)] []) ∧
  (∀ (n : Slice) (s : State), Gives (.disarm n) s fun t => Only s t [(R.SLC_FBSTAT_ARMED n, 0)] []) ∧
  (∀ (n : Slice) (stamp : Stamp) (s : State), PortIn s n 1 → (∀ k : Nat, s.get (latSrc n k) ≠ 1) → s.homeWantsIndex (s.lead n) = false →
    s.get (R.SLC_FBCFG_IDXMODE n) = 2 → s.on (R.SLC_FBSTAT_ARMED n) = true →
    Gives (.indexEvent n stamp) s fun t =>
      t.fb[n].c = s.getS (R.SLC_FBIDX_IDXVAL n) * 2 ^ 24 ∧ t.fb[n].p = t.fb[n].c ∧ t.fb[n].idxEv = true ∧
      t.get (R.SLC_FBSTAT_ARMED n) = 0 ∧ t.get (R.SLC_FBSTAT_IDXSEEN n) = 1 ∧ t.get (R.SLC_FBSTAT_POSLOST n) = 0 ∧
      OnlyRegs s t [R.SLC_FBSTAT_ARMED n, R.SLC_FBSTAT_IDXSEEN n, R.SLC_FBSTAT_POSLOST n] ∧ PortOnly s t n) ∧
  (∀ (n : Slice) (stamp : Stamp) (s : State), PortIn s n 1 → s.get (latSrc n 0) = 1 → s.get (latSrc n 1) ≠ 1 →
    s.homeWantsIndex (s.lead n) = false → s.get (R.SLC_FBCFG_IDXMODE n) = 0 → s.on (R.SLC_FBSTAT_LATV0 n) = false → s.prof[n].probe = false →
    Gives (.indexEvent n stamp) s fun t =>
      t.get (R.SLC_LATPOS_POS n 0) = ofS 64 s.fb[n].c ∧ t.get (R.SLC_FBSTAT_LATV0 n) = 1 ∧
      t.get (R.SLC_LATTIM_NS n 0) = compactOf (stamp * 2 ^ 16) % 2 ^ 30 ∧ t.fb[n] = { s.fb[n] with idxEv := true, idxSeen := true } ∧
      OnlyRegs s t [R.SLC_LATPOS_POS n 0, R.SLC_LATTIM_NS n 0, R.SLC_LATTIM_SUBNS n 0, R.SLC_LATTIM_SEC n 0, R.SLC_FBSTAT_LATV0 n]) ∧
  (∀ (n : Slice) (h : Fin 8) (s : State), PortIn s n 0 → s.on (R.SLC_FBCFG_HALLEN n) = true → s.fb[n].lastSector < 6 →
    let k := s.hallSector n h
    let last := s.fb[n].lastSector
    (k = (last + 1) % 6 → Gives (.hallChange n h) s fun t =>
      t.get (R.SLC_FBSTAT_HALL n) = h.val ∧ t.get (R.SLC_FBSTAT_SECTOR n) = k ∧ t.fb[n].lastSector = k ∧
      t.fb[n].c = wrapPos (s.fb[n].c + s.fbSign n * 2 ^ 24) ∧ OnlyRegs s t [R.SLC_FBSTAT_HALL n, R.SLC_FBSTAT_SECTOR n] ∧ PortOnly s t n) ∧
    (k ≠ last → k ≠ (last + 1) % 6 → last ≠ (k + 1) % 6 → Gives (.hallChange n h) s fun t =>
      t.get (R.SLC_FBCNT_HALLERR n) = more s (R.SLC_FBCNT_HALLERR n) ∧ t.fb[n].c = s.fb[n].c ∧ t.get (R.SLC_FBSTAT_HALL n) = h.val ∧
      OnlyRegs s t [R.SLC_FBSTAT_HALL n, R.SLC_FBSTAT_SECTOR n, R.SLC_FBCNT_HALLERR n] ∧ PortOnly s t n)) ∧
  (∀ (n : Slice) (m : Nat) (s : State), PortIn s n m → m ≠ 0 →
    Gives (.wireFault n) s fun t =>
      t.get (R.SLC_FBSTAT_WIRE n) = 1 ∧ (m = 1 → t.get (R.SLC_FBSTAT_POSLOST n) = 1 ∧ t.fb[n].bad = true) ∧
      OnlyRegs s t [R.SLC_FBSTAT_WIRE n, R.SLC_FBSTAT_POSLOST n] ∧ PortOnly s t n)

/-- R222, R223, R224, R225, R227, R228, R229, R230, R231, R232, Table FBK.4, R234, R238. -/
def Obligations.FeedbackCaptures : Prop :=
  (∀ (n : Slice) (a b : Int) (s : State), PortIn s n 2 → AmpIn (s.scCorrect n a b).1 (s.scCorrect n a b).2 → s.fb[n].convSeen = false →
    Gives (.sincosConversion n a b) s fun t =>
      t.fb[n].p = qAngle 14 (s.scCorrect n a b).1 (s.scCorrect n a b).2 * 2 ^ 12 ∧ t.fb[n].conv = some (some t.fb[n].p) ∧
      t.get (R.SLC_FBSTAT_AMP n) = 0 ∧ OnlyRegs s t [R.SLC_FBSTAT_AMP n] ∧ PortOnly s t n) ∧
  (∀ (n : Slice) (a b : Int) (s : State), PortIn s n 2 → ¬AmpIn (s.scCorrect n a b).1 (s.scCorrect n a b).2 →
    Gives (.sincosConversion n a b) s fun t =>
      t.fb[n] = { s.fb[n] with conv := some none } ∧ t.get (R.SLC_FBSTAT_AMP n) = 1 ∧
      t.get (R.SLC_FBCNT_FRMERR n) = more s (R.SLC_FBCNT_FRMERR n) ∧ OnlyRegs s t [R.SLC_FBSTAT_AMP n, R.SLC_FBCNT_FRMERR n] ∧ PortOnly s t n) ∧
  (∀ (n : Slice) (oa ob : Int) (g : Nat) (ph : Int) (s : State), PortIn s n 2 → s.on (R.SLC_FBCFG_CORR_EN n) = true →
    s.on (R.SLC_FBCFG_CFRZ n) = false → ab oa ≤ 10000 → ab ob ≤ 10000 → 13107 ≤ g → g ≤ 20480 → ab ph ≤ 10000 →
    Gives (.sincosCorrectionUpdate n oa ob g ph) s fun t =>
      t.regs = s.regs ∧ t.faults = s.faults ∧ t.draws = s.draws + 1 ∧
      ∃ (a b : Int) (k : Nat) (h : Int), t.fb[n].corr = some (a, b, k, h) ∧ QuarterWay (s.getS (R.SLC_FBSC_OFFA n)) oa a ∧
        QuarterWay (s.getS (R.SLC_FBSC_OFFB n)) ob b ∧ QuarterWay (s.get (R.SLC_FBSC_GAIN n)) g k ∧
        QuarterWay (s.getS (R.SLC_FBSC_PHASE n)) ph h) ∧
  (∀ (n : Slice) (o : CaptureObs) (s : State), PortIn s n 1 → NoRunEnds s n → s.on (R.SLC_PWMSTAT_FROZEN n) = false → o.wire = false →
    s.fb[n].bad = false → s.fb[n].lastOk = true →
    Gives (.servoCapture n o) s fun t =>
      Captures s t n s.fb[n].p (s.fb[n].net * 2 ^ 24) ∧ t.get (R.SLC_FBSTAT_EXTRAP n) = 0 ∧ t.get (R.SLC_FBSTAT_WIRE n) = 0 ∧
      t.fb[n].net = 0 ∧ t.fb[n].seq = (s.fb[n].seq + 1) % 65536 ∧ t.faults = s.faults ∧ t.mem = s.mem) ∧
  (∀ (n : Slice) (o : CaptureObs) (s : State), PortIn s n 1 → NoRunEnds s n → s.on (R.SLC_PWMSTAT_FROZEN n) = false → s.fb[n].bad = true →
    Gives (.servoCapture n o) s fun t =>
      Captures s t n (wrapPos (s.fb[n].lastP + s.fb[n].lastV)) s.fb[n].lastV ∧ t.get (R.SLC_FBSTAT_EXTRAP n) = 1 ∧
      t.fb[n].badRun = s.fb[n].badRun + 1 ∧ t.fb[n].bad = false ∧ Raises s t [(0x0805, 0, 1, (s.lead n).val)]) ∧
  (∀ (n : Slice) (o : CaptureObs) (s : State), (PortIn s n 3 ∨ PortIn s n 4) → s.on (R.SLC_PWMSTAT_FROZEN n) = false → s.dev ≠ 3 →
    Gives (.servoCapture n o) s fun t =>
      t.fb[n].frame = true ∧ t.sched = s.sched ∧ OnlyRegs s t [R.SLC_FBSTAT_WIRE n] ∧ PortOnly s t n) ∧
  (∀ (n : Slice) (r : SerialFrame) (s : State), PortIn s n 3 → NoRunEnds s n → s.fb[n].frame = true → s.fb[n].ext = none →
    r.late = false → r.lineLow = false → s.frameCheckFails n r = false → s.get (R.SLC_FBSER_ERRB n) = 0 → s.get (R.SLC_FBSER_JUMPLIM n) = 0 →
    Gives (.serialFrameComplete n r) s fun t =>
      t.get (R.SLC_FBPOS_POS n) = ofS 64 (s.fbSign n * (r.position % 2 ^ s.get (R.SLC_FBSER_POSW n) : Nat) * 2 ^ 24 + s.fb[n].ofs) ∧
      t.fb[n].frame = false ∧ t.get (R.SLC_FBSTAT_LINEDLY n) = min 65535 r.lineDelay ∧ t.faults = s.faults ∧ t.mem = s.mem) ∧
  (∀ (n : Slice) (r : SerialFrame) (s : State), PortIn s n 3 → NoRunEnds s n → s.fb[n].frame = true → r.late = true →
    Gives (.serialFrameComplete n r) s fun t =>
      Captures s t n (wrapPos (s.fb[n].lastP + s.fb[n].lastV)) s.fb[n].lastV ∧ t.get (R.SLC_FBCNT_FRMERR n) = more s (R.SLC_FBCNT_FRMERR n) ∧
      t.fb[n].frame = false ∧ Raises s t [(0x0805, 0, 1, (s.lead n).val)]) ∧
  (∀ (n : Slice) (s : State), s.ax[n].started = true → s.fb[n].ev5 = 1 →
    Gives (.ev5InRegulation n) s fun t =>
      t.fb[n] = { s.fb[n] with ev5 := 2, retries := 0, evWaited := false } ∧ t.get (R.SLC_FBSTAT_EVON n) = 1 ∧
      t.get (R.SLC_FBSTAT_EVFAULT n) = 0 ∧ OnlyRegs s t [R.SLC_FBSTAT_EVON n, R.SLC_FBSTAT_EVFAULT n] ∧ PortOnly s t n) ∧
  (∀ (n : Slice) (s : State), s.ax[n].started = true → (s.fb[n].ev5 = 1 ∨ s.fb[n].ev5 = 2) →
    Gives (.ev5CurrentLimit n) s fun t =>
      t.fb[n] = { s.fb[n] with ev5 := if 3 ≤ s.fb[n].retries then 4 else 3, evWaited := false } ∧
      t.get (R.SLC_FBSTAT_EVON n) = 0 ∧ t.get (R.SLC_FBSTAT_EVFAULT n) = 1 ∧ t.get (R.SLC_FBSTAT_FBVALID n) = 0 ∧
      OnlyRegs s t [R.SLC_FBSTAT_EVON n, R.SLC_FBSTAT_EVFAULT n, R.SLC_FBSTAT_FBVALID n] ∧
      Raises s t (if 3 ≤ s.fb[n].retries then [(0x0803, 3, 1, (s.lead n).val)] else [])) ∧
  (∀ (n : Slice) (s : State), s.fb[n].ev5 = 3 →
    exec (.ev5Retry n) s = .next (s.modFb n fun x => { x with ev5 := 1, retries := x.retries + 1 })) ∧
  (∀ (n : Slice) (s : State), s.ax[n].started = true → (s.on (R.SLC_FBCFG_EV5EN n) = false ∨ s.on (R.SLC_FBSTAT_EVON n) = true) →
    exec (.fbvalidWaitElapsed n) s = .next (s.modFb n fun x => { x with evWaited := true })) ∧
  (∀ (n : Slice) (s : State), s.axst n = 1 → s.get (R.SLC_AXST_PHASE n) = 3 → s.on (R.SLC_FBSTAT_FBVALID n) = false →
    Gives (.fbvalidTimeout n) s fun t => Only s t [] [(0x0801, 3, 1, (s.lead n).val)])

/-- R242, R245, R259, R261, Table STA.8, R247, R248, R250, R252, R256, R257. -/
def Obligations.ServoAndSupervision : Prop :=
  (∀ (n : Slice) (s : State), PlainBoundary s n → s.axst n = 1 → s.ax[n].closing = true → s.prof[n].plan = none → s.sup[n].ramp = none →
    Gives (.servoBoundary n) s fun t =>
      t.axst n = 2 ∧ t.get (R.SLC_AXST_PHASE n) = 0 ∧ t.ax[n].closing = false ∧ t.sup[n].stale = 0 ∧ t.sup[n].prevP = none ∧
      t.get (R.SLC_SVCMD0_PCMD n) = ofS 64 s.prof[n].pcmd ∧ t.faults = s.faults ∧ t.mem = s.mem) ∧
  (∀ (n : Slice) (pl : Plan) (s : State), PlainBoundary s n → s.axst n = 2 → s.prof[n].plan = some pl → s.sup[n].ramp = none →
    pl.over_ (pl.k + 1) = false →
    Gives (.servoBoundary n) s fun t =>
      let x := pl.at (pl.k + 1)
      t.prof[n].pcmd = wrapPos x.1 ∧ t.prof[n].vel = x.2.1 ∧ t.prof[n].acc = x.2.2 ∧ t.prof[n].plan = some { pl with k := pl.k + 1 } ∧
      t.get (R.SLC_SVCMD0_PCMD n) = ofS 64 x.1 ∧ t.axst n = 2 ∧ t.faults = s.faults ∧ t.mem = s.mem) ∧
  (∀ (n : Slice) (q : Nat) (c : Capture) (s : State), s.supRuns n = true → s.sup[n].cap = some c → c.seq = q % 65536 → s.sup[n].written = false →
    exec (.svcmd1Write n q) s = .next (s.modSup n fun u =>
      { u with written := true, stale := 0, paired := some (c, s.getS (R.SLC_SVCMD0_PCMD n)) })) ∧
  (∀ (n : Slice) (q : Nat) (c : Capture) (s : State), s.supRuns n = true → s.sup[n].cap = some c → c.seq ≠ q % 65536 →
    Gives (.svcmd1Write n q) s fun t => Only s t [(R.SLC_SVCNT_STALECNT n, more s (R.SLC_SVCNT_STALECNT n))] []) ∧
  (∀ (n : Slice) (e : Bool) (c : Capture) (pc : Int) (s : State), Judged s n c pc →
    Gives (.supervisionStep n e) s fun t =>
      let fe := feOf c pc
      let cnt := if (s.feSet n).1 < ab fe then min 65535 (s.get (R.SLC_SVSTAT_FECNT n) + 1) else 0
      let trip := (s.hl (R.SLC_SVGROSS_FEGROSS n) * 2 ^ 16 : Nat) < ab fe ∨ ((s.feSet n).1 < ab fe ∧ (s.feSet n).2 ≤ cnt)
      t.get (R.SLC_SVSTAT_FE n) = ofS 32 (satS 32 (fe / 2 ^ 16)) ∧ t.get (R.SLC_SVSTAT_FECNT n) = cnt ∧
      t.sup[n].paired = none ∧ t.sup[n].prevP = some pc ∧ t.axst n = 2 ∧ t.mem = s.mem ∧
      (trip → Raises s t [(0x0902, 3, 1, (s.lead n).val)] ∧ t.get (R.SLC_SVCNT_FETRIP n) = more s (R.SLC_SVCNT_FETRIP n)) ∧
      (¬trip → t.faults = s.faults)) ∧
  (∀ (n : Slice) (s : State), s.supRuns n = true → s.on (R.SLC_PWMSTAT_FROZEN n) = false → s.get (R.SLC_SVCTL_SVSTALE n) ≤ s.sup[n].stale →
    Gives (.cmdstale n) s fun t =>
      t.sup[n] = { s.sup[n] with stale := 0 } ∧ t.get (R.SLC_SVCNT_STALECNT n) = more s (R.SLC_SVCNT_STALECNT n) ∧
      OnlyRegs s t [R.SLC_SVCNT_STALECNT n] ∧ t.mem = s.mem ∧ Raises s t [(0x0904, 3, 1, (s.lead n).val)]) ∧
  (∀ (n : Slice) (s : State), s.axst n = 3 → s.hasFb n = true →
    Gives (.stoptime n) s fun t => Only s t [] [(0x0909, 3, 1, (s.lead n).val)]) ∧
  (∀ (n : Slice) (s : State), s.supRuns n = true → s.on (R.SLC_PWMSTAT_FROZEN n) = true → s.hl (R.SLC_SVTRAV2_TRAV_EN n) = 0 →
    Gives (.freezeSwitchRead n) s fun t =>
      OnlyRegs s t [R.SLC_SVSTAT_LIMP n, R.SLC_SVSTAT_LIMN n, R.SLC_SVCNT_LIMCNT n] ∧
      t.on (R.SLC_SVSTAT_LIMP n) = s.limP n ∧ t.on (R.SLC_SVSTAT_LIMN n) = s.limN n ∧ t.sup = s.sup ∧ t.mem = s.mem ∧
      (s.limP n = true → s.limN n = true → Raises s t [(0x0908, 3, 1, (s.lead n).val)]) ∧
      (s.limP n = true → s.limN n = false → s.sup[n].moveDir = 1 → s.on (R.SLC_SVSTAT_HOMESUSP n) = false →
        Raises s t [(0x0907, 3, 1, (s.lead n).val)] ∧ t.get (R.SLC_SVCNT_LIMCNT n) = more s (R.SLC_SVCNT_LIMCNT n)) ∧
      (s.limP n = false → s.limN n = false → t.faults = s.faults))

/-- R260, R261, R262, R266, R278, R280, R281, R282, Table MOT.1. -/
def Obligations.MotionCommands : Prop :=
  (∀ (n : Slice) (ssel : Fin 4) (pr : Bool) (s : State), s.staged = [] → s.moveCheck n true = none →
    let x := s.getS (R.SLC_PRTGT_TGT n)
    (s.outOfRange n x = false → MoveTaken (.move n false ssel pr) s n 2 fun t =>
      t.prof[n].target = x ∧ t.prof[n].probe = pr ∧ t.prof[n].done = false ∧ t.prof[n].pcmd = s.prof[n].pcmd ∧
      t.prof[n].plan = some (planMove (s.limits n) s.prof[n].pcmd s.prof[n].vel s.prof[n].acc x)) ∧
    (s.outOfRange n x = false → MoveTaken (.move n true ssel pr) s n 1 fun t =>
      t.prof[n] = { s.prof[n] with done := false, inposRun := 0, armed := some ⟨ssel.val, false, 1, x, pr⟩ }) ∧
    (s.outOfRange n x = true → MoveRefused (.move n false ssel pr) s n 6)) ∧
  (∀ (n : Slice) (ssel : Fin 4) (pr : Bool) (s : State), s.staged = [] → s.moveCheck n false = none →
    let x := wrapPos (s.prof[n].target + s.getS (R.SLC_PRTGT_TGT n))
    s.outOfRange n x = false → MoveTaken (.moveRel n false ssel pr) s n 2 fun t =>
      t.prof[n].target = x ∧ t.prof[n].plan = some (planMove (s.limits n) s.prof[n].pcmd s.prof[n].vel s.prof[n].acc x)) ∧
  (∀ (n : Slice) (neg : Bool) (s : State), s.staged = [] → s.moveCheck n false = none →
    MoveTaken (.jog n neg) s n 3 fun t =>
      t.prof[n].plan = some (planJog (s.limits n) s.prof[n].pcmd s.prof[n].vel s.prof[n].acc
        (if neg then -((s.limits n).vel : Int) else (s.limits n).vel)) ∧ t.prof[n].target = s.prof[n].target) ∧
  (∀ (n : Slice) (ssw : Bool) (ssel : Fin 4) (pr neg : Bool) (c : Nat) (s : State), s.staged = [] →
    (s.moveCheck n true = some c → MoveRefused (.move n ssw ssel pr) s n c) ∧
    (s.moveCheck n false = some c → MoveRefused (.moveRel n ssw ssel pr) s n c ∧ MoveRefused (.jog n neg) s n c)) ∧
  (∀ (n : Slice) (c : Capture) (s : State), HomeReady s n → s.get (R.SLC_HMCFG_METHOD n) = 4 → s.pairFunc n = 0 → s.sup[n].cap = some c →
    MoveTaken (.home n) s n 4 fun t =>
      t.get (R.SLC_PRSTAT_HSTEP n) = 5 ∧
      t.prof[n].home = some ⟨4, 1, s.prof[n].pcmd, some c.p, s.get (R.SLC_SVCTL_FESEL n), none⟩) ∧
  (∀ (n : Slice) (s : State), HomeReady s n → s.get (R.SLC_HMCFG_METHOD n) = 0 → s.hasIndex n = true →
    MoveTaken (.home n) s n 4 fun t =>
      t.get (R.SLC_PRSTAT_HSTEP n) = 1 ∧ t.prof[n].home = some ⟨0, 1, s.prof[n].pcmd, none, s.get (R.SLC_SVCTL_FESEL n), none⟩ ∧
      t.prof[n].plan.isSome = true) ∧
  (∀ (n : Slice) (s : State), s.axmode n = 2 → s.axst n = 2 → s.get (R.SLC_PRSTAT_PSTATE n) ≠ 0 → MoveRefused (.home n) s n 4) ∧
  (∀ (n : Slice) (h : HomeDyn) (s : State), s.axmode n = 2 → s.axst n = 2 → s.prof[n].home = some h → h.method ≠ 3 →
    Gives (.homeAbort n) s fun t =>
      t.prof[n].home = none ∧ t.get (R.SLC_PRSTAT_PSTATE n) = 0 ∧ t.get (R.SLC_PRSTAT_HSTEP n) = 0 ∧ t.get (R.SLC_PRSTAT_RES n) = 0 ∧
      t.get (R.SLC_SVSTAT_HOMESUSP n) = 0 ∧
      t.prof[n].plan = some (planJog (s.homeLimits n false) s.prof[n].pcmd s.prof[n].vel s.prof[n].acc 0) ∧
      { t with regs := s.regs, prof := s.prof } = s) ∧
  (∀ (n : Slice) (h : HomeDyn) (s : State), s.prof[n].home = some h → h.method = 3 → h.phase = 1 → h.pref = none →
    Gives (.hardstopReference n) s fun t =>
      t.prof[n] = { s.prof[n] with home := some { h with pref := some (s.homePos n) } } ∧ t.get (R.SLC_SVSTAT_HOMESUSP n) = 0 ∧
      OnlyRegs s t [R.SLC_SVSTAT_HOMESUSP n] ∧ { t with regs := s.regs, prof := s.prof } = s) ∧
  (∀ (n : Slice) (s : State), s.axmode n = 5 → s.axOn n = true → s.prof[n].moved = false →
    exec (.stepHoldCurrent n) s = .next (s.modProf n fun p => { p with holdDue := true })) ∧
  (∀ (n : Slice) (s : State), s.axmode n = 5 → s.axOn n = true → s.get (R.SLC_STCFG_STALL_N n) ≤ s.prof[n].stallRun → s.prof[n].home = none →
    Gives (.stall n) s fun t =>
      t.prof[n] = { s.prof[n] with stallRun := 0 } ∧ t.get (R.SLC_PRSTAT_STALLCNT n) = more s (R.SLC_PRSTAT_STALLCNT n) ∧
      t.get (R.SLC_PRSTAT_SLOST n) = 1 ∧ t.get (R.SLC_PRSTAT_HOMED n) = 0 ∧
      OnlyRegs s t [R.SLC_PRSTAT_STALLCNT n, R.SLC_PRSTAT_SLOST n, R.SLC_PRSTAT_HOMED n] ∧
      Raises s t [(0x0A01, if s.on (R.SLC_STCFG_STALLSEV n) then 3 else 1, 1, (s.lead n).val)]) ∧
  (∀ (k : Fin 4) (s : State), Gives (.fire k) s fun t =>
    t.get (R.GRP_SS_FIRECNT k) = more s (R.GRP_SS_FIRECNT k) ∧ OnlyRegs s t [R.GRP_SS_FIRECNT k] ∧
    { t with regs := s.regs, prof := s.prof, grp := s.grp } = s ∧
    (∀ n : Slice, t.prof[n] = { s.prof[n] with
      armed := s.prof[n].armed.map fun a => if a.ssel = k.val then { a with fired := true } else a }) ∧
    ∀ g : Fin 8, t.grp[g] = { s.grp[g] with armed := s.grp[g].armed.map fun a => if a.1 = k.val then (k.val, true) else a })

/-- R267, R268, R270, R271, Table MOT.3, Table MOT.4. -/
def Obligations.PathGroups : Prop :=
  (∀ (g : Fin 8) (ssel : Fin 4) (s : State), GoReady s g →
    (GroupTaken (.go g false ssel) s g 2 [R.GRP_STAT_SEGID g] fun t =>
      t.grp[g].queue = s.grp[g].queue ∧ t.grp[g].start = s.memberPos g ∧ t.grp[g].sigma = 0 ∧ t.grp[g].speed = 0 ∧ t.grp[g].f = 0 ∧
      ∀ x ∈ s.grp[g].queue.head?, t.get (R.GRP_STAT_SEGID g) = x.segid % 65536) ∧
    (GroupTaken (.go g true ssel) s g 1 [] fun t =>
      t.grp[g] = { s.grp[g] with armed := some (ssel.val, false), f := 0, speed := 0, sigma := 0 })) ∧
  (∀ (g : Fin 8) (ssw : Bool) (ssel : Fin 4) (s : State),
    (s.gstate g ≠ 0 → GroupRefused (.go g ssw ssel) s g 1) ∧
    (s.gstate g = 0 → s.allEnabled g = true → s.grp[g].queue = [] → GroupRefused (.go g ssw ssel) s g 3)) ∧
  (∀ (g : Fin 8) (s : State), (s.gstate g = 2 ∨ s.gstate g = 4) →
    GroupTaken (.groupHold g) s g 3 [] fun t => t.grp[g] = { s.grp[g] with quick := false }) ∧
  (∀ (g : Fin 8) (s : State), s.gstate g = 3 → s.allEnabled g = true →
    GroupTaken (.groupResume g) s g 2 [] fun t => t.grp[g].queue = s.grp[g].queue ∧ t.grp[g].sigma = s.grp[g].sigma ∧ t.grp[g].quick = false) ∧
  (∀ (g : Fin 8) (s : State), s.gstate g = 1 →
    GroupTaken (.groupAbort g) s g 0 [R.GRP_STAT_COUNT g] fun t =>
      t.grp[g] = { s.grp[g] with queue := [], armed := none, speed := 0, sigma := 0 } ∧ t.get (R.GRP_STAT_COUNT g) = 0) ∧
  (∀ (g : Fin 8) (s : State), (s.gstate g = 0 ∨ s.gstate g = 1) →
    GroupRefused (.groupHold g) s g 1 ∧ GroupRefused (.groupResume g) s g 1 ∧ (s.gstate g = 0 → GroupRefused (.groupAbort g) s g 1)) ∧
  (∀ (g : Fin 8) (s : State), s.gstate g ≠ 4 →
    let a := s.slotAddr g (s.get (R.GRP_STAT_HEAD g) + s.grp[g].queue.length)
    let x := s.readSeg a (s.members g).length
    (s.segCheck g a x (s.queueEnd g) = none → GroupTaken (.append g 1) s g (s.gstate g) [R.GRP_STAT_COUNT g] fun t =>
      t.grp[g] = { s.grp[g] with queue := s.grp[g].queue ++ [x] } ∧ t.get (R.GRP_STAT_COUNT g) = s.grp[g].queue.length + 1) ∧
    (∀ c : Nat, s.segCheck g a x (s.queueEnd g) = some c → GroupRefused (.append g 1) s g c))

/-- R305, R307, R308, R309, R310, R312, R304, R319. -/
def Obligations.FramesAndLinks : Prop :=
  (∀ (p : Fin 3) (f : Frame) (s : State), PlainPort s p → GoodFrame s p f → s.on R.NET_CFG_LEARN = true → s.learned f.src = none →
    s.net.learn.length < 1024 → f.kind = .hostProtocol → f.etherType ≠ 0x8808 → f.dst = s.get R.NET_MAC_MAC → f.dst / 2 ^ 40 % 2 = 0 →
    s.net.ports[(2 : Fin 3)].queues.length = 4 → s.fits 2 (s.queueOf (s.prioOf p f)) f.length = true →
    Gives (.frameReceived p f) s fun t =>
      let q := s.queueOf (s.prioOf p f)
      t.net.learn = s.net.learn ++ [(f.src, p.val)] ∧ t.get R.NET_FOSTAT_LEARNED = s.net.learn.length + 1 ∧
      t.get (R.NET_PCNT0_RXFRM p) = more s (R.NET_PCNT0_RXFRM p) ∧ ⟨s.net.nextId, cellsOf f.length, q, 1⟩ ∈ t.net.ports[p].ingress ∧
      nthD t.net.ports[(2 : Fin 3)].queues q [] =
        nthD s.net.ports[(2 : Fin 3)].queues q [] ++ [⟨some (p.val, s.net.nextId), f.length, false, .fwd f⟩] ∧
      OnlyRegs s t [R.NET_FOSTAT_LEARNED, R.NET_PCNT0_RXFRM p] ∧ t.mem = s.mem ∧ t.faults = s.faults) ∧
  (∀ (p : Fin 3) (f : Frame) (s : State), PlainPort s p →
    ((f.fcsOk = false ∨ f.codeError = true ∨ f.length < 64) → Gives (.frameReceived p f) s fun t =>
      t.get (R.NET_PCNT1_RXERR p) = more s (R.NET_PCNT1_RXERR p) ∧ OnlyRegs s t [R.NET_PCNT1_RXERR p] ∧ t.net = s.net) ∧
    (f.fcsOk = true → f.codeError = false → 64 ≤ f.length → s.get (R.NET_PCFG_MAXFRM p) < f.length → Gives (.frameReceived p f) s fun t =>
      t.get (R.NET_PCNT1_OVERSIZE p) = more s (R.NET_PCNT1_OVERSIZE p) ∧ OnlyRegs s t [R.NET_PCNT1_OVERSIZE p] ∧ t.net = s.net) ∧
    (f.fcsOk = true → f.codeError = false → 64 ≤ f.length → f.length ≤ s.get (R.NET_PCFG_MAXFRM p) →
      s.ingressLimit p < s.net.ports[p].used none + cellsOf f.length → Gives (.frameReceived p f) s fun t =>
        t.get (R.NET_PCNT1_RXOVF p) = more s (R.NET_PCNT1_RXOVF p) ∧ OnlyRegs s t [R.NET_PCNT1_RXOVF p] ∧ t.net = s.net)) ∧
  (∀ (p : Fin 3) (f : Frame) (s : State), PlainPort s p → s.get R.NET_HPCFG0_IPV4 ≠ 0 → f.kind = .arp →
    Gives (.arpRequest p f (s.get R.NET_HPCFG0_IPV4)) s fun t => t.outbox = [(s.outPort p.val, 2, .arpReply f.src)]) ∧
  (∀ (mac : Nat) (s : State), s.get R.NET_CFG_AGE ≠ 0 → Gives (.learnAgeout mac) s fun t =>
    t.net = { s.net with learn := s.net.learn.filter fun e => e.1 != mac } ∧
    t.get R.NET_FOSTAT_LEARNED = t.net.learn.length % 2048 ∧ OnlyRegs s t [R.NET_FOSTAT_LEARNED] ∧ { t with net := s.net, regs := s.regs } = s) ∧
  (∀ s : State, Gives .flush s fun t =>
    t.net = { s.net with learn := [] } ∧ t.get R.NET_FOSTAT_LEARNED = 0 ∧ OnlyRegs s t [R.NET_FOSTAT_LEARNED] ∧
    { t with net := s.net, regs := s.regs } = s) ∧
  (∀ (p : Fin 2) (speed : Nat) (pa : Bool) (s : State), s.netRuns = true → s.on (R.NET_PSTAT_LINK p) = false → s.boot.recovery = false →
    s.get (R.NET_PCFG_MODE p) ≠ 0 →
    Gives (.linkUp p speed pa) s fun t =>
      t.get (R.NET_PSTAT_LINK p) = 1 ∧ t.get (R.NET_PSTAT_SYNC p) = 1 ∧ t.get (R.NET_PSTAT_SPEED p) = speed % 8 ∧
      t.on (R.NET_PSTAT_PPAUSE p) = pa ∧ t.get R.NET_FOSTAT_NOLINK = 0 ∧
      (s.get R.NET_CFG_PMODE = 1 → s.on (R.NET_PSTAT_LINK (1 - p.val)) = false → t.get R.NET_FOSTAT_ACTIVE = p.val) ∧
      (s.get R.NET_CFG_PMODE ≠ 1 → t.get R.NET_FOSTAT_ACTIVE = s.get R.NET_FOSTAT_ACTIVE) ∧
      OnlyRegs s t [R.NET_PSTAT_LINK p, R.NET_PSTAT_SYNC p, R.NET_PSTAT_SPEED p, R.NET_PSTAT_PPAUSE p, R.NET_FOSTAT_NOLINK,
        R.NET_FOSTAT_ACTIVE] ∧ { t with regs := s.regs } = s) ∧
  (∀ (p : Fin 2) (s : State), s.on (R.NET_PSTAT_LINK p) = true → NetQuiet s → s.time.master = none →
    Gives (.linkDown p) s fun t =>
      let other := 1 - p.val
      t.get (R.NET_PSTAT_LINK p) = 0 ∧ t.get (R.NET_PSTAT_SYNC p) = 0 ∧ t.get (R.NET_PSTAT_SPEED p) = 0 ∧ t.get (R.NET_PSTAT_LDOWN p) = 1 ∧
      t.net.ports[extPort p].queues = [[], [], [], []] ∧ t.net.ports[extPort p].sending = none ∧ t.mem = s.mem ∧
      (CanMove s other → s.get R.NET_FOSTAT_ACTIVE = p.val → Moved s t other ∧ Raises s t [(0x0C03, 0, 0, 0), (0x0C01, 1, 0, 0)]) ∧
      (s.on (R.NET_PSTAT_LINK other) = false → t.get R.NET_FOSTAT_NOLINK = 1 ∧ Raises s t [(0x0C03, 0, 0, 0)])) ∧
  (∀ s : State, CanMove s (s.get R.NET_CFG_PREF) → s.on R.NET_CFG_REVERT = true → s.get R.NET_FOSTAT_ACTIVE ≠ s.get R.NET_CFG_PREF →
    s.role = 1 → Gives .failoverRevert s fun t =>
      Moved s t (s.get R.NET_CFG_PREF) ∧ OnlyRegs s t [R.NET_FOSTAT_ACTIVE, R.NET_FOSTAT_FOCNT] ∧
      { t with regs := s.regs, outbox := s.outbox } = s) ∧
  (∀ s : State, CanMove s (1 - s.get R.NET_FOSTAT_ACTIVE) → s.role = 1 → Gives .switch s fun t =>
    Moved s t (1 - s.get R.NET_FOSTAT_ACTIVE) ∧ OnlyRegs s t [R.NET_FOSTAT_ACTIVE, R.NET_FOSTAT_FOCNT] ∧
    { t with regs := s.regs, outbox := s.outbox } = s) ∧
  (∀ s : State, ¬CanMove s (1 - s.get R.NET_FOSTAT_ACTIVE) → Gives .switch s fun t => Only s t [] [(0x0C02, 0, 0, 0)])

/-- R311, R314, R316, R329, R342, R343. -/
def Obligations.FramesSent : Prop :=
  (∀ (p : Fin 3) (stamp : Stamp) (m : OwnMsg) (l : List OwnMsg) (s : State), s.portUp p = true → NetQuiet s → s.net.ports[p].sending = none →
    s.net.ports[p].launch = [] → s.net.ports[p].control = m :: l →
    Gives (.frameTransmitStart p stamp) s fun t =>
      PortBecomes s t p { s.net.ports[p] with control := l, sending := some ⟨none, 64, false, .own m⟩ } ∧
      t.get (R.NET_PCNT2_PAUSETX p) = more s (R.NET_PCNT2_PAUSETX p) ∧ OnlyRegs s t [R.NET_PCNT2_PAUSETX p]) ∧
  (∀ (p : Fin 3) (stamp : Stamp) (q : Nat) (f : QFrame) (s : State), s.portUp p = true → NetQuiet s → s.net.ports[p].sending = none →
    s.net.ports[p].launch = [] → s.net.ports[p].control = [] → s.nextQueue p = some (q, f) → s.on R.PTP_CFG_PROF = false →
    let queues := setNth s.net.ports[p].queues q ((nthD s.net.ports[p].queues q []).drop 1)
    ((s.on R.PTP_CFG_TCEN = false ∨ f.held = none) → Gives (.frameTransmitStart p stamp) s fun t =>
      PortBecomes s t p { s.net.ports[p] with queues := queues, sending := some f } ∧ t.regs = s.regs) ∧
    (∀ (g : Frame) (i k : Nat), s.on R.PTP_CFG_TCEN = true → s.on R.PTP_CFG_P2P = false → f.held = some (i, k) → f.body = .fwd g →
      g.kind = .ptpSync → Gives (.frameTransmitStart p stamp) s fun t =>
        PortBecomes s t p { s.net.ports[p] with
          queues := queues
          sending := some { f with body := .fwd { g with
            correction := g.correction + (s.txTime p.val stamp - s.rxTime i g.stamp) } } } ∧ t.regs = s.regs)) ∧
  (∀ (p : Fin 3) (f : QFrame) (m : OwnMsg) (s : State), p ≠ 2 → NetQuiet s → s.net.ports[p].sending = some f → f.held = none →
    f.body = .own m → (∀ pfc e q, m ≠ .pause pfc e q) →
    Gives (.frameTransmitted p) s fun t =>
      PortBecomes s t p { s.net.ports[p] with sending := none } ∧ t.get (R.NET_PCNT0_TXFRM p) = more s (R.NET_PCNT0_TXFRM p) ∧
      OnlyRegs s t [R.NET_PCNT0_TXFRM p]) ∧
  (∀ (p : Fin 2) (s : State), s.portUp (extPort p) = true → s.get (R.NET_PCFG_FC p) = 1 → s.on (R.NET_PSTAT_XOFF p) = true →
    exec (.pauseRefresh p) s = .next (s.modPort (extPort p) fun x =>
      { x with control := x.control ++ [.pause false 0 [s.get (R.NET_FCTH_QUANTA p)]] })) ∧
  (∀ (p : Fin 2) (r : PauseRec) (s : State), s.portUp (extPort p) = true → r.pfc = false →
    Gives (.pauseReceived p r) s fun t =>
      t.get (R.NET_PCNT2_PAUSERX p) = more s (R.NET_PCNT2_PAUSERX p) ∧ t.get (R.NET_PCNT0_RXFRM p) = more s (R.NET_PCNT0_RXFRM p) ∧
      OnlyRegs s t [R.NET_PCNT2_PAUSERX p, R.NET_PCNT0_RXFRM p, R.NET_PSTAT_PAUSED p] ∧
      (s.on (R.NET_PCFG_RXPAUSE p) = true → t.on (R.NET_PSTAT_PAUSED p) = (nthD r.quanta 0 0 != 0) ∧
        t.net.ports[extPort p].pauseQuanta = nthD r.quanta 0 0) ∧
      (s.on (R.NET_PCFG_RXPAUSE p) = false → t.get (R.NET_PSTAT_PAUSED p) = s.get (R.NET_PSTAT_PAUSED p) ∧ t.net = s.net)) ∧
  (∀ (p : Fin 2) (q : Fin 4) (s : State), Gives (.pauseHoldExpiry p q) s fun t =>
    t.held (extPort p) q = false ∧ t.get (R.NET_PSTAT_PAUSED p) = 0 ∧ t.net.ports[extPort p].pauseQuanta = 0 ∧
    OnlyRegs s t [R.NET_PSTAT_PAUSED p, R.NET_PSTAT_PFCHELD p] ∧ { t with net := s.net, regs := s.regs } = s) ∧
  (∀ (p : Fin 2) (d : LaunchDyn) (l : List LaunchDyn) (s : State), s.portUp (extPort p) = true → s.net.ports[extPort p].launch = d :: l →
    d.time ≤ s.clock.now →
    (s.clock.now ≤ d.time + 1000 * nsUnit → s.held (extPort p) 2 = false → s.net.ports[extPort p].sending = none →
      exec (.launch p) s = .next (s.modPort (extPort p) fun x =>
        { x with launch := l, sending := some ⟨none, s.ownLength d.msg, s.on R.SYS_STATE_HOLDOVER, .own d.msg⟩ })) ∧
    (d.time + 1000 * nsUnit < s.clock.now → d.dropLate = true → d.counted = false →
      Gives (.launch p) s fun t =>
        PortBecomes s t (extPort p) { s.net.ports[extPort p] with launch := l } ∧ t.get R.PTP_CNT_LLATE = more s R.PTP_CNT_LLATE ∧
        t.get (R.NET_PCNT2_TXLATE p) = more s (R.NET_PCNT2_TXLATE p) ∧ OnlyRegs s t [R.PTP_CNT_LLATE, R.NET_PCNT2_TXLATE p]))

/-- R324. -/
def Obligations.TimePairRead : Prop :=
  (∀ s : State, Gives .ptpTime0Read s fun t =>
    Only s t [(R.PTP_TIME1_SEC, s.clock.now / secUnit % 2 ^ 48)] [] ∧ t.regWord 0x310020 = s.clock.now / secUnit % 2 ^ 48 ∧
    s.regWord 0x310018 = s.clock.now / nsUnit % 1000000000 + s.clock.now % nsUnit / 2 ^ 16 * 2 ^ 32) ∧
  (∀ s : State, s.regWord 0x310020 = s.get R.PTP_TIME1_SEC) ∧
  (∀ s : State, s.idle.regWord 0x310020 = s.regWord 0x310020)

/-- R326, R327, R328, R329, R330, R332, R333, R334. -/
def Obligations.PtpMessages : Prop :=
  (∀ (r : SyncRec) (s : State), SyncTaken s r → s.on R.PTP_STAT_HOLD = true → s.time.qual + 1 < s.get R.PTP_SERVO_QUALN →
    Gives (.syncReceived r) s fun t =>
      t.get R.PTP_OFFS_OFFSET = ofS 32 (satS 32 (Int.fdiv (offsetOfSync s r) 4096)) ∧ t.time.qual = s.time.qual + 1 ∧
      ClockOnly s t [R.PTP_OFFS_OFFSET]) ∧
  (∀ (r : SyncRec) (s : State), SyncTaken s r → s.on R.PTP_STAT_HOLD = false → s.on R.PTP_STAT_LOCK = false →
    ab (offsetOfSync s r) ≤ (s.get R.PTP_SERVO_STEPTH * 100 * 65536 : Nat) → ab (offsetOfSync s r) ≤ (s.get R.PTP_SERVO_LOCKTH * 65536 : Nat) →
    s.get R.PTP_SERVO_LOCKN ≤ s.time.lockRun + 1 → s.get R.PTP_STAT_RATEMAX < 2 ^ 31 →
    Gives (.syncReceived r) s fun t =>
      t.get R.PTP_OFFS_OFFSET = ofS 32 (satS 32 (Int.fdiv (offsetOfSync s r) 4096)) ∧ t.get R.PTP_STAT_LOCK = 1 ∧
      t.get R.PTP_STAT_DRIFT = 0 ∧ t.get R.PTP_STAT_TIMESET = 1 ∧ ab (t.getS R.PTP_RATE_RATE) ≤ (s.get R.PTP_STAT_RATEMAX * 65536 : Nat) ∧
      t.clock = s.clock ∧ t.faults = s.faults ∧
      OnlyRegs s t [R.PTP_OFFS_OFFSET, R.PTP_STAT_LOCK, R.PTP_STAT_DRIFT, R.PTP_STAT_TIMESET, R.PTP_RATE_RATE]) ∧
  (∀ (r : AnnounceRec) (s : State), s.ptpRuns = true → s.role = 0 → r.domain = s.get R.PTP_CFG_DOMAIN → s.on (R.NET_PSTAT_LINK r.port) = true →
    r.stepsRemoved < 255 → s.time.heard = [] → s.time.master = none → s.get R.NET_CFG_PMODE = 0 → s.on R.PTP_STAT_HOLD = true →
    Gives (.announceReceived r) s fun t =>
      t.time.heard = [r] ∧ t.time.master = some r.source ∧ t.get R.PTP_GMID_GMID = r.gmId % 2 ^ 64 ∧
      t.get R.PTP_STAT_RXPORT = r.port.val ∧ t.get R.PTP_STAT_LOCK = 0 ∧
      ClockOnly s t [R.PTP_STAT_RSTATE, R.PTP_GMID_GMID, R.PTP_STAT_RXPORT, R.PTP_STAT_LOCK]) ∧
  (∀ (r : DelayRec) (s : State), s.ptpRuns = true → r.domain = s.get R.PTP_CFG_DOMAIN → s.on (R.NET_PSTAT_LINK r.port) = true →
    s.peerDelay = false →
    (r.kind = .delayResp → s.isMaster = false → s.time.master = some r.source → s.time.delay.length = 2 →
      Gives (.delayMessageReceived r) s fun t =>
        nthD t.time.delay r.port 0 =
          Int.fdiv (s.rxTime r.port r.t2 - r.t1 + r.t4 - s.txTime r.port r.t3 - r.correction) 2 ∧ ClockOnly s t [R.PTP_OFFS_MPD]) ∧
    (r.kind = .delayReq → s.isMaster = true → s.ptpPort r.port = true →
      exec (.delayMessageReceived r) s = .next (s.send r.port 3
        (.ptp 9 (packedTime ((s.rxTime r.port r.t4).toNat * 65536) ++ leBytes 8 r.source))))) ∧
  (∀ (p : Fin 2) (s : State), s.ptpRuns = true → s.on (R.NET_PSTAT_LINK p) = true →
    (s.isMaster = true → s.ptpPort p = true → s.on R.PTP_CFG_PROF = false →
      exec (.ptpMessageInterval p .sync) s = .next (s.send p 3 (.ptp 0 (packedTime s.clock.now))) ∧
      exec (.ptpMessageInterval p .announce) s = .next (s.send p 3 (.ptp 0xB s.announceBody))) ∧
    (s.isMaster = false → s.peerDelay = false → s.time.master ≠ none → s.get R.PTP_STAT_RXPORT = p.val →
      exec (.ptpMessageInterval p .delay) s = .next (s.send p 3 (.ptp 1 (packedTime s.clock.now))))) ∧
  (∀ s : State, s.ptpRuns = true → s.isMaster = false → s.time.master ≠ none →
    (s.on R.PTP_STAT_HOLD = true → Gives .syncTimeout s fun t => t.get R.PTP_STAT_LOCK = 0 ∧ t.time.qual = 0 ∧ ClockOnly s t [R.PTP_STAT_LOCK]) ∧
    (s.on R.PTP_STAT_HOLD = false → s.schedRuns = true → s.get R.PTP_STAT_RATEMAX < 2 ^ 31 → Gives .syncTimeout s fun t =>
      t.get R.PTP_STAT_LOCK = 0 ∧ t.get R.PTP_STAT_HOLD = 1 ∧ t.get R.SYS_STATE_HOLDOVER = 1 ∧
      t.get R.PTP_CNT_HOCNT = more s R.PTP_CNT_HOCNT ∧ t.getS R.PTP_RATE_RATE = s.clampRate s.heldRate ∧ t.clock = s.clock ∧
      Raises s t [(0x0D01, 0, 0, 0)] ∧
      OnlyRegs s t [R.PTP_STAT_LOCK, R.PTP_STAT_HOLD, R.SYS_STATE_HOLDOVER, R.PTP_CNT_HOCNT, R.PTP_RATE_RATE])) ∧
  (∀ (r : AnnounceRec) (s : State), s.ptpRuns = true → s.role = 0 → s.time.master = some r.source → s.time.heard = [r] →
    r.port.val = s.get R.PTP_STAT_RXPORT → s.on R.PTP_STAT_HOLD = true →
    Gives .announceTimeout s fun t =>
      t.time.master = none ∧ t.time.heard = [] ∧ t.get R.PTP_STAT_LOCK = 0 ∧ ClockOnly s t [R.PTP_STAT_LOCK]) ∧
  (∀ s : State, s.on R.PTP_STAT_HOLD = true → s.time.drifted = false →
    Gives .timedrift s fun t =>
      t.get R.PTP_STAT_DRIFT = 1 ∧ t.time = { s.time with drifted := true } ∧ OnlyRegs s t [R.PTP_STAT_DRIFT] ∧
      Raises s t [(0x0D02, 1, 0, 0)] ∧ t.mem = s.mem)

/-- R322, R323, R325, R331, R335, R338, R339, R340. -/
def Obligations.LocalClock : Prop :=
  (∀ (ofs : Int) (s : State), NoCmp s → s.stepAllowed = true →
    Gives (.ptpAdj ofs) s fun t =>
      t.clock = { s.clock with now := ((s.clock.now : Int) + ofs * nsUnit).toNat % clockWrap } ∧
      t.get R.PTP_CNT_STEPCNT = more s R.PTP_CNT_STEPCNT ∧ t.get R.PTP_STAT_TIMESET = 1 ∧
      OnlyRegs s t [R.PTP_CNT_STEPCNT, R.PTP_STAT_TIMESET] ∧ { t with regs := s.regs, clock := s.clock } = s) ∧
  (∀ (ofs : Int) (s : State), s.stepAllowed = false → Gives (.ptpAdj ofs) s fun t => Only s t [] [(0x0105, 0, 0, 0)]) ∧
  (∀ (sec : Nat) (s : State), s.stepAllowed = true →
    exec (.ptpSetsec sec) s = .next { s with staged := s.staged ++ [⟨R.PTP_SETSEC_SEC, sec % 2 ^ 48, .second, 0⟩] }) ∧
  (∀ s : State, s.clock.running = true → s.staged = [] →
    Gives .nsCarry s fun t =>
      t.clock.now = (s.clock.now + secUnit - 1) / secUnit * secUnit ∧ t.clock.running = true ∧ { t with clock := s.clock } = s) ∧
  (∀ (v : Nat) (s : State), s.clock.running = true → NoCmp s → v < 2 ^ 48 → s.staged = [⟨R.PTP_SETSEC_SEC, v, .second, 0⟩] →
    Gives .nsCarry s fun t => t.clock.now = v * secUnit ∧ t.staged = [] ∧ t.get R.PTP_CNT_STEPCNT = more s R.PTP_CNT_STEPCNT) ∧
  (∀ s : State, s.clock.running = true →
    exec .rindTimeCopy s = .next { s with clock := { s.clock with rind := s.clock.now, rindSet := s.on R.PTP_STAT_TIMESET } }) ∧
  (∀ (stamp : Stamp) (s : State), s.clock.running = true → (s.isMaster = false ∨ s.on R.PTP_SRC_PPSDISC = false) →
    Gives (.syncInEdge stamp) s fun t => Only s t [(R.PTP_SIN_TS, compactOf (stamp * 65536) % 2 ^ 64), (R.PTP_STAT_SINV, 1)] []) ∧
  (∀ s : State, s.time.cleared = false →
    (Gives .syncInMissing s fun t => t.get R.PTP_STAT_SINV = 0 ∧ ClockOnly s t [R.PTP_STAT_SINV] ∧
      (s.clock.running = true → s.isMaster = true → s.on R.PTP_SRC_PPSDISC = true → t.time = { s.time with present := 0, lockRun := 0 })) ∧
    (Gives .refInLoss s fun t => t.get R.PTP_STAT_REFV = 0 ∧ ClockOnly s t [R.PTP_STAT_REFV] ∧
      (s.clock.running = true → s.isMaster = true → s.on R.PTP_SRC_REFSEL = true → t.time = { s.time with present := 0, lockRun := 0 }))) ∧
  (∀ (count : Nat) (s : State), s.clock.running = true →
    ((s.isMaster = false ∨ s.on R.PTP_SRC_REFSEL = false) → Gives (.refGate count) s fun t => Only s t [(R.PTP_STAT_REFV, 1)] []) ∧
    (s.isMaster = true → s.on R.PTP_SRC_REFSEL = true → s.on R.PTP_SRC_PPSDISC = true → s.get R.PTP_STAT_RATEMAX < 2 ^ 31 →
      Gives (.refGate count) s fun t =>
        t.get R.PTP_STAT_REFV = 1 ∧
        t.getS R.PTP_RATE_RATE = s.clampRate (s.getS R.PTP_RATE_RATE + ((count : Int) - 10000000) * 100 * 65536) ∧
        ClockOnly s t [R.PTP_STAT_REFV, R.PTP_RATE_RATE])) ∧
  (∀ (k : Fin 16) (s : State), s.clock.running = true → s.on (R.PTP_CMP3_EN k) = true → s.cmpSpent k = false → s.time.spent.length = 16 →
    (∀ x ∈ s.host.sessions, x.report = none ∧ x.nextReport = none) → s.cmpTime k + s.cmpPer k < clockWrap →
    Gives (.comparatorFire k) s fun t =>
      let T := s.cmpTime k
      t.get (R.PTP_CMP3_FIRED k) = 1 ∧ t.get (R.PTP_CMP3_FIRECNT k) = more s (R.PTP_CMP3_FIRECNT k) ∧ t.clock.now = max s.clock.now T ∧
      t.sched.arrived = s.sched.arrived ++ [⟨1, k.val, [T / nsUnit % 1000000000 + T % nsUnit / 2 ^ 16 * 2 ^ 32, T / secUnit % 2 ^ 48]⟩] ∧
      (s.cmpPer k = 0 → t.cmpSpent k = true ∧ t.cmpTime k = T) ∧
      (s.cmpPer k ≠ 0 → t.cmpSpent k = false ∧ t.cmpTime k = T + s.cmpPer k) ∧
      (s.on R.PTP_SOUT_EN = true → s.get R.PTP_SOUT_CMP = k.val → t.time.soutOn = true) ∧ t.mem = s.mem) ∧
  (∀ s : State, exec .syncOutPulseEnd s = .next { s with time := { s.time with soutOn := false } }) ∧
  (∀ (n : Slice) (c : Tri Int) (s : State), nthD s.time.burst n 0 ≠ 0 → s.ax[n].started = true →
    Gives (.burstSampleSet n c) s fun t =>
      t.time = { s.time with burst := setNth s.time.burst n (nthD s.time.burst n 0 - 1) } ∧
      t.acq = { s.acq with burst := setNth s.acq.burst n ⟨q31 s n 0 c.u, q31 s n 1 c.v, q31 s n 2 c.w⟩ } ∧
      { t with time := s.time, acq := s.acq } = s)

/-- R345, R347, R348, R350, R351, Table HPR.2, Table HPR.3. -/
def Obligations.HostSessions : Prop :=
  (∀ (q : HpReq) (notify : Bool) (s : State), HostReady s q →
    (∀ i : Nat, s.freeSession = some i → Gives (.hpOpen q notify) s fun t =>
      (t.session i).isOpen = true ∧ (t.session i).notify = notify ∧ (t.session i).port = q.port.val ∧ (t.session i).src = q.src ∧
      (t.session i).udp = q.udp ∧ (t.session i).expect < 2 ^ 32 ∧ (t.session i).kept = [] ∧
      t.bitOf R.NET_HPSTAT_OPEN (i - 1) = true ∧ t.bitOf R.NET_HPSTAT_NOTIFY (i - 1) = notify ∧
      (∃ n0 n1, t.outbox = s.outbox ++ [(s.outPort q.port.val, 2,
        .reply 1 i q.seq 0 false (leBytes 8 n0 ++ leBytes 8 n1 ++ beBytes 4 (t.session i).expect))]) ∧
      (∀ j : Nat, j ≠ i → t.session j = s.session j) ∧ OnlyRegs s t [R.NET_HPSTAT_OPEN, R.NET_HPSTAT_NOTIFY]) ∧
    (s.freeSession = none → Gives (.hpOpen q notify) s fun t =>
      t.outbox = s.outbox ++ [(s.outPort q.port.val, 2, .reply 1 0 q.seq 0xB false [])] ∧
      t.get R.NET_HPCNT_REFUSED = more s R.NET_HPCNT_REFUSED ∧ OnlyRegs s t [R.NET_HPCNT_REFUSED] ∧ t.host = s.host)) ∧
  (∀ (q : HpReq) (s : State), InTurn s q → Gives (.hpClose q) s fun t =>
    t.outbox = s.outbox ++ [ReplyOf s q 2 0 false []] ∧ SessionGone t q.session ∧
    OnlyRegs s t [R.NET_HPSTAT_OPEN, R.NET_HPSTAT_NOTIFY, R.ACQ_CTL_SESS]) ∧
  (∀ (i : Nat) (s : State), i ≠ 0 → (s.session i).isOpen = true → s.host.sessions.length = 5 → Gives (.sessionTimeout i) s fun t =>
    SessionGone t i ∧ t.outbox = s.outbox ∧ OnlyRegs s t [R.NET_HPSTAT_OPEN, R.NET_HPSTAT_NOTIFY, R.ACQ_CTL_SESS]) ∧
  (∀ (q : HpReq) (s : State), InTurn s q → Gives (.hpNop q) s fun t => Replied s t q 3 0 [] ∧ SameMap s t ∧ t.faults = s.faults) ∧
  (∀ (c : Instr) (type : Nat) (q : HpReq) (addr k cmp ofs : Nat) (ws as : List Nat) (ms : List MaskWrite) (g : Fin 8) (gs : List (List Nat))
    (s : State), HostReady s q → s.sessOpen q.session = true → q.seq % 2 ^ 32 ≠ (s.session q.session).expect →
    (c, type) ∈ [(Instr.hpNop q, 3), (.hpRead q addr k, 0x10), (.hpWrite q addr ws, 0x11), (.hpWritem q addr ms, 0x12),
      (.segment q g gs, 0x21), (.repcfg q cmp ofs as, 0x22)] →
    ((s.session q.session).kept.find? (fun r => r.1 == q.seq % 2 ^ 32) = none → Gives c s fun t =>
      t.outbox = s.outbox ++ [ReplyOf s q type 0xA false (beBytes 4 (s.session q.session).expect)] ∧
      t.get R.NET_HPCNT_REFUSED = more s R.NET_HPCNT_REFUSED ∧ OnlyRegs s t [R.NET_HPCNT_REFUSED] ∧
      { t with regs := s.regs, outbox := s.outbox } = s) ∧
    (∀ n ty code body, (s.session q.session).kept.find? (fun r => r.1 == q.seq % 2 ^ 32) = some (n, ty, code, body) → Gives c s fun t =>
      t.outbox = s.outbox ++ [ReplyOf s q ty code true body] ∧ OnlyRegs s t [R.NET_HPCNT_REFUSED] ∧
      { t with regs := s.regs, outbox := s.outbox } = s)) ∧
  (∀ (q : HpReq) (type : Nat) (s : State), HostReady s q → s.sessOpen q.session = true → Gives (.hpUnknownType q type) s fun t =>
    t.outbox = s.outbox ++ [ReplyOf s q type 0xE false []] ∧ t.get R.NET_HPCNT_REFUSED = more s R.NET_HPCNT_REFUSED ∧
    OnlyRegs s t [R.NET_HPCNT_REFUSED] ∧ { t with regs := s.regs, outbox := s.outbox } = s)

/-- R352, R353, R355, R356, R357, R358, R361. -/
def Obligations.HostRequests : Prop :=
  (∀ (q : HpReq) (addr : Nat) (s : State), InTurn s q → s.shapeCode q addr 1 512 8 8 = 0 →
    (s.hostReadCode addr = 0 → Gives (.hpRead q addr 1) s fun t =>
      Replied s t q 0x10 0 (leBytes 8 (s.wordAt addr)) ∧ OnlyRegs s t [R.PTP_TIME1_SEC] ∧ t.mem = s.mem) ∧
    (s.hostReadCode addr ≠ 0 → Gives (.hpRead q addr 1) s fun t =>
      Replied s t q 0x10 (s.hostReadCode addr) [] ∧ OnlyRegs s t [R.NET_HPCNT_REFUSED] ∧ t.mem = s.mem)) ∧
  (∀ (q : HpReq) (addr v : Nat) (s : State), InTurn s q → s.shapeCode q addr 1 512 16 2 = 0 → WordTaken s q addr v allBits →
    Gives (.hpWrite q addr [v]) s fun t => WordBecomes s t addr (v % 2 ^ 64) ∧ Replied s t q 0x11 0 []) ∧
  (∀ (q : HpReq) (addr v m : Nat) (s : State), InTurn s q → s.shapeCode q addr 1 256 24 2 = 0 → WordTaken s q addr v m →
    Gives (.hpWritem q addr [⟨v, m⟩]) s fun t =>
      WordBecomes s t addr (maskedWord (s.rd addr 8) (v % 2 ^ 64) (m % 2 ^ 64)) ∧ Replied s t q 0x12 0 []) ∧
  (∀ (q : HpReq) (e : List Nat) (s : State), HostReady s q → s.sessOpen q.session = true → ElemTaken s e →
    Gives (.setpt q [e] true) s fun t =>
      t.sched.arrived = s.sched.arrived ++ [⟨5, elemStream e, elemWords e⟩] ∧ t.lastElem (elemStream e) = some (elemSeq e) ∧
      t.outbox = s.outbox ++ [ReplyOf s q 0x20 0 false [0, 1]] ∧ SameMap s t ∧ t.faults = s.faults) ∧
  (∀ (q : HpReq) (g : Fin 8) (segs : List (List Nat)) (u : State) (s : State), InTurn s q → segs ≠ [] → segs.length ≤ 35 →
    s.hostLength q.session (8 + 256 * segs.length) ≤ s.get (R.NET_PCFG_MAXFRM q.port) → s.get (R.GRP_STAT_COUNT g) + segs.length ≤ 1024 →
    s.writeWords .host q.session (s.segWords g (s.get (R.GRP_STAT_HEAD g) + s.get (R.GRP_STAT_COUNT g)) segs) = (u, none) →
    Gives (.segment q g segs) s fun t =>
      let x := u.grpAppend g segs.length
      t.grp = x.grp ∧ t.mem = x.mem ∧ t.regs = x.regs ∧ t.faults = x.faults ∧
      t.outbox = x.outbox ++ [ReplyOf x q 0x21 0 false
        (x.get (R.GRP_STAT_RES g) :: beBytes 2 (x.grp[g].queue.length - u.grp[g].queue.length))]) ∧
  (∀ (q : HpReq) (cmp ofs : Nat) (as : List Nat) (s : State), InTurn s q → s.reportCode cmp ofs as = 0 →
    Gives (.repcfg q cmp ofs as) s fun t =>
      (t.session q.session).nextReport = some ⟨cmp, ofs, as⟩ ∧ (t.session q.session).report = (s.session q.session).report ∧
      Replied s t q 0x22 0 [] ∧ SameMap s t) ∧
  (∀ (q : HpReq) (n : Nat) (s : State), HostReady s q → s.sessOpen q.session = true →
    exec (.evack q n) s = .next (s.modSession q.session fun x =>
      { x with notices := x.notices.filter (fun m => 2 ^ 31 ≤ (n + 2 ^ 32 - m.seq) % 2 ^ 32), lost := 0 })) ∧
  (∀ (i k : Nat) (n : Notice) (s : State), (s.session i).isOpen = true → s.netRuns = true → s.pw.sleep = 0 → s.host.sessions.length = 5 →
    (s.session i).notices.find? (fun m => m.seq == k) = some n →
    (n.resends < s.get R.NET_HPCFG1_NRET → Gives (.noticeRetry i k) s fun t =>
      t.outbox = s.outbox ++ [(s.outPort (s.session i).port, 2, .notice i { n with resends := n.resends + 1 })] ∧ SameMap s t) ∧
    (s.get R.NET_HPCFG1_NRET ≤ n.resends → Gives (.noticeRetry i k) s fun t =>
      (t.session i).notices = (s.session i).notices.filter (fun m => m.seq != k) ∧
      t.get R.NET_HPSTAT_NOTELOST = more s R.NET_HPSTAT_NOTELOST ∧ OnlyRegs s t [R.NET_HPSTAT_NOTELOST] ∧ t.outbox = s.outbox))

/-- R363, R365, R366, R367, R370, R371, R373. -/
def Obligations.Acquisition : Prop :=
  (∀ (c : Fin 4) (x : Stamp) (e : EccSeen) (s : State), s.acqRuns = true → s.get (R.ACQ_CLK_KIND c) ≠ 0 → s.acq.clocks.length = 4 →
    ((s.acqClock c).events + 1) % (s.get (R.ACQ_CLK_DIV c) + 1) ≠ 0 → Gives (.acqRowTaken c x e) s fun t =>
      t.acqClock c = { s.acqClock c with events := (s.acqClock c).events + 1 } ∧ { t with acq := s.acq } = s) ∧
  (∀ (c : Fin 4) (x : Stamp) (e : EccSeen) (s : State), RowDue s c →
    (s.get (R.ACQ_CLK_KIND c) = 3 ∨ ∀ l, (s.acqClock c).last = some l → l + 6000 * 65536 ≤ x) →
    32 + 4 * ((openWords s c).length + 2 * (s.rowWords c).length) ≤ s.get R.ACQ_CFG_BLKMAX → openRows s c < 65534 →
    Gives (.acqRowTaken c x e) s fun t =>
      (t.acqClock c).row = (s.acqClock c).row + 1 ∧ (t.acqClock c).last = some x ∧ openRows t c = openRows s c + 1 ∧
      openWords t c = openWords s c ++ s.rowWords c ∧ (∀ j : Nat, j ≠ c.val → (t.acqClock j).block = (s.acqClock j).block) ∧
      { t with acq := s.acq } = s) ∧
  (∀ (c : Fin 4) (x : Stamp) (e : EccSeen) (l : Nat) (s : State), RowDue s c → s.get (R.ACQ_CLK_KIND c) ≠ 3 →
    (s.acqClock c).last = some l → x < l + 6000 * 65536 → Gives (.acqRowTaken c x e) s fun t =>
      (t.acqClock c).row = (s.acqClock c).row + 1 ∧ (t.acqClock c).last = some l ∧ (t.acqClock c).block = (s.acqClock c).block ∧
      t.get R.ACQ_STAT_COLL = more s R.ACQ_STAT_COLL ∧ OnlyRegs s t [R.ACQ_STAT_COLL] ∧ { t with acq := s.acq, regs := s.regs } = s) ∧
  (∀ (c : Fin 4) (e : EccSeen) (b : BlockDyn) (s : State), (s.acqClock c).block = some b → s.acq.clocks.length = 4 →
    s.acqSession = none → (s.dataRecord c b).length ≤ s.acqRing.2 →
    let place := fun i => s.acqRing.1 + (s.acq.wpos + i) % s.acqRing.2
    let n := (s.dataRecord c b).length
    Gives (.acqFlushTimeout c e) s fun t =>
      (∀ i, i < n → t.byte (place i) = nthD (s.dataRecord c b) i 0) ∧
      (∀ a : Nat, (∀ i, i < n → a ≠ place i) → t.byte a = s.byte a) ∧
      t.acq.wpos = s.acq.wpos + (n + 255) / 256 * 256 ∧ (t.acqClock c).block = none ∧
      (∀ j : Nat, j ≠ c.val → t.acqClock j = s.acqClock j) ∧
      OnlyRegs s t [R.ACQ_RING_BASE, R.ACQ_RING_WPTR] ∧ { t with acq := s.acq, regs := s.regs, mem := s.mem } = s) ∧
  (∀ s : State, s.on R.ACQ_TSTAT_ACTIVE = true → s.get (R.ACQ_TS_TIMER (s.get R.ACQ_TSTAT_STATE)) ≠ 0 →
    s.get (R.ACQ_TS_TIMER (s.get R.ACQ_TSTAT_STATE)) ≤ s.acq.trig.rows →
    Gives .triggerTimer s fun t => TrigAt t 1 (s.get (R.ACQ_TS_TONEXT (s.get R.ACQ_TSTAT_STATE))) ∧ OnlyRegs s t trigFlds ∧ t.mem = s.mem) ∧
  (∀ s : State, s.on R.ACQ_TSTAT_ACTIVE = false → s.acqRuns = true → s.get (R.ACQ_CLK_KIND (s.get R.ACQ_CFG_TCLK)) ≠ 0 →
    Gives .acqArm s fun t => TrigAt t 1 0 ∧ OnlyRegs s t trigFlds ∧ t.mem = s.mem) ∧
  (∀ s : State, Gives .acqStop s fun t => TrigAt t 0 0 ∧ t.acq.marks = s.acq.marks ∧ t.acq.clocks = s.acq.clocks ∧
    OnlyRegs s t trigFlds ∧ t.mem = s.mem) ∧
  (∀ s : State, s.on R.ACQ_TSTAT_ACTIVE = true →
    exec .acqForce s = .next { s with acq := { s.acq with trig := { s.acq.trig with force := true } } }) ∧
  (∀ s : State, s.domOn 3 = true → s.dev ∈ [1, 2, 3, 4] → s.on R.ACQ_CFG_EN = true → s.on R.ACQ_CTL_RUN = false →
    Gives .acqRunStart s fun t =>
      t.get R.ACQ_CTL_RUN = 1 ∧ t.get R.ACQ_TSTAT_MSEQ = 0 ∧ t.acq.formed = false ∧
      (∀ c : Fin 4, ((t.acqClock c).events, (t.acqClock c).row, (t.acqClock c).last, (t.acqClock c).block) = (0, 0, none, none)) ∧
      OnlyRegs s t [R.ACQ_CTL_RUN, R.ACQ_TSTAT_MSEQ, R.ACQ_RING_BASE, R.ACQ_RING_WPTR] ∧ t.mem = s.mem) ∧
  (∀ s : State, s.on R.ACQ_CTL_RUN = true → s.acqSession = none → s.acq.clocks.length = 4 → Gives .acqRunStop s fun t =>
    t.get R.ACQ_CTL_RUN = 0 ∧ TrigAt t 0 0 ∧ (∀ c : Fin 4, (t.acqClock c).block = none) ∧ t.acq.marks = s.acq.marks ∧
    OnlyRegs s t (R.ACQ_CTL_RUN :: R.ACQ_RING_BASE :: R.ACQ_RING_WPTR :: trigFlds) ∧ t.outbox = s.outbox ∧ t.faults = s.faults)

/-- R376, R377, R380 to R389. -/
def Obligations.CanBus : Prop :=
  (∀ (c : Fin 2) (f : CanFrame) (s : State), CanActive s c → s.on (R.CAN_CFG_TTEN c) = false →
    let one := s.get (R.CAN_STAT_REC c) - 1
    let w := s.get (R.CAN_RXPTR_RXWPTR c)
    let full := R.CAN_RXFULL_FULL c (w / 64)
    (s.canFilter c f = none → Gives (.canFrameReceived c f) s fun t =>
      t.get (R.CAN_STAT_REC c) = one ∧ OnlyRegs s t [R.CAN_STAT_REC c] ∧ { t with regs := s.regs } = s) ∧
    (∀ k : Fin 32, s.canFilter c f = some k.val → s.on (R.CAN_FLT_DEST c k) = true → Gives (.canFrameReceived c f) s fun t =>
      t.sched.arrived = s.sched.arrived ++ [⟨6, k.val + 32 * c.val, s.canEntry c k f⟩] ∧ t.get (R.CAN_STAT_REC c) = one ∧
      OnlyRegs s t [R.CAN_STAT_REC c] ∧ t.mem = s.mem) ∧
    (∀ k : Fin 32, s.canFilter c f = some k.val → s.on (R.CAN_FLT_DEST c k) = false → s.bitOf full (w % 64) = false →
      Gives (.canFrameReceived c f) s fun t =>
        (∀ i : Fin 128, t.byte (rxEntry c w + i.val) = nthD ((s.canEntry c k f).flatMap (leBytes 8)) i 0) ∧
        (∀ a : Nat, (a < rxEntry c w ∨ rxEntry c w + 128 ≤ a) → t.byte a = s.byte a) ∧
        t.bitOf full (w % 64) = true ∧ t.get (R.CAN_RXPTR_RXWPTR c) = (w + 1) % 128 ∧
        OnlyRegs s t [R.CAN_STAT_REC c, full, R.CAN_RXPTR_RXWPTR c, R.CAN_RXPTR_RXCNT c] ∧ t.faults = s.faults) ∧
    (∀ k : Fin 32, s.canFilter c f = some k.val → s.on (R.CAN_FLT_DEST c k) = false → s.bitOf full (w % 64) = true →
      Gives (.canFrameReceived c f) s fun t =>
        Only s t [(R.CAN_STAT_REC c, one), (R.CAN_CNT_RXOVF c, more s (R.CAN_CNT_RXOVF c))] [(0x0E05, 0, 0, 0)])) ∧
  (∀ (c : Fin 2) (kind : CanErr) (mark : Bool) (s : State), CanActive s c → ¬(kind = .stuff ∧ mark = true) →
    Gives (.canBusError c kind true mark) s fun t =>
      let n := s.get (R.CAN_STAT_TEC c) + 8
      if n < 128 then Only s t [(R.CAN_STAT_TEC c, n)] []
      else Only s t [(R.CAN_STAT_TEC c, n), (R.CAN_STAT_STATE c, 2), (R.CAN_CNT_EPCNT c, more s (R.CAN_CNT_EPCNT c))] [(0x0E02, 0, 0, 0)]) ∧
  (∀ (c : Fin 2) (kind : CanErr) (mark : Bool) (s : State), s.canOn c = true → s.get (R.CAN_STAT_STATE c) = 2 →
    248 ≤ s.get (R.CAN_STAT_TEC c) → ¬(kind = .stuff ∧ mark = true) → ¬(kind = .ack ∧ mark = false) →
    Gives (.canBusError c kind true mark) s fun t =>
      Only s t [(R.CAN_STAT_TEC c, 255), (R.CAN_STAT_STATE c, 3), (R.CAN_CNT_BOCNT c, more s (R.CAN_CNT_BOCNT c))] [(0x0E03, 1, 0, 0)]) ∧
  (∀ (c : Fin 2) (s : State), s.get (R.CAN_STAT_STATE c) = 2 → exec (.canBusError c .ack true false) s = .next s) ∧
  (∀ (c : Fin 2) (kind : CanErr) (mark : Bool) (s : State), CanActive s c →
    let n := s.get (R.CAN_STAT_REC c) + (if mark then 9 else 1)
    n < 128 → Gives (.canBusError c kind false mark) s fun t => Only s t [(R.CAN_STAT_REC c, n)] []) ∧
  (∀ (c : Fin 2) (s : State), s.canOn c = true → s.get (R.CAN_STAT_STATE c) = 3 → Gives (.canBusoffRecovery c) s fun t =>
    Only s t [(R.CAN_STAT_STATE c, 1), (R.CAN_STAT_TEC c, 0), (R.CAN_STAT_REC c, 0), (R.CAN_STAT_RECSEQ c, 0)] [(0x0E04, 0, 0, 0)]) ∧
  (∀ (c : Fin 2) (m : Nat) (s : State), s.domOn 5 = true →
    (s.txreqCode c m = 0 → Gives (.txreq c m) s fun t =>
      (∀ e : Fin 64, t.bitOf (R.CAN_TXPEND_PEND c) e = (s.bitOf (R.CAN_TXPEND_PEND c) e || bit m e == 1)) ∧
      OnlyRegs s t [R.CAN_TXPEND_PEND c] ∧ { t with regs := s.regs, can := s.can } = s) ∧
    (s.txreqCode c m = 3 → Gives (.txreq c m) s fun t => Only s t [] [(0x0105, 0, 0, 0)])) ∧
  (∀ (c : Fin 2) (e : Fin 64) (s : State), s.domOn 5 = true → s.txPending c e = true →
    (s.can[c].sending ≠ some e.val → Gives (.txabt c (2 ^ e.val)) s fun t =>
      TxDone t c e 4 (tries s c e) ∧ TxBytes s t c e ∧ OnlyRegs s t [R.CAN_TXPEND_PEND c, R.CAN_TXDONE_DONE c] ∧ t.faults = s.faults) ∧
    (s.can[c].sending = some e.val → Gives (.txabt c (2 ^ e.val)) s fun t => t.can[c].aborted = true ∧ SameMap s t)) ∧
  (∀ (c : Fin 2) (m : Nat) (s : State), s.domOn 5 = true → Gives (.txdone c m) s fun t =>
    (∀ e : Fin 64, t.bitOf (R.CAN_TXDONE_DONE c) e = (s.bitOf (R.CAN_TXDONE_DONE c) e && bit m e == 0)) ∧
    OnlyRegs s t [R.CAN_TXDONE_DONE c] ∧ { t with regs := s.regs } = s) ∧
  (∀ (c h : Fin 2) (m : Nat) (s : State), s.domOn 5 = true → Gives (.rxfull c h m) s fun t =>
    (∀ e : Fin 64, t.bitOf (R.CAN_RXFULL_FULL c h) e = (s.bitOf (R.CAN_RXFULL_FULL c h) e && bit m e == 0)) ∧
    t.get (R.CAN_RXPTR_RXCNT c) = popcount 64 (t.get (R.CAN_RXFULL_FULL c 0)) + popcount 64 (t.get (R.CAN_RXFULL_FULL c 1)) ∧
    OnlyRegs s t [R.CAN_RXFULL_FULL c h, R.CAN_RXPTR_RXCNT c] ∧ { t with regs := s.regs } = s) ∧
  (∀ (c : Fin 2) (e : Nat) (s : State), s.canSends c = true → s.get (R.CAN_STAT_STATE c) ≠ 0 → s.can[c].sending = none →
    s.on (R.CAN_CFG_TTEN c) = false → s.arbWinner c (s.offered c) = some e →
    Gives (.canTxStart c) s fun t => t.can[c].sending = some e ∧ { t with can := s.can } = s) ∧
  (∀ (c : Fin 2) (e : Fin 64) (x : Stamp) (s : State), CanActive s c → s.can[c].sending = some e.val → s.can[c].window = none →
    s.can[c].attempts.length = 64 → s.can[c].fails.length = 64 →
    let fails := nthD s.can[c].fails e 0 + 1
    let lim := s.get (R.CAN_CFG_RETRYLIM c)
    Gives (.canTxComplete c .sent x) s (fun t =>
      TxDone t c e 1 (tries s c e + 1) ∧ TxBytes s t c e ∧ t.rd (txEntry c e + 8) 8 = compactOf (x * 65536) ∧
      t.can[c].sending = none ∧ t.get (R.CAN_STAT_TEC c) = s.get (R.CAN_STAT_TEC c) - 1 ∧
      OnlyRegs s t [R.CAN_TXPEND_PEND c, R.CAN_TXDONE_DONE c, R.CAN_STAT_TEC c] ∧ t.faults = s.faults) ∧
    (s.can[c].aborted = false → Gives (.canTxComplete c .lostArbitration x) s fun t =>
      t.can[c].sending = none ∧ tries t c e = tries s c e ∧ SameMap s t ∧ t.faults = s.faults) ∧
    (∀ kind : CanErr, s.can[c].aborted = false → (lim = 0 ∨ fails ≤ lim) → Gives (.canTxComplete c (.failed kind) x) s fun t =>
      t.can[c].sending = none ∧ tries t c e = tries s c e + 1 ∧ nthD t.can[c].fails e 0 = fails ∧ SameMap s t ∧ t.faults = s.faults) ∧
    (∀ kind : CanErr, s.can[c].aborted = false → lim ≠ 0 → lim < fails → Gives (.canTxComplete c (.failed kind) x) s fun t =>
      TxDone t c e (if kind = .ack ∧ bit s.can[c].otherFail e = 0 then 2 else 3) (tries s c e + 1) ∧ TxBytes s t c e ∧
      OnlyRegs s t [R.CAN_TXPEND_PEND c, R.CAN_TXDONE_DONE c] ∧ t.faults = s.faults)) ∧
  (∀ (c : Fin 2) (x : Stamp) (s : State), CanActive s c → s.can[c].sending = some 64 → Gives (.canTxComplete c .sent x) s fun t =>
    t.get (R.CAN_STAT_TTSYNC c) = 1 ∧ t.can[c].cycle = s.can[c].nextCycle ∧ t.can[c].sending = none ∧ t.can[c].window = none ∧
    OnlyRegs s t [R.CAN_STAT_TTSYNC c, R.CAN_STAT_TEC c] ∧ t.mem = s.mem) ∧
  (∀ (c : Fin 2) (s : State), s.canSends c = true → s.get (R.CAN_STAT_STATE c) ≠ 0 → s.on (R.CAN_CFG_TTEN c) = true →
    s.ttMaster c = true → s.can[c].sending = none →
    (s.on (R.CAN_CFG_NETTIME c) = false → Gives (.canTtReferenceSend c) s fun t =>
      (t.can[c].sending, t.can[c].refData) = (some 64, [s.can[c].nextCycle]) ∧ { t with can := s.can } = s) ∧
    (∀ ns, s.on (R.CAN_CFG_NETTIME c) = true → s.can[c].refDue = some ns → Gives (.canTtReferenceSend c) s fun t =>
      (t.can[c].sending, t.can[c].refData) = (some 64, [s.can[c].nextCycle, 0, 0, 0] ++ leBytes 4 ns) ∧ { t with can := s.can } = s)) ∧
  (∀ (c : Fin 2) (col : Nat) (s : State), s.canOn c = true → s.on (R.CAN_CFG_TTEN c) = true → s.on (R.CAN_STAT_TTSYNC c) = true →
    col ≤ s.get (R.CAN_TTCFG_NCOL c) → Gives (.canTtWindow c col) s fun t =>
      let cell := s.ttCell c (s.can[c].cycle % 2 ^ s.get (R.CAN_TTCFG_NCYCX c)) col
      t.can[c].window = some (col, bitsOf cell 14 2, bitsOf cell 0 6, s.txPending c (bitsOf cell 0 6), false) ∧
      t.get (R.CAN_CNT_TTMISS c) = (match s.can[c].window with
        | some (_, 1, _, true, false) => more s (R.CAN_CNT_TTMISS c)
        | _ => s.get (R.CAN_CNT_TTMISS c)) ∧ OnlyRegs s t [R.CAN_CNT_TTMISS c] ∧ { t with can := s.can, regs := s.regs } = s) ∧
  (∀ (c : Fin 2) (s : State), s.canOn c = true → s.on (R.CAN_CFG_TTEN c) = true → s.ttMaster c = false →
    s.on (R.CAN_STAT_TTSYNC c) = true → Gives (.canTtSyncLoss c) s fun t =>
      t.can[c].window = none ∧ t.get (R.CAN_STAT_TTSYNC c) = 0 ∧ OnlyRegs s t [R.CAN_STAT_TTSYNC c] ∧ Raises s t [(0x0E06, 1, 0, 0)] ∧
      t.mem = s.mem) ∧
  (∀ s : State, s.domOn 5 = true → Gives .canTxdTimeout s fun t => Only s t [(R.CAN_STAT_TXDTO 0, 1)] [(0x0E01, 1, 0, 0)]) ∧
  (∀ s : State, s.on (R.CAN_CFG_WAKEN 0) = true → s.can[(0 : Fin 2)].running = false → Gives .canWakePattern s fun t =>
    t.can[(0 : Fin 2)] = { s.can[(0 : Fin 2)] with wake := true } ∧ t.can[(1 : Fin 2)] = s.can[(1 : Fin 2)] ∧ { t with can := s.can } = s)

/-- R394 to R397, R400 to R406. -/
def Obligations.FieldIo : Prop :=
  (∀ (k : Fin 24) (level : Bool) (x : Stamp) (s : State), s.domOn 5 = true → (s.cutOff k = false ∨ s.isOut k = true) →
    (¬edgeSelected s k level → Gives (.fioInputEvent k level x) s fun t =>
      t.bitOf R.FIO_IN_LEVEL k = level ∧ (∀ j : Fin 24, j ≠ k → t.bitOf R.FIO_IN_LEVEL j = s.bitOf R.FIO_IN_LEVEL j) ∧
      OnlyRegs s t [R.FIO_IN_LEVEL] ∧ { t with regs := s.regs } = s) ∧
    (edgeSelected s k level → Gives (.fioInputEvent k level x) s fun t =>
      let seq := (nthD s.fio.seq k 0 + 1) % 2 ^ 16
      t.bitOf R.FIO_IN_LEVEL k = level ∧ (∀ j : Fin 24, j ≠ k → t.bitOf R.FIO_IN_LEVEL j = s.bitOf R.FIO_IN_LEVEL j) ∧
      t.sched.arrived = s.sched.arrived ++
        [⟨7, k, [compactOf (x * 65536), b2n level + b2n (s.bitOf R.FIO_IN_INVALID k) * 2 + seq * 2 ^ 16]⟩] ∧ t.mem = s.mem)) ∧
  (∀ (k : Fin 24) (s : State), FieldUp s → s.get (R.FIO_CFG_FUNC k) = 1 → s.on (R.FIO_CFG_OWEN k) = true →
    s.on (R.FIO_CHST_OPEN k) = false → Gives (.fioOpenWire k) s fun t => Only s t [(R.FIO_CHST_OPEN k, 1)] [(0x0F0A, 0, 0, 0)]) ∧
  (∀ (k : Fin 24) (s : State), Gives (.fioOpenWireClear k) s fun t => Only s t [(R.FIO_CHST_OPEN k, 0)] []) ∧
  (∀ (k : Fin 24) (cause : ChannelFault) (s : State), FieldUp s → s.isOut k = true → bit s.fio.groups (k.val / 4) ≠ 0 →
    s.on (R.FIO_CHST_LATCHED k) = false → Gives (.fioChannelLatch k cause) s fun t => ChannelOff s t k (latchCause cause).1 (latchCause cause).2) ∧
  (∀ (k : Fin 24) (s : State), s.on (R.FIO_CHST_LATCHED k) = true → s.get (R.FIO_CHST_CAUSE k) ∈ [1, 2, 5] →
    Gives (.fioRetry k) s fun t =>
      (∀ m ∈ s.membersOf k, t.get (R.FIO_CHST_LATCHED m) = 0 ∧ t.get (R.FIO_CHST_CAUSE m) = 0) ∧ OnlyRegs s t (latchFlds s k) ∧
      t.faults = s.faults ∧ t.mem = s.mem) ∧
  (∀ (k : Fin 24) (s : State), s.on (R.FIO_CHST_LATCHED k) = true → s.get (R.FIO_CHST_CAUSE k) ∈ [3, 4, 6] →
    exec (.fioRetry k) s = .next s) ∧
  (∀ (m : Nat) (s : State), s.domOn 5 = true → Gives (.fioClr m) s fun t =>
    (∀ k : Fin 24, t.get (R.FIO_CHST_LATCHED k) =
      if ∃ j ∈ s.membersOf k, bit m j = 1 ∧ s.on (R.FIO_CHST_LATCHED j) = true then 0 else s.get (R.FIO_CHST_LATCHED k)) ∧
    OnlyRegs s t ((upto 24).flatMap fun j => [R.FIO_CHST_LATCHED j, R.FIO_CHST_CAUSE j]) ∧ t.faults = s.faults ∧ t.mem = s.mem) ∧
  (∀ (k : Fin 24) (s : State), 16 ≤ k.val → s.fioPin k = .high → s.arc.linkF.up = true →
    Gives (.offPulseTest k true) s (fun t => ChannelOff s t k 6 0x0F07) ∧ exec (.offPulseTest k false) s = .next s) ∧
  (∀ (k : Fin 16) (v w : Nat) (s : State),
    s.staged = [⟨R.FIO_PWM_PER k, v, .pwmPeriod, k⟩, ⟨R.FIO_PWM_DUTY k, w, .pwmPeriod, k⟩] → Gives (.fioPwmPeriod k) s fun t =>
      t.get (R.FIO_PWM_PER k) = v % 2 ^ 32 ∧ t.get (R.FIO_PWM_DUTY k) = w % 2 ^ 32 ∧ t.staged = [] ∧
      OnlyRegs s t [R.FIO_PWM_PER k, R.FIO_PWM_DUTY k] ∧ { t with regs := s.regs, staged := s.staged } = s) ∧
  (∀ (k : Fin 24) (s : State), Gives (.fioCmpPulseEnd k) s fun t =>
    (∀ j : Fin 24, bit t.fio.pulse j = if j = k then 0 else bit s.fio.pulse j) ∧ { t with fio := { t.fio with pulse := s.fio.pulse } } = s) ∧
  (∀ (sup : Fin 2) (s : State), FieldUp s →
    (s.on (supFields sup).1 = false → Gives (.fieldSupplyWarning sup) s fun t => Only s t [((supFields sup).1, 1)] [(0x0F09, 1, 0, 0)]) ∧
    Gives (.fieldSupplyWarningClear sup) s (fun t => Only s t [((supFields sup).1, 0)] []) ∧
    (s.on (supFields sup).2.1 = false → Gives (.fieldSupplyCutoff sup) s fun t =>
      t.get (supFields sup).2.1 = 1 ∧ t.get (supFields sup).2.2 = 0 ∧ t.get R.FIO_SUP_CUTCNT = more s R.FIO_SUP_CUTCNT ∧
      InvalidShown t ∧ OnlyRegs s t (cutFlds sup) ∧ t.mem = s.mem ∧
      Raises s t ((brakesOf s sup).map (fun n => (0x0F08, 3, 1, n.val)) ++ [(0x0F08, 1, 0, 0)])) ∧
    (s.on (supFields sup).2.1 = true → Gives (.fieldSupplyRecovery sup) s fun t =>
      t.get (supFields sup).2.1 = 0 ∧ t.get (supFields sup).2.2 = 1 ∧ InvalidShown t ∧ OnlyRegs s t (cutFlds sup) ∧
      t.get R.FIO_SUP_CUTCNT = s.get R.FIO_SUP_CUTCNT ∧ t.faults = s.faults ∧ t.mem = s.mem)) ∧
  (∀ (v : Nat) (s : State), s.domOn 5 = true → exec (.wdkick v) s =
    .next (if v % 256 = 0x5A ∧ s.get R.FIO_WD_WDSRC = 0 then { s with fio := { s.fio with wdFed := true } } else s)) ∧
  (∀ s : State, s.domOn 5 = true → Gives .wdclr s fun t =>
    t.get R.FIO_SUP_WDEXP = (if s.fio.wdFed then 0 else s.get R.FIO_SUP_WDEXP) ∧ OnlyRegs s t [R.FIO_SUP_WDEXP] ∧
    t.fio.wdFed = s.fio.wdFed ∧ { t with regs := s.regs, fio := s.fio } = s) ∧
  (∀ s : State, FieldUp s → s.fio.wdRun = true → s.on R.FIO_SUP_WDEXP = false → Gives .fieldWatchdogExpiry s fun t =>
    t.get R.FIO_SUP_WDEXP = 1 ∧ t.get R.FIO_SUP_WDCNT = more s R.FIO_SUP_WDCNT ∧ t.fio.wdFed = false ∧
    OnlyRegs s t [R.FIO_SUP_WDEXP, R.FIO_SUP_WDCNT] ∧ Raises s t [(0x0F01, 4, 0, 0)] ∧ t.mem = s.mem)

/-- R99, R410, R411, R412, R414, R415, R416, R484, Table STO.4, R208, R209. -/
def Obligations.SafeTorqueOff : Prop :=
  (∀ (us : Nat) (s : State), s.domOn 5 = true → s.on R.SAF_STAT_REQ = false →
    (us < s.hl R.SAF_CFG_STOFLT → Gives (.stoEngage us) s fun t => Only s t [(R.SAF_CNT_PULSES, more s R.SAF_CNT_PULSES)] []) ∧
    (s.hl R.SAF_CFG_STOFLT ≤ us → Gives (.stoEngage us) s fun t =>
      t.get R.SAF_STAT_REQ = 1 ∧ t.get R.SAF_STAT_IN_A = 0 ∧ t.get R.SAF_STAT_IN_B = 0 ∧
      t.get R.SAF_CNT_ENGCNT = more s R.SAF_CNT_ENGCNT ∧ TorqueRemoved s t ∧ Raises s t [(0x1001, 0, 0, 0)] ∧
      t.get R.SAF_STAT_FB = b2n (!s.sto.cmd1 && !s.sto.cmd2 && s.sto.proved && !s.on R.SAF_STAT_DIAG && !s.on R.BUS_STAT_BACKSTOP))) ∧
  (∀ s : State, s.domOn 5 = true → Gives .stoReleaseRequest s fun t =>
    t.get R.SAF_STAT_REQ = 0 ∧ t.get R.SAF_STAT_IN_A = 1 ∧ t.get R.SAF_STAT_IN_B = 1 ∧ t.get R.SAF_STAT_FB = 0 ∧
    (MayRelease s → t.get R.SAF_STAT_RELSEQ = 1 ∧ t.get R.SAF_STAT_ENGAGED = 0 ∧
      (t.sto.cmd1, t.sto.cmd2, t.sto.step) = (true, false, 2)) ∧
    (¬MayRelease s → t.sto = s.sto ∧ t.get R.SAF_STAT_ENGAGED = s.get R.SAF_STAT_ENGAGED) ∧ t.faults = s.faults ∧ t.mem = s.mem ∧
    OnlyRegs s t [R.SAF_STAT_REQ, R.SAF_STAT_IN_A, R.SAF_STAT_IN_B, R.SAF_STAT_FB, R.SAF_STAT_RELSEQ, R.SAF_STAT_ENGAGED]) ∧
  (∀ (o : StoObs) (s : State), s.on R.SAF_STAT_DIAG = false →
    (s.sto.step = 2 → Gives (.stoReleaseStep o) s fun t =>
      Sensors t o ∧
      if o.vgs1V then Diagnosed s t 3
      else if o.line1 then (t.sto.cmd1, t.sto.cmd2, t.sto.step) = (s.sto.cmd1, true, 3) ∧ OnlyRegs s t sensorFlds ∧ t.faults = s.faults
      else Diagnosed s t 2) ∧
    (s.sto.step = 3 → Gives (.stoReleaseStep o) s fun t =>
      Sensors t o ∧
      if o.i1 ∧ o.i2 ∧ o.vgs90 then
        t.get R.SAF_STAT_RELSEQ = 0 ∧ t.sto.step = 4 ∧ t.sto.nextTest = 1 ∧ OnlyRegs s t (R.SAF_STAT_RELSEQ :: sensorFlds) ∧
        t.faults = s.faults
      else Diagnosed s t (if o.i1 ∧ ¬o.i2 then 3 else 2))) ∧
  (∀ s : State, s.sto.step = 4 → (s.dieUsed 0 = true → s.on R.BUS_STAT_VDRV_OK_A = true) →
    (s.dieUsed 1 = true → s.on R.BUS_STAT_VDRV_OK_B = true) → Gives .torqueOffClear s fun t =>
      t.get R.SYS_STATE_TORQUE_OFF = 0 ∧ t.sto.step = 0 ∧ OnlyRegs s t [R.SYS_STATE_TORQUE_OFF, R.NET_HPSTAT_NOTELOST] ∧
      (∀ n : Slice, t.axst n = s.axst n) ∧ t.faults = s.faults ∧ t.mem = s.mem) ∧
  (∀ (o : StoObs) (s : State), s.domOn 5 = true → s.sto.cmd1 = false → s.sto.cmd2 = false →
    (o.i1 = false → o.i2 = false → o.vgs1V = false → Gives (.stoOpenCheck o) s fun t =>
      Sensors t o ∧ t.sto = { s.sto with proved := true } ∧ OnlyRegs s t (R.SAF_STAT_FB :: sensorFlds) ∧ t.faults = s.faults ∧
      t.get R.SAF_STAT_FB =
        b2n (s.on R.SAF_STAT_REQ && !s.on R.SAF_STAT_DIAG && !s.on R.BUS_STAT_BACKSTOP && !s.on R.SAF_STAT_RELSEQ)) ∧
    (o.i1 = true ∨ o.i2 = true ∨ o.vgs1V = true → s.on R.SAF_STAT_DIAG = false → Gives (.stoOpenCheck o) s fun t =>
      Sensors t o ∧ Diagnosed s t (if o.i2 ∧ ¬o.i1 then 3 else 2))) ∧
  (∀ (sw : Fin 2) (s : State), s.domOn 5 = true → s.on R.SAF_STAT_RELSEQ = false → s.on R.SAF_STAT_REQ = false →
    s.sto.cmd1 = true → s.sto.cmd2 = true →
    Gives (.stoSwitchTest sw true) s (fun t =>
      t.sto = { s.sto with nextTest := 1 - sw } ∧ t.get R.SAF_CNT_TSTCNT = more s R.SAF_CNT_TSTCNT ∧ OnlyRegs s t [R.SAF_CNT_TSTCNT] ∧
      t.faults = s.faults) ∧
    (s.on R.SAF_STAT_DIAG = false → Gives (.stoSwitchTest sw false) s fun t => Diagnosed s t (2 + sw.val))) ∧
  (∀ (c : Instr) (cause : Nat) (s : State), s.domOn 5 = true →
    (c, cause) ∈ [(Instr.stoInputDisagree, 1), (.stoClockFailure, 4), (.stoFbMismatch, 5)] →
    (s.on R.SAF_STAT_DIAG = false → Gives c s fun t => Diagnosed s t cause) ∧ (s.on R.SAF_STAT_DIAG = true → exec c s = .next s)) ∧
  (∀ (k : Fin 4) (s : State), s.domOn 5 = true → s.bitOf R.BUS_STAT_ABS k = true → s.on R.BUS_STAT_BACKSTOP = false →
    Gives (.backstop k) s fun t =>
      t.get R.BUS_STAT_BACKSTOP = 1 ∧ t.get R.BUS_CNT_BSTCNT = more s R.BUS_CNT_BSTCNT ∧ t.sto.cmd1 = false ∧ t.sto.cmd2 = false ∧
      t.get R.SAF_STAT_RELSEQ = 0 ∧ t.get R.SAF_STAT_FB = 0 ∧ t.get R.SAF_STAT_ENGAGED = s.get R.SAF_STAT_ENGAGED ∧
      t.get R.SYS_STATE_TORQUE_OFF = s.get R.SYS_STATE_TORQUE_OFF ∧ Raises s t [(0x0709, 4, 0, 0)] ∧ t.mem = s.mem) ∧
  (∀ s : State, s.on R.BUS_STAT_BACKSTOP = true → s.on R.SAF_STAT_REQ = true →
    Gives .backstopEnd s fun t => t.get R.BUS_STAT_BACKSTOP = 0 ∧ t.sto = s.sto ∧ OnlyRegs s t [R.BUS_STAT_BACKSTOP, R.SAF_STAT_FB] ∧
      t.faults = s.faults) ∧
  (∀ s : State, s.on R.BUS_STAT_BACKSTOP = true → s.on R.SAF_STAT_REQ = false → s.domOn 5 = true → s.on R.SAF_STAT_DIAG = false →
    s.sto.step10 = true → s.on R.SAF_STAT_RELSEQ = false → s.sto.cmd1 = false → s.sto.cmd2 = false →
    Gives .backstopEnd s fun t =>
      t.get R.BUS_STAT_BACKSTOP = 0 ∧ t.get R.SAF_STAT_RELSEQ = 1 ∧ t.get R.SAF_STAT_ENGAGED = 0 ∧ t.sto.cmd1 = true ∧ t.sto.step = 2 ∧
      t.faults = s.faults) ∧
  (∀ (k : Fin 4) (s : State), s.busEn k = true → s.busOnAny k = true → s.bus[k].uvRaised = false →
    Gives (.busuv k) s fun t =>
      BusBit s t R.BUS_STAT_UV k true ∧ t.bus[k].uvRaised = true ∧ OnlyRegs s t [R.BUS_STAT_UV] ∧ Raises s t [(0x070A, 3, 2, k.val)])

/-- R420 to R428, R430 to R433, Table TWN.3. -/
def Obligations.TwinMembers : Prop :=
  (∀ s : State, s.domOn 4 = true → Gives .harsoLinkUp s fun t =>
    t.get R.TWN_STAT_LINK = 1 ∧ SyncShown t ∧ OnlyRegs s t [R.TWN_STAT_LINK, R.TWN_STAT_SYNCED] ∧ { t with regs := s.regs } = s) ∧
  (∀ s : State, s.on R.TWN_STAT_LINK = true → Gives .harsoLinkDown s fun t =>
    Only s t [(R.TWN_STAT_LINK, 0), (R.TWN_STAT_SYNCED, 0)] (if s.on R.TWN_CFG_EN then [(0x1101, 1, 0, 0)] else [])) ∧
  (∀ s : State, s.on R.TWN_CFG_EN = true → s.dev ≠ 0 → s.twin.sendDue = true → Gives .mirrorFrameSend s fun t =>
    t.twin = { s.twin with sent := some s.mirrorFrame, due := 0, sendDue := false } ∧ SameMap s t ∧ t.faults = s.faults) ∧
  (∀ (f : MirrorFrame) (s : State), TwinOn s →
    ((f.intact = false ∨ f.type ≠ 1) → Gives (.mirrorFrameReceived f) s fun t =>
      Only s t [(R.TWN_CNT_MIRRDROP, more s R.TWN_CNT_MIRRDROP)] []) ∧
    (f.intact = true → f.type = 1 → f.ecc = .double → Gives (.mirrorFrameReceived f) s fun t =>
      Only s t [(R.TWN_CNT_MIRRDROP, more s R.TWN_CNT_MIRRDROP)] [(0x0102, 1, 0, 0)]) ∧
    (f.intact = true → f.type = 1 → f.ecc ≠ .double → s.get R.TWN_STAT_LSTATE ≠ 2 → f.epoch < 2 ^ 32 →
      Gives (.mirrorFrameReceived f) s fun t =>
        t.get R.TWN_STAT_PSYNCED = b2n f.synced ∧ t.get R.TWN_STAT_PHOLD = b2n f.holding ∧ t.get R.TWN_EPOCH_PEPOCH = f.epoch ∧
        t.get R.TWN_EPOCH_EPOCH = max (s.get R.TWN_EPOCH_EPOCH) f.epoch ∧ t.on R.TWN_STAT_IMGDIFF = decide (f.imgId ≠ s.boot.imgId) ∧
        t.on R.TWN_STAT_RANKSAME = decide (f.rank = s.get R.SYS_STRAP_RANK) ∧ t.twin.lastFrame = some s.clock.up ∧
        t.dev = (if s.get R.TWN_EPOCH_EPOCH < f.epoch ∧ s.dev = 1 ∧ s.get R.TWN_STAT_LSTATE ≠ 3 then 3 else s.dev) ∧
        SyncShown t ∧ Raises s t (headerFaults s f))) ∧
  (∀ (f : MirrorFrame) (r : MirrorAxis) (s : State), TwinOn s → f.intact = true → f.type = 1 → f.ecc ≠ .double →
    s.get R.TWN_STAT_LSTATE ≠ 2 → s.dev = 3 → f.axes = [r] → f.groups = [] → r.slice ∈ s.axes → r.axst < 5 → r.mode < 6 →
    (∀ l ∈ s.faults.latched, l.skind ≠ 5) →
    Gives (.mirrorFrameReceived f) s fun t =>
      t.axst r.slice = (if 3 ≤ s.worst r.slice then 4 else r.axst) ∧ t.axmode r.slice = r.mode ∧ t.prof[r.slice].pcmd = r.pcmd ∧
      t.bitOf R.TWN_STAT_MIRRORED r.slice = true ∧ (∃ p, t.sched.arrived = s.sched.arrived ++ [⟨8, 0, p⟩]) ∧
      (∀ n : Slice, n ≠ r.slice → t.axst n = s.axst n ∧ t.prof[n] = s.prof[n]) ∧ t.mem = s.mem) ∧
  (∀ s : State, s.on R.TWN_CFG_EN = true → s.dev ≠ 0 → s.twin.silent = false → Gives (.twinFrameTimeout .noFrame) s fun t =>
    t.twin = { s.twin with silent := true } ∧ SameMap s t ∧ Raises s t [(0x1101, 1, 0, 0)]) ∧
  (∀ s : State, s.on R.TWN_CFG_EN = true → s.dev ≠ 0 → s.twin.unsynced = false → s.twin.pSyncedOnce = true →
    s.on R.TWN_STAT_PSYNCED = false → Gives (.twinFrameTimeout .unsynced) s fun t =>
      t.twin = { s.twin with unsynced := true } ∧ SameMap s t ∧ Raises s t [(0x1101, 1, 0, 0)]) ∧
  (∀ (level : Bool) (s : State), (s.on R.TWN_CFG_EN = false ∨ (level = true ∧ s.get R.TWN_STAT_LSTATE ≠ 1)) →
    Gives (.holdInChange level) s fun t => Only s t [(R.TWN_STAT_HOLD_IN, b2n level)] []) ∧
  (∀ s : State, s.on R.TWN_CFG_EN = true → s.on R.TWN_STAT_HOLD_IN = false → s.get R.TWN_STAT_LSTATE = 1 →
    s.get R.SYS_STRAP_RANK = 1 → Gives (.holdInChange true) s fun t =>
      TokenGone s t 0 R.TWN_CNT_CONFLICTS ∧ t.get R.TWN_STAT_HOLD_IN = 1 ∧ t.dev = 3) ∧
  (∀ s : State, s.on R.TWN_CFG_EN = true → s.on R.TWN_STAT_HOLD_IN = true → s.dev = 3 → s.get R.TWN_STAT_LSTATE = 0 →
    Gives (.holdInChange false) s fun t =>
      t.twin.released = s.clock.up ∧ t.twin.gapStart = some s.clock.up ∧ Only { s with twin := t.twin, fio := t.fio } t
        [(R.TWN_STAT_HOLD_IN, 0), (R.TWN_STAT_GAP, 1)] []) ∧
  (∀ s : State, s.on R.TWN_STAT_HOLD_IN = false → s.on R.TWN_STAT_SYNCED = true → s.claimWanted = true → Gives .claim s fun t =>
    t.get R.TWN_STAT_LSTATE = 1 ∧ t.get R.TWN_STAT_HOLD_OUT = 1 ∧ t.get R.SYS_STATE_TOKEN = 1 ∧ t.get R.TWN_STAT_GAP = 0 ∧
    t.get R.TWN_EPOCH_EPOCH = (max (s.get R.TWN_EPOCH_EPOCH) (s.get R.TWN_EPOCH_PEPOCH) + 1) % 2 ^ 32 ∧
    (∀ n : Slice, t.pwm[n] = { s.pwm[n] with claimHold := true }) ∧ t.dev = 3 ∧ t.mem = s.mem ∧ t.faults = s.faults) ∧
  (∀ s : State, s.get R.TWN_STAT_LSTATE = 1 → s.on R.TWN_STAT_HOLD_IN = false → Gives .arbWindowEnd s fun t =>
    t.get R.TWN_STAT_LSTATE = 2 ∧ t.get R.TWN_CNT_CLAIMS = more s R.TWN_CNT_CLAIMS ∧ t.twin.runDue = true ∧
    t.twin.leaseEnd = t.clock.up + s.leaseTime ∧ OnlyRegs s t [R.TWN_STAT_LSTATE, R.TWN_CNT_CLAIMS] ∧ t.mem = s.mem ∧ t.faults = s.faults) ∧
  (∀ s : State, ((s.get R.TWN_STAT_LSTATE = 1 ∧ s.on R.TWN_STAT_HOLD_IN = true) ∨ s.get R.TWN_STAT_LSTATE = 2) →
    Gives .tokenconf s fun t =>
      TokenGone s t 3 R.TWN_CNT_CONFLICTS ∧ Raises s t [(0x1104, 4, 0, 0)] ∧ t.mem = s.mem ∧
      (if s.dev = 2 then t.dev = 1 ∧ ∀ n ∈ s.axes, s.axOn n = true → t.axst n = 4 ∧ t.get (R.SLC_AXST_CAUSE n) = 3
        else t.dev = s.dev ∧ ∀ n : Slice, t.axst n = s.axst n)) ∧
  (∀ s : State, s.get R.TWN_STAT_LSTATE = 2 → Gives .leaseExpiry s fun t =>
    TokenGone s t 0 R.TWN_CNT_LOSSES ∧ t.get R.TWN_STAT_GAP = 1 ∧ t.faults = s.faults ∧
    (if s.dev = 2 then t.dev = 3 ∧ AxesOut s t 7 else t.dev = s.dev ∧ ∀ n : Slice, t.axst n = s.axst n)) ∧
  (∀ s : State, s.on R.TWN_STAT_GAP = true → Gives .switchoverGapEnd s fun t =>
    t.fio.gap = none ∧ t.twin.gapStart = none ∧ t.get R.TWN_STAT_GAP = 0 ∧ OnlyRegs s t [R.TWN_STAT_GAP] ∧
    { t with regs := s.regs, fio := s.fio, twin := s.twin } = s) ∧
  (∀ s : State, s.on R.TWN_CFG_EN = true → s.dev = 3 → s.on R.TWN_STAT_SYNCED = true → s.on R.SYS_STATE_TORQUE_OFF = false →
    s.get R.TWN_CFG_REVERT = s.get R.SYS_STRAP_RANK + 1 → Gives .reclaim s fun t =>
      t.twin.reclaim = true ∧ t.get R.TWN_STAT_RECLAIM = 1 ∧ OnlyRegs s t [R.TWN_STAT_RECLAIM] ∧
      { t with regs := s.regs, twin := s.twin } = s)

/-- R438 to R448, Table PWR.2, Table PWR.3, Table PWR.6. -/
def Obligations.PowerAndThermal : Prop :=
  (∀ s : State, s.on R.PWR_PLVL_BUSY = true → s.pw.goal < 4 → Gives .perfLevelChangeDone s fun t =>
    t.get R.PWR_PLVL_EFF = s.pw.goal ∧ t.get R.PWR_PLVL_BUSY = (if s.levelWanted = s.pw.goal then 0 else 1) ∧
    t.pw = { s.pw with goal := s.levelWanted } ∧ OnlyRegs s t [R.PWR_PLVL_EFF, R.PWR_PLVL_BUSY] ∧
    { t with regs := s.regs, pw := s.pw } = s) ∧
  (∀ (c : Instr) (v : Nat) (s : State), (c, v) ∈ [(Instr.sleepS1, 1), (.sleepS2, 2), (.sleepS3, 3)] → s.staged = [] →
    (s.sleepCode ≠ 0 → Gives c s fun t => Only s t [(R.PWR_SLEEP_RESULT, s.sleepCode)] [(0x1205, 0, 0, 0)]) ∧
    (s.sleepCode = 0 → Gives c s fun t =>
      t.get R.PWR_SLEEP_RESULT = 0 ∧ t.pw.entry = v ∧ t.pw.armed = s.wakeSources ∧ t.pw.guardMs = s.get R.PWR_SLEEP_GUARD ∧
      t.pw.early = none ∧ t.get (R.NET_PSTAT_LINK 0) = 0 ∧ t.get (R.NET_PSTAT_LINK 1) = 0 ∧ t.outbox = [] ∧ t.clock.running = false ∧
      t.get R.ACQ_CTL_RUN = 0 ∧ t.fio.wdRun = false ∧ t.get R.SCH_STAT_STATE = (if v = 1 then 2 else 0) ∧ t.dev = 1)) ∧
  (∀ s : State, s.pw.early = none →
    (s.pw.entry = 1 → Gives .sleepEntryComplete s fun t =>
      t.pw.sleep = 1 ∧ t.pw.entry = 0 ∧ t.pw.step = 0 ∧ t.get R.PWR_WSTAT_SLP = 1 ∧ t.get R.PWR_WSTAT_SLPCNT = more s R.PWR_WSTAT_SLPCNT ∧
      OnlyRegs s t [R.PWR_WSTAT_SLP, R.PWR_WSTAT_SLPCNT] ∧ t.mem = s.mem) ∧
    (s.pw.entry = 2 → Gives .sleepEntryComplete s fun t =>
      t.pw.sleep = 2 ∧ t.pw.entry = 0 ∧ t.get R.PWR_WSTAT_SLP = 2 ∧ t.get R.PWR_WSTAT_SLPCNT = more s R.PWR_WSTAT_SLPCNT ∧
      t.get R.PWR_STAT_DOM_ON = 0 ∧ t.get R.SCH_STAT_STATE = 0 ∧
      ∀ b i : Nat, b < 48 → i < 0x80000 → t.byte (0x10000000 + b * 0x80000 + i) =
        if s.bitOf R.PWR_RET_RETBANKS b then s.byte (0x10000000 + b * 0x80000 + i) else 0) ∧
    (s.pw.entry = 3 → Gives .sleepEntryComplete s fun t =>
      t.pw.sleep = 3 ∧ t.pw.entry = 0 ∧ t.mem = [] ∧ t.get R.PWR_STAT_DOM_ON = 0)) ∧
  (∀ (x : WakeSrc) (w : Bool) (s : State), WakeHeard s x →
    (s.pw.entry = 0 → s.pw.step = 0 → s.pw.waitRetry = false → (s.pw.sleep = 1 ∨ s.pw.sleep = 2) → Gives (.wakeEvent x w) s fun t =>
      t.get R.PWR_WSTAT_WSRC = WakeSrc.code x ∧ t.get R.PWR_WSTAT_PRE = 0 ∧ t.get R.PWR_WSTAT_REPLAYED = 0 ∧
      t.get R.PWR_WSTAT_WRETRY = 0 ∧ t.get R.PWR_WSTAT_WAKE_FAIL = 0 ∧
      t.pw = { s.pw with step := if s.pw.sleep = 1 then 4 else 1, early := none } ∧ OnlyRegs s t wakeFlds ∧ t.mem = s.mem) ∧
    (s.pw.entry ≠ 0 → s.pw.early = none → Gives (.wakeEvent x w) s fun t =>
      t.pw.early = (if w = false then some (WakeSrc.code x, true, false)
        else if s.srcEdge x = false then some (WakeSrc.code x, false, false)
        else if s.on R.PWR_WSTAT_REPLAY then some (WakeSrc.code x, false, true) else none) ∧ SameMap s t ∧ t.faults = s.faults)) ∧
  (∀ s : State, s.leaving = false → s.boot.resetLow = false →
    (s.pw.step = 1 → Gives .wakeStepDone s fun t =>
      t.pw.step = 2 ∧ t.get R.PWR_STAT_DOM_ON = 0xFF ∧ t.get R.SYS_STATE_TORQUE_OFF = 1 ∧ t.mem = s.mem) ∧
    (s.pw.step = 2 → exec .wakeStepDone s = .next { s with pw := { s.pw with step := 3 } }) ∧
    (s.pw.step = 3 → exec .wakeStepDone s = .next { s with pw := { s.pw with step := 4 }, boot := { s.boot with flOn := true } }) ∧
    (s.pw.step = 4 → Gives .wakeStepDone s fun t =>
      t.pw.sleep = 0 ∧ t.pw.step = 0 ∧ t.get R.SCH_STAT_STATE = 1 ∧ t.clock.running = true ∧ t.get R.NET_HPSTAT_OPEN = 0 ∧
      t.boot.starting = true ∧ t.mem = s.mem)) ∧
  (∀ s : State, s.pw.step ≠ 0 → s.pw.step < 8 → Gives .wakeStepTimeout s fun t =>
    t.get R.PWR_WSTAT_WSTEP = s.pw.step ∧ t.get R.PWR_STAT_DOM_ON = 0 ∧
    if s.get R.PWR_WSTAT_WRETRY = 3 then t.get R.PWR_WSTAT_WAKE_FAIL = 1 ∧ t.boot.failed = true
    else t.get R.PWR_WSTAT_WRETRY = s.get R.PWR_WSTAT_WRETRY + 1 ∧ (t.pw.sleep, t.pw.step, t.pw.waitRetry) = (2, 0, true)) ∧
  (∀ s : State, s.pw.waitRetry = true →
    exec .wakeRetry s = .next { s with pw := { s.pw with waitRetry := false, step := 1 } }) ∧
  (∀ (r : Reading) (s : State), s.boot.rind = true → s.zonesLoaded = false → r.sensor < 14 → r.raw < 4096 → -32768 ≤ r.temp →
    r.temp < 32768 → Gives (.housekeepingSample [r]) s fun t =>
      t.getS (R.THM_MEAS_VALUE r.sensor) = r.temp ∧ t.get (R.THM_MEAS_RAW r.sensor) = r.raw ∧
      OnlyRegs s t [R.THM_MEAS_VALUE r.sensor, R.THM_MEAS_RAW r.sensor, R.THM_MEAS_RATE r.sensor] ∧ t.mem = s.mem ∧ t.faults = s.faults) ∧
  (∀ s : State, s.boot.rind = true → s.zonesLoaded = true → ZonesRead s → s.on R.SYS_STATE_THROTTLE = false →
    s.pw.zones.length = 14 →
    ((∀ z : Nat, z < 14 → s.inRequest z = false) → Gives (.housekeepingSample []) s fun t =>
      t.get R.THM_STAT_REQ = 0 ∧ t.get R.SYS_STATE_THROTTLE = 0 ∧ Raises s t ((shutZones s).map fun z => (0x1202, 4, 6, z)) ∧ t.mem = s.mem) ∧
    ((∃ z : Nat, z < 14 ∧ s.inRequest z = true ∧ s.released z = false) → Gives (.housekeepingSample []) s fun t =>
      (∀ z : Nat, z < 14 → t.bitOf R.THM_STAT_REQ z = s.inRequest z) ∧ t.get R.SYS_STATE_THROTTLE = 1 ∧
      Raises s t ((0x1204, 1, 0, 0) :: (shutZones s).map fun z => (0x1202, 4, 6, z)) ∧ t.mem = s.mem)) ∧
  (∀ s : State, s.on R.SYS_STATE_THROTTLE = true → s.pw.enforcing = false → s.pw.zones.length = 14 → Gives .graceExpiry s fun t =>
    t.pw.enforcing = decide (s.get R.THM_STAT_REQ ≠ 0) ∧
    (∀ z : Nat, z < 14 → s.bitOf R.THM_STAT_REQ z = true → (t.zone z).due = true) ∧
    OnlyRegs s t [R.THM_STAT_GRACE_LEFT] ∧ t.mem = s.mem ∧ t.faults = s.faults) ∧
  (∀ (z : Fin 14) (s : State), s.pw.enforcing = true → (s.zone z).due = true → s.pw.zones.length = 14 →
    let p := ladderP z && s.canCap
    let d := s.zone z
    Gives (.throttleStep z) s fun t =>
      (t.zone z).due = false ∧ t.get R.PWR_PLVL_CAP = s.get R.PWR_PLVL_CAP + b2n p ∧
      (t.zone z).v = (if !p && decide (0x4000 < d.v) then d.v - 0x4000 else d.v) ∧
      (t.zone z).i = (if !p && decide (d.v ≤ 0x4000) && decide (0x4000 < d.i) then d.i - 0x4000 else d.i) ∧
      ((p = true ∨ 0x4000 < d.v ∨ 0x4000 < d.i) → t.get R.SYS_STATE_THR_ENF = 1) ∧ t.mem = s.mem ∧ t.faults = s.faults)

/-- R451, R452, R454, R459, R460, R463, R475, Table FLT.1. -/
def Obligations.FaultsAndClear : Prop :=
  (∀ (r : FaultSpec) (s : State), FaultAlone s r → r.sev ≤ 1 → s.faults.log.length < 256 →
    newestOf r.code r.skind r.sindex s.faults.log = none → Gives (.faultRecord [r]) s fun t =>
      (∃ e, t.faults.log = (s.faults.log.length, e) :: s.faults.log ∧
        (e.code, e.sev, e.skind, e.sindex, e.detail, e.merge) = (r.code, r.sev, r.skind, r.sindex, r.detail, 0) ∧
        e.number = (s.faults.number + 1) % 2 ^ 32) ∧
      t.faults.latched = s.faults.latched ∧ t.faults.inbox = [] ∧ OnlyRegs s t [R.NET_HPSTAT_NOTELOST] ∧ t.mem = s.mem) ∧
  (∀ (r : FaultSpec) (k : Nat) (x : LogEntry) (s : State), FaultAlone s r → r.sev ≤ 1 →
    newestOf r.code r.skind r.sindex s.faults.log = some (k, x) → s.clock.up ≤ x.at_ + secUnit → x.merge < 255 →
    Gives (.faultRecord [r]) s fun t =>
      t.faults.log = s.faults.log.map (fun y => if y.1 = k then (y.1, { y.2 with merge := y.2.merge + 1 }) else y) ∧
      t.faults.number = s.faults.number ∧ t.faults.latched = s.faults.latched ∧ SameMap s t ∧ t.outbox = s.outbox) ∧
  (∀ (r : FaultSpec) (s : State), FaultAlone s r → 2 ≤ r.sev → r.sev ≤ 4 → Gives (.faultRecord [r]) s fun t =>
    (∃ l ∈ t.faults.latched, (l.code, l.skind, l.sindex, l.detail) = (r.code, r.skind, r.sindex, r.detail) ∧ r.sev ≤ l.sev) ∧
    (∀ l ∈ s.faults.latched, ∃ m ∈ t.faults.latched, (m.code, m.skind, m.sindex, m.detail) = (l.code, l.skind, l.sindex, l.detail)) ∧
    ((∀ n ∈ s.axes, s.covers r.skind r.sindex n = true → r.sev ≤ s.worst n) → ∀ n : Slice, t.axst n = s.axst n) ∧ t.mem = s.mem) ∧
  (∀ (r : FaultSpec) (n : Slice) (s : State), FaultAlone s r → 2 ≤ r.sev → r.sev ≤ 4 → n ∈ s.axes → r.skind = 1 → r.sindex = n.val →
    s.covers 1 n.val n = true → s.worst n < r.sev → s.axst n = 2 → Gives (.faultRecord [r]) s fun t =>
      t.axst n = (if r.sev = 2 then 3 else 4) ∧ t.get (R.SLC_AXST_CAUSE n) = 3 ∧ (r.sev = 2 → t.ax[n].stop = .f2)) ∧
  (∀ (k i : Nat) (s : State), s.domOn 0 = true → k ≠ 1 →
    (scopeValid k i = false → ClearRefused s k i 4) ∧
    (scopeValid k i = true → LatchedIn s k i (fun l => s.present l = true) → ClearRefused s k i 1) ∧
    (scopeValid k i = true → ¬LatchedIn s k i (fun l => s.present l = true) → s.reactionRuns k i = true → ClearRefused s k i 2) ∧
    (scopeValid k i = true → ¬LatchedIn s k i (fun l => s.present l = true) → s.reactionRuns k i = false →
      LatchedIn s k i (fun l => l.sev = 5) → ClearRefused s k i 3) ∧
    (scopeValid k i = true → ¬LatchedIn s k i (fun l => s.present l = true ∨ l.sev = 5) → s.reactionRuns k i = false →
      Gives (.fltClear k i) s fun t =>
        t.get R.FLT_CMD_RESULT = 0 ∧ t.faults.latched = s.faults.latched.filter (fun l => !(l.skind == k && l.sindex == i)) ∧
        t.faults.inbox = s.faults.inbox ∧ t.faults.log = s.faults.log ∧
        t.get R.TWN_STAT_LSTATE = (if k = 0 ∧ s.get R.TWN_STAT_LSTATE = 3 then 0 else s.get R.TWN_STAT_LSTATE) ∧
        OnlyRegs s t [R.FLT_CMD_RESULT, R.TWN_STAT_LSTATE] ∧ t.mem = s.mem)) ∧
  (∀ (n : Slice) (s : State), s.domOn 0 = true → exec (.fltClear 1 n.val) s = exec (.clear n) s)
end

