-- ==== Sys2Proof/Laws/Lists.lean ====
section
/-!
SUPPORT. Laws/Lists.lean: the lists that hold registers, memory and flash: reading after writing, and the canonical form kept.
-/

namespace Sys2Proof.Machine

theorem risingFrom_mono {α : Type} {lo hi : Nat} (h : lo ≤ hi) : ∀ {l : List (Nat × α)}, risingFrom hi l = true → risingFrom lo l = true
  | [], _ => rfl
  | (a, _) :: t, w => by
    simp only [risingFrom, Bool.and_eq_true, decide_eq_true_eq] at w ⊢
    exact ⟨by omega, w.2⟩

theorem risingFrom_filter {α : Type} (p : Nat × α → Bool) : ∀ {lo : Nat} {l : List (Nat × α)}, risingFrom lo l = true →
    risingFrom lo (l.filter p) = true
  | _, [], _ => rfl
  | lo, (a, b) :: t, w => by
    simp only [risingFrom, Bool.and_eq_true, decide_eq_true_eq] at w
    have h := risingFrom_filter p w.2
    rw [List.filter_cons]
    split
    · simp only [risingFrom, Bool.and_eq_true, decide_eq_true_eq]; exact ⟨w.1, h⟩
    · exact risingFrom_mono (by omega) h

theorem dropKey_eq_filter (k : Nat) : ∀ l, dropKey k l = l.filter fun x => x.1 != k
  | [] => rfl
  | (a, w) :: t => by
    rw [dropKey, dropKey_eq_filter k t, List.filter_cons]
    by_cases h : a = k <;> simp [h]

theorem dropCell_eq_filter (k : Nat) : ∀ l, dropCell k l = l.filter fun x => x.1 != k
  | [] => rfl
  | (a, w) :: t => by
    rw [dropCell, dropCell_eq_filter k t, List.filter_cons]
    by_cases h : a = k <;> simp [h]

theorem risingFrom_dropKey {k lo : Nat} {l : List (Nat × Nat)} (h : risingFrom lo l = true) : risingFrom lo (dropKey k l) = true := by
  rw [dropKey_eq_filter]; exact risingFrom_filter _ h

theorem risingFrom_dropCell {k lo : Nat} {l : List Host.Cell} (h : risingFrom lo l = true) : risingFrom lo (dropCell k l) = true := by
  rw [dropCell_eq_filter]; exact risingFrom_filter _ h

theorem risingFrom_ordInsert {k v : Nat} : ∀ {lo : Nat} {l : List (Nat × Nat)}, lo ≤ k → (∀ x ∈ l, x.1 ≠ k) → risingFrom lo l = true →
    risingFrom lo (ordInsert k v l) = true
  | lo, [], h, _, _ => by simp [ordInsert, risingFrom, h]
  | lo, (a, w) :: t, h, hk, hr => by
    have ha : a ≠ k := hk (a, w) (by simp)
    simp only [risingFrom, Bool.and_eq_true, decide_eq_true_eq] at hr
    unfold ordInsert
    split
    · simp only [risingFrom, Bool.and_eq_true, decide_eq_true_eq]; exact ⟨h, by omega, hr.2⟩
    · simp only [risingFrom, Bool.and_eq_true, decide_eq_true_eq]
      exact ⟨hr.1, risingFrom_ordInsert (by omega) (fun x hx => hk x (by simp [hx])) hr.2⟩

theorem risingFrom_insertCell {k : Nat} {b : BitVec 8} : ∀ {lo : Nat} {l : List Host.Cell}, lo ≤ k → (∀ x ∈ l, x.1 ≠ k) →
    risingFrom lo l = true → risingFrom lo (insertCell k b l) = true
  | lo, [], h, _, _ => by simp [insertCell, risingFrom, h]
  | lo, (a, w) :: t, h, hk, hr => by
    have ha : a ≠ k := hk (a, w) (by simp)
    simp only [risingFrom, Bool.and_eq_true, decide_eq_true_eq] at hr
    unfold insertCell
    split
    · simp only [risingFrom, Bool.and_eq_true, decide_eq_true_eq]; exact ⟨h, by omega, hr.2⟩
    · simp only [risingFrom, Bool.and_eq_true, decide_eq_true_eq]
      exact ⟨hr.1, risingFrom_insertCell (by omega) (fun x hx => hk x (by simp [hx])) hr.2⟩

theorem all_insertCell {k : Nat} {b : BitVec 8} {p : Host.Cell → Bool} (hb : p (k, b) = true) : ∀ {l : List Host.Cell}, l.all p = true →
    (insertCell k b l).all p = true
  | [], _ => by simp [insertCell, hb]
  | (a, c) :: t, h => by
    simp only [List.all_cons, Bool.and_eq_true] at h
    unfold insertCell
    split
    · simp [hb, h.1, h.2]
    · simp [h.1, all_insertCell hb h.2]

theorem all_dropCell {k : Nat} {p : Host.Cell → Bool} {l : List Host.Cell} (h : l.all p = true) : (dropCell k l).all p = true := by
  rw [dropCell_eq_filter]
  simp only [List.all_eq_true] at h ⊢
  exact fun x hx => h x ((List.mem_filter.1 hx).1)

theorem not_mem_dropCell (k : Nat) (l : List Host.Cell) : ∀ x ∈ dropCell k l, x.1 ≠ k := by
  rw [dropCell_eq_filter]; intro x hx; simpa using (List.mem_filter.1 hx).2

theorem not_mem_dropKey (k : Nat) (l : List (Nat × Nat)) : ∀ x ∈ dropKey k l, x.1 ≠ k := by
  rw [dropKey_eq_filter]; intro x hx; simpa using (List.mem_filter.1 hx).2

/-! Registers. -/

theorem lookupD_dropKey_self {k d : Nat} : ∀ l, lookupD (dropKey k l) k d = d
  | [] => rfl
  | (a, v) :: t => by
    unfold dropKey
    split
    · exact lookupD_dropKey_self t
    · rename_i h; simp [lookupD, h, lookupD_dropKey_self t]

theorem lookupD_dropKey_ne {k j d : Nat} (h : j ≠ k) : ∀ l, lookupD (dropKey k l) j d = lookupD l j d
  | [] => rfl
  | (a, v) :: t => by
    unfold dropKey
    split
    · rename_i ha
      rw [lookupD_dropKey_ne h t, lookupD, if_neg (by omega)]
    · simp [lookupD, lookupD_dropKey_ne h t]

theorem lookupD_ordInsert_self {k v d : Nat} : ∀ {l}, (∀ x ∈ l, x.1 ≠ k) → lookupD (ordInsert k v l) k d = v
  | [], _ => by simp [ordInsert, lookupD]
  | (a, w) :: t, h => by
    have ha : a ≠ k := h (a, w) (by simp)
    unfold ordInsert
    split
    · simp [lookupD]
    · simp [lookupD, ha, lookupD_ordInsert_self (l := t) fun x hx => h x (List.mem_cons_of_mem _ hx)]

theorem lookupD_ordInsert_ne {k v d j : Nat} (h : j ≠ k) : ∀ l, lookupD (ordInsert k v l) j d = lookupD l j d
  | [] => by simp [ordInsert, lookupD, Ne.symm h]
  | (a, w) :: t => by
    unfold ordInsert
    split
    · rw [lookupD, if_neg (Ne.symm h)]
    · simp [lookupD, lookupD_ordInsert_ne h t]

theorem Regs.wf_set {r : List (Nat × Nat)} {k v : Nat} (h : Regs.wf r = true) : Regs.wf (ordInsert k v (dropKey k r)) = true :=
  risingFrom_ordInsert (Nat.zero_le _) (not_mem_dropKey _ _) (risingFrom_dropKey h)

theorem Regs.wf_drop {r : List (Nat × Nat)} {k : Nat} (h : Regs.wf r = true) : Regs.wf (dropKey k r) = true := risingFrom_dropKey h

theorem Regs.wf_put {r : List (Nat × Nat)} {k v d : Nat} (h : Regs.wf r = true) :
    Regs.wf (if v = d then dropKey k r else ordInsert k v (dropKey k r)) = true := by
  split
  · exact Regs.wf_drop h
  · exact Regs.wf_set h

theorem Regs.wf_filter {r : List (Nat × Nat)} {p : Nat × Nat → Bool} (h : Regs.wf r = true) : Regs.wf (r.filter p) = true :=
  risingFrom_filter p h

/-! Memory. -/

theorem cellAt_dropCell_self {k : Nat} : ∀ l, cellAt (dropCell k l) k = 0
  | [] => rfl
  | (a, v) :: t => by
    unfold dropCell
    split
    · exact cellAt_dropCell_self t
    · rename_i h; simp [cellAt, h, cellAt_dropCell_self t]

theorem cellAt_dropCell_ne {k j : Nat} (h : j ≠ k) : ∀ l, cellAt (dropCell k l) j = cellAt l j
  | [] => rfl
  | (a, v) :: t => by
    unfold dropCell
    split
    · rename_i ha
      rw [cellAt_dropCell_ne h t, cellAt, if_neg (by omega)]
    · simp [cellAt, cellAt_dropCell_ne h t]

theorem cellAt_insertCell_self {k : Nat} {b : BitVec 8} : ∀ {l}, (∀ x ∈ l, x.1 ≠ k) → cellAt (insertCell k b l) k = b
  | [], _ => by simp [insertCell, cellAt]
  | (a, w) :: t, h => by
    have ha : a ≠ k := h (a, w) (by simp)
    unfold insertCell
    split
    · simp [cellAt]
    · simp [cellAt, ha, cellAt_insertCell_self (l := t) fun x hx => h x (List.mem_cons_of_mem _ hx)]

theorem cellAt_insertCell_ne {k j : Nat} {b : BitVec 8} (h : j ≠ k) : ∀ l, cellAt (insertCell k b l) j = cellAt l j
  | [] => by simp [insertCell, cellAt, Ne.symm h]
  | (a, w) :: t => by
    unfold insertCell
    split
    · rw [cellAt, if_neg (Ne.symm h)]
    · simp [cellAt, cellAt_insertCell_ne h t]

/-- A byte written is read back. -/
theorem cellAt_putCell_self (m : List Host.Cell) (k : Nat) (b : BitVec 8) : cellAt (putCell m k b) k = b := by
  unfold putCell
  split
  · rename_i h; rw [h]; exact cellAt_dropCell_self m
  · exact cellAt_insertCell_self (not_mem_dropCell _ _)

/-- A byte written leaves every other byte. -/
theorem cellAt_putCell_ne {m : List Host.Cell} {k j : Nat} {b : BitVec 8} (h : j ≠ k) : cellAt (putCell m k b) j = cellAt m j := by
  unfold putCell
  split
  · exact cellAt_dropCell_ne h m
  · rw [cellAt_insertCell_ne h, cellAt_dropCell_ne h]

/-- A write keeps the canonical form. -/
theorem Memory.wf_putCell {m : List Host.Cell} {k : Nat} {b : BitVec 8} (h : Memory.wf m = true) : Memory.wf (putCell m k b) = true := by
  simp only [Memory.wf, Bool.and_eq_true] at h ⊢
  unfold putCell
  split
  · exact ⟨risingFrom_dropCell h.1, all_dropCell h.2⟩
  · rename_i hb
    exact ⟨risingFrom_insertCell (Nat.zero_le _) (not_mem_dropCell _ _) (risingFrom_dropCell h.1),
      all_insertCell (by simpa using hb) (all_dropCell h.2)⟩

theorem Memory.wf_filter {m : List Host.Cell} {p : Host.Cell → Bool} (h : Memory.wf m = true) : Memory.wf (m.filter p) = true := by
  simp only [Memory.wf, Bool.and_eq_true, List.all_eq_true] at h ⊢
  exact ⟨risingFrom_filter p h.1, fun x hx => h.2 x ((List.mem_filter.1 hx).1)⟩

/-! Flash. -/

theorem Flash.wf_filter {m : List Host.Cell} {p : Host.Cell → Bool} (h : Flash.wf m = true) : Flash.wf (m.filter p) = true := by
  simp only [Flash.wf, Bool.and_eq_true, List.all_eq_true] at h ⊢
  exact ⟨risingFrom_filter p h.1, fun x hx => h.2 x ((List.mem_filter.1 hx).1)⟩

theorem Flash.wf_flashByte {m : List Host.Cell} {o v : Nat} (h : Flash.wf m = true) : Flash.wf (flashByte m o v) = true := by
  simp only [Flash.wf, Bool.and_eq_true] at h ⊢
  simp only [flashByte]
  split
  · exact ⟨risingFrom_dropCell h.1, all_dropCell h.2⟩
  · rename_i hb
    exact ⟨risingFrom_insertCell (Nat.zero_le _) (not_mem_dropCell _ _) (risingFrom_dropCell h.1),
      all_insertCell (by simpa using hb) (all_dropCell h.2)⟩

theorem Flash.wf_flashProgram : ∀ {m : List Host.Cell} {o : Nat} {l : List Nat}, Flash.wf m = true → Flash.wf (flashProgram m o l) = true
  | _, _, [], h => h
  | m, o, _ :: t, h => by unfold flashProgram; exact wf_flashProgram (wf_flashByte h)

end Sys2Proof.Machine
end

