-- ==== Sys2Proof/Laws/Keeps.lean ====
section
/-!
SUPPORT. Laws/Keeps.lean: what every operation of the module keeps: the queue of waiting commands, and the invariant. The lemmas of the
operations themselves, each named after its operation, stand in the files Laws/Keeps*.lean.
-/

namespace Sys2Proof.Machine

/-- State `s`, reached from `a`, has the queue of `a`, and the invariant if `a` has it. -/
def Keeps (a s : State) : Prop := s.pending = a.pending ∧ (Inv a → Inv s)

/-- A state beside another value keeps what `Keeps` says. -/
def KeepsP {β : Type} (a : State) (p : State × β) : Prop := Keeps a p.1

/-- A state, where there is one, keeps what `Keeps` says. -/
def KeepsO (a : State) (o : Option State) : Prop := ∀ t, o = some t → Keeps a t

/-- The outcome is a next state that keeps what `Keeps` says. -/
def KeepsOut (a : State) (o : Out) : Prop := ∃ t, o = .next t ∧ Keeps a t

variable {a s t : State}

theorem Keeps.refl (a : State) : Keeps a a := ⟨rfl, id⟩

theorem Keeps.ite {c : Prop} [Decidable c] (h : Keeps a s) (g : Keeps a t) : Keeps a (if c then s else t) := by split <;> assumption

theorem KeepsP.ite {β : Type} {c : Prop} [Decidable c] {p q : State × β} (h : KeepsP a p) (g : KeepsP a q) : KeepsP a (if c then p else q) := by
  split <;> assumption

theorem KeepsO.ite {c : Prop} [Decidable c] {p q : Option State} (h : KeepsO a p) (g : KeepsO a q) : KeepsO a (if c then p else q) := by
  split <;> assumption

theorem KeepsOut.ite {c : Prop} [Decidable c] {p q : Out} (h : KeepsOut a p) (g : KeepsOut a q) : KeepsOut a (if c then p else q) := by
  split <;> assumption

theorem KeepsP.mk {β : Type} {b : β} (h : Keeps a s) : KeepsP a (s, b) := h

theorem KeepsP.fst {β : Type} {p : State × β} (h : KeepsP a p) : Keeps a p.1 := h

theorem KeepsP.of_eq {β : Type} {b : β} {p : State × β} (e : p = (s, b)) (h : KeepsP a p) : Keeps a s := by subst e; exact h

theorem KeepsO.none : KeepsO a none := fun _ e => by cases e

theorem KeepsO.some (h : Keeps a s) : KeepsO a (some s) := fun _ e => by cases e; exact h

theorem KeepsO.of_eq {o : Option State} (e : o = Option.some s) (h : KeepsO a o) : Keeps a s := h s e

theorem KeepsOut.next (h : Keeps a s) : KeepsOut a (.next s) := ⟨s, rfl, h⟩

theorem Keeps.foldl {β : Type} {f : State → β → State} (hf : ∀ s x, Keeps a s → Keeps a (f s x)) :
    ∀ {l : List β} {s : State}, Keeps a s → Keeps a (l.foldl f s)
  | [], _, h => h
  | x :: t, s, h => Keeps.foldl (l := t) hf (hf s x h)

theorem KeepsP.foldl {β γ : Type} {f : State × γ → β → State × γ} (hf : ∀ p x, KeepsP a p → KeepsP a (f p x)) :
    ∀ {l : List β} {p : State × γ}, KeepsP a p → KeepsP a (l.foldl f p)
  | [], _, h => h
  | x :: t, p, h => KeepsP.foldl (l := t) hf (hf p x h)

/-- What neither queue, memory, registers, flash, log, field queue, sessions, learning table nor launch queues show. -/
theorem Keeps.frame (h : Keeps a s) (hp : t.pending = s.pending) (hm : t.mem = s.mem) (hr : t.regs = s.regs)
    (ha : t.boot.slotA = s.boot.slotA) (hb : t.boot.slotB = s.boot.slotB) (hl : t.faults.log = s.faults.log)
    (hq : t.faults.fieldQueue = s.faults.fieldQueue) (hs : t.host.sessions = s.host.sessions) (hn : t.net.learn = s.net.learn)
    (hd : t.net.ports = s.net.ports) : Keeps a t :=
  ⟨hp.trans h.1, fun i =>
    have j := h.2 i
    ⟨hm ▸ j.mem, hr ▸ j.regs, ha ▸ j.slotA, hb ▸ j.slotB, hl ▸ j.log, hq ▸ j.queue, hs ▸ j.sessions, hn ▸ j.learn, hd ▸ j.launch⟩⟩

theorem Keeps.withArc (h : Keeps a s) {x : ArcDyn} : Keeps a { s with arc := x } := h.frame rfl rfl rfl rfl rfl rfl rfl rfl rfl rfl

/-! The operations that write what the invariant speaks of. -/

theorem State.set_keeps (h : Keeps a s) {f : Fld} {v : Nat} : Keeps a (s.set f v) :=
  ⟨h.1, fun i => { h.2 i with regs := Regs.wf_put (h.2 i).regs }⟩

theorem State.putByte_keeps (h : Keeps a s) {k v : Nat} : Keeps a (s.putByte k v) :=
  ⟨h.1, fun i => { h.2 i with mem := Memory.wf_putCell (h.2 i).mem }⟩

theorem State.putBytes_keeps {l : List Nat} : ∀ {s : State} {k : Nat}, Keeps a s → Keeps a (s.putBytes k l) := by
  induction l with
  | nil => intro s k h; exact h
  | cons b t ih => intro s k h; unfold State.putBytes; exact ih (State.putByte_keeps h)

theorem State.zeroRange_keeps (h : Keeps a s) {lo hi : Nat} : Keeps a (s.zeroRange lo hi) :=
  ⟨h.1, fun i => { h.2 i with mem := Memory.wf_filter (h.2 i).mem }⟩

theorem State.each_keeps {β : Type} {l : List β} {f : State → β → State} (h : Keeps a s) (hf : ∀ s x, Keeps a s → Keeps a (f s x)) :
    Keeps a (s.each l f) := Keeps.foldl hf h

theorem State.modBoot_keeps (h : Keeps a s) {f : BootDyn → BootDyn} (hf : ∀ b, (f b).slotA = b.slotA ∧ (f b).slotB = b.slotB) :
    Keeps a (s.modBoot f) := Keeps.frame h rfl rfl rfl (hf _).1 (hf _).2 rfl rfl rfl rfl rfl

theorem State.setFlash_keeps (h : Keeps a s) {k : Nat} {m : List Host.Cell} (hm : Inv s → Flash.wf m = true) : Keeps a (s.setFlash k m) := by
  refine ⟨h.1, fun i => ?_⟩
  have j := h.2 i
  by_cases hk : k = 0
  · exact { j with slotA := by simpa [State.setFlash, State.modBoot, hk] using hm j
                   slotB := by simpa [State.setFlash, State.modBoot, hk] using j.slotB }
  · exact { j with slotA := by simpa [State.setFlash, State.modBoot, hk] using j.slotA
                   slotB := by simpa [State.setFlash, State.modBoot, hk] using hm j }

theorem Inv.flash (i : Inv s) (k : Nat) : Flash.wf (s.flash k) = true := by
  unfold State.flash; split
  · exact i.slotA
  · exact i.slotB

theorem Inv.session (i : Inv s) {k : Nat} {x : Session} (h : s.host.sessions[k]? = some x) : x.wf = true :=
  List.all_eq_true.1 i.sessions x (List.mem_of_getElem? h)

theorem Session.wf_iff {x : Session} : x.wf = true ↔ x.kept.length ≤ 16 ∧ x.notices.length ≤ 32 := by
  simp [Session.wf]

theorem all_setNth {α : Type} {p : α → Bool} : ∀ {l : List α} {k : Nat} {x : α}, l.all p = true → p x = true → (setNth l k x).all p = true := by
  intro l
  induction l with
  | nil => intro k x _ _; cases k <;> simp_all [setNth]
  | cons y t ih =>
    intro k x h hx
    simp only [List.all_cons, Bool.and_eq_true] at h
    cases k with
    | zero => simp [setNth, hx, h.2]
    | succ k => simp [setNth, h.1, ih h.2 hx]

/-- A list of sessions put in place of the present one. -/
theorem Keeps.sessions (h : Keeps a s) {l : List Session} (hl : Inv s → l.all Session.wf = true) :
    Keeps a { s with host := { s.host with sessions := l } } :=
  ⟨h.1, fun i => { h.2 i with sessions := hl (h.2 i) }⟩

theorem Keeps.setSession (h : Keeps a s) {k : Nat} {x : Session} (hx : Inv s → x.wf = true) :
    Keeps a { s with host := { s.host with sessions := setNth s.host.sessions k x } } :=
  h.sessions fun i => all_setNth i.sessions (hx i)

theorem Inv.sessionAt (i : Inv s) (k : Nat) : (s.session k).wf = true := by
  unfold State.session
  split
  · exact i.session ‹_›
  · rfl

theorem State.modSession_keeps (h : Keeps a s) {k : Nat} {f : Session → Session} (hf : ∀ x, x.wf = true → (f x).wf = true) :
    Keeps a (s.modSession k f) := h.setSession fun i => hf _ (i.sessionAt k)

theorem Session.wf_keep {x : Session} {r : Nat × Nat × Nat × List Nat} (h : x.wf = true) : (x.keep r).wf = true := by
  rw [Session.wf_iff] at h ⊢
  simp only [Session.keep, List.length_drop, List.length_append, List.length_singleton]
  exact ⟨by omega, h.2⟩

theorem Session.wf_take {x : Session} {n : Notice} (h : x.wf = true) : (x.take n).wf = true := by
  rw [Session.wf_iff] at h ⊢
  unfold Session.take
  split
  · simp only [List.length_append, List.length_singleton]; exact ⟨h.1, by omega⟩
  · split
    · exact h
    · rename_i last t e
      have : x.notices.length = t.length + 1 := by rw [← List.length_reverse, e]; rfl
      simp only [List.length_reverse, List.length_cons]
      exact ⟨h.1, by omega⟩

theorem State.modPort_keeps (h : Keeps a s) {p : Fin 3} {f : PortDyn → PortDyn} (hf : ∀ x, (f x).launch.length ≤ x.launch.length) :
    Keeps a (s.modPort p f) := by
  refine ⟨h.1, fun i => ?_⟩
  have j := h.2 i
  refine { j with launch := fun q => ?_ }
  show ((s.net.ports.set p (f s.net.ports[p]))[q]).launch.length ≤ 64
  by_cases e : p = q
  · subst e; simpa using Nat.le_trans (hf _) (j.launch p)
  · have : p.val ≠ q.val := fun h => e (Fin.ext h)
    simpa [Vector.getElem_set, this] using j.launch q

/-- A learning table put in place of the present one. -/
theorem Keeps.learn (h : Keeps a s) {l : List (Nat × Nat)} (hl : Inv s → l.length ≤ 1024) :
    Keeps a { s with net := { s.net with learn := l } } := ⟨h.1, fun i => { h.2 i with learn := hl (h.2 i) }⟩

/-- A fault log put in place of the present one. -/
theorem Keeps.log (h : Keeps a s) {l : List (Nat × LogEntry)} {n : Nat} (hl : Inv s → l.length ≤ 256) :
    Keeps a { s with faults := { s.faults with log := l, number := n } } := ⟨h.1, fun i => { h.2 i with log := hl (h.2 i) }⟩

/-- A field queue put in place of the present one. -/
theorem Keeps.fieldQueue (h : Keeps a s) {l : List FaultRec} (hl : Inv s → l.length ≤ 16) :
    Keeps a { s with faults := { s.faults with fieldQueue := l } } := ⟨h.1, fun i => { h.2 i with queue := hl (h.2 i) }⟩

/-- A launch queue changed. -/
theorem Keeps.launchOf (h : Keeps a s) {p : Fin 3} {f : PortDyn → PortDyn} (hf : Inv s → (f s.net.ports[p]).launch.length ≤ 64) :
    Keeps a (s.modPort p f) := by
  refine ⟨h.1, fun i => ?_⟩
  have j := h.2 i
  refine { j with launch := fun q => ?_ }
  show ((s.net.ports.set p (f s.net.ports[p]))[q]).launch.length ≤ 64
  by_cases e : p = q
  · subst e; simpa using hf j
  · have : p.val ≠ q.val := fun h => e (Fin.ext h)
    simpa [Vector.getElem_set, this] using j.launch q

theorem length_launchIn {d : LaunchDyn} : ∀ l, (launchIn d l).length = l.length + 1
  | [] => rfl
  | x :: t => by
    unfold launchIn
    split
    · rfl
    · simp [length_launchIn t]

/-- A full log loses an entry before it takes one. -/
theorem makeRoom_length {sev k : Nat} {log l : List (Nat × LogEntry)} (h : makeRoom sev log = some (k, l)) : l.length < log.length := by
  unfold makeRoom at h
  split at h
  · cases h
  · rename_i x e
    cases h
    have hm : (k, x) ∈ log := (List.mem_filter.1 (List.mem_of_getLast? e)).1
    refine Nat.lt_of_le_of_ne (List.length_filter_le _ _) fun hc => ?_
    have he := List.length_filter_eq_length_iff.1 hc _ hm
    simp at he

theorem Session.wf_notices {x : Session} {l : List Notice} {n : Nat} (h : x.wf = true) (hl : l.length ≤ x.notices.length) :
    ({ x with notices := l, lost := n } : Session).wf = true := by
  rw [Session.wf_iff] at h ⊢; exact ⟨h.1, Nat.le_trans hl h.2⟩

end Sys2Proof.Machine
end

