-- ==== Sys2Proof/Laws/Keeps1.lean ====
section
/-!
SUPPORT. Laws/Keeps1.lean: what the operations and the meanings of Machine/Ops, AxisOps, TimeOps, Net keep (Laws/Keeps.lean).
-/

namespace Sys2Proof.Machine

/-! Ops -/

theorem State.setS_keeps {z0 : State} {s : State} {f : Fld} {v : Int} (h0 : Keeps z0 s) : Keeps z0 (State.setS s f v) := by
  unfold State.setS
  refine State.set_keeps ?_
  exact h0

theorem State.setB_keeps {z0 : State} {s : State} {f : Fld} {b : Bool} (h0 : Keeps z0 s) : Keeps z0 (State.setB s f b) := by
  unfold State.setB
  refine State.set_keeps ?_
  exact h0

theorem State.bump_keeps {z0 : State} {s : State} {f : Fld} (h0 : Keeps z0 s) : Keeps z0 (State.bump s f) := by
  unfold State.bump
  refine State.set_keeps ?_
  exact h0

theorem State.bumpBy_keeps {z0 : State} {s : State} {f : Fld} {k : Nat} (h0 : Keeps z0 s) : Keeps z0 (State.bumpBy s f k) := by
  unfold State.bumpBy
  refine State.set_keeps ?_
  exact h0

theorem State.putBit_keeps {z0 : State} {s : State} {f : Fld} {i : Nat} {b : Bool} (h0 : Keeps z0 s) : Keeps z0 (State.putBit s f i b) := by
  unfold State.putBit
  refine State.set_keeps ?_
  exact h0

theorem State.toReset_keeps {z0 : State} {s : State} {f : Fld} (h0 : Keeps z0 s) : Keeps z0 (State.toReset s f) := by
  unfold State.toReset
  refine State.set_keeps ?_
  exact h0

theorem State.wr_keeps {z0 : State} {s : State} {a : Nat} {n : Nat} {v : Nat} (h0 : Keeps z0 s) : Keeps z0 (State.wr s a n v) := by
  unfold State.wr
  refine State.putBytes_keeps ?_
  exact h0

theorem State.modAx_keeps {z0 : State} {s : State} {n : Slice} {f : AxisDyn → AxisDyn} (h0 : Keeps z0 s) : Keeps z0 (State.modAx s n f) := by
  unfold State.modAx
  exact Keeps.frame h0 rfl rfl rfl rfl rfl rfl rfl rfl rfl rfl

theorem State.modPwm_keeps {z0 : State} {s : State} {n : Slice} {f : PwmDyn → PwmDyn} (h0 : Keeps z0 s) : Keeps z0 (State.modPwm s n f) := by
  unfold State.modPwm
  exact Keeps.frame h0 rfl rfl rfl rfl rfl rfl rfl rfl rfl rfl

theorem State.modSup_keeps {z0 : State} {s : State} {n : Slice} {f : SupDyn → SupDyn} (h0 : Keeps z0 s) : Keeps z0 (State.modSup s n f) := by
  unfold State.modSup
  exact Keeps.frame h0 rfl rfl rfl rfl rfl rfl rfl rfl rfl rfl

theorem State.modProf_keeps {z0 : State} {s : State} {n : Slice} {f : ProfDyn → ProfDyn} (h0 : Keeps z0 s) : Keeps z0 (State.modProf s n f) := by
  unfold State.modProf
  exact Keeps.frame h0 rfl rfl rfl rfl rfl rfl rfl rfl rfl rfl

theorem State.modGrp_keeps {z0 : State} {s : State} {g : Fin 8} {f : GroupDyn → GroupDyn} (h0 : Keeps z0 s) : Keeps z0 (State.modGrp s g f) := by
  unfold State.modGrp
  exact Keeps.frame h0 rfl rfl rfl rfl rfl rfl rfl rfl rfl rfl

theorem State.modBus_keeps {z0 : State} {s : State} {k : Fin 4} {f : BusDyn → BusDyn} (h0 : Keeps z0 s) : Keeps z0 (State.modBus s k f) := by
  unfold State.modBus
  exact Keeps.frame h0 rfl rfl rfl rfl rfl rfl rfl rfl rfl rfl

theorem State.drawn_keeps {z0 : State} {s : State} (h0 : Keeps z0 s) : Keeps z0 (State.drawn s) := by
  unfold State.drawn
  exact Keeps.frame h0 rfl rfl rfl rfl rfl rfl rfl rfl rfl rfl

theorem State.passBoth_keeps {z0 : State} {s : State} {d : Nat} {r : Nat} (h0 : Keeps z0 s) : Keeps z0 (State.passBoth s d r) := by
  unfold State.passBoth
  exact Keeps.frame h0 rfl rfl rfl rfl rfl rfl rfl rfl rfl rfl

theorem State.passTo_keeps {z0 : State} {s : State} {t : Nat} (h0 : Keeps z0 s) : Keeps z0 (State.passTo s t) := by
  unfold State.passTo
  refine Keeps.ite ?_ ?_
  · refine State.passBoth_keeps ?_
    exact h0
  · exact h0

theorem State.stage_keeps {z0 : State} {s : State} {x : Staged} (h0 : Keeps z0 s) : Keeps z0 (State.stage s x) := by
  unfold State.stage
  exact Keeps.frame h0 rfl rfl rfl rfl rfl rfl rfl rfl rfl rfl

theorem State.unstage_keeps {z0 : State} {s : State} {o : Own} {i : Nat} (h0 : Keeps z0 s) : Keeps z0 (State.unstage s o i) := by
  unfold State.unstage
  exact Keeps.frame h0 rfl rfl rfl rfl rfl rfl rfl rfl rfl rfl

theorem State.applyStaged_keeps {z0 : State} {s : State} {l : List Staged} (h0 : Keeps z0 s) : Keeps z0 (State.applyStaged s l) := by
  unfold State.applyStaged
  refine State.each_keeps ?_ ?_
  · exact h0
  · intro s1 x2 x3
    refine State.set_keeps ?_
    exact x3

theorem State.raise_keeps {z0 : State} {s : State} {r : FaultRec} (h0 : Keeps z0 s) : Keeps z0 (State.raise s r) := by
  unfold State.raise
  exact Keeps.frame h0 rfl rfl rfl rfl rfl rfl rfl rfl rfl rfl

theorem State.raiseMod_keeps {z0 : State} {s : State} {code : Nat} {sev : Nat} {detail : optParam Nat 0} (h0 : Keeps z0 s) : Keeps z0 (State.raiseMod s code sev detail) := by
  unfold State.raiseMod
  refine State.raise_keeps ?_
  exact h0

theorem State.raiseBus_keeps {z0 : State} {s : State} {code : Nat} {sev : Nat} {k : Nat} (h0 : Keeps z0 s) : Keeps z0 (State.raiseBus s code sev k) := by
  unfold State.raiseBus
  refine State.raise_keeps ?_
  exact h0

theorem State.raiseDie_keeps {z0 : State} {s : State} {code : Nat} {sev : Nat} {d : Nat} (h0 : Keeps z0 s) : Keeps z0 (State.raiseDie s code sev d) := by
  unfold State.raiseDie
  refine State.raise_keeps ?_
  exact h0

theorem State.raiseGraph_keeps {z0 : State} {s : State} {code : Nat} {sev : Nat} {g : Nat} {detail : optParam Nat 0} (h0 : Keeps z0 s) : Keeps z0 (State.raiseGraph s code sev g detail) := by
  unfold State.raiseGraph
  refine State.raise_keeps ?_
  exact h0

theorem State.raisePath_keeps {z0 : State} {s : State} {code : Nat} {sev : Nat} {g : Nat} (h0 : Keeps z0 s) : Keeps z0 (State.raisePath s code sev g) := by
  unfold State.raisePath
  refine State.raise_keeps ?_
  exact h0

theorem State.raiseZone_keeps {z0 : State} {s : State} {code : Nat} {sev : Nat} {z : Nat} (h0 : Keeps z0 s) : Keeps z0 (State.raiseZone s code sev z) := by
  unfold State.raiseZone
  refine State.raise_keeps ?_
  exact h0

theorem State.send_keeps {z0 : State} {s : State} {port : Nat} {queue : Nat} {m : OwnMsg} (h0 : Keeps z0 s) : Keeps z0 (State.send s port queue m) := by
  unfold State.send
  exact Keeps.frame h0 rfl rfl rfl rfl rfl rfl rfl rfl rfl rfl

theorem State.notice_keeps {z0 s : State} {kind : Nat} {detail : List Nat} (h0 : Keeps z0 s) : Keeps z0 (State.notice s kind detail) := by
  unfold State.notice
  extract_lets +onlyGivenNames n who full s1 s2
  have h1 : Keeps z0 s1 := by
    refine Keeps.foldl (fun s i h => ?_) h0
    split
    · rename_i x e
      extract_lets +onlyGivenNames src s3
      have h3 : Keeps z0 s3 := h.setSession fun j => Session.wf_take (j.session e)
      exact Keeps.ite (State.send_keeps h3) h3
    · exact h
  have h2 : Keeps z0 s2 := Keeps.foldl (fun s x h => State.bump_keeps h) h1
  exact Keeps.frame h2 rfl rfl rfl rfl rfl rfl rfl rfl rfl rfl

theorem State.broadcast_keeps {z0 : State} {s : State} {m : OwnMsg} (h0 : Keeps z0 s) : Keeps z0 (State.broadcast s m) := by
  unfold State.broadcast
  refine State.each_keeps ?_ ?_
  · exact h0
  · intro s1 x2 x3
    refine Keeps.ite ?_ ?_
    · refine State.send_keeps ?_
      exact x3
    · exact x3

theorem State.arrive_keeps {z0 : State} {s : State} {kind : Nat} {param : Nat} {payload : List Nat} (h0 : Keeps z0 s) : Keeps z0 (State.arrive s kind param payload) := by
  unfold State.arrive
  exact Keeps.frame h0 rfl rfl rfl rfl rfl rfl rfl rfl rfl rfl

theorem State.noteState_keeps {z0 : State} {s : State} (h0 : Keeps z0 s) : Keeps z0 (State.noteState s) := by
  unfold State.noteState
  split
  · exact h0
  · exact Keeps.frame h0 rfl rfl rfl rfl rfl rfl rfl rfl rfl rfl

theorem State.flushState_keeps {z0 : State} {s : State} (h0 : Keeps z0 s) : Keeps z0 (State.flushState s) := by
  unfold State.flushState
  split
  · exact h0
  · extract_lets -merge +onlyGivenNames v1
    extract_lets -merge +onlyGivenNames v2
    have hv2 : Keeps z0 v2 := by
      unfold v2
      exact Keeps.frame h0 rfl rfl rfl rfl rfl rfl rfl rfl rfl rfl
    clear_value v2
    refine Keeps.ite ?_ ?_
    · exact hv2
    · refine State.notice_keeps ?_
      exact hv2

theorem State.withState_keeps {z0 : State} {s : State} {f : State → State} (h0 : Keeps z0 s) (hf1 : ∀ y1, Keeps z0 y1 → Keeps z0 (f y1)) : Keeps z0 (State.withState s f) := by
  unfold State.withState
  extract_lets -merge +onlyGivenNames v1
  have hv1 : Keeps z0 v1 := by
    unfold v1
    refine hf1 _ ?_
    refine State.noteState_keeps ?_
    exact h0
  clear_value v1
  refine Keeps.ite ?_ ?_
  · exact hv1
  · refine State.flushState_keeps ?_
    exact hv1

theorem State.setDev_keeps {z0 : State} {s : State} {v : Nat} (h0 : Keeps z0 s) : Keeps z0 (State.setDev s v) := by
  unfold State.setDev
  refine State.withState_keeps ?_ ?_
  · exact h0
  · intro s1 x2
    refine State.set_keeps ?_
    exact x2

theorem State.setOverlay_keeps {z0 : State} {s : State} {f : Fld} {b : Bool} (h0 : Keeps z0 s) : Keeps z0 (State.setOverlay s f b) := by
  unfold State.setOverlay
  refine State.withState_keeps ?_ ?_
  · exact h0
  · intro s1 x2
    refine State.setB_keeps ?_
    exact x2

theorem State.raiseAx_keeps {z0 : State} {s : State} {code : Nat} {sev : Nat} {n : Slice} {detail : optParam Nat 0} (h0 : Keeps z0 s) : Keeps z0 (State.raiseAx s code sev n detail) := by
  unfold State.raiseAx
  refine State.raise_keeps ?_
  exact h0

theorem State.modFb_keeps {z0 : State} {s : State} {n : Slice} {f : FbDyn → FbDyn} (h0 : Keeps z0 s) : Keeps z0 (State.modFb s n f) := by
  unfold State.modFb
  exact Keeps.frame h0 rfl rfl rfl rfl rfl rfl rfl rfl rfl rfl

theorem State.modSense_keeps {z0 : State} {s : State} {n : Slice} {f : SenseDyn → SenseDyn} (h0 : Keeps z0 s) : Keeps z0 (State.modSense s n f) := by
  unfold State.modSense
  exact Keeps.frame h0 rfl rfl rfl rfl rfl rfl rfl rfl rfl rfl

theorem State.modStart_keeps {z0 : State} {s : State} {n : Slice} {f : StartDyn → StartDyn} (h0 : Keeps z0 s) : Keeps z0 (State.modStart s n f) := by
  unfold State.modStart
  exact Keeps.frame h0 rfl rfl rfl rfl rfl rfl rfl rfl rfl rfl

/-! AxisOps -/

theorem State.rearmBusuv_keeps {z0 : State} {s : State} (h0 : Keeps z0 s) : Keeps z0 (State.rearmBusuv s) := by
  unfold State.rearmBusuv
  refine State.each_keeps ?_ ?_
  · exact h0
  · intro s1 x2 x3
    refine Keeps.ite ?_ ?_
    · exact x3
    · refine State.modBus_keeps ?_
      exact x3

theorem State.perfCheck_keeps {z0 : State} {s : State} (h0 : Keeps z0 s) : Keeps z0 (State.perfCheck s) := by
  unfold State.perfCheck
  refine Keeps.ite ?_ ?_
  · exact h0
  · extract_lets -merge +onlyGivenNames v1
    have hv1 : Keeps z0 v1 := by
      unfold v1
      refine State.set_keeps ?_
      exact h0
    clear_value v1
    exact Keeps.frame hv1 rfl rfl rfl rfl rfl rfl rfl rfl rfl rfl

theorem State.setAxst_keeps {z0 : State} {s : State} {n : Slice} {v : Nat} (h0 : Keeps z0 s) : Keeps z0 (State.setAxst s n v) := by
  unfold State.setAxst
  extract_lets -merge +onlyGivenNames v1
  have hv1 : Keeps z0 v1 := by
    unfold v1
    refine State.each_keeps ?_ ?_
    · refine State.set_keeps ?_
      exact h0
    · intro s2 x3 x4
      refine State.putBit_keeps ?_
      exact x4
  clear_value v1
  refine State.perfCheck_keeps ?_
  refine Keeps.ite ?_ ?_
  · refine State.rearmBusuv_keeps ?_
    exact hv1
  · exact hv1

theorem State.modPw_keeps {z0 : State} {s : State} {f : PwrDyn → PwrDyn} (h0 : Keeps z0 s) : Keeps z0 (State.modPw s f) := by
  unfold State.modPw
  exact Keeps.frame h0 rfl rfl rfl rfl rfl rfl rfl rfl rfl rfl

theorem State.applyFactors_keeps {z0 : State} {s : State} {n : Slice} (h0 : Keeps z0 s) : Keeps z0 (State.applyFactors s n) := by
  unfold State.applyFactors
  extract_lets -merge +onlyGivenNames v1 v2
  clear_value v1
  have hv2 : Keeps z0 v2 := by
    unfold v2
    refine Keeps.ite ?_ ?_
    · exact h0
    · refine State.modProf_keeps ?_
      exact h0
  clear_value v2
  refine State.set_keeps ?_
  refine State.set_keeps ?_
  exact hv2

theorem State.thermalBoundary_keeps {z0 : State} {s : State} {n : Slice} (h0 : Keeps z0 s) : Keeps z0 (State.thermalBoundary s n) := by
  unfold State.thermalBoundary
  extract_lets -merge +onlyGivenNames v1
  have hv1 : Keeps z0 v1 := by
    unfold v1
    refine State.applyFactors_keeps ?_
    exact h0
  clear_value v1
  refine Keeps.ite ?_ ?_
  · refine State.perfCheck_keeps ?_
    refine State.set_keeps ?_
    refine State.modPw_keeps ?_
    exact hv1
  · exact hv1

theorem State.setIlim_keeps {z0 : State} {s : State} {n : Slice} {w : (Nat × Nat) × Nat × Nat} (h0 : Keeps z0 s) : Keeps z0 (State.setIlim s n w) := by
  unfold State.setIlim
  extract_lets -merge +onlyGivenNames v1 v2 v3
  have hv1 : Keeps z0 v1 := by
    unfold v1
    refine State.set_keeps ?_
    exact h0
  clear_value v1
  have hv2 : Keeps z0 v2 := by
    unfold v2
    refine State.set_keeps ?_
    exact hv1
  clear_value v2
  have hv3 : Keeps z0 v3 := by
    unfold v3
    refine State.set_keeps ?_
    exact hv2
  clear_value v3
  refine State.set_keeps ?_
  exact hv3

theorem State.homeRestore_keeps {z0 : State} {s : State} {n : Slice} {h : HomeDyn} (h0 : Keeps z0 s) : Keeps z0 (State.homeRestore s n h) := by
  unfold State.homeRestore
  refine Keeps.ite ?_ ?_
  · exact h0
  · extract_lets -merge +onlyGivenNames v1
    have hv1 : Keeps z0 v1 := by
      unfold v1
      refine State.set_keeps ?_
      exact h0
    clear_value v1
    split
    · refine State.setIlim_keeps ?_
      exact hv1
    · exact hv1

theorem State.endHoming_keeps {z0 : State} {s : State} {n : Slice} (h0 : Keeps z0 s) : Keeps z0 (State.endHoming s n) := by
  unfold State.endHoming
  split
  · exact h0
  · extract_lets -merge +onlyGivenNames v1 v2 v3 v4
    have hv1 : Keeps z0 v1 := by
      unfold v1
      refine State.homeRestore_keeps ?_
      exact h0
    clear_value v1
    have hv2 : Keeps z0 v2 := by
      unfold v2
      refine State.set_keeps ?_
      exact hv1
    clear_value v2
    have hv3 : Keeps z0 v3 := by
      unfold v3
      refine State.set_keeps ?_
      exact hv2
    clear_value v3
    have hv4 : Keeps z0 v4 := by
      unfold v4
      refine State.set_keeps ?_
      exact hv3
    clear_value v4
    refine State.modProf_keeps ?_
    exact hv4

theorem State.homeRef_keeps {z0 : State} {s : State} {n : Slice} {pos : Int} (h0 : Keeps z0 s) : Keeps z0 (State.homeRef s n pos) := by
  unfold State.homeRef
  split
  · refine Keeps.ite ?_ ?_
    · exact h0
    · refine State.modProf_keeps ?_
      refine State.set_keeps ?_
      exact h0
  · exact h0

theorem State.dropPlan_keeps {z0 : State} {s : State} {n : Slice} (h0 : Keeps z0 s) : Keeps z0 (State.dropPlan s n) := by
  unfold State.dropPlan
  extract_lets -merge +onlyGivenNames v1 v2
  have hv1 : Keeps z0 v1 := by
    unfold v1
    refine State.endHoming_keeps ?_
    exact h0
  clear_value v1
  have hv2 : Keeps z0 v2 := by
    unfold v2
    refine State.set_keeps ?_
    exact hv1
  clear_value v2
  refine State.modProf_keeps ?_
  exact hv2

theorem State.startRest_keeps {z0 : State} {s : State} {n : Slice} (h0 : Keeps z0 s) : Keeps z0 (State.startRest s n) := by
  unfold State.startRest
  extract_lets -merge +onlyGivenNames v1
  have hv1 : Keeps z0 v1 := by
    unfold v1
    refine State.set_keeps ?_
    exact h0
  clear_value v1
  exact Keeps.frame hv1 rfl rfl rfl rfl rfl rfl rfl rfl rfl rfl

theorem State.seqIdle_keeps {z0 : State} {s : State} {n : Slice} {byStop : Bool} (h0 : Keeps z0 s) : Keeps z0 (State.seqIdle s n byStop) := by
  unfold State.seqIdle
  extract_lets -merge +onlyGivenNames v1
  clear_value v1
  refine Keeps.ite ?_ ?_
  · refine Keeps.ite ?_ ?_
    · exact h0
    · refine State.startRest_keeps ?_
      exact h0
  · refine Keeps.ite ?_ ?_
    · exact h0
    · refine Keeps.ite ?_ ?_
      · extract_lets -merge +onlyGivenNames v2 v3 v4
        have hv2 : Keeps z0 v2 := by
          unfold v2
          refine State.set_keeps ?_
          exact h0
        clear_value v2
        have hv3 : Keeps z0 v3 := by
          unfold v3
          refine State.set_keeps ?_
          exact hv2
        clear_value v3
        have hv4 : Keeps z0 v4 := by
          unfold v4
          refine State.set_keeps ?_
          exact hv3
        clear_value v4
        exact Keeps.frame hv4 rfl rfl rfl rfl rfl rfl rfl rfl rfl rfl
      · extract_lets -merge +onlyGivenNames v5
        have hv5 : Keeps z0 v5 := by
          unfold v5
          refine State.set_keeps ?_
          exact h0
        clear_value v5
        refine State.startRest_keeps ?_
        exact hv5

theorem State.gatesOff_keeps {z0 : State} {s : State} {n : Slice} (h0 : Keeps z0 s) : Keeps z0 (State.gatesOff s n) := by
  unfold State.gatesOff
  refine State.each_keeps ?_ ?_
  · exact h0
  · intro s1 x2 x3
    refine State.modPwm_keeps ?_
    exact x3

theorem State.supOff_keeps {z0 : State} {s : State} {n : Slice} (h0 : Keeps z0 s) : Keeps z0 (State.supOff s n) := by
  unfold State.supOff
  extract_lets -merge +onlyGivenNames v1
  have hv1 : Keeps z0 v1 := by
    unfold v1
    refine State.set_keeps ?_
    exact h0
  clear_value v1
  refine State.modSup_keeps ?_
  exact hv1

theorem State.feedHold_keeps {z0 : State} {s : State} {g : Nat} {quick : Bool} (h0 : Keeps z0 s) : Keeps z0 (State.feedHold s g quick) := by
  unfold State.feedHold
  split
  · extract_lets -merge +onlyGivenNames v1
    clear_value v1
    refine Keeps.ite ?_ ?_
    · refine State.modGrp_keeps ?_
      refine State.set_keeps ?_
      exact h0
    · refine Keeps.ite ?_ ?_
      · refine State.modGrp_keeps ?_
        exact h0
      · exact h0
  · exact h0

theorem State.startRamp_keeps {z0 : State} {s : State} {n : Slice} {k : StopKind} (h0 : Keeps z0 s) : Keeps z0 (State.startRamp s n k) := by
  unfold State.startRamp
  extract_lets -merge +onlyGivenNames v1 v2
  clear_value v1
  clear_value v2
  split
  extract_lets -merge +onlyGivenNames v3 v4
  clear_value v3
  clear_value v4
  refine Keeps.ite ?_ ?_
  · refine State.modSup_keeps ?_
    exact h0
  · extract_lets -merge +onlyGivenNames v5 v6 v7
    have hv5 : Keeps z0 v5 := by
      unfold v5
      refine State.set_keeps ?_
      exact h0
    clear_value v5
    have hv6 : Keeps z0 v6 := by
      unfold v6
      refine State.setS_keeps ?_
      exact hv5
    clear_value v6
    have hv7 : Keeps z0 v7 := by
      unfold v7
      refine State.setS_keeps ?_
      exact hv6
    clear_value v7
    refine State.modSup_keeps ?_
    exact hv7

theorem State.followerStop_keeps {z0 : State} {s : State} {m : Slice} (h0 : Keeps z0 s) : Keeps z0 (State.followerStop s m) := by
  unfold State.followerStop
  extract_lets -merge +onlyGivenNames v1 v2
  have hv1 : Keeps z0 v1 := by
    unfold v1
    refine State.set_keeps ?_
    exact h0
  clear_value v1
  have hv2 : Keeps z0 v2 := by
    unfold v2
    refine State.modProf_keeps ?_
    exact hv1
  clear_value v2
  refine State.startRamp_keeps ?_
  exact hv2

theorem State.beginStop_keeps {z0 : State} {s : State} {n : Slice} {k : StopKind} (h0 : Keeps z0 s) : Keeps z0 (State.beginStop s n k) := by
  unfold State.beginStop
  extract_lets -merge +onlyGivenNames v1 v2 v3 v4
  have hv1 : Keeps z0 v1 := by
    unfold v1
    refine State.setAxst_keeps ?_
    exact h0
  clear_value v1
  have hv2 : Keeps z0 v2 := by
    unfold v2
    refine State.modAx_keeps ?_
    exact hv1
  clear_value v2
  have hv3 : Keeps z0 v3 := by
    unfold v3
    refine State.seqIdle_keeps ?_
    exact hv2
  clear_value v3
  have hv4 : Keeps z0 v4 := by
    unfold v4
    refine State.dropPlan_keeps ?_
    exact hv3
  clear_value v4
  refine Keeps.ite ?_ ?_
  · refine State.modSup_keeps ?_
    refine State.feedHold_keeps ?_
    exact hv4
  · refine State.startRamp_keeps ?_
    exact hv4

theorem State.reactF2_keeps {z0 : State} {s : State} {n : Slice} (h0 : Keeps z0 s) : Keeps z0 (State.reactF2 s n) := by
  unfold State.reactF2
  split
  · extract_lets -merge +onlyGivenNames v1 v2 v3 v4
    have hv1 : Keeps z0 v1 := by
      unfold v1
      refine State.setAxst_keeps ?_
      exact h0
    clear_value v1
    have hv2 : Keeps z0 v2 := by
      unfold v2
      refine State.set_keeps ?_
      exact hv1
    clear_value v2
    have hv3 : Keeps z0 v3 := by
      unfold v3
      refine State.set_keeps ?_
      exact hv2
    clear_value v3
    have hv4 : Keeps z0 v4 := by
      unfold v4
      refine State.modAx_keeps ?_
      exact hv3
    clear_value v4
    refine State.supOff_keeps ?_
    refine State.gatesOff_keeps ?_
    refine State.seqIdle_keeps ?_
    exact hv4
  · extract_lets -merge +onlyGivenNames v5
    have hv5 : Keeps z0 v5 := by
      unfold v5
      refine State.set_keeps ?_
      exact h0
    clear_value v5
    refine State.beginStop_keeps ?_
    exact hv5
  · extract_lets -merge +onlyGivenNames v6
    have hv6 : Keeps z0 v6 := by
      unfold v6
      refine State.modAx_keeps ?_
      exact h0
    clear_value v6
    refine Keeps.ite ?_ ?_
    · refine State.feedHold_keeps ?_
      exact hv6
    · refine State.modSup_keeps ?_
      exact hv6
  · exact h0

theorem State.leave_keeps {z0 : State} {s : State} {n : Slice} {dst : Nat} {cause : Option Nat} {by_ : LeaveBy} (h0 : Keeps z0 s) : Keeps z0 (State.leave s n dst cause by_) := by
  unfold State.leave
  refine Keeps.ite ?_ ?_
  · exact h0
  · extract_lets -merge +onlyGivenNames v1 v2 v3 v4 v5 v6 v7 v8 v9 v10 v11 v12 v13 v14 v15
    clear_value v1
    clear_value v2
    clear_value v3
    clear_value v4
    have hv5 : Keeps z0 v5 := by
      unfold v5
      refine State.setAxst_keeps ?_
      exact h0
    clear_value v5
    have hv6 : Keeps z0 v6 := by
      unfold v6
      refine State.set_keeps ?_
      exact hv5
    clear_value v6
    have hv7 : Keeps z0 v7 := by
      unfold v7
      split
      · refine State.set_keeps ?_
        exact hv6
      · exact hv6
    clear_value v7
    have hv8 : Keeps z0 v8 := by
      unfold v8
      refine State.modAx_keeps ?_
      exact hv7
    clear_value v8
    have hv9 : Keeps z0 v9 := by
      unfold v9
      refine State.gatesOff_keeps ?_
      exact hv8
    clear_value v9
    have hv10 : Keeps z0 v10 := by
      unfold v10
      refine State.dropPlan_keeps ?_
      exact hv9
    clear_value v10
    have hv11 : Keeps z0 v11 := by
      unfold v11
      refine State.supOff_keeps ?_
      exact hv10
    clear_value v11
    have hv12 : Keeps z0 v12 := by
      unfold v12
      refine State.seqIdle_keeps ?_
      exact hv11
    clear_value v12
    have hv13 : Keeps z0 v13 := by
      unfold v13
      refine State.modProf_keeps ?_
      exact hv12
    clear_value v13
    have hv14 : Keeps z0 v14 := by
      unfold v14
      refine Keeps.ite ?_ ?_
      · refine State.feedHold_keeps ?_
        exact hv13
      · exact hv13
    clear_value v14
    have hv15 : Keeps z0 v15 := by
      unfold v15
      refine Keeps.ite ?_ ?_
      · refine State.each_keeps ?_ ?_
        · exact hv14
        · intro s16 x17 x18
          refine State.reactF2_keeps ?_
          exact x18
      · exact hv14
    clear_value v15
    split
    · refine State.each_keeps ?_ ?_
      · exact hv15
      · intro s19 x20 x21
        refine Keeps.ite ?_ ?_
        · exact x21
        · refine State.followerStop_keeps ?_
          exact x21
    · refine State.each_keeps ?_ ?_
      · exact hv15
      · intro s22 x23 x24
        refine Keeps.ite ?_ ?_
        · exact x24
        · refine State.reactF2_keeps ?_
          exact x24
    · exact hv15

theorem State.reactF3_keeps {z0 : State} {s : State} {n : Slice} (h0 : Keeps z0 s) : Keeps z0 (State.reactF3 s n) := by
  unfold State.reactF3
  refine State.leave_keeps ?_
  exact h0

theorem State.stopLeads_keeps {z0 : State} {s : State} {n : Slice} {k : StopKind} (h0 : Keeps z0 s) : Keeps z0 (State.stopLeads s n k) := by
  unfold State.stopLeads
  extract_lets -merge +onlyGivenNames v1
  clear_value v1
  refine State.each_keeps ?_ ?_
  · refine State.beginStop_keeps ?_
    exact h0
  · intro s2 x3 x4
    refine State.followerStop_keeps ?_
    exact x4

theorem State.standstill_keeps {z0 : State} {s : State} {n : Slice} (h0 : Keeps z0 s) : Keeps z0 (State.standstill s n) := by
  unfold State.standstill
  extract_lets -merge +onlyGivenNames v1 v2 v3
  have hv1 : Keeps z0 v1 := by
    unfold v1
    refine State.modAx_keeps ?_
    exact h0
  clear_value v1
  clear_value v2
  have hv3 : Keeps z0 v3 := by
    unfold v3
    refine State.modProf_keeps ?_
    exact hv1
  clear_value v3
  refine Keeps.ite ?_ ?_
  · exact hv3
  · split
    · refine State.leave_keeps ?_
      exact hv3
    · refine State.leave_keeps ?_
      exact hv3
    · extract_lets -merge +onlyGivenNames v4 v5 v6
      have hv4 : Keeps z0 v4 := by
        unfold v4
        refine State.setAxst_keeps ?_
        exact hv3
      clear_value v4
      have hv5 : Keeps z0 v5 := by
        unfold v5
        refine State.set_keeps ?_
        exact hv4
      clear_value v5
      have hv6 : Keeps z0 v6 := by
        unfold v6
        refine State.modAx_keeps ?_
        exact hv5
      clear_value v6
      refine State.modSup_keeps ?_
      exact hv6

theorem State.torqueOff_keeps {z0 : State} {s : State} (h0 : Keeps z0 s) : Keeps z0 (State.torqueOff s) := by
  unfold State.torqueOff
  refine State.each_keeps ?_ ?_
  · refine State.setOverlay_keeps ?_
    exact h0
  · intro s1 x2 x3
    refine State.leave_keeps ?_
    exact x3

theorem State.axesOut_keeps {z0 : State} {s : State} {cause : Nat} (h0 : Keeps z0 s) : Keeps z0 (State.axesOut s cause) := by
  unfold State.axesOut
  refine State.each_keeps ?_ ?_
  · exact h0
  · intro s1 x2 x3
    refine State.leave_keeps ?_
    exact x3

/-! TimeOps -/

theorem State.modTime_keeps {z0 : State} {s : State} {f : TimeDyn → TimeDyn} (h0 : Keeps z0 s) : Keeps z0 (State.modTime s f) := by
  unfold State.modTime
  exact Keeps.frame h0 rfl rfl rfl rfl rfl rfl rfl rfl rfl rfl

theorem State.clockTo_keeps {z0 : State} {s : State} {t : Nat} (h0 : Keeps z0 s) : Keeps z0 (State.clockTo s t) := by
  unfold State.clockTo
  refine Keeps.ite ?_ ?_
  · refine State.passBoth_keeps ?_
    exact h0
  · exact h0

theorem State.idle_keeps {z0 : State} {s : State} (h0 : Keeps z0 s) : Keeps z0 (State.idle s) := by
  unfold State.idle
  refine Keeps.ite ?_ ?_
  · exact h0
  · extract_lets -merge +onlyGivenNames v1
    clear_value v1
    refine State.passBoth_keeps ?_
    exact h0

theorem State.setRate_keeps {z0 : State} {s : State} {r : Int} (h0 : Keeps z0 s) : Keeps z0 (State.setRate s r) := by
  unfold State.setRate
  extract_lets -merge +onlyGivenNames v1
  clear_value v1
  refine State.modTime_keeps ?_
  refine State.setS_keeps ?_
  exact h0

theorem State.enterHold_keeps {z0 : State} {s : State} (h0 : Keeps z0 s) : Keeps z0 (State.enterHold s) := by
  unfold State.enterHold
  refine Keeps.ite ?_ ?_
  · exact h0
  · extract_lets -merge +onlyGivenNames v1 v2
    have hv1 : Keeps z0 v1 := by
      unfold v1
      refine State.bump_keeps ?_
      refine State.setOverlay_keeps ?_
      refine State.set_keeps ?_
      exact h0
    clear_value v1
    have hv2 : Keeps z0 v2 := by
      unfold v2
      refine State.setS_keeps ?_
      exact hv1
    clear_value v2
    refine State.raiseMod_keeps ?_
    refine State.modTime_keeps ?_
    exact hv2

theorem State.leaveHold_keeps {z0 : State} {s : State} (h0 : Keeps z0 s) : Keeps z0 (State.leaveHold s) := by
  unfold State.leaveHold
  refine Keeps.ite ?_ ?_
  · refine State.setOverlay_keeps ?_
    refine State.set_keeps ?_
    exact h0
  · exact h0

theorem State.setLock_keeps {z0 : State} {s : State} (h0 : Keeps z0 s) : Keeps z0 (State.setLock s) := by
  unfold State.setLock
  extract_lets -merge +onlyGivenNames v1
  have hv1 : Keeps z0 v1 := by
    unfold v1
    refine State.set_keeps ?_
    refine State.set_keeps ?_
    refine State.set_keeps ?_
    exact h0
  clear_value v1
  refine State.modTime_keeps ?_
  refine State.leaveHold_keeps ?_
  exact hv1

theorem State.loseLock_keeps {z0 : State} {s : State} (h0 : Keeps z0 s) : Keeps z0 (State.loseLock s) := by
  unfold State.loseLock
  extract_lets -merge +onlyGivenNames v1
  have hv1 : Keeps z0 v1 := by
    unfold v1
    refine State.modTime_keeps ?_
    refine State.set_keeps ?_
    exact h0
  clear_value v1
  refine Keeps.ite ?_ ?_
  · exact hv1
  · refine State.enterHold_keeps ?_
    exact hv1

theorem State.clockStart_keeps {z0 : State} {s : State} (h0 : Keeps z0 s) : Keeps z0 (State.clockStart s) := by
  unfold State.clockStart
  extract_lets -merge +onlyGivenNames v1 v2 v3 v4
  clear_value v1
  clear_value v2
  have hv3 : Keeps z0 v3 := by
    unfold v3
    exact Keeps.frame h0 rfl rfl rfl rfl rfl rfl rfl rfl rfl rfl
  clear_value v3
  have hv4 : Keeps z0 v4 := by
    unfold v4
    refine State.set_keeps ?_
    refine State.set_keeps ?_
    refine State.set_keeps ?_
    exact hv3
  clear_value v4
  extract_lets -merge +onlyGivenNames v5
  have hv5 : Keeps z0 v5 := by
    unfold v5
    refine State.setB_keeps ?_
    refine State.set_keeps ?_
    exact hv4
  clear_value v5
  refine Keeps.ite ?_ ?_
  · refine State.leaveHold_keeps ?_
    exact hv5
  · refine State.enterHold_keeps ?_
    exact hv5

theorem State.clockStop_keeps {z0 : State} {s : State} (h0 : Keeps z0 s) : Keeps z0 (State.clockStop s) := by
  unfold State.clockStop
  exact Keeps.frame h0 rfl rfl rfl rfl rfl rfl rfl rfl rfl rfl

theorem State.becomeMaster_keeps {z0 : State} {s : State} (h0 : Keeps z0 s) : Keeps z0 (State.becomeMaster s) := by
  unfold State.becomeMaster
  refine Keeps.ite ?_ ?_
  · exact h0
  · extract_lets -merge +onlyGivenNames v1
    have hv1 : Keeps z0 v1 := by
      unfold v1
      refine State.modTime_keeps ?_
      refine State.set_keeps ?_
      refine State.set_keeps ?_
      exact h0
    clear_value v1
    refine Keeps.ite ?_ ?_
    · refine State.enterHold_keeps ?_
      exact hv1
    · refine State.leaveHold_keeps ?_
      exact hv1

theorem State.follow_keeps {z0 : State} {s : State} {r : AnnounceRec} (h0 : Keeps z0 s) : Keeps z0 (State.follow s r) := by
  unfold State.follow
  extract_lets -merge +onlyGivenNames v1 v2 v3 v4
  clear_value v1
  clear_value v2
  have hv3 : Keeps z0 v3 := by
    unfold v3
    refine State.modTime_keeps ?_
    refine State.set_keeps ?_
    exact h0
  clear_value v3
  have hv4 : Keeps z0 v4 := by
    unfold v4
    refine State.set_keeps ?_
    refine State.set_keeps ?_
    exact hv3
  clear_value v4
  refine Keeps.ite ?_ ?_
  · refine State.loseLock_keeps ?_
    exact hv4
  · exact hv4

theorem State.chooseMaster_keeps {z0 : State} {s : State} (h0 : Keeps z0 s) : Keeps z0 (State.chooseMaster s) := by
  unfold State.chooseMaster
  refine Keeps.ite ?_ ?_
  · exact h0
  · extract_lets -merge +onlyGivenNames v1
    clear_value v1
    split
    · refine Keeps.ite ?_ ?_
      · refine State.becomeMaster_keeps ?_
        exact h0
      · refine State.modTime_keeps ?_
        exact h0
    · refine Keeps.ite ?_ ?_
      · refine State.becomeMaster_keeps ?_
        exact h0
      · refine State.follow_keeps ?_
        exact h0

theorem State.forgetMasters_keeps {z0 : State} {s : State} {p : Nat} (h0 : Keeps z0 s) : Keeps z0 (State.forgetMasters s p) := by
  unfold State.forgetMasters
  extract_lets -merge +onlyGivenNames v1 v2
  clear_value v1
  have hv2 : Keeps z0 v2 := by
    unfold v2
    refine State.modTime_keeps ?_
    exact h0
  clear_value v2
  refine Keeps.ite ?_ ?_
  · refine State.chooseMaster_keeps ?_
    refine State.loseLock_keeps ?_
    refine State.modTime_keeps ?_
    exact hv2
  · exact hv2

/-! Net -/

theorem State.checkFlow_keeps {z0 : State} {s : State} {p : Fin 3} (h0 : Keeps z0 s) : Keeps z0 (State.checkFlow s p) := by
  unfold State.checkFlow
  refine Keeps.ite ?_ ?_
  · exact h0
  · extract_lets -merge +onlyGivenNames v1
    clear_value v1
    split
    · extract_lets -merge +onlyGivenNames v2 v3
      clear_value v2
      clear_value v3
      refine Keeps.ite ?_ ?_
      · refine State.modPort_keeps ?_ ?_
        · refine State.set_keeps ?_
          exact h0
        · exact fun _ => Nat.le_refl _
      · refine Keeps.ite ?_ ?_
        · refine State.modPort_keeps ?_ ?_
          · refine State.set_keeps ?_
            exact h0
          · exact fun _ => Nat.le_refl _
        · exact h0
    · extract_lets -merge +onlyGivenNames v6
      clear_value v6
      refine Keeps.ite ?_ ?_
      · exact h0
      · extract_lets -merge +onlyGivenNames v7 v8
        have hv7 : Keeps z0 v7 := by
          unfold v7
          refine State.modPort_keeps ?_ ?_
          · exact h0
          · exact fun _ => Nat.le_refl _
        clear_value v7
        clear_value v8
        refine State.set_keeps ?_
        exact hv7
    · exact h0

theorem State.admitFrom_keeps {z0 : State} {s : State} {blocked : List (Nat × Nat)} {a : List (Nat × Nat × OwnMsg)} (h0 : Keeps z0 s) : Keeps z0 (State.admitFrom s blocked a) := by
  unfold State.admitFrom
  split
  · exact h0
  · extract_lets -merge +onlyGivenNames v1
    clear_value v1
    refine Keeps.ite ?_ ?_
    · extract_lets -merge +onlyGivenNames v2
      clear_value v2
      refine State.admitFrom_keeps ?_
      refine State.modPort_keeps ?_ ?_
      · exact h0
      · exact fun _ => Nat.le_refl _
    · extract_lets -merge +onlyGivenNames v4
      have hv4 : Keeps z0 v4 := by
        unfold v4
        refine State.admitFrom_keeps ?_
        exact h0
      clear_value v4
      exact Keeps.frame hv4 rfl rfl rfl rfl rfl rfl rfl rfl rfl rfl

theorem State.modAcq_keeps {z0 : State} {s : State} {f : AcqDyn → AcqDyn} (h0 : Keeps z0 s) : Keeps z0 (State.modAcq s f) := by
  unfold State.modAcq
  exact Keeps.frame h0 rfl rfl rfl rfl rfl rfl rfl rfl rfl rfl

theorem State.acqPut_keeps {z0 : State} {s : State} {q : Nat} {body : List Nat} (h0 : Keeps z0 s) : KeepsO z0 (State.acqPut s q body) := by
  unfold State.acqPut
  split
  · exact KeepsO.none
  · extract_lets -merge +onlyGivenNames v1 v2
    clear_value v1
    clear_value v2
    refine KeepsO.ite ?_ ?_
    · exact KeepsO.none
    · extract_lets -merge +onlyGivenNames v3
      clear_value v3
      refine KeepsO.some ?_
      refine State.modAcq_keeps ?_
      refine State.modPort_keeps ?_ ?_
      · exact h0
      · exact fun _ => Nat.le_refl _

theorem State.offerGap_keeps {z0 : State} {s : State} {c : Nat} (h0 : Keeps z0 s) : Keeps z0 (State.offerGap s c) := by
  unfold State.offerGap
  extract_lets -merge +onlyGivenNames v1
  clear_value v1
  split
  · exact h0
  · split
    · exact h0
    · rename_i s2 y3
      have h4 : Keeps z0 s2 := by
        refine KeepsO.of_eq y3 ?_
        refine State.acqPut_keeps ?_
        exact h0
      refine State.modAcq_keeps ?_
      refine State.bump_keeps ?_
      exact h4

theorem State.sendMarks_keeps {z0 : State} {s : State} {a : List (List Nat)} (h0 : Keeps z0 s) : Keeps z0 (State.sendMarks s a) := by
  unfold State.sendMarks
  split
  · exact h0
  · split
    · exact h0
    · rename_i s1 y2
      have h3 : Keeps z0 s1 := by
        refine KeepsO.of_eq y2 ?_
        refine State.acqPut_keeps ?_
        exact h0
      refine State.sendMarks_keeps ?_
      refine State.set_keeps ?_
      refine State.modAcq_keeps ?_
      refine State.bump_keeps ?_
      exact h3

theorem State.acqDrain_keeps {z0 : State} {s : State} (h0 : Keeps z0 s) : Keeps z0 (State.acqDrain s) := by
  unfold State.acqDrain
  split
  · refine State.modAcq_keeps ?_
    exact h0
  · refine State.sendMarks_keeps ?_
    refine Keeps.foldl ?_ ?_
    · intro s1 x2 x3
      refine State.offerGap_keeps ?_
      exact x3
    · exact h0

theorem State.admitFrame_keeps {z0 : State} {s : State} (h0 : Keeps z0 s) : Keeps z0 (State.admitFrame s) := by
  unfold State.admitFrame
  extract_lets -merge +onlyGivenNames v1
  clear_value v1
  refine State.acqDrain_keeps ?_
  refine State.admitFrom_keeps ?_
  exact Keeps.frame h0 rfl rfl rfl rfl rfl rfl rfl rfl rfl rfl

theorem State.releaseIngress_keeps {z0 : State} {s : State} {held : Option (Nat × Nat)} (h0 : Keeps z0 s) : Keeps z0 (State.releaseIngress s held) := by
  unfold State.releaseIngress
  split
  · exact h0
  · extract_lets -merge +onlyGivenNames v1
    have hv1 : Keeps z0 v1 := by
      unfold v1
      refine State.modPort_keeps ?_ ?_
      · exact h0
      · exact fun _ => Nat.le_refl _
    clear_value v1
    refine State.checkFlow_keeps ?_
    exact hv1

theorem State.learnFrom_keeps {z0 s : State} {mac : Nat} {p : Fin 3} (h0 : Keeps z0 s) : Keeps z0 (State.learnFrom s mac p) := by
  unfold State.learnFrom
  split
  · exact h0
  split
  · exact h0.learn fun i => by simpa using i.learn
  split
  · exact State.set_keeps h0
  · exact State.set_keeps (h0.learn fun _ => by simp only [List.length_append, List.length_singleton]; omega)

theorem State.forward_keeps {z0 : State} {s : State} {p : Fin 3} {id : Nat} {f : Frame} {q : Nat} {outs : List Nat} (h0 : Keeps z0 s) : Keeps z0 (State.forward s p id f q outs) := by
  unfold State.forward
  extract_lets -merge +onlyGivenNames v1
  have hv1 : Keeps z0 v1 := by
    unfold v1
    refine State.each_keeps ?_ ?_
    · exact h0
    · intro s2 x3 x4
      extract_lets -merge +onlyGivenNames v5
      clear_value v5
      refine Keeps.ite ?_ ?_
      · extract_lets -merge +onlyGivenNames v6
        have hv6 : Keeps z0 v6 := by
          unfold v6
          refine State.modPort_keeps ?_ ?_
          · exact x4
          · exact fun _ => Nat.le_refl _
        clear_value v6
        refine State.modPort_keeps ?_ ?_
        · exact hv6
        · exact fun _ => Nat.le_refl _
      · refine Keeps.ite ?_ ?_
        · refine State.bump_keeps ?_
          exact x4
        · exact x4
  clear_value v1
  refine State.modPort_keeps ?_ ?_
  · exact hv1
  · exact fun _ => Nat.le_refl _

theorem State.receive_keeps {z0 : State} {s : State} {p : Fin 3} {f : Frame} (h0 : Keeps z0 s) : Keeps z0 (State.receive s p f) := by
  unfold State.receive
  refine Keeps.ite ?_ ?_
  · exact h0
  · refine Keeps.ite ?_ ?_
    · refine State.bump_keeps ?_
      exact h0
    · refine Keeps.ite ?_ ?_
      · refine State.bump_keeps ?_
        exact h0
      · refine Keeps.ite ?_ ?_
        · refine State.bump_keeps ?_
          exact h0
        · extract_lets -merge +onlyGivenNames v1 v2 v3 v4 v5 v6 v7 v8
          clear_value v1
          clear_value v2
          have hv3 : Keeps z0 v3 := by
            unfold v3
            refine State.learnFrom_keeps ?_
            refine State.bump_keeps ?_
            exact h0
          clear_value v3
          have hv5 : Keeps z0 v5 := by
            unfold v5
            exact Keeps.frame hv3 rfl rfl rfl rfl rfl rfl rfl rfl rfl rfl
          clear_value v5
          have hv6 : Keeps z0 v6 := by
            unfold v6
            refine State.checkFlow_keeps ?_
            refine State.modPort_keeps ?_ ?_
            · exact hv5
            · exact fun _ => Nat.le_refl _
          clear_value v6
          clear_value v7
          clear_value v8
          extract_lets -merge +onlyGivenNames v10
          have hv10 : Keeps z0 v10 := by
            unfold v10
            split
            · refine State.forward_keeps ?_
              exact hv6
            · refine State.forward_keeps ?_
              refine State.bump_keeps ?_
              exact hv6
            · refine State.forward_keeps ?_
              exact hv6
            · extract_lets -merge +onlyGivenNames v11 v12 v13
              clear_value v11
              have hv12 : Keeps z0 v12 := by
                unfold v12
                refine Keeps.ite ?_ ?_
                · refine State.bump_keeps ?_
                  exact hv6
                · exact hv6
              clear_value v12
              have hv13 : Keeps z0 v13 := by
                unfold v13
                refine Keeps.ite ?_ ?_
                · refine State.bump_keeps ?_
                  exact hv12
                · exact hv12
              clear_value v13
              refine State.forward_keeps ?_
              exact hv13
          clear_value v10
          refine State.checkFlow_keeps ?_
          exact hv10

theorem execFrameReceived_keeps {z0 : State} {p : Fin 3} {f : Frame} {s : State} (h0 : Keeps z0 s) : KeepsOut z0 (execFrameReceived p f s) := by
  unfold execFrameReceived
  refine KeepsOut.ite ?_ ?_
  · refine KeepsOut.next ?_
    exact h0
  · refine KeepsOut.next ?_
    refine State.receive_keeps ?_
    refine State.admitFrame_keeps ?_
    exact h0

theorem State.correct_keeps {z0 : State} {s : State} {p : Fin 3} {stamp : Int} {f : Frame} {from_ : Nat} (h0 : Keeps z0 s) : KeepsP z0 (State.correct s p stamp f from_) := by
  unfold State.correct
  refine KeepsP.ite ?_ ?_
  · refine KeepsP.mk ?_
    exact h0
  · extract_lets -merge +onlyGivenNames v1 v2 v3
    clear_value v1
    clear_value v2
    clear_value v3
    refine KeepsP.ite ?_ ?_
    · split
      · refine KeepsP.mk ?_
        refine State.modTime_keeps ?_
        exact h0
      · extract_lets -merge +onlyGivenNames v4
        clear_value v4
        refine KeepsP.mk ?_
        refine State.modTime_keeps ?_
        exact h0
      · refine KeepsP.mk ?_
        exact h0
    · split
      · refine KeepsP.mk ?_
        exact h0
      · refine KeepsP.mk ?_
        exact h0
      · refine KeepsP.mk ?_
        exact h0
      · refine KeepsP.mk ?_
        exact h0

theorem execFrameTransmitStart_keeps {z0 : State} {p : Fin 3} {stamp : Stamp} {s : State} (h0 : Keeps z0 s) : KeepsOut z0 (execFrameTransmitStart p stamp s) := by
  unfold execFrameTransmitStart
  refine KeepsOut.ite ?_ ?_
  · refine KeepsOut.next ?_
    exact h0
  · extract_lets -merge +onlyGivenNames v1
    have hv1 : Keeps z0 v1 := by
      unfold v1
      refine State.admitFrame_keeps ?_
      exact h0
    clear_value v1
    split
    · refine KeepsOut.ite ?_ ?_
      · refine KeepsOut.next ?_
        exact hv1
      · refine KeepsOut.next ?_
        refine State.modPort_keeps ?_ ?_
        · refine State.bump_keeps ?_
          exact hv1
        · exact fun _ => Nat.le_refl _
    · split
      · refine KeepsOut.next ?_
        exact hv1
      · refine KeepsOut.ite ?_ ?_
        · refine KeepsOut.next ?_
          exact hv1
        · extract_lets -merge +onlyGivenNames v3
          have hv3 : Keeps z0 v3 := by
            unfold v3
            refine State.modPort_keeps ?_ ?_
            · exact hv1
            · exact fun _ => Nat.le_refl _
          clear_value v3
          split
          rename_i s5 y6 y7
          have h8 : Keeps z0 s5 := by
            refine KeepsP.of_eq y7 ?_
            split
            · split
              rename_i s9 y10 y11
              have h12 : Keeps z0 s9 := by
                refine KeepsP.of_eq y11 ?_
                refine State.correct_keeps ?_
                exact hv3
              refine KeepsP.mk ?_
              exact h12
            · refine KeepsP.mk ?_
              exact hv3
          refine KeepsOut.next ?_
          refine State.modPort_keeps ?_ ?_
          · exact h8
          · exact fun _ => Nat.le_refl _

theorem execFrameTransmitted_keeps {z0 : State} {p : Fin 3} {s : State} (h0 : Keeps z0 s) : KeepsOut z0 (execFrameTransmitted p s) := by
  unfold execFrameTransmitted
  split
  · refine KeepsOut.next ?_
    exact h0
  · extract_lets -merge +onlyGivenNames v1 v2
    have hv1 : Keeps z0 v1 := by
      unfold v1
      refine State.modPort_keeps ?_ ?_
      · exact h0
      · exact fun _ => Nat.le_refl _
    clear_value v1
    have hv2 : Keeps z0 v2 := by
      unfold v2
      split
      · exact hv1
      · refine Keeps.ite ?_ ?_
        · refine State.bump_keeps ?_
          exact hv1
        · exact hv1
    clear_value v2
    refine KeepsOut.next ?_
    refine State.admitFrame_keeps ?_
    refine State.releaseIngress_keeps ?_
    exact hv2

theorem execPauseRefresh_keeps {z0 : State} {p : Fin 2} {s : State} (h0 : Keeps z0 s) : KeepsOut z0 (execPauseRefresh p s) := by
  unfold execPauseRefresh
  extract_lets -merge +onlyGivenNames v1 v2 v3
  clear_value v2
  have hv3 : ∀ x4, Keeps z0 (v3 x4) := by
    intro x5
    unfold v3
    refine State.modPort_keeps ?_ ?_
    · exact h0
    · exact fun _ => Nat.le_refl _
  clear_value v3
  refine KeepsOut.ite ?_ ?_
  · refine KeepsOut.next ?_
    exact h0
  · refine KeepsOut.ite ?_ ?_
    · refine KeepsOut.next ?_
      refine hv3 _
    · extract_lets -merge +onlyGivenNames v7
      clear_value v7
      refine KeepsOut.ite ?_ ?_
      · refine KeepsOut.next ?_
        refine hv3 _
      · refine KeepsOut.next ?_
        exact h0

theorem execPauseReceived_keeps {z0 : State} {p : Fin 2} {r : PauseRec} {s : State} (h0 : Keeps z0 s) : KeepsOut z0 (execPauseReceived p r s) := by
  unfold execPauseReceived
  extract_lets -merge +onlyGivenNames v1
  refine KeepsOut.ite ?_ ?_
  · refine KeepsOut.next ?_
    exact h0
  · extract_lets -merge +onlyGivenNames v2
    have hv2 : Keeps z0 v2 := by
      unfold v2
      refine State.bump_keeps ?_
      refine State.bump_keeps ?_
      exact h0
    clear_value v2
    refine KeepsOut.ite ?_ ?_
    · refine KeepsOut.next ?_
      exact hv2
    · refine KeepsOut.ite ?_ ?_
      · extract_lets -merge +onlyGivenNames v3 v4 v5
        clear_value v3
        have hv4 : Keeps z0 v4 := by
          unfold v4
          refine State.modPort_keeps ?_ ?_
          · exact hv2
          · exact fun _ => Nat.le_refl _
        clear_value v4
        clear_value v5
        refine KeepsOut.next ?_
        refine State.set_keeps ?_
        exact hv4
      · extract_lets -merge +onlyGivenNames v7
        clear_value v7
        refine KeepsOut.next ?_
        refine State.setB_keeps ?_
        refine State.modPort_keeps ?_ ?_
        · exact hv2
        · exact fun _ => Nat.le_refl _

theorem execPauseHoldExpiry_keeps {z0 : State} {p : Fin 2} {q : Fin 4} {s : State} (h0 : Keeps z0 s) : KeepsOut z0 (execPauseHoldExpiry p q s) := by
  unfold execPauseHoldExpiry
  extract_lets -merge +onlyGivenNames v1 v2 v3 v4
  have hv2 : Keeps z0 v2 := by
    unfold v2
    refine State.modPort_keeps ?_ ?_
    · exact h0
    · exact fun _ => Nat.le_refl _
  clear_value v2
  have hv3 : Keeps z0 v3 := by
    unfold v3
    refine State.set_keeps ?_
    exact hv2
  clear_value v3
  clear_value v4
  refine KeepsOut.next ?_
  refine State.set_keeps ?_
  exact hv3

theorem State.moveActive_keeps {z0 : State} {s : State} {p : Nat} (h0 : Keeps z0 s) : Keeps z0 (State.moveActive s p) := by
  unfold State.moveActive
  refine State.send_keeps ?_
  refine State.bump_keeps ?_
  refine State.set_keeps ?_
  exact h0

theorem execLinkUp_keeps {z0 : State} {p : Fin 2} {speed : Nat} {pauseOk : Bool} {s : State} (h0 : Keeps z0 s) : KeepsOut z0 (execLinkUp p speed pauseOk s) := by
  unfold execLinkUp
  refine KeepsOut.ite ?_ ?_
  · refine KeepsOut.next ?_
    exact h0
  · extract_lets -merge +onlyGivenNames v1 v2 v3
    clear_value v1
    have hv2 : Keeps z0 v2 := by
      unfold v2
      refine State.set_keeps ?_
      refine State.set_keeps ?_
      refine State.set_keeps ?_
      exact h0
    clear_value v2
    have hv3 : Keeps z0 v3 := by
      unfold v3
      refine State.set_keeps ?_
      refine State.setB_keeps ?_
      exact hv2
    clear_value v3
    refine KeepsOut.next ?_
    refine Keeps.ite ?_ ?_
    · refine State.set_keeps ?_
      exact hv3
    · exact hv3

theorem State.dropPort_keeps {z0 : State} {s : State} {p : Fin 3} (h0 : Keeps z0 s) : Keeps z0 (State.dropPort s p) := by
  unfold State.dropPort
  extract_lets -merge +onlyGivenNames v1 v2 v3 v4 v5
  clear_value v1
  clear_value v2
  have hv3 : Keeps z0 v3 := by
    unfold v3
    refine State.modPort_keeps ?_ ?_
    · exact h0
    · exact fun _ => Nat.le_refl _
  clear_value v3
  have hv4 : Keeps z0 v4 := by
    unfold v4
    refine State.bumpBy_keeps ?_
    exact hv3
  clear_value v4
  have hv5 : Keeps z0 v5 := by
    unfold v5
    refine State.each_keeps ?_ ?_
    · exact hv4
    · intro s7 x8 x9
      refine State.releaseIngress_keeps ?_
      exact x9
  clear_value v5
  refine State.set_keeps ?_
  refine State.set_keeps ?_
  refine State.set_keeps ?_
  refine State.set_keeps ?_
  exact hv5

theorem execLinkDown_keeps {z0 : State} {p : Fin 2} {s : State} (h0 : Keeps z0 s) : KeepsOut z0 (execLinkDown p s) := by
  unfold execLinkDown
  refine KeepsOut.ite ?_ ?_
  · refine KeepsOut.next ?_
    exact h0
  · extract_lets -merge +onlyGivenNames v1 v2 v3 v4 v5
    have hv1 : Keeps z0 v1 := by
      unfold v1
      refine State.dropPort_keeps ?_
      refine State.admitFrame_keeps ?_
      exact h0
    clear_value v1
    have hv2 : Keeps z0 v2 := by
      unfold v2
      refine State.set_keeps ?_
      refine State.set_keeps ?_
      refine State.set_keeps ?_
      exact hv1
    clear_value v2
    have hv3 : Keeps z0 v3 := by
      unfold v3
      refine State.raiseMod_keeps ?_
      refine State.set_keeps ?_
      refine State.set_keeps ?_
      exact hv2
    clear_value v3
    clear_value v4
    have hv5 : Keeps z0 v5 := by
      unfold v5
      refine Keeps.ite ?_ ?_
      · refine Keeps.ite ?_ ?_
        · refine State.raiseMod_keeps ?_
          refine State.moveActive_keeps ?_
          exact hv3
        · exact hv3
      · refine State.set_keeps ?_
        exact hv3
    clear_value v5
    refine KeepsOut.next ?_
    refine State.forgetMasters_keeps ?_
    exact hv5

theorem execFailoverRevert_keeps {z0 : State} {s : State} (h0 : Keeps z0 s) : KeepsOut z0 (execFailoverRevert s) := by
  unfold execFailoverRevert
  extract_lets -merge +onlyGivenNames v1
  clear_value v1
  refine KeepsOut.ite ?_ ?_
  · refine KeepsOut.next ?_
    refine State.chooseMaster_keeps ?_
    refine State.moveActive_keeps ?_
    exact h0
  · refine KeepsOut.next ?_
    exact h0

theorem State.switchPort_keeps {z0 : State} {s : State} (h0 : Keeps z0 s) : Keeps z0 (State.switchPort s) := by
  unfold State.switchPort
  extract_lets -merge +onlyGivenNames v1
  clear_value v1
  refine Keeps.ite ?_ ?_
  · refine State.chooseMaster_keeps ?_
    refine State.moveActive_keeps ?_
    exact h0
  · refine State.raiseMod_keeps ?_
    exact h0

theorem execSwitch_keeps {z0 : State} {s : State} (h0 : Keeps z0 s) : KeepsOut z0 (execSwitch s) := by
  unfold execSwitch
  refine KeepsOut.next ?_
  refine State.switchPort_keeps ?_
  exact h0

theorem execLearnAgeout_keeps {z0 s : State} {mac : Nat} (h0 : Keeps z0 s) : KeepsOut z0 (execLearnAgeout mac s) := by
  unfold execLearnAgeout
  split
  · exact KeepsOut.next h0
  · exact KeepsOut.next (State.set_keeps (h0.learn fun i => Nat.le_trans (List.length_filter_le _ _) i.learn))

theorem State.flushTable_keeps {z0 s : State} (h0 : Keeps z0 s) : Keeps z0 (State.flushTable s) :=
  State.set_keeps (h0.learn fun _ => Nat.zero_le _)

theorem execFlush_keeps {z0 : State} {s : State} (h0 : Keeps z0 s) : KeepsOut z0 (execFlush s) := by
  unfold execFlush
  refine KeepsOut.next ?_
  refine State.flushTable_keeps ?_
  exact h0

theorem execArpRequest_keeps {z0 : State} {p : Fin 3} {f : Frame} {target : Nat} {s : State} (h0 : Keeps z0 s) : KeepsOut z0 (execArpRequest p f target s) := by
  unfold execArpRequest
  refine KeepsOut.ite ?_ ?_
  · refine KeepsOut.next ?_
    exact h0
  · extract_lets -merge +onlyGivenNames v1 v2
    clear_value v1
    have hv2 : Keeps z0 v2 := by
      unfold v2
      refine State.receive_keeps ?_
      refine State.admitFrame_keeps ?_
      exact h0
    clear_value v2
    refine KeepsOut.ite ?_ ?_
    · refine KeepsOut.next ?_
      refine State.send_keeps ?_
      exact hv2
    · refine KeepsOut.next ?_
      exact hv2

theorem State.offerLaunch_keeps {z0 s : State} {p : Fin 3} {d : LaunchDyn} (h0 : Keeps z0 s) : Keeps z0 (State.offerLaunch s p d) := by
  unfold State.offerLaunch
  split
  · exact State.bump_keeps h0
  · exact h0.launchOf fun _ => by simp only [length_launchIn]; omega

theorem execLaunch_keeps {z0 s : State} {p : Fin 2} (h0 : Keeps z0 s) : KeepsOut z0 (execLaunch p s) := by
  unfold execLaunch
  extract_lets +onlyGivenNames k
  split
  · exact KeepsOut.next h0
  rename_i d t e
  split
  · exact KeepsOut.next h0
  extract_lets +onlyGivenNames s1 held late s2
  have ht : ∀ i : Inv z0, t.length + 1 ≤ 64 := fun i => by
    have := (h0.2 i).launch k
    rw [e] at this; simpa using this
  have h1 : Keeps z0 s1 := State.clockTo_keeps h0
  have h2 : Keeps z0 s2 := Keeps.ite (State.bump_keeps (State.bump_keeps h1)) h1
  have go : ∀ f : PortDyn → PortDyn, (∀ x, (f x).launch.length ≤ t.length + 1) → Keeps z0 (s2.modPort k f) := fun f hf =>
    ⟨h2.1, fun i => (Keeps.launchOf (Keeps.refl s2) fun _ => Nat.le_trans (hf _) (ht i)).2 (h2.2 i)⟩
  split
  · exact KeepsOut.next (go _ fun _ => Nat.le_succ _)
  split
  · exact KeepsOut.next (go _ fun _ => Nat.le_refl _)
  · exact KeepsOut.next (go _ fun _ => Nat.le_succ _)

end Sys2Proof.Machine
end

