-- ==== Sys2Proof/Laws/Keeps2.lean ====
section
/-!
SUPPORT. Laws/Keeps2.lean: what the operations and the meanings of Machine/RegRead, Acq, Pwm, Sense, StartSeq keep (Laws/Keeps.lean).
-/

namespace Sys2Proof.Machine

/-! RegRead -/

theorem State.afterRead_keeps {z0 : State} {s : State} {a : Nat} {n : Nat} (h0 : Keeps z0 s) : Keeps z0 (State.afterRead s a n) := by
  unfold State.afterRead
  extract_lets -merge +onlyGivenNames v1
  have hv1 : Keeps z0 v1 := by
    unfold v1
    refine Keeps.ite ?_ ?_
    · refine State.set_keeps ?_
      exact h0
    · exact h0
  clear_value v1
  refine Keeps.ite ?_ ?_
  · refine State.drawn_keeps ?_
    exact hv1
  · exact hv1

/-! Acq -/

theorem State.modClock_keeps {z0 : State} {s : State} {c : Nat} {f : AcqClock → AcqClock} (h0 : Keeps z0 s) : Keeps z0 (State.modClock s c f) := by
  unfold State.modClock
  refine State.modAcq_keeps ?_
  exact h0

theorem State.modTrig_keeps {z0 : State} {s : State} {f : TrigDyn → TrigDyn} (h0 : Keeps z0 s) : Keeps z0 (State.modTrig s f) := by
  unfold State.modTrig
  refine State.modAcq_keeps ?_
  exact h0

theorem State.lose_keeps {z0 : State} {s : State} {c : Nat} {cause : Nat} {first : Nat} {rows : Nat} {block : Option Nat} (h0 : Keeps z0 s) : Keeps z0 (State.lose s c cause first rows block) := by
  unfold State.lose
  refine Keeps.ite ?_ ?_
  · exact h0
  · refine State.modClock_keeps ?_
    exact h0

theorem State.ringWrite_keeps {z0 : State} {s : State} {pos : Nat} {a : List Nat} (h0 : Keeps z0 s) : Keeps z0 (State.ringWrite s pos a) := by
  unfold State.ringWrite
  split
  · exact h0
  · extract_lets -merge +onlyGivenNames v1
    clear_value v1
    refine State.ringWrite_keeps ?_
    refine State.putByte_keeps ?_
    exact h0

theorem State.closeBlock_keeps {z0 : State} {s : State} {c : Nat} {ecc : EccSeen} (h0 : Keeps z0 s) : Keeps z0 (State.closeBlock s c ecc) := by
  unfold State.closeBlock
  split
  · exact h0
  · extract_lets -merge +onlyGivenNames v1 v2 v3 v4 v5 v6 v7
    clear_value v1
    clear_value v2
    clear_value v3
    have hv4 : Keeps z0 v4 := by
      unfold v4
      refine Keeps.ite ?_ ?_
      · exact h0
      · refine State.ringWrite_keeps ?_
        exact h0
    clear_value v4
    clear_value v5
    have hv6 : Keeps z0 v6 := by
      unfold v6
      refine State.modClock_keeps ?_
      refine State.modAcq_keeps ?_
      exact hv4
    clear_value v6
    have hv7 : Keeps z0 v7 := by
      unfold v7
      refine State.set_keeps ?_
      refine State.set_keeps ?_
      exact hv6
    clear_value v7
    refine Keeps.ite ?_ ?_
    · exact hv7
    · refine Keeps.ite ?_ ?_
      · refine State.raiseMod_keeps ?_
        refine State.bump_keeps ?_
        refine State.lose_keeps ?_
        exact hv7
      · extract_lets -merge +onlyGivenNames v8 v9
        clear_value v8
        have hv9 : Keeps z0 v9 := by
          unfold v9
          refine Keeps.ite ?_ ?_
          · exact hv7.withArc
          · exact hv7
        clear_value v9
        extract_lets -merge +onlyGivenNames v10
        have hv10 : Keeps z0 v10 := by
          unfold v10
          refine State.offerGap_keeps ?_
          exact hv9
        clear_value v10
        split
        · rename_i s11 y12
          have h13 : Keeps z0 s11 := by
            refine KeepsO.of_eq y12 ?_
            refine KeepsO.ite ?_ ?_
            · exact KeepsO.none
            · refine State.acqPut_keeps ?_
              exact hv10
          refine State.bump_keeps ?_
          exact h13
        · refine State.bump_keeps ?_
          refine State.lose_keeps ?_
          exact hv10

theorem State.enterTrig_keeps {z0 : State} {s : State} {k : Nat} (h0 : Keeps z0 s) : Keeps z0 (State.enterTrig s k) := by
  unfold State.enterTrig
  extract_lets -merge +onlyGivenNames v1
  have hv1 : Keeps z0 v1 := by
    unfold v1
    refine State.set_keeps ?_
    refine State.set_keeps ?_
    exact h0
  clear_value v1
  refine State.modTrig_keeps ?_
  exact hv1

theorem State.trigIdle_keeps {z0 : State} {s : State} (h0 : Keeps z0 s) : Keeps z0 (State.trigIdle s) := by
  unfold State.trigIdle
  refine State.modTrig_keeps ?_
  refine State.set_keeps ?_
  refine State.enterTrig_keeps ?_
  exact h0

theorem State.trigNext_keeps {z0 : State} {s : State} {k : Nat} (h0 : Keeps z0 s) : Keeps z0 (State.trigNext s k) := by
  unfold State.trigNext
  refine Keeps.ite ?_ ?_
  · refine State.trigIdle_keeps ?_
    exact h0
  · refine State.enterTrig_keeps ?_
    exact h0

theorem State.trigTimer_keeps {z0 : State} {s : State} (h0 : Keeps z0 s) : Keeps z0 (State.trigTimer s) := by
  unfold State.trigTimer
  extract_lets -merge +onlyGivenNames v1 v2
  clear_value v1
  clear_value v2
  refine Keeps.ite ?_ ?_
  · refine State.enterTrig_keeps ?_
    exact h0
  · exact h0

theorem State.mark_keeps {z0 : State} {s : State} {k : Nat} {p : Nat × Nat × Nat} {forced : Bool} {ext : Bool} (h0 : Keeps z0 s) : Keeps z0 (State.mark s k p forced ext) := by
  unfold State.mark
  extract_lets -merge +onlyGivenNames v1 v2 v3
  clear_value v1
  clear_value v2
  have hv3 : Keeps z0 v3 := by
    unfold v3
    refine State.modAcq_keeps ?_
    exact h0
  clear_value v3
  refine State.set_keeps ?_
  refine State.set_keeps ?_
  exact hv3

theorem State.trigCount_keeps {z0 : State} {s : State} {k : Nat} {cnt : Nat} {done : Option (Nat × Nat × Nat)} {ext : Bool} (h0 : Keeps z0 s) : Keeps z0 (State.trigCount s k cnt done ext) := by
  unfold State.trigCount
  split
  · refine State.modTrig_keeps ?_
    refine State.set_keeps ?_
    exact h0
  · refine Keeps.ite ?_ ?_
    · refine State.modTrig_keeps ?_
      refine State.set_keeps ?_
      refine State.bump_keeps ?_
      exact h0
    · extract_lets -merge +onlyGivenNames v1
      have hv1 : Keeps z0 v1 := by
        unfold v1
        refine Keeps.ite ?_ ?_
        · refine State.mark_keeps ?_
          exact h0
        · exact h0
      clear_value v1
      refine State.trigNext_keeps ?_
      exact hv1

theorem State.trigRow_keeps {z0 : State} {s : State} {row : Nat} {t : Nat} {xs : List Int} (h0 : Keeps z0 s) : Keeps z0 (State.trigRow s row t xs) := by
  unfold State.trigRow
  extract_lets -merge +onlyGivenNames v1 v2 v3
  have hv1 : Keeps z0 v1 := by
    unfold v1
    refine State.trigTimer_keeps ?_
    exact h0
  clear_value v1
  clear_value v2
  clear_value v3
  refine Keeps.ite ?_ ?_
  · exact hv1
  · refine Keeps.ite ?_ ?_
    · refine Keeps.ite ?_ ?_
      · refine State.trigNext_keeps ?_
        refine State.mark_keeps ?_
        exact hv1
      · exact hv1
    · extract_lets -merge +onlyGivenNames v4 v5 v6 v7 v8 v9
      clear_value v4
      clear_value v5
      clear_value v6
      clear_value v7
      clear_value v8
      clear_value v9
      split
      · extract_lets -merge +onlyGivenNames v10 v11
        clear_value v10
        clear_value v11
        split
        extract_lets -merge +onlyGivenNames v12 v13
        have hv12 : Keeps z0 v12 := by
          unfold v12
          refine State.modTrig_keeps ?_
          exact hv1
        clear_value v12
        clear_value v13
        refine State.trigCount_keeps ?_
        exact hv12
      · extract_lets -merge +onlyGivenNames v14 v15
        clear_value v14
        clear_value v15
        split
        extract_lets -merge +onlyGivenNames v16 v17
        have hv16 : Keeps z0 v16 := by
          unfold v16
          refine State.modTrig_keeps ?_
          exact hv1
        clear_value v16
        clear_value v17
        refine State.trigCount_keeps ?_
        exact hv16
      · extract_lets -merge +onlyGivenNames v18 v19 v20
        clear_value v18
        clear_value v19
        clear_value v20
        refine State.trigCount_keeps ?_
        exact hv1
      · refine Keeps.ite ?_ ?_
        · extract_lets -merge +onlyGivenNames v21 v22 v23 v24
          clear_value v21
          clear_value v22
          clear_value v23
          have hv24 : Keeps z0 v24 := by
            unfold v24
            refine State.modTrig_keeps ?_
            exact hv1
          clear_value v24
          refine State.trigCount_keeps ?_
          exact hv24
        · refine State.trigCount_keeps ?_
          refine State.modTrig_keeps ?_
          exact hv1

theorem State.trigTake_keeps {z0 : State} {s : State} {row : Nat} {t : Nat} (h0 : Keeps z0 s) : Keeps z0 (State.trigTake s row t) := by
  unfold State.trigTake
  extract_lets -merge +onlyGivenNames v1 v2
  clear_value v1
  have hv2 : Keeps z0 v2 := by
    unfold v2
    refine Keeps.ite ?_ ?_
    · refine State.trigRow_keeps ?_
      exact h0
    · exact h0
  clear_value v2
  refine State.modTrig_keeps ?_
  exact hv2

theorem State.trigColl_keeps {z0 : State} {s : State} (h0 : Keeps z0 s) : Keeps z0 (State.trigColl s) := by
  unfold State.trigColl
  extract_lets -merge +onlyGivenNames v1 v2
  clear_value v1
  have hv2 : Keeps z0 v2 := by
    unfold v2
    refine Keeps.ite ?_ ?_
    · exact h0
    · refine State.set_keeps ?_
      exact h0
  clear_value v2
  refine State.modTrig_keeps ?_
  exact hv2

theorem State.extEvent_keeps {z0 : State} {s : State} {src : Nat} {t : Nat} (h0 : Keeps z0 s) : Keeps z0 (State.extEvent s src t) := by
  unfold State.extEvent
  refine Keeps.ite ?_ ?_
  · refine State.modTrig_keeps ?_
    exact h0
  · exact h0

theorem State.addRow_keeps {z0 : State} {s : State} {c : Nat} {t : Nat} {ecc : EccSeen} (h0 : Keeps z0 s) : Keeps z0 (State.addRow s c t ecc) := by
  unfold State.addRow
  extract_lets -merge +onlyGivenNames v1 v2 v3 v4 v5 v6
  clear_value v1
  clear_value v2
  clear_value v3
  clear_value v4
  have hv5 : Keeps z0 v5 := by
    unfold v5
    refine State.modClock_keeps ?_
    exact h0
  clear_value v5
  have hv6 : Keeps z0 v6 := by
    unfold v6
    refine Keeps.ite ?_ ?_
    · refine State.trigTake_keeps ?_
      exact hv5
    · exact hv5
  clear_value v6
  refine Keeps.ite ?_ ?_
  · refine State.closeBlock_keeps ?_
    exact hv6
  · exact hv6

theorem execAcqRowTaken_keeps {z0 : State} {c : Fin 4} {stamp : Stamp} {ecc : EccSeen} {s : State} (h0 : Keeps z0 s) : KeepsOut z0 (execAcqRowTaken c stamp ecc s) := by
  unfold execAcqRowTaken
  refine KeepsOut.ite ?_ ?_
  · refine KeepsOut.next ?_
    exact h0
  · extract_lets -merge +onlyGivenNames v1 v2
    clear_value v1
    have hv2 : Keeps z0 v2 := by
      unfold v2
      refine State.modClock_keeps ?_
      exact h0
    clear_value v2
    refine KeepsOut.ite ?_ ?_
    · refine KeepsOut.next ?_
      exact hv2
    · extract_lets -merge +onlyGivenNames v3
      clear_value v3
      refine KeepsOut.ite ?_ ?_
      · extract_lets -merge +onlyGivenNames v4 v5
        have hv4 : Keeps z0 v4 := by
          unfold v4
          refine State.bump_keeps ?_
          refine State.lose_keeps ?_
          exact hv2
        clear_value v4
        have hv5 : Keeps z0 v5 := by
          unfold v5
          refine State.modClock_keeps ?_
          exact hv4
        clear_value v5
        refine KeepsOut.next ?_
        refine Keeps.ite ?_ ?_
        · refine State.trigColl_keeps ?_
          exact hv5
        · exact hv5
      · refine KeepsOut.next ?_
        refine State.acqDrain_keeps ?_
        refine State.addRow_keeps ?_
        exact hv2

theorem execAcqFlushTimeout_keeps {z0 : State} {c : Fin 4} {ecc : EccSeen} {s : State} (h0 : Keeps z0 s) : KeepsOut z0 (execAcqFlushTimeout c ecc s) := by
  unfold execAcqFlushTimeout
  refine KeepsOut.next ?_
  refine State.closeBlock_keeps ?_
  exact h0

theorem execTriggerTimer_keeps {z0 : State} {s : State} (h0 : Keeps z0 s) : KeepsOut z0 (execTriggerTimer s) := by
  unfold execTriggerTimer
  refine KeepsOut.next ?_
  refine State.trigTimer_keeps ?_
  exact h0

theorem State.acqArm_keeps {z0 : State} {s : State} (h0 : Keeps z0 s) : Keeps z0 (State.acqArm s) := by
  unfold State.acqArm
  refine Keeps.ite ?_ ?_
  · exact h0
  · refine State.enterTrig_keeps ?_
    refine State.set_keeps ?_
    exact h0

theorem execAcqArm_keeps {z0 : State} {s : State} (h0 : Keeps z0 s) : KeepsOut z0 (execAcqArm s) := by
  unfold execAcqArm
  refine KeepsOut.next ?_
  refine State.acqArm_keeps ?_
  exact h0

theorem execAcqStop_keeps {z0 : State} {s : State} (h0 : Keeps z0 s) : KeepsOut z0 (execAcqStop s) := by
  unfold execAcqStop
  refine KeepsOut.next ?_
  refine State.trigIdle_keeps ?_
  exact h0

theorem State.acqForce_keeps {z0 : State} {s : State} (h0 : Keeps z0 s) : Keeps z0 (State.acqForce s) := by
  unfold State.acqForce
  refine Keeps.ite ?_ ?_
  · refine State.modTrig_keeps ?_
    exact h0
  · exact h0

theorem execAcqForce_keeps {z0 : State} {s : State} (h0 : Keeps z0 s) : KeepsOut z0 (execAcqForce s) := by
  unfold execAcqForce
  refine KeepsOut.next ?_
  refine State.acqForce_keeps ?_
  exact h0

theorem State.acqStart_keeps {z0 : State} {s : State} (h0 : Keeps z0 s) : Keeps z0 (State.acqStart s) := by
  unfold State.acqStart
  refine Keeps.ite ?_ ?_
  · exact h0
  · extract_lets -merge +onlyGivenNames v1 v2 v3
    have hv1 : Keeps z0 v1 := by
      unfold v1
      refine State.set_keeps ?_
      refine State.set_keeps ?_
      exact h0
    clear_value v1
    clear_value v2
    have hv3 : Keeps z0 v3 := by
      unfold v3
      refine State.modAcq_keeps ?_
      exact hv1
    clear_value v3
    extract_lets -merge +onlyGivenNames v4
    clear_value v4
    refine State.set_keeps ?_
    refine State.set_keeps ?_
    exact hv3

theorem execAcqRunStart_keeps {z0 : State} {s : State} (h0 : Keeps z0 s) : KeepsOut z0 (execAcqRunStart s) := by
  unfold execAcqRunStart
  refine KeepsOut.next ?_
  refine Keeps.ite ?_ ?_
  · refine State.acqStart_keeps ?_
    exact h0
  · exact h0

theorem State.acqStopRun_keeps {z0 : State} {s : State} (h0 : Keeps z0 s) : Keeps z0 (State.acqStopRun s) := by
  unfold State.acqStopRun
  refine Keeps.ite ?_ ?_
  · exact h0
  · refine State.acqDrain_keeps ?_
    refine State.set_keeps ?_
    refine Keeps.foldl ?_ ?_
    · intro s1 x2 x3
      refine State.closeBlock_keeps ?_
      exact x3
    · refine State.trigIdle_keeps ?_
      exact h0

theorem execAcqRunStop_keeps {z0 : State} {s : State} (h0 : Keeps z0 s) : KeepsOut z0 (execAcqRunStop s) := by
  unfold execAcqRunStop
  refine KeepsOut.next ?_
  refine State.acqStopRun_keeps ?_
  exact h0

/-! Pwm -/

theorem execShadowWrite_keeps {z0 : State} {n : Slice} {window : Fin 3} {word : Fin 4} {value : Nat} {s : State} (h0 : Keeps z0 s) : KeepsOut z0 (execShadowWrite n window word value s) := by
  unfold execShadowWrite
  refine KeepsOut.ite ?_ ?_
  · refine KeepsOut.next ?_
    refine State.modPwm_keeps ?_
    exact h0
  · refine KeepsOut.next ?_
    exact h0

theorem execShadowStageWrite_keeps {z0 : State} {n : Slice} {word : Fin 4} {value : Nat} {s : State} (h0 : Keeps z0 s) : KeepsOut z0 (execShadowStageWrite n word value s) := by
  unfold execShadowStageWrite
  refine KeepsOut.ite ?_ ?_
  · refine KeepsOut.next ?_
    refine State.modPwm_keeps ?_
    exact h0
  · refine KeepsOut.next ?_
    exact h0

theorem State.commitAt_keeps {z0 : State} {s : State} {n : Slice} {tgt : Nat} (h0 : Keeps z0 s) : Keeps z0 (State.commitAt s n tgt) := by
  unfold State.commitAt
  extract_lets -merge +onlyGivenNames v1 v2
  have hv1 : ∀ s3 x4, Keeps z0 s3 → Keeps z0 (v1 s3 x4) := by
    intro s5 x6 x7
    unfold v1
    refine Keeps.ite ?_ ?_
    · refine State.modPwm_keeps ?_
      exact x7
    · exact x7
  clear_value v1
  have hv2 : Keeps z0 v2 := by
    unfold v2
    refine hv1 _ _ ?_
    exact h0
  clear_value v2
  refine Keeps.ite ?_ ?_
  · refine hv1 _ _ ?_
    exact hv2
  · exact hv2

theorem execCommit_keeps {z0 : State} {n : Slice} {tgt : Fin 3} {s : State} (h0 : Keeps z0 s) : KeepsOut z0 (execCommit n tgt s) := by
  unfold execCommit
  refine KeepsOut.next ?_
  refine State.commitAt_keeps ?_
  exact h0

theorem State.commitDue_keeps {z0 : State} {s : State} {n : Slice} {b : Nat} (h0 : Keeps z0 s) : Keeps z0 (State.commitDue s n b) := by
  unfold State.commitDue
  extract_lets -merge +onlyGivenNames v1 v2 v3 v4 v5 v6 v7 v8 v9
  clear_value v1
  clear_value v2
  clear_value v3
  clear_value v4
  clear_value v5
  clear_value v6
  have hv7 : Keeps z0 v7 := by
    unfold v7
    refine State.modPwm_keeps ?_
    exact h0
  clear_value v7
  have hv8 : Keeps z0 v8 := by
    unfold v8
    refine Keeps.ite ?_ ?_
    · exact hv7
    · refine State.raiseAx_keeps ?_
      refine State.bumpBy_keeps ?_
      refine State.set_keeps ?_
      exact hv7
  clear_value v8
  have hv9 : ∀ s10 x11, Keeps z0 s10 → Keeps z0 (v9 s10 x11) := by
    intro s12 x13 x14
    unfold v9
    refine State.raiseAx_keeps ?_
    refine State.bump_keeps ?_
    refine State.set_keeps ?_
    exact x14
  clear_value v9
  refine Keeps.ite ?_ ?_
  · refine hv9 _ _ ?_
    refine hv9 _ _ ?_
    exact hv8
  · refine Keeps.ite ?_ ?_
    · refine hv9 _ _ ?_
      exact hv8
    · exact hv8

theorem State.gapCommit_keeps {z0 : State} {s : State} (h0 : Keeps z0 s) : Keeps z0 (State.gapCommit s) := by
  unfold State.gapCommit
  split
  · exact h0
  · extract_lets -merge +onlyGivenNames v1 v2 v3
    clear_value v1
    have hv2 : Keeps z0 v2 := by
      unfold v2
      refine State.set_keeps ?_
      exact h0
    clear_value v2
    have hv3 : Keeps z0 v3 := by
      unfold v3
      refine State.set_keeps ?_
      exact hv2
    clear_value v3
    exact Keeps.frame hv3 rfl rfl rfl rfl rfl rfl rfl rfl rfl rfl

theorem State.formTimes_keeps {z0 : State} {s : State} {n : Slice} {trim : Int} (h0 : Keeps z0 s) : Keeps z0 (State.formTimes s n trim) := by
  unfold State.formTimes
  extract_lets -merge +onlyGivenNames v1
  clear_value v1
  split
  extract_lets -merge +onlyGivenNames v2 v3 v4 v5 v6 v7 v8 v9 v10 v11 v12 v13 v14 v15 v16 v17 v18 v19 v20 v21 v22 v23 v24 v25 v26 v27 v28 v29 v30 v31 v32 v33
  clear_value v2
  clear_value v3
  clear_value v4
  clear_value v5
  clear_value v6
  clear_value v7
  clear_value v8
  clear_value v9
  clear_value v10
  clear_value v11
  clear_value v12
  clear_value v13
  clear_value v14
  clear_value v15
  clear_value v16
  clear_value v17
  clear_value v18
  clear_value v19
  clear_value v20
  clear_value v21
  have hv22 : Keeps z0 v22 := by
    unfold v22
    refine State.modPwm_keeps ?_
    exact h0
  clear_value v22
  have hv24 : Keeps z0 v24 := by
    unfold v24
    refine State.modSense_keeps ?_
    exact hv22
  clear_value v24
  have hv25 : Keeps z0 v25 := by
    unfold v25
    refine State.set_keeps ?_
    exact hv24
  clear_value v25
  have hv26 : Keeps z0 v26 := by
    unfold v26
    refine State.set_keeps ?_
    exact hv25
  clear_value v26
  have hv27 : Keeps z0 v27 := by
    unfold v27
    refine State.set_keeps ?_
    exact hv26
  clear_value v27
  have hv28 : Keeps z0 v28 := by
    unfold v28
    refine State.set_keeps ?_
    exact hv27
  clear_value v28
  have hv29 : Keeps z0 v29 := by
    unfold v29
    refine State.bumpBy_keeps ?_
    exact hv28
  clear_value v29
  have hv30 : Keeps z0 v30 := by
    unfold v30
    refine State.bumpBy_keeps ?_
    exact hv29
  clear_value v30
  have hv31 : Keeps z0 v31 := by
    unfold v31
    refine Keeps.ite ?_ ?_
    · refine State.raiseAx_keeps ?_
      refine State.bump_keeps ?_
      exact hv30
    · exact hv30
  clear_value v31
  have hv32 : Keeps z0 v32 := by
    unfold v32
    refine Keeps.ite ?_ ?_
    · refine State.raiseAx_keeps ?_
      refine State.bump_keeps ?_
      exact hv31
    · exact hv31
  clear_value v32
  have hv33 : Keeps z0 v33 := by
    unfold v33
    refine Keeps.ite ?_ ?_
    · exact hv32
    · refine State.raiseAx_keeps ?_
      refine State.bumpBy_keeps ?_
      exact hv32
  clear_value v33
  refine Keeps.ite ?_ ?_
  · refine State.raiseAx_keeps ?_
    exact hv33
  · exact hv33

theorem State.copyTimes_keeps {z0 : State} {s : State} {n : Slice} (h0 : Keeps z0 s) : Keeps z0 (State.copyTimes s n) := by
  unfold State.copyTimes
  refine Keeps.ite ?_ ?_
  · extract_lets -merge +onlyGivenNames v1 v2 v3 v4 v5 v6
    clear_value v1
    have hv2 : Keeps z0 v2 := by
      unfold v2
      refine State.set_keeps ?_
      exact h0
    clear_value v2
    have hv3 : Keeps z0 v3 := by
      unfold v3
      refine State.set_keeps ?_
      exact hv2
    clear_value v3
    have hv4 : Keeps z0 v4 := by
      unfold v4
      refine State.set_keeps ?_
      exact hv3
    clear_value v4
    have hv5 : Keeps z0 v5 := by
      unfold v5
      refine State.set_keeps ?_
      exact hv4
    clear_value v5
    clear_value v6
    refine State.modPwm_keeps ?_
    exact hv5
  · exact h0

theorem State.brakeVector_keeps {z0 : State} {s : State} {n : Slice} (h0 : Keeps z0 s) : Keeps z0 (State.brakeVector s n) := by
  unfold State.brakeVector
  refine Keeps.ite ?_ ?_
  · extract_lets -merge +onlyGivenNames v1 v2
    clear_value v1
    clear_value v2
    refine State.modStart_keeps ?_
    exact h0
  · exact h0

theorem State.calibrate_keeps {z0 : State} {s : State} {n : Slice} {o : EnableObs} (h0 : Keeps z0 s) : KeepsP z0 (State.calibrate s n o) := by
  unfold State.calibrate
  extract_lets -merge +onlyGivenNames v1 v2 v3
  clear_value v1
  clear_value v2
  clear_value v3
  refine KeepsP.ite ?_ ?_
  · refine KeepsP.mk ?_
    refine State.raiseAx_keeps ?_
    refine State.set_keeps ?_
    exact h0
  · refine KeepsP.ite ?_ ?_
    · extract_lets -merge +onlyGivenNames v4 v5 v6
      have hv4 : Keeps z0 v4 := by
        unfold v4
        refine State.setS_keeps ?_
        exact h0
      clear_value v4
      have hv5 : Keeps z0 v5 := by
        unfold v5
        refine State.setS_keeps ?_
        exact hv4
      clear_value v5
      have hv6 : Keeps z0 v6 := by
        unfold v6
        refine State.setS_keeps ?_
        exact hv5
      clear_value v6
      refine KeepsP.mk ?_
      refine State.set_keeps ?_
      refine State.set_keeps ?_
      exact hv6
    · refine KeepsP.mk ?_
      refine State.raiseAx_keeps ?_
      exact h0

theorem execCarrierBoundary_keeps {z0 : State} {n : Slice} {trim : Int} {cal : Option EnableObs} {s : State} (h0 : Keeps z0 s) : KeepsOut z0 (execCarrierBoundary n trim cal s) := by
  unfold execCarrierBoundary
  refine KeepsOut.ite ?_ ?_
  · refine KeepsOut.next ?_
    exact h0
  · extract_lets -merge +onlyGivenNames v1 v2 v3 v4 v5 v6 v7 v8
    clear_value v1
    clear_value v2
    clear_value v3
    have hv4 : Keeps z0 v4 := by
      unfold v4
      refine State.unstage_keeps ?_
      refine State.applyStaged_keeps ?_
      exact h0
    clear_value v4
    have hv5 : Keeps z0 v5 := by
      unfold v5
      refine Keeps.ite ?_ ?_
      · refine State.unstage_keeps ?_
        refine State.applyStaged_keeps ?_
        exact hv4
      · exact hv4
    clear_value v5
    have hv6 : Keeps z0 v6 := by
      unfold v6
      refine State.modPwm_keeps ?_
      exact hv5
    clear_value v6
    have hv7 : Keeps z0 v7 := by
      unfold v7
      refine State.brakeVector_keeps ?_
      exact hv6
    clear_value v7
    have hv8 : Keeps z0 v8 := by
      unfold v8
      split
      · refine Keeps.ite ?_ ?_
        · refine KeepsP.fst ?_
          refine State.calibrate_keeps ?_
          exact hv7
        · exact hv7
      · exact hv7
    clear_value v8
    refine KeepsOut.ite ?_ ?_
    · refine KeepsOut.next ?_
      exact hv8
    · extract_lets -merge +onlyGivenNames v9 v10 v11
      have hv9 : Keeps z0 v9 := by
        unfold v9
        refine State.commitDue_keeps ?_
        exact hv8
      clear_value v9
      have hv10 : Keeps z0 v10 := by
        unfold v10
        refine State.formTimes_keeps ?_
        exact hv9
      clear_value v10
      have hv11 : Keeps z0 v11 := by
        unfold v11
        refine State.copyTimes_keeps ?_
        exact hv10
      clear_value v11
      refine KeepsOut.next ?_
      refine Keeps.ite ?_ ?_
      · refine State.gapCommit_keeps ?_
        exact hv11
      · exact hv11

theorem execDelayLineCalibration_keeps {z0 : State} {die : Fin 2} {s : State} (h0 : Keeps z0 s) : KeepsOut z0 (execDelayLineCalibration die s) := by
  unfold execDelayLineCalibration
  refine KeepsOut.next ?_
  refine State.each_keeps ?_ ?_
  · exact h0
  · intro s1 x2 x3
    refine State.modPwm_keeps ?_
    exact x3

theorem execVdrvUndervoltage_keeps {z0 : State} {die : Fin 2} {s : State} (h0 : Keeps z0 s) : KeepsOut z0 (execVdrvUndervoltage die s) := by
  unfold execVdrvUndervoltage
  extract_lets -merge +onlyGivenNames v1 v2
  have hv1 : Keeps z0 v1 := by
    unfold v1
    refine State.setB_keeps ?_
    exact h0
  clear_value v1
  have hv2 : Keeps z0 v2 := by
    unfold v2
    refine State.each_keeps ?_ ?_
    · exact hv1
    · intro s3 x4 x5
      refine State.modPwm_keeps ?_
      exact x5
  clear_value v2
  refine KeepsOut.next ?_
  refine Keeps.ite ?_ ?_
  · exact hv2
  · refine State.raiseDie_keeps ?_
    exact hv2

theorem execVdrvRecovered_keeps {z0 : State} {die : Fin 2} {s : State} (h0 : Keeps z0 s) : KeepsOut z0 (execVdrvRecovered die s) := by
  unfold execVdrvRecovered
  refine KeepsOut.next ?_
  refine State.setB_keeps ?_
  exact h0

theorem execBootstrapUndervoltage_keeps {z0 : State} {n : Slice} {leg : Fin 3} {s : State} (h0 : Keeps z0 s) : KeepsOut z0 (execBootstrapUndervoltage n leg s) := by
  unfold execBootstrapUndervoltage
  refine KeepsOut.next ?_
  refine State.raiseAx_keeps ?_
  refine State.putBit_keeps ?_
  exact h0

theorem execBootstrapRecovered_keeps {z0 : State} {n : Slice} {leg : Fin 3} {heldUs : Nat} {s : State} (h0 : Keeps z0 s) : KeepsOut z0 (execBootstrapRecovered n leg heldUs s) := by
  unfold execBootstrapRecovered
  extract_lets -merge +onlyGivenNames v1 v2
  have hv1 : Keeps z0 v1 := by
    unfold v1
    refine State.putBit_keeps ?_
    exact h0
  clear_value v1
  clear_value v2
  refine KeepsOut.next ?_
  refine Keeps.ite ?_ ?_
  · refine State.modPwm_keeps ?_
    exact hv1
  · exact hv1

theorem execBootuvPersistent_keeps {z0 : State} {n : Slice} {leg : Fin 3} {s : State} (h0 : Keeps z0 s) : KeepsOut z0 (execBootuvPersistent n leg s) := by
  unfold execBootuvPersistent
  extract_lets -merge +onlyGivenNames v1
  clear_value v1
  refine KeepsOut.next ?_
  refine Keeps.ite ?_ ?_
  · refine State.raiseAx_keeps ?_
    refine State.modPwm_keeps ?_
    exact h0
  · exact h0

theorem State.freeze_keeps {z0 : State} {s : State} {n : Slice} {place : Nat} (h0 : Keeps z0 s) : Keeps z0 (State.freeze s n place) := by
  unfold State.freeze
  refine Keeps.ite ?_ ?_
  · exact h0
  · extract_lets -merge +onlyGivenNames v1 v2 v3
    clear_value v1
    have hv2 : Keeps z0 v2 := by
      unfold v2
      refine State.modPwm_keeps ?_
      exact h0
    clear_value v2
    have hv3 : Keeps z0 v3 := by
      unfold v3
      refine State.set_keeps ?_
      exact hv2
    clear_value v3
    refine State.set_keeps ?_
    exact hv3

theorem execHaltGuard_keeps {z0 : State} {n : Slice} {s : State} (h0 : Keeps z0 s) : KeepsOut z0 (execHaltGuard n s) := by
  unfold execHaltGuard
  refine KeepsOut.ite ?_ ?_
  · extract_lets -merge +onlyGivenNames v1 v2
    have hv1 : Keeps z0 v1 := by
      unfold v1
      refine State.each_keeps ?_ ?_
      · exact h0
      · intro s3 x4 x5
        refine State.modPwm_keeps ?_
        exact x5
    clear_value v1
    have hv2 : Keeps z0 v2 := by
      unfold v2
      refine State.set_keeps ?_
      exact hv1
    clear_value v2
    refine KeepsOut.next ?_
    refine State.raiseAx_keeps ?_
    exact hv2
  · refine KeepsOut.next ?_
    exact h0

theorem execSliceResume_keeps {z0 : State} {n : Slice} {passed : Nat} {s : State} (h0 : Keeps z0 s) : KeepsOut z0 (execSliceResume n passed s) := by
  unfold execSliceResume
  refine KeepsOut.ite ?_ ?_
  · extract_lets -merge +onlyGivenNames v1 v2 v3 v4 v5 v6
    clear_value v1
    clear_value v2
    have hv3 : Keeps z0 v3 := by
      unfold v3
      refine State.set_keeps ?_
      exact h0
    clear_value v3
    have hv4 : Keeps z0 v4 := by
      unfold v4
      refine State.modPwm_keeps ?_
      exact hv3
    clear_value v4
    have hv5 : Keeps z0 v5 := by
      unfold v5
      refine State.modSup_keeps ?_
      exact hv4
    clear_value v5
    have hv6 : Keeps z0 v6 := by
      unfold v6
      refine State.set_keeps ?_
      exact hv5
    clear_value v6
    refine KeepsOut.next ?_
    refine State.set_keeps ?_
    exact hv6
  · refine KeepsOut.next ?_
    exact h0

/-! Sense -/

theorem State.closeHold_keeps {z0 : State} {s : State} {n : Slice} (h0 : Keeps z0 s) : Keeps z0 (State.closeHold s n) := by
  unfold State.closeHold
  extract_lets -merge +onlyGivenNames v1
  clear_value v1
  refine State.modSense_keeps ?_
  exact h0

theorem State.tagCycle_keeps {z0 : State} {s : State} {n : Slice} {cycle : Nat} (h0 : Keeps z0 s) : Keeps z0 (State.tagCycle s n cycle) := by
  unfold State.tagCycle
  refine State.modPwm_keeps ?_
  exact h0

theorem execCurrentSample_keeps {z0 : State} {n : Slice} {s : State} (h0 : Keeps z0 s) : KeepsOut z0 (execCurrentSample n s) := by
  unfold execCurrentSample
  refine KeepsOut.ite ?_ ?_
  · refine KeepsOut.next ?_
    exact h0
  · extract_lets -merge +onlyGivenNames v1
    clear_value v1
    refine KeepsOut.ite ?_ ?_
    · refine KeepsOut.ite ?_ ?_
      · refine KeepsOut.next ?_
        refine State.closeHold_keeps ?_
        exact h0
      · refine KeepsOut.ite ?_ ?_
        · refine KeepsOut.next ?_
          exact h0
        · refine KeepsOut.next ?_
          refine State.tagCycle_keeps ?_
          refine State.closeHold_keeps ?_
          exact h0
    · extract_lets -merge +onlyGivenNames v2 v3
      clear_value v2
      have hv3 : Keeps z0 v3 := by
        unfold v3
        refine State.tagCycle_keeps ?_
        refine State.closeHold_keeps ?_
        exact h0
      clear_value v3
      refine KeepsOut.ite ?_ ?_
      · refine KeepsOut.next ?_
        refine State.tagCycle_keeps ?_
        exact hv3
      · refine KeepsOut.ite ?_ ?_
        · refine KeepsOut.next ?_
          refine State.tagCycle_keeps ?_
          refine State.closeHold_keeps ?_
          exact hv3
        · refine KeepsOut.next ?_
          exact hv3

theorem State.deliver_keeps {z0 : State} {s : State} {n : Slice} {v : Tri Int} {ok : Tri Bool} {clip : Tri Bool} {checkSum : Bool} (h0 : Keeps z0 s) : Keeps z0 (State.deliver s n v ok clip checkSum) := by
  unfold State.deliver
  extract_lets -merge +onlyGivenNames v1 v2 v3 v4 v5 v6 v7 v8 v9 v10 v11 v12 v13 v14 v15 v16
  clear_value v1
  clear_value v2
  clear_value v3
  clear_value v4
  clear_value v5
  clear_value v6
  clear_value v7
  clear_value v8
  clear_value v9
  have hv10 : Keeps z0 v10 := by
    unfold v10
    refine State.modSense_keeps ?_
    exact h0
  clear_value v10
  have hv11 : Keeps z0 v11 := by
    unfold v11
    refine Keeps.ite ?_ ?_
    · refine State.bump_keeps ?_
      exact hv10
    · exact hv10
  clear_value v11
  have hv12 : Keeps z0 v12 := by
    unfold v12
    refine Keeps.ite ?_ ?_
    · refine State.bump_keeps ?_
      exact hv11
    · exact hv11
  clear_value v12
  have hv13 : Keeps z0 v13 := by
    unfold v13
    refine Keeps.ite ?_ ?_
    · refine State.bump_keeps ?_
      exact hv12
    · exact hv12
  clear_value v13
  have hv14 : Keeps z0 v14 := by
    unfold v14
    refine Keeps.ite ?_ ?_
    · refine State.bump_keeps ?_
      exact hv13
    · exact hv13
  clear_value v14
  have hv15 : Keeps z0 v15 := by
    unfold v15
    refine State.arrive_keeps ?_
    exact hv14
  clear_value v15
  have hv16 : Keeps z0 v16 := by
    unfold v16
    refine Keeps.ite ?_ ?_
    · refine State.raiseAx_keeps ?_
      exact hv15
    · exact hv15
  clear_value v16
  refine Keeps.ite ?_ ?_
  · refine State.raiseAx_keeps ?_
    exact hv16
  · exact hv16

theorem State.takeConv_keeps {z0 : State} {s : State} {n : Slice} {conv : Tri Int} (h0 : Keeps z0 s) : Keeps z0 (State.takeConv s n conv) := by
  unfold State.takeConv
  extract_lets -merge +onlyGivenNames v1
  clear_value v1
  refine State.modSense_keeps ?_
  exact h0

theorem State.imbalance_keeps {z0 : State} {s : State} {n : Slice} {a : Tri Int} {b : Tri Int} {ok : Tri Bool} (h0 : Keeps z0 s) : Keeps z0 (State.imbalance s n a b ok) := by
  unfold State.imbalance
  extract_lets -merge +onlyGivenNames v1 v2
  clear_value v1
  clear_value v2
  refine Keeps.ite ?_ ?_
  · exact h0
  · refine Keeps.ite ?_ ?_
    · refine State.modSense_keeps ?_
      exact h0
    · extract_lets -merge +onlyGivenNames v3 v4
      clear_value v3
      have hv4 : Keeps z0 v4 := by
        unfold v4
        refine State.bump_keeps ?_
        exact h0
      clear_value v4
      refine Keeps.ite ?_ ?_
      · refine State.raiseAx_keeps ?_
        refine State.modSense_keeps ?_
        exact hv4
      · refine State.modSense_keeps ?_
        exact hv4

theorem execIsampleSet_keeps {z0 : State} {n : Slice} {conv : Tri Int} {s : State} (h0 : Keeps z0 s) : KeepsOut z0 (execIsampleSet n conv s) := by
  unfold execIsampleSet
  refine KeepsOut.ite ?_ ?_
  · refine KeepsOut.next ?_
    exact h0
  · extract_lets -merge +onlyGivenNames v1 v2
    clear_value v1
    have hv2 : Keeps z0 v2 := by
      unfold v2
      refine State.takeConv_keeps ?_
      exact h0
    clear_value v2
    refine KeepsOut.ite ?_ ?_
    · refine KeepsOut.next ?_
      exact hv2
    · refine KeepsOut.ite ?_ ?_
      · refine KeepsOut.next ?_
        refine State.modSense_keeps ?_
        exact hv2
      · refine KeepsOut.ite ?_ ?_
        · extract_lets -merge +onlyGivenNames v3 v4 v5 v6 v7 v8
          clear_value v3
          clear_value v4
          clear_value v5
          clear_value v6
          have hv7 : Keeps z0 v7 := by
            unfold v7
            refine State.imbalance_keeps ?_
            exact hv2
          clear_value v7
          have hv8 : Keeps z0 v8 := by
            unfold v8
            refine State.modSense_keeps ?_
            exact hv7
          clear_value v8
          refine KeepsOut.next ?_
          refine State.deliver_keeps ?_
          exact hv8
        · refine KeepsOut.ite ?_ ?_
          · extract_lets -merge +onlyGivenNames v9 v10 v11 v12 v13 v14
            clear_value v9
            clear_value v10
            clear_value v11
            clear_value v12
            clear_value v13
            have hv14 : Keeps z0 v14 := by
              unfold v14
              refine State.modSense_keeps ?_
              exact hv2
            clear_value v14
            refine KeepsOut.ite ?_ ?_
            · extract_lets -merge +onlyGivenNames v15 v16 v17 v18 v19
              have hv15 : Keeps z0 v15 := by
                unfold v15
                refine State.modSense_keeps ?_
                exact hv14
              clear_value v15
              clear_value v16
              clear_value v17
              have hv18 : Keeps z0 v18 := by
                unfold v18
                refine State.modSense_keeps ?_
                exact hv15
              clear_value v18
              have hv19 : Keeps z0 v19 := by
                unfold v19
                refine Keeps.ite ?_ ?_
                · refine State.bump_keeps ?_
                  exact hv18
                · exact hv18
              clear_value v19
              refine KeepsOut.next ?_
              refine State.arrive_keeps ?_
              exact hv19
            · refine KeepsOut.next ?_
              refine State.deliver_keeps ?_
              exact hv14
          · refine KeepsOut.next ?_
            refine State.deliver_keeps ?_
            exact hv2

theorem execVsampleSet_keeps {z0 : State} {n : Slice} {avg : Tri Nat} {count : Nat} {s : State} (h0 : Keeps z0 s) : KeepsOut z0 (execVsampleSet n avg count s) := by
  unfold execVsampleSet
  refine KeepsOut.ite ?_ ?_
  · refine KeepsOut.next ?_
    exact h0
  · extract_lets -merge +onlyGivenNames v1 v2
    clear_value v1
    have hv2 : Keeps z0 v2 := by
      unfold v2
      refine State.modSense_keeps ?_
      exact h0
    clear_value v2
    refine KeepsOut.next ?_
    refine State.arrive_keeps ?_
    exact hv2

theorem State.tripGates_keeps {z0 : State} {s : State} {n : Slice} (h0 : Keeps z0 s) : Keeps z0 (State.tripGates s n) := by
  unfold State.tripGates
  refine State.each_keeps ?_ ?_
  · exact h0
  · intro s1 x2 x3
    refine State.modPwm_keeps ?_
    exact x3

theorem execOvercurrentTrip_keeps {z0 : State} {n : Slice} {leg : Fin 3} {negative : Bool} {s : State} (h0 : Keeps z0 s) : KeepsOut z0 (execOvercurrentTrip n leg negative s) := by
  unfold execOvercurrentTrip
  extract_lets -merge +onlyGivenNames v1
  have hv1 : Keeps z0 v1 := by
    unfold v1
    refine State.modSense_keeps ?_
    exact h0
  clear_value v1
  refine KeepsOut.ite ?_ ?_
  · refine KeepsOut.next ?_
    exact hv1
  · extract_lets -merge +onlyGivenNames v2 v3 v4
    have hv2 : Keeps z0 v2 := by
      unfold v2
      refine State.putBit_keeps ?_
      exact hv1
    clear_value v2
    have hv3 : Keeps z0 v3 := by
      unfold v3
      refine State.putBit_keeps ?_
      exact hv2
    clear_value v3
    have hv4 : Keeps z0 v4 := by
      unfold v4
      refine State.bump_keeps ?_
      exact hv3
    clear_value v4
    refine KeepsOut.next ?_
    refine State.raiseAx_keeps ?_
    refine State.tripGates_keeps ?_
    exact hv4

theorem execTripReleaseQualified_keeps {z0 : State} {n : Slice} {leg : Fin 3} {s : State} (h0 : Keeps z0 s) : KeepsOut z0 (execTripReleaseQualified n leg s) := by
  unfold execTripReleaseQualified
  refine KeepsOut.next ?_
  refine Keeps.ite ?_ ?_
  · refine State.modSense_keeps ?_
    exact h0
  · exact h0

theorem execSwitchNodeCheckFail_keeps {z0 : State} {n : Slice} {leg : Fin 3} {s : State} (h0 : Keeps z0 s) : KeepsOut z0 (execSwitchNodeCheckFail n leg s) := by
  unfold execSwitchNodeCheckFail
  refine KeepsOut.ite ?_ ?_
  · refine KeepsOut.next ?_
    exact h0
  · extract_lets -merge +onlyGivenNames v1 v2
    have hv1 : Keeps z0 v1 := by
      unfold v1
      refine State.set_keeps ?_
      exact h0
    clear_value v1
    have hv2 : Keeps z0 v2 := by
      unfold v2
      refine State.set_keeps ?_
      exact hv1
    clear_value v2
    refine KeepsOut.next ?_
    refine State.raiseAx_keeps ?_
    refine State.tripGates_keeps ?_
    exact hv2

/-! StartSeq -/

theorem State.enterPhase_keeps {z0 : State} {s : State} {n : Slice} {ph : Nat} (h0 : Keeps z0 s) : Keeps z0 (State.enterPhase s n ph) := by
  unfold State.enterPhase
  refine State.modStart_keeps ?_
  refine State.set_keeps ?_
  exact h0

theorem State.warnClamp_keeps {z0 : State} {s : State} {n : Slice} {hit : Bool} (h0 : Keeps z0 s) : Keeps z0 (State.warnClamp s n hit) := by
  unfold State.warnClamp
  refine Keeps.ite ?_ ?_
  · refine State.raiseAx_keeps ?_
    refine State.modStart_keeps ?_
    exact h0
  · exact h0

theorem State.enterListen_keeps {z0 : State} {s : State} {n : Slice} (h0 : Keeps z0 s) : Keeps z0 (State.enterListen s n) := by
  unfold State.enterListen
  extract_lets -merge +onlyGivenNames v1
  have hv1 : Keeps z0 v1 := by
    unfold v1
    refine State.set_keeps ?_
    exact h0
  clear_value v1
  refine State.modStart_keeps ?_
  refine State.enterPhase_keeps ?_
  exact hv1

theorem State.enterAlign_keeps {z0 : State} {s : State} {n : Slice} (h0 : Keeps z0 s) : Keeps z0 (State.enterAlign s n) := by
  unfold State.enterAlign
  extract_lets -merge +onlyGivenNames v1 v2 v3
  have hv1 : Keeps z0 v1 := by
    unfold v1
    refine State.set_keeps ?_
    exact h0
  clear_value v1
  have hv2 : Keeps z0 v2 := by
    unfold v2
    refine State.set_keeps ?_
    exact hv1
  clear_value v2
  have hv3 : Keeps z0 v3 := by
    unfold v3
    refine State.set_keeps ?_
    exact hv2
  clear_value v3
  refine State.enterPhase_keeps ?_
  exact hv3

theorem State.enterRun_keeps {z0 : State} {s : State} {n : Slice} (h0 : Keeps z0 s) : Keeps z0 (State.enterRun s n) := by
  unfold State.enterRun
  extract_lets -merge +onlyGivenNames v1 v2
  have hv1 : Keeps z0 v1 := by
    unfold v1
    refine State.set_keeps ?_
    exact h0
  clear_value v1
  have hv2 : Keeps z0 v2 := by
    unfold v2
    refine State.set_keeps ?_
    exact hv1
  clear_value v2
  refine State.enterPhase_keeps ?_
  refine State.bump_keeps ?_
  exact hv2

theorem State.startFail_keeps {z0 : State} {s : State} {n : Slice} {cause : Nat} (h0 : Keeps z0 s) : Keeps z0 (State.startFail s n cause) := by
  unfold State.startFail
  extract_lets -merge +onlyGivenNames v1 v2
  have hv1 : Keeps z0 v1 := by
    unfold v1
    refine State.set_keeps ?_
    exact h0
  clear_value v1
  have hv2 : Keeps z0 v2 := by
    unfold v2
    refine State.bump_keeps ?_
    exact hv1
  clear_value v2
  refine State.raiseAx_keeps ?_
  refine State.enterPhase_keeps ?_
  exact hv2

theorem State.attemptFailed_keeps {z0 : State} {s : State} {n : Slice} (h0 : Keeps z0 s) : Keeps z0 (State.attemptFailed s n) := by
  unfold State.attemptFailed
  extract_lets -merge +onlyGivenNames v1
  clear_value v1
  refine Keeps.ite ?_ ?_
  · extract_lets -merge +onlyGivenNames v2
    have hv2 : Keeps z0 v2 := by
      unfold v2
      refine State.set_keeps ?_
      exact h0
    clear_value v2
    refine State.enterPhase_keeps ?_
    refine State.set_keeps ?_
    exact hv2
  · refine State.startFail_keeps ?_
    exact h0

theorem State.enterSync_keeps {z0 : State} {s : State} {n : Slice} {theta : Nat} {seed : Nat} (h0 : Keeps z0 s) : Keeps z0 (State.enterSync s n theta seed) := by
  unfold State.enterSync
  extract_lets -merge +onlyGivenNames v1 v2 v3
  have hv1 : Keeps z0 v1 := by
    unfold v1
    refine State.set_keeps ?_
    exact h0
  clear_value v1
  have hv2 : Keeps z0 v2 := by
    unfold v2
    refine State.set_keeps ?_
    exact hv1
  clear_value v2
  have hv3 : Keeps z0 v3 := by
    unfold v3
    refine State.set_keeps ?_
    exact hv2
  clear_value v3
  refine State.enterPhase_keeps ?_
  exact hv3

theorem State.cycleAlign_keeps {z0 : State} {s : State} {n : Slice} (h0 : Keeps z0 s) : Keeps z0 (State.cycleAlign s n) := by
  unfold State.cycleAlign
  split
  extract_lets -merge +onlyGivenNames v1 v2 v3
  clear_value v1
  clear_value v2
  have hv3 : Keeps z0 v3 := by
    unfold v3
    refine State.set_keeps ?_
    exact h0
  clear_value v3
  refine State.warnClamp_keeps ?_
  exact hv3

theorem State.cycleForced_keeps {z0 : State} {s : State} {n : Slice} {o : StartObs} {steps : Nat} (h0 : Keeps z0 s) : Keeps z0 (State.cycleForced s n o steps) := by
  unfold State.cycleForced
  extract_lets -merge +onlyGivenNames v1 v2 v3 v4 v5 v6 v7
  clear_value v1
  clear_value v2
  clear_value v3
  clear_value v4
  have hv5 : Keeps z0 v5 := by
    unfold v5
    refine State.modStart_keeps ?_
    exact h0
  clear_value v5
  have hv6 : Keeps z0 v6 := by
    unfold v6
    refine State.set_keeps ?_
    exact hv5
  clear_value v6
  have hv7 : Keeps z0 v7 := by
    unfold v7
    refine Keeps.ite ?_ ?_
    · exact hv6
    · split
      refine State.warnClamp_keeps ?_
      refine State.set_keeps ?_
      exact hv6
  clear_value v7
  refine State.modStart_keeps ?_
  exact hv7

theorem State.cycleBlend_keeps {z0 : State} {s : State} {n : Slice} (h0 : Keeps z0 s) : Keeps z0 (State.cycleBlend s n) := by
  unfold State.cycleBlend
  refine Keeps.ite ?_ ?_
  · refine State.attemptFailed_keeps ?_
    exact h0
  · extract_lets -merge +onlyGivenNames v1 v2 v3 v4 v5 v6
    clear_value v1
    clear_value v2
    clear_value v3
    clear_value v4
    clear_value v5
    have hv6 : Keeps z0 v6 := by
      unfold v6
      refine State.set_keeps ?_
      exact h0
    clear_value v6
    refine State.set_keeps ?_
    exact hv6

theorem State.cycleRun_keeps {z0 : State} {s : State} {n : Slice} (h0 : Keeps z0 s) : Keeps z0 (State.cycleRun s n) := by
  unfold State.cycleRun
  extract_lets -merge +onlyGivenNames v1 v2 v3
  clear_value v1
  clear_value v3
  refine State.modStart_keeps ?_
  exact h0

theorem State.cycleBrake_keeps {z0 : State} {s : State} {n : Slice} {o : StartObs} {steps : Nat} (h0 : Keeps z0 s) : Keeps z0 (State.cycleBrake s n o steps) := by
  unfold State.cycleBrake
  extract_lets -merge +onlyGivenNames v1 v2 v3
  clear_value v1
  clear_value v2
  have hv3 : Keeps z0 v3 := by
    unfold v3
    refine State.modStart_keeps ?_
    exact h0
  clear_value v3
  refine Keeps.ite ?_ ?_
  · refine State.enterAlign_keeps ?_
    exact hv3
  · exact hv3

theorem execStartSequencerCycle_keeps {z0 : State} {n : Slice} {o : StartObs} {s : State} (h0 : Keeps z0 s) : KeepsOut z0 (execStartSequencerCycle n o s) := by
  unfold execStartSequencerCycle
  refine KeepsOut.ite ?_ ?_
  · refine KeepsOut.next ?_
    exact h0
  · extract_lets -merge +onlyGivenNames v1 v2 v3 v4
    clear_value v1
    have hv2 : Keeps z0 v2 := by
      unfold v2
      refine State.set_keeps ?_
      exact h0
    clear_value v2
    clear_value v3
    have hv4 : Keeps z0 v4 := by
      unfold v4
      refine State.modStart_keeps ?_
      exact hv2
    clear_value v4
    split
    · refine KeepsOut.ite ?_ ?_
      · extract_lets -merge +onlyGivenNames v5 v6
        have hv5 : Keeps z0 v5 := by
          unfold v5
          refine State.modStart_keeps ?_
          exact hv4
        clear_value v5
        have hv6 : Keeps z0 v6 := by
          unfold v6
          refine State.set_keeps ?_
          exact hv5
        clear_value v6
        refine KeepsOut.next ?_
        refine State.enterListen_keeps ?_
        refine State.set_keeps ?_
        exact hv6
      · refine KeepsOut.next ?_
        exact hv4
    · refine KeepsOut.next ?_
      refine State.cycleBrake_keeps ?_
      exact hv4
    · refine KeepsOut.next ?_
      refine State.modStart_keeps ?_
      exact hv4
    · refine KeepsOut.next ?_
      refine State.cycleAlign_keeps ?_
      exact hv4
    · refine KeepsOut.next ?_
      refine State.cycleForced_keeps ?_
      exact hv4
    · refine KeepsOut.next ?_
      refine State.cycleBlend_keeps ?_
      exact hv4
    · refine KeepsOut.next ?_
      refine State.cycleRun_keeps ?_
      exact hv4
    · refine KeepsOut.next ?_
      refine State.startRest_keeps ?_
      refine State.set_keeps ?_
      exact hv4
    · refine KeepsOut.next ?_
      exact hv4

theorem execListenElapsed_keeps {z0 : State} {n : Slice} {o : StartObs} {s : State} (h0 : Keeps z0 s) : KeepsOut z0 (execListenElapsed n o s) := by
  unfold execListenElapsed
  refine KeepsOut.ite ?_ ?_
  · refine KeepsOut.next ?_
    exact h0
  · extract_lets -merge +onlyGivenNames v1 v2 v3 v4 v5
    clear_value v1
    clear_value v2
    clear_value v3
    clear_value v4
    have hv5 : Keeps z0 v5 := by
      unfold v5
      refine State.setS_keeps ?_
      exact h0
    clear_value v5
    refine KeepsOut.ite ?_ ?_
    · refine KeepsOut.next ?_
      refine State.startFail_keeps ?_
      exact hv5
    · refine KeepsOut.ite ?_ ?_
      · refine KeepsOut.next ?_
        refine State.enterAlign_keeps ?_
        exact hv5
      · refine KeepsOut.ite ?_ ?_
        · refine KeepsOut.next ?_
          refine State.enterSync_keeps ?_
          exact hv5
        · refine KeepsOut.next ?_
          refine State.enterPhase_keeps ?_
          exact hv5

theorem execBrakeTime_keeps {z0 : State} {n : Slice} {s : State} (h0 : Keeps z0 s) : KeepsOut z0 (execBrakeTime n s) := by
  unfold execBrakeTime
  refine KeepsOut.next ?_
  refine Keeps.ite ?_ ?_
  · refine State.startFail_keeps ?_
    exact h0
  · exact h0

theorem execSyncCyclesComplete_keeps {z0 : State} {n : Slice} {s : State} (h0 : Keeps z0 s) : KeepsOut z0 (execSyncCyclesComplete n s) := by
  unfold execSyncCyclesComplete
  refine KeepsOut.ite ?_ ?_
  · refine KeepsOut.next ?_
    refine Keeps.ite ?_ ?_
    · refine State.enterRun_keeps ?_
      exact h0
    · refine State.attemptFailed_keeps ?_
      exact h0
  · refine KeepsOut.next ?_
    exact h0

theorem execAlignComplete_keeps {z0 : State} {n : Slice} {s : State} (h0 : Keeps z0 s) : KeepsOut z0 (execAlignComplete n s) := by
  unfold execAlignComplete
  refine KeepsOut.ite ?_ ?_
  · extract_lets -merge +onlyGivenNames v1 v2
    have hv1 : Keeps z0 v1 := by
      unfold v1
      refine State.modStart_keeps ?_
      refine State.enterPhase_keeps ?_
      exact h0
    clear_value v1
    have hv2 : Keeps z0 v2 := by
      unfold v2
      refine State.set_keeps ?_
      exact hv1
    clear_value v2
    split
    refine KeepsOut.next ?_
    refine State.warnClamp_keeps ?_
    refine State.set_keeps ?_
    exact hv2
  · refine KeepsOut.next ?_
    exact h0

theorem execForcedLockHeld_keeps {z0 : State} {n : Slice} {s : State} (h0 : Keeps z0 s) : KeepsOut z0 (execForcedLockHeld n s) := by
  unfold execForcedLockHeld
  refine KeepsOut.ite ?_ ?_
  · extract_lets -merge +onlyGivenNames v1 v2 v3 v4
    clear_value v1
    clear_value v2
    clear_value v3
    have hv4 : Keeps z0 v4 := by
      unfold v4
      refine State.modStart_keeps ?_
      refine State.enterPhase_keeps ?_
      exact h0
    clear_value v4
    refine KeepsOut.next ?_
    refine State.set_keeps ?_
    exact hv4
  · refine KeepsOut.next ?_
    exact h0

theorem execLockTimeout_keeps {z0 : State} {n : Slice} {s : State} (h0 : Keeps z0 s) : KeepsOut z0 (execLockTimeout n s) := by
  unfold execLockTimeout
  refine KeepsOut.next ?_
  refine Keeps.ite ?_ ?_
  · refine State.attemptFailed_keeps ?_
    exact h0
  · exact h0

theorem execBlendComplete_keeps {z0 : State} {n : Slice} {s : State} (h0 : Keeps z0 s) : KeepsOut z0 (execBlendComplete n s) := by
  unfold execBlendComplete
  refine KeepsOut.next ?_
  refine Keeps.ite ?_ ?_
  · refine Keeps.ite ?_ ?_
    · refine State.enterRun_keeps ?_
      exact h0
    · refine State.attemptFailed_keeps ?_
      exact h0
  · exact h0

theorem execFallback_keeps {z0 : State} {n : Slice} {s : State} (h0 : Keeps z0 s) : KeepsOut z0 (execFallback n s) := by
  unfold execFallback
  refine KeepsOut.ite ?_ ?_
  · extract_lets -merge +onlyGivenNames v1 v2 v3 v4 v5
    clear_value v1
    have hv2 : Keeps z0 v2 := by
      unfold v2
      refine State.modStart_keeps ?_
      refine State.enterPhase_keeps ?_
      exact h0
    clear_value v2
    have hv3 : Keeps z0 v3 := by
      unfold v3
      refine State.set_keeps ?_
      exact hv2
    clear_value v3
    have hv4 : Keeps z0 v4 := by
      unfold v4
      refine State.set_keeps ?_
      exact hv3
    clear_value v4
    have hv5 : Keeps z0 v5 := by
      unfold v5
      refine State.set_keeps ?_
      exact hv4
    clear_value v5
    refine KeepsOut.next ?_
    refine State.set_keeps ?_
    exact hv5
  · refine KeepsOut.next ?_
    exact h0

theorem execObsLoss_keeps {z0 : State} {n : Slice} {s : State} (h0 : Keeps z0 s) : KeepsOut z0 (execObsLoss n s) := by
  unfold execObsLoss
  extract_lets -merge +onlyGivenNames v1
  clear_value v1
  refine KeepsOut.next ?_
  refine Keeps.ite ?_ ?_
  · refine State.startFail_keeps ?_
    exact h0
  · exact h0

theorem execCoastComplete_keeps {z0 : State} {n : Slice} {s : State} (h0 : Keeps z0 s) : KeepsOut z0 (execCoastComplete n s) := by
  unfold execCoastComplete
  refine KeepsOut.next ?_
  refine Keeps.ite ?_ ?_
  · refine State.enterListen_keeps ?_
    exact h0
  · exact h0

theorem execSlobsStale_keeps {z0 : State} {n : Slice} {s : State} (h0 : Keeps z0 s) : KeepsOut z0 (execSlobsStale n s) := by
  unfold execSlobsStale
  refine KeepsOut.next ?_
  refine Keeps.ite ?_ ?_
  · refine State.modStart_keeps ?_
    exact h0
  · exact h0

end Sys2Proof.Machine
end

