-- ==== Sys2Proof/Laws/Keeps3.lean ====
section
/-!
SUPPORT. Laws/Keeps3.lean: what the operations and the meanings of Machine/Feedback, Supervision, Motion keep (Laws/Keeps.lean).
-/

namespace Sys2Proof.Machine

/-! Feedback -/

theorem State.probeHit_keeps {z0 : State} {s : State} {n : Slice} {pos : Int} (h0 : Keeps z0 s) : Keeps z0 (State.probeHit s n pos) := by
  unfold State.probeHit
  refine Keeps.ite ?_ ?_
  · exact h0
  · extract_lets -merge +onlyGivenNames v1
    clear_value v1
    refine State.modProf_keeps ?_
    refine State.set_keeps ?_
    exact h0

theorem State.latch_keeps {z0 : State} {s : State} {n : Slice} {k : Nat} {pos : Int} {stamp : Stamp} (h0 : Keeps z0 s) : Keeps z0 (State.latch s n k pos stamp) := by
  unfold State.latch
  refine Keeps.ite ?_ ?_
  · exact h0
  · extract_lets -merge +onlyGivenNames v1 v2 v3 v4 v5 v6
    clear_value v1
    have hv2 : Keeps z0 v2 := by
      unfold v2
      refine State.set_keeps ?_
      exact h0
    clear_value v2
    have hv3 : Keeps z0 v3 := by
      unfold v3
      refine State.set_keeps ?_
      exact hv2
    clear_value v3
    have hv4 : Keeps z0 v4 := by
      unfold v4
      refine State.set_keeps ?_
      exact hv3
    clear_value v4
    have hv5 : Keeps z0 v5 := by
      unfold v5
      refine State.set_keeps ?_
      exact hv4
    clear_value v5
    have hv6 : Keeps z0 v6 := by
      unfold v6
      refine State.set_keeps ?_
      exact hv5
    clear_value v6
    refine Keeps.ite ?_ ?_
    · refine State.probeHit_keeps ?_
      exact hv6
    · exact hv6

theorem State.latchEvent_keeps {z0 : State} {s : State} {src : Nat} {par : Nat} {falling : Bool} {stamp : Stamp} (h0 : Keeps z0 s) : Keeps z0 (State.latchEvent s src par falling stamp) := by
  unfold State.latchEvent
  refine State.each_keeps ?_ ?_
  · exact h0
  · intro s1 x2 x3
    refine State.each_keeps ?_ ?_
    · exact x3
    · intro s4 x5 x6
      refine Keeps.ite ?_ ?_
      · refine State.latch_keeps ?_
        exact x6
      · exact x6

theorem execQuadratureEdge_keeps {z0 : State} {n : Slice} {a : Bool} {b : Bool} {s : State} (h0 : Keeps z0 s) : KeepsOut z0 (execQuadratureEdge n a b s) := by
  unfold execQuadratureEdge
  extract_lets -merge +onlyGivenNames v1
  clear_value v1
  refine KeepsOut.ite ?_ ?_
  · refine KeepsOut.next ?_
    exact h0
  · extract_lets -merge +onlyGivenNames v2 v3
    clear_value v2
    have hv3 : Keeps z0 v3 := by
      unfold v3
      refine State.modFb_keeps ?_
      exact h0
    clear_value v3
    refine KeepsOut.ite ?_ ?_
    · refine KeepsOut.next ?_
      exact hv3
    · refine KeepsOut.ite ?_ ?_
      · extract_lets -merge +onlyGivenNames v4 v5
        have hv4 : Keeps z0 v4 := by
          unfold v4
          refine State.bump_keeps ?_
          exact hv3
        clear_value v4
        have hv5 : Keeps z0 v5 := by
          unfold v5
          refine State.set_keeps ?_
          exact hv4
        clear_value v5
        refine KeepsOut.next ?_
        refine State.modFb_keeps ?_
        exact hv5
      · extract_lets -merge +onlyGivenNames v6
        clear_value v6
        refine KeepsOut.ite ?_ ?_
        · refine KeepsOut.next ?_
          refine State.modFb_keeps ?_
          exact hv3
        · refine KeepsOut.next ?_
          refine State.modFb_keeps ?_
          exact hv3

theorem State.indexReset_keeps {z0 : State} {s : State} {n : Slice} (h0 : Keeps z0 s) : Keeps z0 (State.indexReset s n) := by
  unfold State.indexReset
  extract_lets -merge +onlyGivenNames v1 v2
  clear_value v1
  have hv2 : Keeps z0 v2 := by
    unfold v2
    refine State.set_keeps ?_
    exact h0
  clear_value v2
  refine State.modFb_keeps ?_
  exact hv2

theorem execIndexEvent_keeps {z0 : State} {n : Slice} {stamp : Stamp} {s : State} (h0 : Keeps z0 s) : KeepsOut z0 (execIndexEvent n stamp s) := by
  unfold execIndexEvent
  extract_lets -merge +onlyGivenNames v1
  clear_value v1
  refine KeepsOut.ite ?_ ?_
  · refine KeepsOut.next ?_
    exact h0
  · extract_lets -merge +onlyGivenNames v2 v3 v4 v5 v6 v7
    clear_value v2
    have hv3 : Keeps z0 v3 := by
      unfold v3
      refine State.each_keeps ?_ ?_
      · exact h0
      · intro s8 x9 x10
        refine Keeps.ite ?_ ?_
        · refine State.latch_keeps ?_
          exact x10
        · exact x10
    clear_value v3
    have hv4 : Keeps z0 v4 := by
      unfold v4
      refine Keeps.ite ?_ ?_
      · refine State.homeRef_keeps ?_
        exact hv3
      · exact hv3
    clear_value v4
    clear_value v5
    clear_value v6
    have hv7 : Keeps z0 v7 := by
      unfold v7
      refine State.modFb_keeps ?_
      exact hv4
    clear_value v7
    split
    · extract_lets -merge +onlyGivenNames v11 v12 v13 v14 v15
      clear_value v11
      clear_value v12
      clear_value v13
      clear_value v14
      have hv15 : Keeps z0 v15 := by
        unfold v15
        refine Keeps.ite ?_ ?_
        · refine State.raiseAx_keeps ?_
          refine State.bump_keeps ?_
          exact hv7
        · exact hv7
      clear_value v15
      refine KeepsOut.next ?_
      refine State.indexReset_keeps ?_
      exact hv15
    · refine KeepsOut.ite ?_ ?_
      · extract_lets -merge +onlyGivenNames v16 v17
        have hv16 : Keeps z0 v16 := by
          unfold v16
          refine State.set_keeps ?_
          exact hv7
        clear_value v16
        have hv17 : Keeps z0 v17 := by
          unfold v17
          refine State.set_keeps ?_
          exact hv16
        clear_value v17
        refine KeepsOut.next ?_
        refine State.indexReset_keeps ?_
        exact hv17
      · refine KeepsOut.next ?_
        exact hv7
    · refine KeepsOut.next ?_
      exact hv7

theorem execArm_keeps {z0 : State} {n : Slice} {s : State} (h0 : Keeps z0 s) : KeepsOut z0 (execArm n s) := by
  unfold execArm
  refine KeepsOut.next ?_
  refine State.set_keeps ?_
  exact h0

theorem execDisarm_keeps {z0 : State} {n : Slice} {s : State} (h0 : Keeps z0 s) : KeepsOut z0 (execDisarm n s) := by
  unfold execDisarm
  refine KeepsOut.next ?_
  refine State.set_keeps ?_
  exact h0

theorem execHallChange_keeps {z0 : State} {n : Slice} {h : Fin 8} {s : State} (h0 : Keeps z0 s) : KeepsOut z0 (execHallChange n h s) := by
  unfold execHallChange
  refine KeepsOut.ite ?_ ?_
  · refine KeepsOut.next ?_
    exact h0
  · extract_lets -merge +onlyGivenNames v1
    have hv1 : Keeps z0 v1 := by
      unfold v1
      refine State.set_keeps ?_
      exact h0
    clear_value v1
    refine KeepsOut.ite ?_ ?_
    · refine KeepsOut.next ?_
      exact hv1
    · extract_lets -merge +onlyGivenNames v2 v3
      clear_value v2
      have hv3 : Keeps z0 v3 := by
        unfold v3
        refine State.set_keeps ?_
        exact hv1
      clear_value v3
      refine KeepsOut.ite ?_ ?_
      · refine KeepsOut.next ?_
        refine State.bump_keeps ?_
        exact hv3
      · extract_lets -merge +onlyGivenNames v4 v5 v6
        clear_value v4
        clear_value v5
        have hv6 : Keeps z0 v6 := by
          unfold v6
          refine State.modFb_keeps ?_
          exact hv3
        clear_value v6
        refine KeepsOut.ite ?_ ?_
        · refine KeepsOut.next ?_
          exact hv6
        · refine KeepsOut.ite ?_ ?_
          · refine KeepsOut.ite ?_ ?_
            · extract_lets -merge +onlyGivenNames v7
              clear_value v7
              refine KeepsOut.next ?_
              refine State.modFb_keeps ?_
              exact hv6
            · refine KeepsOut.next ?_
              exact hv6
          · refine KeepsOut.next ?_
            refine State.bump_keeps ?_
            exact hv6

theorem execWireFault_keeps {z0 : State} {n : Slice} {s : State} (h0 : Keeps z0 s) : KeepsOut z0 (execWireFault n s) := by
  unfold execWireFault
  extract_lets -merge +onlyGivenNames v1
  clear_value v1
  refine KeepsOut.ite ?_ ?_
  · refine KeepsOut.next ?_
    exact h0
  · extract_lets -merge +onlyGivenNames v2 v3
    have hv2 : Keeps z0 v2 := by
      unfold v2
      refine State.set_keeps ?_
      exact h0
    clear_value v2
    have hv3 : Keeps z0 v3 := by
      unfold v3
      refine Keeps.ite ?_ ?_
      · refine State.set_keeps ?_
        exact hv2
      · exact hv2
    clear_value v3
    refine KeepsOut.next ?_
    refine Keeps.ite ?_ ?_
    · refine State.modFb_keeps ?_
      exact hv3
    · exact hv3

theorem State.scInvalid_keeps {z0 : State} {s : State} {n : Slice} (h0 : Keeps z0 s) : Keeps z0 (State.scInvalid s n) := by
  unfold State.scInvalid
  refine State.modFb_keeps ?_
  refine State.bump_keeps ?_
  exact h0

theorem execSincosConversion_keeps {z0 : State} {n : Slice} {a : Int} {b : Int} {s : State} (h0 : Keeps z0 s) : KeepsOut z0 (execSincosConversion n a b s) := by
  unfold execSincosConversion
  refine KeepsOut.ite ?_ ?_
  · refine KeepsOut.next ?_
    exact h0
  · split
    extract_lets -merge +onlyGivenNames v1
    clear_value v1
    refine KeepsOut.ite ?_ ?_
    · refine KeepsOut.next ?_
      refine State.scInvalid_keeps ?_
      refine State.set_keeps ?_
      exact h0
    · extract_lets -merge +onlyGivenNames v2 v3 v4 v5 v6 v7 v8
      have hv2 : Keeps z0 v2 := by
        unfold v2
        refine State.set_keeps ?_
        exact h0
      clear_value v2
      clear_value v3
      clear_value v4
      clear_value v5
      clear_value v6
      have hv7 : Keeps z0 v7 := by
        unfold v7
        refine State.modFb_keeps ?_
        exact hv2
      clear_value v7
      clear_value v8
      refine KeepsOut.ite ?_ ?_
      · refine KeepsOut.next ?_
        refine State.scInvalid_keeps ?_
        refine State.set_keeps ?_
        exact hv7
      · extract_lets -merge +onlyGivenNames v9 v10
        clear_value v9
        clear_value v10
        refine KeepsOut.next ?_
        refine State.modFb_keeps ?_
        exact hv7

theorem execSincosCorrectionUpdate_keeps {z0 : State} {n : Slice} {offA : Int} {offB : Int} {gain : Nat} {phase : Int} {s : State} (h0 : Keeps z0 s) : KeepsOut z0 (execSincosCorrectionUpdate n offA offB gain phase s) := by
  unfold execSincosCorrectionUpdate
  refine KeepsOut.ite ?_ ?_
  · refine KeepsOut.next ?_
    exact h0
  · extract_lets -merge +onlyGivenNames v1 v2 v3 v4 v5 v6 v7
    clear_value v1
    have hv2 : Keeps z0 v2 := by
      unfold v2
      refine State.drawn_keeps ?_
      exact h0
    clear_value v2
    clear_value v3
    clear_value v4
    clear_value v5
    clear_value v6
    have hv7 : Keeps z0 v7 := by
      unfold v7
      refine State.modFb_keeps ?_
      exact hv2
    clear_value v7
    refine KeepsOut.ite ?_ ?_
    · refine KeepsOut.next ?_
      refine State.raiseAx_keeps ?_
      refine State.set_keeps ?_
      exact hv7
    · refine KeepsOut.next ?_
      exact hv7

theorem State.corrApply_keeps {z0 : State} {s : State} {n : Slice} (h0 : Keeps z0 s) : Keeps z0 (State.corrApply s n) := by
  unfold State.corrApply
  split
  · exact h0
  · extract_lets -merge +onlyGivenNames v1 v2 v3 v4
    have hv1 : Keeps z0 v1 := by
      unfold v1
      refine State.setS_keeps ?_
      exact h0
    clear_value v1
    have hv2 : Keeps z0 v2 := by
      unfold v2
      refine State.setS_keeps ?_
      exact hv1
    clear_value v2
    have hv3 : Keeps z0 v3 := by
      unfold v3
      refine State.set_keeps ?_
      exact hv2
    clear_value v3
    have hv4 : Keeps z0 v4 := by
      unfold v4
      refine State.setS_keeps ?_
      exact hv3
    clear_value v4
    refine State.modFb_keeps ?_
    exact hv4

theorem State.brakeStill_keeps {z0 : State} {s : State} {n : Slice} {ok : Bool} {v : Int} (h0 : Keeps z0 s) : Keeps z0 (State.brakeStill s n ok v) := by
  unfold State.brakeStill
  refine Keeps.ite ?_ ?_
  · exact h0
  · extract_lets -merge +onlyGivenNames v1 v2 v3
    clear_value v2
    have hv3 : Keeps z0 v3 := by
      unfold v3
      refine State.modSup_keeps ?_
      exact h0
    clear_value v3
    refine Keeps.ite ?_ ?_
    · refine State.modAx_keeps ?_
      exact hv3
    · exact hv3

theorem State.capture_keeps {z0 : State} {s : State} {n : Slice} {ok : Bool} {pos : Int} {chg : Int} (h0 : Keeps z0 s) : Keeps z0 (State.capture s n ok pos chg) := by
  unfold State.capture
  extract_lets -merge +onlyGivenNames v1 v2 v3 v4 v5 v6 v7 v8 v9 v10 v11 v12 v13 v14 v15 v16 v17 v18 v19 v20 v21 v22 v23 v24 v25
  clear_value v1
  clear_value v2
  clear_value v3
  clear_value v4
  clear_value v5
  clear_value v6
  clear_value v7
  clear_value v8
  clear_value v9
  clear_value v10
  clear_value v11
  clear_value v12
  clear_value v13
  have hv14 : Keeps z0 v14 := by
    unfold v14
    refine State.set_keeps ?_
    exact h0
  clear_value v14
  have hv15 : Keeps z0 v15 := by
    unfold v15
    refine State.set_keeps ?_
    exact hv14
  clear_value v15
  have hv16 : Keeps z0 v16 := by
    unfold v16
    refine State.setB_keeps ?_
    exact hv15
  clear_value v16
  have hv17 : Keeps z0 v17 := by
    unfold v17
    refine Keeps.ite ?_ ?_
    · refine State.set_keeps ?_
      exact hv16
    · exact hv16
  clear_value v17
  have hv18 : Keeps z0 v18 := by
    unfold v18
    refine Keeps.ite ?_ ?_
    · refine State.set_keeps ?_
      exact hv17
    · exact hv17
  clear_value v18
  have hv19 : Keeps z0 v19 := by
    unfold v19
    refine State.modFb_keeps ?_
    exact hv18
  clear_value v19
  have hv20 : Keeps z0 v20 := by
    unfold v20
    refine State.arrive_keeps ?_
    exact hv19
  clear_value v20
  clear_value v21
  have hv22 : Keeps z0 v22 := by
    unfold v22
    refine State.modSup_keeps ?_
    exact hv20
  clear_value v22
  have hv23 : Keeps z0 v23 := by
    unfold v23
    refine State.brakeStill_keeps ?_
    exact hv22
  clear_value v23
  have hv24 : Keeps z0 v24 := by
    unfold v24
    refine Keeps.ite ?_ ?_
    · exact hv23
    · refine State.raiseAx_keeps ?_
      exact hv23
  clear_value v24
  have hv25 : Keeps z0 v25 := by
    unfold v25
    refine Keeps.ite ?_ ?_
    · refine State.raiseAx_keeps ?_
      exact hv24
    · exact hv24
  clear_value v25
  refine Keeps.ite ?_ ?_
  · refine State.raiseAx_keeps ?_
    exact hv25
  · exact hv25

theorem execServoCapture_keeps {z0 : State} {n : Slice} {o : CaptureObs} {s : State} (h0 : Keeps z0 s) : KeepsOut z0 (execServoCapture n o s) := by
  unfold execServoCapture
  refine KeepsOut.ite ?_ ?_
  · refine KeepsOut.next ?_
    exact h0
  · extract_lets -merge +onlyGivenNames v1 v2 v3 v4
    clear_value v1
    have hv2 : Keeps z0 v2 := by
      unfold v2
      refine State.setB_keeps ?_
      exact h0
    clear_value v2
    have hv3 : Keeps z0 v3 := by
      unfold v3
      refine State.modFb_keeps ?_
      exact hv2
    clear_value v3
    clear_value v4
    split
    · extract_lets -merge +onlyGivenNames v5
      have hv5 : Keeps z0 v5 := by
        unfold v5
        refine Keeps.ite ?_ ?_
        · refine State.set_keeps ?_
          exact hv3
        · exact hv3
      clear_value v5
      refine KeepsOut.next ?_
      refine State.capture_keeps ?_
      exact hv5
    · split
      · refine KeepsOut.next ?_
        refine State.capture_keeps ?_
        exact hv3
      · refine KeepsOut.next ?_
        refine State.capture_keeps ?_
        exact hv3
    · refine KeepsOut.next ?_
      refine Keeps.ite ?_ ?_
      · exact hv3
      · refine State.modFb_keeps ?_
        exact hv3
    · refine KeepsOut.next ?_
      refine Keeps.ite ?_ ?_
      · exact hv3
      · refine State.modFb_keeps ?_
        exact hv3
    · extract_lets -merge +onlyGivenNames v6
      clear_value v6
      refine KeepsOut.next ?_
      refine State.capture_keeps ?_
      exact hv3

theorem execSerialFrameComplete_keeps {z0 : State} {n : Slice} {r : SerialFrame} {s : State} (h0 : Keeps z0 s) : KeepsOut z0 (execSerialFrameComplete n r s) := by
  unfold execSerialFrameComplete
  extract_lets -merge +onlyGivenNames v1
  clear_value v1
  refine KeepsOut.ite ?_ ?_
  · refine KeepsOut.next ?_
    exact h0
  · extract_lets -merge +onlyGivenNames v2 v3 v4 v5 v6 v7 v8 v9 v10 v11 v12 v13 v14 v15
    have hv2 : Keeps z0 v2 := by
      unfold v2
      refine State.modFb_keeps ?_
      exact h0
    clear_value v2
    have hv3 : Keeps z0 v3 := by
      unfold v3
      refine Keeps.ite ?_ ?_
      · refine State.set_keeps ?_
        exact hv2
      · exact hv2
    clear_value v3
    clear_value v4
    clear_value v5
    clear_value v6
    clear_value v7
    clear_value v8
    clear_value v9
    clear_value v10
    clear_value v11
    clear_value v12
    clear_value v13
    clear_value v14
    have hv15 : Keeps z0 v15 := by
      unfold v15
      refine Keeps.ite ?_ ?_
      · refine State.raiseAx_keeps ?_
        refine State.set_keeps ?_
        exact hv3
      · exact hv3
    clear_value v15
    refine KeepsOut.ite ?_ ?_
    · refine KeepsOut.next ?_
      refine State.capture_keeps ?_
      refine State.bump_keeps ?_
      exact hv15
    · extract_lets -merge +onlyGivenNames v16 v17
      have hv17 : Keeps z0 v17 := by
        unfold v17
        refine State.modFb_keeps ?_
        exact hv15
      clear_value v17
      refine KeepsOut.next ?_
      refine State.capture_keeps ?_
      exact hv17

theorem execFbvalidWaitElapsed_keeps {z0 : State} {n : Slice} {s : State} (h0 : Keeps z0 s) : KeepsOut z0 (execFbvalidWaitElapsed n s) := by
  unfold execFbvalidWaitElapsed
  refine KeepsOut.next ?_
  refine Keeps.ite ?_ ?_
  · refine State.modFb_keeps ?_
    exact h0
  · exact h0

theorem execFbvalidTimeout_keeps {z0 : State} {n : Slice} {s : State} (h0 : Keeps z0 s) : KeepsOut z0 (execFbvalidTimeout n s) := by
  unfold execFbvalidTimeout
  refine KeepsOut.next ?_
  refine Keeps.ite ?_ ?_
  · refine State.raiseAx_keeps ?_
    exact h0
  · exact h0

theorem execEv5InRegulation_keeps {z0 : State} {n : Slice} {s : State} (h0 : Keeps z0 s) : KeepsOut z0 (execEv5InRegulation n s) := by
  unfold execEv5InRegulation
  refine KeepsOut.ite ?_ ?_
  · extract_lets -merge +onlyGivenNames v1 v2
    have hv1 : Keeps z0 v1 := by
      unfold v1
      refine State.set_keeps ?_
      exact h0
    clear_value v1
    have hv2 : Keeps z0 v2 := by
      unfold v2
      refine State.set_keeps ?_
      exact hv1
    clear_value v2
    refine KeepsOut.next ?_
    refine State.modFb_keeps ?_
    exact hv2
  · refine KeepsOut.next ?_
    exact h0

theorem execEv5CurrentLimit_keeps {z0 : State} {n : Slice} {s : State} (h0 : Keeps z0 s) : KeepsOut z0 (execEv5CurrentLimit n s) := by
  unfold execEv5CurrentLimit
  refine KeepsOut.ite ?_ ?_
  · extract_lets -merge +onlyGivenNames v1 v2 v3
    have hv1 : Keeps z0 v1 := by
      unfold v1
      refine State.set_keeps ?_
      exact h0
    clear_value v1
    have hv2 : Keeps z0 v2 := by
      unfold v2
      refine State.set_keeps ?_
      exact hv1
    clear_value v2
    have hv3 : Keeps z0 v3 := by
      unfold v3
      refine State.set_keeps ?_
      exact hv2
    clear_value v3
    refine KeepsOut.ite ?_ ?_
    · refine KeepsOut.next ?_
      refine State.raiseAx_keeps ?_
      refine State.modFb_keeps ?_
      exact hv3
    · refine KeepsOut.next ?_
      refine State.modFb_keeps ?_
      exact hv3
  · refine KeepsOut.next ?_
    exact h0

theorem execEv5Retry_keeps {z0 : State} {n : Slice} {s : State} (h0 : Keeps z0 s) : KeepsOut z0 (execEv5Retry n s) := by
  unfold execEv5Retry
  refine KeepsOut.next ?_
  refine Keeps.ite ?_ ?_
  · refine State.modFb_keeps ?_
    exact h0
  · exact h0

theorem State.fbStart_keeps {z0 : State} {s : State} {n : Slice} (h0 : Keeps z0 s) : Keeps z0 (State.fbStart s n) := by
  unfold State.fbStart
  extract_lets -merge +onlyGivenNames v1 v2 v3 v4
  clear_value v1
  have hv2 : Keeps z0 v2 := by
    unfold v2
    exact Keeps.frame h0 rfl rfl rfl rfl rfl rfl rfl rfl rfl rfl
  clear_value v2
  clear_value v3
  have hv4 : Keeps z0 v4 := by
    unfold v4
    refine State.setB_keeps ?_
    exact hv2
  clear_value v4
  extract_lets -merge +onlyGivenNames v5
  have hv5 : Keeps z0 v5 := by
    unfold v5
    refine State.each_keeps ?_ ?_
    · exact hv4
    · intro s6 x7 x8
      refine State.toReset_keeps ?_
      exact x8
  clear_value v5
  refine State.each_keeps ?_ ?_
  · exact hv5
  · intro s9 x10 x11
    refine State.each_keeps ?_ ?_
    · exact x11
    · intro s12 x13 x14
      refine State.toReset_keeps ?_
      exact x14

/-! Supervision -/

theorem State.showLimits_keeps {z0 : State} {s : State} {n : Slice} (h0 : Keeps z0 s) : Keeps z0 (State.showLimits s n) := by
  unfold State.showLimits
  refine State.setB_keeps ?_
  refine State.setB_keeps ?_
  exact h0

theorem State.feStep_keeps {z0 : State} {s : State} {n : Slice} {fe : Int} (h0 : Keeps z0 s) : Keeps z0 (State.feStep s n fe) := by
  unfold State.feStep
  extract_lets -merge +onlyGivenNames v1 v2 v3 v4 v5
  clear_value v1
  clear_value v2
  clear_value v3
  have hv4 : Keeps z0 v4 := by
    unfold v4
    refine Keeps.ite ?_ ?_
    · refine State.raiseAx_keeps ?_
      refine State.bump_keeps ?_
      exact h0
    · exact h0
  clear_value v4
  have hv5 : Keeps z0 v5 := by
    unfold v5
    refine State.setB_keeps ?_
    exact hv4
  clear_value v5
  split
  extract_lets -merge +onlyGivenNames v6 v7 v8 v9
  clear_value v6
  have hv7 : Keeps z0 v7 := by
    unfold v7
    refine State.set_keeps ?_
    exact hv5
  clear_value v7
  have hv8 : Keeps z0 v8 := by
    unfold v8
    refine State.setB_keeps ?_
    exact hv7
  clear_value v8
  refine Keeps.ite ?_ ?_
  · extract_lets -merge +onlyGivenNames v10
    clear_value v10
    refine State.raise_keeps ?_
    refine State.bump_keeps ?_
    exact hv8
  · exact hv8

theorem State.speedStep_keeps {z0 : State} {s : State} {n : Slice} {v : Int} (h0 : Keeps z0 s) : Keeps z0 (State.speedStep s n v) := by
  unfold State.speedStep
  extract_lets -merge +onlyGivenNames v1 v2 v3
  clear_value v2
  have hv3 : Keeps z0 v3 := by
    unfold v3
    refine State.modSup_keeps ?_
    exact h0
  clear_value v3
  refine Keeps.ite ?_ ?_
  · refine State.raiseAx_keeps ?_
    exact hv3
  · exact hv3

theorem State.limTrip_keeps {z0 : State} {s : State} {n : Slice} {code : Nat} {sev : Nat} (h0 : Keeps z0 s) : Keeps z0 (State.limTrip s n code sev) := by
  unfold State.limTrip
  refine State.raiseAx_keeps ?_
  refine State.bump_keeps ?_
  exact h0

theorem State.travelStep_keeps {z0 : State} {s : State} {n : Slice} {dir : Int} {pc : Int} {p : Int} (h0 : Keeps z0 s) : Keeps z0 (State.travelStep s n dir pc p) := by
  unfold State.travelStep
  extract_lets -merge +onlyGivenNames v1 v2 v3 v4 v5 v6 v7 v8
  clear_value v1
  clear_value v2
  clear_value v3
  clear_value v4
  clear_value v5
  have hv6 : Keeps z0 v6 := by
    unfold v6
    refine State.setB_keeps ?_
    exact h0
  clear_value v6
  have hv7 : Keeps z0 v7 := by
    unfold v7
    refine State.setB_keeps ?_
    exact hv6
  clear_value v7
  have hv8 : Keeps z0 v8 := by
    unfold v8
    refine State.setB_keeps ?_
    exact hv7
  clear_value v8
  refine Keeps.ite ?_ ?_
  · exact hv8
  · extract_lets -merge +onlyGivenNames v9 v10 v11 v12 v13 v14
    clear_value v10
    clear_value v11
    clear_value v12
    have hv13 : Keeps z0 v13 := by
      unfold v13
      refine Keeps.ite ?_ ?_
      · exact hv8
      · refine State.modSup_keeps ?_
        exact hv8
    clear_value v13
    have hv14 : Keeps z0 v14 := by
      unfold v14
      refine Keeps.ite ?_ ?_
      · refine State.limTrip_keeps ?_
        exact hv13
      · exact hv13
    clear_value v14
    refine Keeps.ite ?_ ?_
    · refine State.limTrip_keeps ?_
      exact hv14
    · exact hv14

theorem State.switchStep_keeps {z0 : State} {s : State} {n : Slice} {dir : Int} {sev : Nat} (h0 : Keeps z0 s) : Keeps z0 (State.switchStep s n dir sev) := by
  unfold State.switchStep
  extract_lets -merge +onlyGivenNames v1
  have hv1 : Keeps z0 v1 := by
    unfold v1
    refine State.showLimits_keeps ?_
    exact h0
  clear_value v1
  refine Keeps.ite ?_ ?_
  · refine State.limTrip_keeps ?_
    exact hv1
  · refine Keeps.ite ?_ ?_
    · refine State.limTrip_keeps ?_
      exact hv1
    · refine Keeps.ite ?_ ?_
      · refine State.limTrip_keeps ?_
        exact hv1
      · exact hv1

theorem State.dualStep_keeps {z0 : State} {s : State} {n : Slice} {c : Capture} (h0 : Keeps z0 s) : Keeps z0 (State.dualStep s n c) := by
  unfold State.dualStep
  refine Keeps.ite ?_ ?_
  · exact h0
  · split
    · exact h0
    · extract_lets -merge +onlyGivenNames v1 v2 v3 v4 v5 v6 v7
      clear_value v1
      clear_value v2
      clear_value v3
      clear_value v4
      clear_value v5
      have hv6 : Keeps z0 v6 := by
        unfold v6
        refine State.setS_keeps ?_
        exact h0
      clear_value v6
      clear_value v7
      refine Keeps.ite ?_ ?_
      · refine State.raiseAx_keeps ?_
        exact hv6
      · exact hv6

theorem State.inposStep_keeps {z0 : State} {s : State} {n : Slice} {fe : Int} (h0 : Keeps z0 s) : Keeps z0 (State.inposStep s n fe) := by
  unfold State.inposStep
  extract_lets -merge +onlyGivenNames v1 v2
  clear_value v1
  refine Keeps.ite ?_ ?_
  · refine State.modProf_keeps ?_
    refine State.set_keeps ?_
    exact h0
  · refine Keeps.ite ?_ ?_
    · extract_lets -merge +onlyGivenNames v3 v4
      clear_value v3
      have hv4 : Keeps z0 v4 := by
        unfold v4
        refine State.modProf_keeps ?_
        exact h0
      clear_value v4
      refine Keeps.ite ?_ ?_
      · refine State.set_keeps ?_
        exact hv4
      · exact hv4
    · exact h0

theorem State.stallStep_keeps {z0 : State} {s : State} {n : Slice} {cmdV : Int} (h0 : Keeps z0 s) : Keeps z0 (State.stallStep s n cmdV) := by
  unfold State.stallStep
  refine Keeps.ite ?_ ?_
  · exact h0
  · extract_lets -merge +onlyGivenNames v1 v2 v3 v4 v5
    clear_value v1
    have hv2 : Keeps z0 v2 := by
      unfold v2
      refine State.modProf_keeps ?_
      exact h0
    clear_value v2
    clear_value v4
    clear_value v5
    refine State.modProf_keeps ?_
    exact hv2

theorem State.stillStep_keeps {z0 : State} {s : State} {n : Slice} {c : Capture} {emfLow : Bool} (h0 : Keeps z0 s) : Keeps z0 (State.stillStep s n c emfLow) := by
  unfold State.stillStep
  extract_lets -merge +onlyGivenNames v1 v2 v3 v4
  have hv2 : Keeps z0 v2 := by
    unfold v2
    refine State.modSup_keeps ?_
    exact h0
  clear_value v2
  clear_value v3
  clear_value v4
  refine Keeps.ite ?_ ?_
  · refine State.standstill_keeps ?_
    exact hv2
  · refine Keeps.ite ?_ ?_
    · refine State.modSup_keeps ?_
      refine State.set_keeps ?_
      refine State.standstill_keeps ?_
      exact hv2
    · exact hv2

theorem execSupervisionStep_keeps {z0 : State} {n : Slice} {emfLow : Bool} {s : State} (h0 : Keeps z0 s) : KeepsOut z0 (execSupervisionStep n emfLow s) := by
  unfold execSupervisionStep
  refine KeepsOut.ite ?_ ?_
  · refine KeepsOut.next ?_
    exact h0
  · split
    · refine KeepsOut.next ?_
      exact h0
    · extract_lets -merge +onlyGivenNames v1 v2 v3 v4 v5 v6 v7 v8 v9 v10 v11 v12 v13 v14 v15 v16 v17 v18 v19 v20 v21 v22
      have hv1 : Keeps z0 v1 := by
        unfold v1
        refine State.modSup_keeps ?_
        exact h0
      clear_value v1
      clear_value v2
      clear_value v3
      clear_value v4
      clear_value v5
      clear_value v6
      clear_value v7
      clear_value v8
      clear_value v9
      clear_value v10
      clear_value v11
      clear_value v12
      clear_value v13
      have hv14 : Keeps z0 v14 := by
        unfold v14
        refine State.setS_keeps ?_
        exact hv1
      clear_value v14
      have hv15 : Keeps z0 v15 := by
        unfold v15
        refine Keeps.ite ?_ ?_
        · refine State.feStep_keeps ?_
          exact hv14
        · exact hv14
      clear_value v15
      have hv16 : Keeps z0 v16 := by
        unfold v16
        refine Keeps.ite ?_ ?_
        · refine State.speedStep_keeps ?_
          exact hv15
        · exact hv15
      clear_value v16
      have hv17 : Keeps z0 v17 := by
        unfold v17
        refine State.travelStep_keeps ?_
        exact hv16
      clear_value v17
      have hv18 : Keeps z0 v18 := by
        unfold v18
        refine State.switchStep_keeps ?_
        exact hv17
      clear_value v18
      have hv19 : Keeps z0 v19 := by
        unfold v19
        refine Keeps.ite ?_ ?_
        · refine State.dualStep_keeps ?_
          exact hv18
        · exact hv18
      clear_value v19
      have hv20 : Keeps z0 v20 := by
        unfold v20
        refine Keeps.ite ?_ ?_
        · refine State.inposStep_keeps ?_
          exact hv19
        · exact hv19
      clear_value v20
      have hv21 : Keeps z0 v21 := by
        unfold v21
        refine State.stallStep_keeps ?_
        exact hv20
      clear_value v21
      have hv22 : Keeps z0 v22 := by
        unfold v22
        refine State.modSup_keeps ?_
        exact hv21
      clear_value v22
      refine KeepsOut.next ?_
      refine State.stillStep_keeps ?_
      exact hv22

theorem State.svcmd1_keeps {z0 : State} {s : State} {n : Slice} {seq : Nat} (h0 : Keeps z0 s) : Keeps z0 (State.svcmd1 s n seq) := by
  unfold State.svcmd1
  refine Keeps.ite ?_ ?_
  · exact h0
  · split
    · refine State.bump_keeps ?_
      exact h0
    · refine Keeps.ite ?_ ?_
      · refine Keeps.ite ?_ ?_
        · exact h0
        · extract_lets -merge +onlyGivenNames v1
          clear_value v1
          refine State.modSup_keeps ?_
          exact h0
      · refine State.bump_keeps ?_
        exact h0

theorem execSvcmd1Write_keeps {z0 : State} {n : Slice} {seq : Nat} {s : State} (h0 : Keeps z0 s) : KeepsOut z0 (execSvcmd1Write n seq s) := by
  unfold execSvcmd1Write
  refine KeepsOut.next ?_
  refine State.svcmd1_keeps ?_
  exact h0

theorem execCmdstale_keeps {z0 : State} {n : Slice} {s : State} (h0 : Keeps z0 s) : KeepsOut z0 (execCmdstale n s) := by
  unfold execCmdstale
  refine KeepsOut.ite ?_ ?_
  · extract_lets -merge +onlyGivenNames v1
    have hv1 : Keeps z0 v1 := by
      unfold v1
      refine State.modSup_keeps ?_
      exact h0
    clear_value v1
    refine KeepsOut.next ?_
    refine State.raiseAx_keeps ?_
    refine State.bump_keeps ?_
    exact hv1
  · refine KeepsOut.next ?_
    exact h0

theorem execStoptime_keeps {z0 : State} {n : Slice} {s : State} (h0 : Keeps z0 s) : KeepsOut z0 (execStoptime n s) := by
  unfold execStoptime
  refine KeepsOut.next ?_
  refine Keeps.ite ?_ ?_
  · refine State.raiseAx_keeps ?_
    exact h0
  · exact h0

theorem execFreezeSwitchRead_keeps {z0 : State} {n : Slice} {s : State} (h0 : Keeps z0 s) : KeepsOut z0 (execFreezeSwitchRead n s) := by
  unfold execFreezeSwitchRead
  refine KeepsOut.ite ?_ ?_
  · refine KeepsOut.next ?_
    exact h0
  · extract_lets -merge +onlyGivenNames v1 v2 v3
    clear_value v1
    have hv2 : Keeps z0 v2 := by
      unfold v2
      refine State.switchStep_keeps ?_
      exact h0
    clear_value v2
    clear_value v3
    split
    · refine KeepsOut.next ?_
      exact hv2
    · extract_lets -merge +onlyGivenNames v4 v5 v6
      clear_value v4
      clear_value v5
      clear_value v6
      refine KeepsOut.next ?_
      refine Keeps.ite ?_ ?_
      · refine State.limTrip_keeps ?_
        exact hv2
      · exact hv2

theorem execStall_keeps {z0 : State} {n : Slice} {s : State} (h0 : Keeps z0 s) : KeepsOut z0 (execStall n s) := by
  unfold execStall
  refine KeepsOut.ite ?_ ?_
  · extract_lets -merge +onlyGivenNames v1
    have hv1 : Keeps z0 v1 := by
      unfold v1
      refine State.modProf_keeps ?_
      exact h0
    clear_value v1
    split
    · refine KeepsOut.ite ?_ ?_
      · refine KeepsOut.next ?_
        refine State.homeRef_keeps ?_
        refine State.bump_keeps ?_
        exact hv1
      · extract_lets -merge +onlyGivenNames v2
        have hv2 : Keeps z0 v2 := by
          unfold v2
          refine State.set_keeps ?_
          refine State.set_keeps ?_
          refine State.bump_keeps ?_
          exact hv1
        clear_value v2
        refine KeepsOut.next ?_
        refine State.raiseAx_keeps ?_
        exact hv2
    · extract_lets -merge +onlyGivenNames v3
      have hv3 : Keeps z0 v3 := by
        unfold v3
        refine State.set_keeps ?_
        refine State.set_keeps ?_
        refine State.bump_keeps ?_
        exact hv1
      clear_value v3
      refine KeepsOut.next ?_
      refine State.raiseAx_keeps ?_
      exact hv3
  · refine KeepsOut.next ?_
    exact h0

theorem State.rampCycle_keeps {z0 : State} {s : State} {n : Slice} (h0 : Keeps z0 s) : Keeps z0 (State.rampCycle s n) := by
  unfold State.rampCycle
  split
  · exact h0
  · extract_lets -merge +onlyGivenNames v1 v2 v3 v4
    clear_value v1
    clear_value v2
    have hv3 : Keeps z0 v3 := by
      unfold v3
      refine State.setS_keeps ?_
      exact h0
    clear_value v3
    have hv4 : Keeps z0 v4 := by
      unfold v4
      refine State.setS_keeps ?_
      exact hv3
    clear_value v4
    refine State.modSup_keeps ?_
    exact hv4

theorem State.supStart_keeps {z0 : State} {s : State} {n : Slice} (h0 : Keeps z0 s) : Keeps z0 (State.supStart s n) := by
  unfold State.supStart
  extract_lets -merge +onlyGivenNames v1 v2 v3 v4 v5 v6 v7 v8
  clear_value v1
  clear_value v2
  clear_value v3
  clear_value v4
  clear_value v5
  have hv6 : Keeps z0 v6 := by
    unfold v6
    refine State.set_keeps ?_
    exact h0
  clear_value v6
  have hv7 : Keeps z0 v7 := by
    unfold v7
    refine State.set_keeps ?_
    exact hv6
  clear_value v7
  have hv8 : Keeps z0 v8 := by
    unfold v8
    refine State.set_keeps ?_
    exact hv7
  clear_value v8
  refine State.modSup_keeps ?_
  exact hv8

/-! Motion -/

theorem State.takeIf_keeps {z0 : State} {s : State} {p : Staged → Bool} (h0 : Keeps z0 s) : Keeps z0 (State.takeIf s p) := by
  unfold State.takeIf
  extract_lets -merge +onlyGivenNames v1
  have hv1 : Keeps z0 v1 := by
    unfold v1
    refine State.applyStaged_keeps ?_
    exact h0
  clear_value v1
  exact Keeps.frame hv1 rfl rfl rfl rfl rfl rfl rfl rfl rfl rfl

theorem State.takeProfile_keeps {z0 : State} {s : State} {n : Slice} (h0 : Keeps z0 s) : Keeps z0 (State.takeProfile s n) := by
  unfold State.takeProfile
  extract_lets -merge +onlyGivenNames v1 v2 v3
  clear_value v1
  clear_value v2
  have hv3 : Keeps z0 v3 := by
    unfold v3
    refine State.takeIf_keeps ?_
    exact h0
  clear_value v3
  refine Keeps.ite ?_ ?_
  · refine State.modProf_keeps ?_
    exact hv3
  · exact hv3

theorem State.refuseMove_keeps {z0 : State} {s : State} {n : Slice} {code : Nat} (h0 : Keeps z0 s) : Keeps z0 (State.refuseMove s n code) := by
  unfold State.refuseMove
  refine State.raiseAx_keeps ?_
  refine State.set_keeps ?_
  exact h0

theorem State.acceptMove_keeps {z0 : State} {s : State} {n : Slice} (h0 : Keeps z0 s) : Keeps z0 (State.acceptMove s n) := by
  unfold State.acceptMove
  extract_lets -merge +onlyGivenNames v1 v2
  have hv1 : Keeps z0 v1 := by
    unfold v1
    refine State.set_keeps ?_
    exact h0
  clear_value v1
  have hv2 : Keeps z0 v2 := by
    unfold v2
    refine State.set_keeps ?_
    exact hv1
  clear_value v2
  refine State.modProf_keeps ?_
  exact hv2

theorem State.startMove_keeps {z0 : State} {s : State} {n : Slice} {t : Int} {probe : Bool} (h0 : Keeps z0 s) : Keeps z0 (State.startMove s n t probe) := by
  unfold State.startMove
  extract_lets -merge +onlyGivenNames v1
  have hv1 : Keeps z0 v1 := by
    unfold v1
    refine State.set_keeps ?_
    exact h0
  clear_value v1
  refine State.modProf_keeps ?_
  exact hv1

theorem State.moveTo_keeps {z0 : State} {s : State} {n : Slice} {rel : Bool} {ssw : Bool} {ssel : Nat} {probe : Bool} (h0 : Keeps z0 s) : Keeps z0 (State.moveTo s n rel ssw ssel probe) := by
  unfold State.moveTo
  extract_lets -merge +onlyGivenNames v1
  have hv1 : Keeps z0 v1 := by
    unfold v1
    refine State.takeProfile_keeps ?_
    exact h0
  clear_value v1
  split
  · refine State.refuseMove_keeps ?_
    exact hv1
  · extract_lets -merge +onlyGivenNames v2 v3
    clear_value v2
    clear_value v3
    refine Keeps.ite ?_ ?_
    · refine State.refuseMove_keeps ?_
      exact hv1
    · extract_lets -merge +onlyGivenNames v4
      have hv4 : Keeps z0 v4 := by
        unfold v4
        refine State.acceptMove_keeps ?_
        exact hv1
      clear_value v4
      refine Keeps.ite ?_ ?_
      · refine State.modProf_keeps ?_
        refine State.set_keeps ?_
        exact hv4
      · refine State.startMove_keeps ?_
        exact hv4

theorem State.jogTo_keeps {z0 : State} {s : State} {n : Slice} {negative : Bool} (h0 : Keeps z0 s) : Keeps z0 (State.jogTo s n negative) := by
  unfold State.jogTo
  extract_lets -merge +onlyGivenNames v1
  have hv1 : Keeps z0 v1 := by
    unfold v1
    refine State.takeProfile_keeps ?_
    exact h0
  clear_value v1
  split
  · refine State.refuseMove_keeps ?_
    exact hv1
  · extract_lets -merge +onlyGivenNames v2 v3 v4
    have hv2 : Keeps z0 v2 := by
      unfold v2
      refine State.acceptMove_keeps ?_
      exact hv1
    clear_value v2
    have hv3 : Keeps z0 v3 := by
      unfold v3
      refine State.set_keeps ?_
      exact hv2
    clear_value v3
    clear_value v4
    refine State.modProf_keeps ?_
    exact hv3

theorem execMove_keeps {z0 : State} {n : Slice} {ssw : Bool} {ssel : Fin 4} {probe : Bool} {s : State} (h0 : Keeps z0 s) : KeepsOut z0 (execMove n ssw ssel probe s) := by
  unfold execMove
  refine KeepsOut.next ?_
  refine State.moveTo_keeps ?_
  exact h0

theorem execMoveRel_keeps {z0 : State} {n : Slice} {ssw : Bool} {ssel : Fin 4} {probe : Bool} {s : State} (h0 : Keeps z0 s) : KeepsOut z0 (execMoveRel n ssw ssel probe s) := by
  unfold execMoveRel
  refine KeepsOut.next ?_
  refine State.moveTo_keeps ?_
  exact h0

theorem execJog_keeps {z0 : State} {n : Slice} {negative : Bool} {s : State} (h0 : Keeps z0 s) : KeepsOut z0 (execJog n negative s) := by
  unfold execJog
  refine KeepsOut.next ?_
  refine State.jogTo_keeps ?_
  exact h0

theorem State.homePhase_keeps {z0 : State} {s : State} {n : Slice} {h : HomeDyn} {ph : Nat} (h0 : Keeps z0 s) : Keeps z0 (State.homePhase s n h ph) := by
  unfold State.homePhase
  extract_lets -merge +onlyGivenNames v1 v2
  clear_value v1
  clear_value v2
  refine State.modProf_keeps ?_
  exact h0

theorem State.homeTo_keeps {z0 s : State} {n : Slice} (h0 : Keeps z0 s) : Keeps z0 (State.homeTo s n) := by
  unfold State.homeTo
  extract_lets m code s1 s2 s3 s4 h w pos
  have h4 : Keeps z0 s4 := Keeps.ite (State.set_keeps (State.set_keeps (State.set_keeps (State.acceptMove_keeps h0))))
    (State.set_keeps (State.set_keeps (State.acceptMove_keeps h0)))
  clear_value code pos w h s4 s3 s2 s1 m
  split
  · exact State.refuseMove_keeps h0
  split
  · exact State.homePhase_keeps (State.setIlim_keeps (State.set_keeps h4))
  · exact State.modProf_keeps h4
  · exact State.homePhase_keeps h4
  · exact State.homePhase_keeps h4

theorem execHome_keeps {z0 : State} {n : Slice} {s : State} (h0 : Keeps z0 s) : KeepsOut z0 (execHome n s) := by
  unfold execHome
  refine KeepsOut.next ?_
  refine State.homeTo_keeps ?_
  exact h0

theorem State.homeAbort_keeps {z0 : State} {s : State} {n : Slice} (h0 : Keeps z0 s) : Keeps z0 (State.homeAbort s n) := by
  unfold State.homeAbort
  refine Keeps.ite ?_ ?_
  · refine State.refuseMove_keeps ?_
    exact h0
  · refine Keeps.ite ?_ ?_
    · refine State.refuseMove_keeps ?_
      exact h0
    · extract_lets -merge +onlyGivenNames v1
      have hv1 : Keeps z0 v1 := by
        unfold v1
        refine State.set_keeps ?_
        exact h0
      clear_value v1
      refine Keeps.ite ?_ ?_
      · exact hv1
      · extract_lets -merge +onlyGivenNames v2 v3
        have hv2 : Keeps z0 v2 := by
          unfold v2
          refine State.endHoming_keeps ?_
          refine State.set_keeps ?_
          exact hv1
        clear_value v2
        clear_value v3
        refine State.modProf_keeps ?_
        exact hv2

theorem execHomeAbort_keeps {z0 : State} {n : Slice} {s : State} (h0 : Keeps z0 s) : KeepsOut z0 (execHomeAbort n s) := by
  unfold execHomeAbort
  refine KeepsOut.next ?_
  refine State.homeAbort_keeps ?_
  exact h0

theorem execHardstopReference_keeps {z0 : State} {n : Slice} {s : State} (h0 : Keeps z0 s) : KeepsOut z0 (execHardstopReference n s) := by
  unfold execHardstopReference
  refine KeepsOut.next ?_
  split
  · refine Keeps.ite ?_ ?_
    · refine State.homeRef_keeps ?_
      exact h0
    · exact h0
  · exact h0

theorem State.homeInput_keeps {z0 : State} {s : State} {ch : Nat} {stamp : Stamp} (h0 : Keeps z0 s) : Keeps z0 (State.homeInput s ch stamp) := by
  unfold State.homeInput
  refine State.each_keeps ?_ ?_
  · exact h0
  · intro s1 x2 x3
    split
    · exact x3
    · refine Keeps.ite ?_ ?_
      · exact x3
      · refine Keeps.ite ?_ ?_
        · refine State.homeRef_keeps ?_
          exact x3
        · refine Keeps.ite ?_ ?_
          · refine State.modProf_keeps ?_
            exact x3
          · exact x3

theorem State.homeSearch_keeps {z0 : State} {s : State} {n : Slice} {h : HomeDyn} (h0 : Keeps z0 s) : Keeps z0 (State.homeSearch s n h) := by
  unfold State.homeSearch
  extract_lets -merge +onlyGivenNames v1 v2 v3 v4
  clear_value v1
  clear_value v2
  have hv3 : Keeps z0 v3 := by
    unfold v3
    refine Keeps.ite ?_ ?_
    · split
      · refine Keeps.ite ?_ ?_
        · refine State.homePhase_keeps ?_
          exact h0
        · exact h0
      · refine Keeps.ite ?_ ?_
        · refine State.homePhase_keeps ?_
          exact h0
        · exact h0
      · refine Keeps.ite ?_ ?_
        · exact h0
        · refine Keeps.ite ?_ ?_
          · refine State.homeRef_keeps ?_
            exact h0
          · refine State.modProf_keeps ?_
            exact h0
      · exact h0
    · exact h0
  clear_value v3
  clear_value v4
  refine Keeps.ite ?_ ?_
  · refine State.raiseAx_keeps ?_
    refine State.endHoming_keeps ?_
    exact hv3
  · exact hv3

theorem State.homeShift_keeps {z0 : State} {s : State} {n : Slice} {d : Int} (h0 : Keeps z0 s) : Keeps z0 (State.homeShift s n d) := by
  unfold State.homeShift
  extract_lets -merge +onlyGivenNames v1 v2 v3 v4 v5 v6 v7 v8 v9 v10 v11
  clear_value v1
  have hv2 : Keeps z0 v2 := by
    unfold v2
    refine State.modFb_keeps ?_
    exact h0
  clear_value v2
  have hv3 : Keeps z0 v3 := by
    unfold v3
    refine State.setS_keeps ?_
    exact hv2
  clear_value v3
  have hv4 : Keeps z0 v4 := by
    unfold v4
    refine State.modSup_keeps ?_
    exact hv3
  clear_value v4
  have hv5 : Keeps z0 v5 := by
    unfold v5
    refine State.modSup_keeps ?_
    exact hv4
  clear_value v5
  have hv6 : Keeps z0 v6 := by
    unfold v6
    refine State.setS_keeps ?_
    exact hv5
  clear_value v6
  clear_value v7
  have hv8 : Keeps z0 v8 := by
    unfold v8
    refine State.modProf_keeps ?_
    exact hv6
  clear_value v8
  have hv9 : Keeps z0 v9 := by
    unfold v9
    refine State.each_keeps ?_ ?_
    · exact hv8
    · intro s12 x13 x14
      refine Keeps.ite ?_ ?_
      · refine State.modProf_keeps ?_
        exact x14
      · exact x14
  clear_value v9
  have hv10 : Keeps z0 v10 := by
    unfold v10
    refine State.set_keeps ?_
    exact hv9
  clear_value v10
  have hv11 : Keeps z0 v11 := by
    unfold v11
    refine State.set_keeps ?_
    exact hv10
  clear_value v11
  refine State.set_keeps ?_
  exact hv11

theorem State.homeCycle_keeps {z0 : State} {s : State} {n : Slice} (h0 : Keeps z0 s) : Keeps z0 (State.homeCycle s n) := by
  unfold State.homeCycle
  split
  · exact h0
  · split
    · extract_lets -merge +onlyGivenNames v1 v2
      have hv1 : Keeps z0 v1 := by
        unfold v1
        refine State.homeShift_keeps ?_
        exact h0
      clear_value v1
      clear_value v2
      split
      · extract_lets -merge +onlyGivenNames v3
        have hv3 : Keeps z0 v3 := by
          unfold v3
          refine State.homeRestore_keeps ?_
          exact hv1
        clear_value v3
        refine State.modProf_keeps ?_
        exact hv3
      · refine State.modProf_keeps ?_
        exact hv1
      · refine State.homePhase_keeps ?_
        exact hv1
    · refine Keeps.ite ?_ ?_
      · refine State.homeSearch_keeps ?_
        exact h0
      · refine Keeps.ite ?_ ?_
        · exact h0
        · refine Keeps.ite ?_ ?_
          · refine State.homePhase_keeps ?_
            exact h0
          · extract_lets -merge +onlyGivenNames v4
            have hv4 : Keeps z0 v4 := by
              unfold v4
              refine State.endHoming_keeps ?_
              exact h0
            clear_value v4
            refine State.modProf_keeps ?_
            exact hv4

theorem State.planEnd_keeps {z0 : State} {s : State} {n : Slice} {x : Int} (h0 : Keeps z0 s) : Keeps z0 (State.planEnd s n x) := by
  unfold State.planEnd
  extract_lets -merge +onlyGivenNames v1 v2
  have hv1 : Keeps z0 v1 := by
    unfold v1
    refine Keeps.ite ?_ ?_
    · exact h0
    · refine State.set_keeps ?_
      exact h0
  clear_value v1
  have hv2 : Keeps z0 v2 := by
    unfold v2
    refine Keeps.ite ?_ ?_
    · refine State.raiseAx_keeps ?_
      refine State.set_keeps ?_
      exact hv1
    · exact hv1
  clear_value v2
  refine State.modProf_keeps ?_
  exact hv2

theorem State.planCycle_keeps {z0 : State} {s : State} {n : Slice} (h0 : Keeps z0 s) : Keeps z0 (State.planCycle s n) := by
  unfold State.planCycle
  split
  · exact h0
  · extract_lets -merge +onlyGivenNames v1 v2
    clear_value v1
    clear_value v2
    refine Keeps.ite ?_ ?_
    · refine State.planEnd_keeps ?_
      exact h0
    · refine State.modProf_keeps ?_
      exact h0

theorem State.replanNow_keeps {z0 : State} {s : State} {n : Slice} (h0 : Keeps z0 s) : Keeps z0 (State.replanNow s n) := by
  unfold State.replanNow
  refine Keeps.ite ?_ ?_
  · exact h0
  · extract_lets -merge +onlyGivenNames v1 v2
    have hv1 : Keeps z0 v1 := by
      unfold v1
      refine State.modProf_keeps ?_
      exact h0
    clear_value v1
    clear_value v2
    split
    · exact hv1
    · extract_lets -merge +onlyGivenNames v3
      clear_value v3
      refine State.modProf_keeps ?_
      exact hv1
    · extract_lets -merge +onlyGivenNames v4
      clear_value v4
      refine Keeps.ite ?_ ?_
      · exact hv1
      · extract_lets -merge +onlyGivenNames v5
        clear_value v5
        extract_lets -merge +onlyGivenNames v6
        clear_value v6
        refine State.modProf_keeps ?_
        exact hv1

theorem State.armedStart_keeps {z0 : State} {s : State} {n : Slice} (h0 : Keeps z0 s) : Keeps z0 (State.armedStart s n) := by
  unfold State.armedStart
  split
  · refine Keeps.ite ?_ ?_
    · refine State.startMove_keeps ?_
      exact h0
    · exact h0
  · exact h0

theorem State.fireLine_keeps {z0 : State} {s : State} {k : Nat} (h0 : Keeps z0 s) : Keeps z0 (State.fireLine s k) := by
  unfold State.fireLine
  extract_lets -merge +onlyGivenNames v1 v2
  have hv1 : Keeps z0 v1 := by
    unfold v1
    refine State.bump_keeps ?_
    exact h0
  clear_value v1
  have hv2 : Keeps z0 v2 := by
    unfold v2
    refine State.each_keeps ?_ ?_
    · exact hv1
    · intro s3 x4 x5
      refine State.modProf_keeps ?_
      exact x5
  clear_value v2
  refine State.each_keeps ?_ ?_
  · exact hv2
  · intro s6 x7 x8
    refine State.modGrp_keeps ?_
    exact x8

theorem State.fireSource_keeps {z0 : State} {s : State} {src : Nat} {par : Nat} {falling : Bool} (h0 : Keeps z0 s) : Keeps z0 (State.fireSource s src par falling) := by
  unfold State.fireSource
  refine State.each_keeps ?_ ?_
  · exact h0
  · intro s1 x2 x3
    refine Keeps.ite ?_ ?_
    · refine State.fireLine_keeps ?_
      exact x3
    · exact x3

theorem execFire_keeps {z0 : State} {k : Fin 4} {s : State} (h0 : Keeps z0 s) : KeepsOut z0 (execFire k s) := by
  unfold execFire
  refine KeepsOut.next ?_
  refine State.fireLine_keeps ?_
  exact h0

theorem State.gearEngage_keeps {z0 : State} {s : State} {n : Slice} {pos : Int} (h0 : Keeps z0 s) : KeepsP z0 (State.gearEngage s n pos) := by
  unfold State.gearEngage
  extract_lets -merge +onlyGivenNames v1
  clear_value v1
  refine KeepsP.ite ?_ ?_
  · refine KeepsP.mk ?_
    exact h0
  · extract_lets -merge +onlyGivenNames v2 v3
    clear_value v2
    clear_value v3
    refine KeepsP.mk ?_
    refine State.modProf_keeps ?_
    exact h0

theorem State.camSwap_keeps {z0 : State} {s : State} {n : Slice} (h0 : Keeps z0 s) : Keeps z0 (State.camSwap s n) := by
  unfold State.camSwap
  extract_lets -merge +onlyGivenNames v1 v2
  clear_value v1
  have hv2 : Keeps z0 v2 := by
    unfold v2
    refine State.set_keeps ?_
    exact h0
  clear_value v2
  refine Keeps.ite ?_ ?_
  · refine State.raiseAx_keeps ?_
    refine State.set_keeps ?_
    exact hv2
  · extract_lets -merge +onlyGivenNames v3 v4 v5
    have hv3 : Keeps z0 v3 := by
      unfold v3
      refine State.set_keeps ?_
      exact hv2
    clear_value v3
    clear_value v4
    clear_value v5
    refine State.modProf_keeps ?_
    exact hv3

theorem State.gearCycle_keeps {z0 : State} {s : State} {n : Slice} (h0 : Keeps z0 s) : Keeps z0 (State.gearCycle s n) := by
  unfold State.gearCycle
  extract_lets -merge +onlyGivenNames v1
  clear_value v1
  refine Keeps.ite ?_ ?_
  · exact h0
  · extract_lets -merge +onlyGivenNames v2 v3 v4 v5 v6 v7 v8 v9 v10 v11 v12
    clear_value v2
    clear_value v3
    clear_value v4
    clear_value v5
    clear_value v6
    clear_value v7
    clear_value v8
    clear_value v9
    clear_value v10
    clear_value v11
    have hv12 : Keeps z0 v12 := by
      unfold v12
      refine State.modProf_keeps ?_
      exact h0
    clear_value v12
    refine Keeps.ite ?_ ?_
    · refine State.camSwap_keeps ?_
      exact hv12
    · exact hv12

theorem State.stepCycle_keeps {z0 : State} {s : State} {n : Slice} {was : Int} (h0 : Keeps z0 s) : Keeps z0 (State.stepCycle s n was) := by
  unfold State.stepCycle
  extract_lets -merge +onlyGivenNames v1 v2 v3 v4
  clear_value v1
  clear_value v2
  clear_value v3
  clear_value v4
  refine State.modProf_keeps ?_
  exact h0

theorem execStepHoldCurrent_keeps {z0 : State} {n : Slice} {s : State} (h0 : Keeps z0 s) : KeepsOut z0 (execStepHoldCurrent n s) := by
  unfold execStepHoldCurrent
  refine KeepsOut.next ?_
  refine Keeps.ite ?_ ?_
  · refine State.modProf_keeps ?_
    exact h0
  · exact h0

end Sys2Proof.Machine
end

