-- ==== Sys2Proof/Laws/Keeps4.lean ====
section
/-!
SUPPORT. Laws/Keeps4.lean: what the operations and the meanings of Machine/Paths, FaultOps, Fio, Can, Compare, SchedRun keep (Laws/Keeps.lean).
-/

namespace Sys2Proof.Machine

/-! Paths -/

theorem State.setMembers_keeps {z0 : State} {s : State} {g : Nat} {l : List Int} (h0 : Keeps z0 s) : Keeps z0 (State.setMembers s g l) := by
  unfold State.setMembers
  extract_lets -merge +onlyGivenNames v1
  clear_value v1
  refine Keeps.foldl ?_ ?_
  · intro s2 x3 x4
    refine State.modProf_keeps ?_
    exact x4
  · exact h0

theorem State.showSeg_keeps {z0 : State} {s : State} {g : Fin 8} (h0 : Keeps z0 s) : Keeps z0 (State.showSeg s g) := by
  unfold State.showSeg
  split
  · refine State.set_keeps ?_
    exact h0
  · exact h0

theorem State.grpBegin_keeps {z0 : State} {s : State} {g : Fin 8} (h0 : Keeps z0 s) : Keeps z0 (State.grpBegin s g) := by
  unfold State.grpBegin
  extract_lets -merge +onlyGivenNames v1 v2 v3 v4 v5
  clear_value v1
  clear_value v2
  clear_value v3
  have hv4 : Keeps z0 v4 := by
    unfold v4
    refine State.set_keeps ?_
    exact h0
  clear_value v4
  have hv5 : Keeps z0 v5 := by
    unfold v5
    refine State.modGrp_keeps ?_
    exact hv4
  clear_value v5
  refine State.showSeg_keeps ?_
  exact hv5

theorem State.segDone_keeps {z0 : State} {s : State} {g : Fin 8} (h0 : Keeps z0 s) : Keeps z0 (State.segDone s g) := by
  unfold State.segDone
  split
  · exact h0
  · extract_lets -merge +onlyGivenNames v1 v2 v3 v4 v5
    clear_value v1
    have hv2 : Keeps z0 v2 := by
      unfold v2
      refine State.setMembers_keeps ?_
      exact h0
    clear_value v2
    have hv3 : Keeps z0 v3 := by
      unfold v3
      refine State.set_keeps ?_
      exact hv2
    clear_value v3
    have hv4 : Keeps z0 v4 := by
      unfold v4
      refine State.set_keeps ?_
      exact hv3
    clear_value v4
    have hv5 : Keeps z0 v5 := by
      unfold v5
      refine State.modGrp_keeps ?_
      exact hv4
    clear_value v5
    refine Keeps.ite ?_ ?_
    · refine State.modGrp_keeps ?_
      refine State.set_keeps ?_
      exact hv5
    · refine Keeps.ite ?_ ?_
      · extract_lets -merge +onlyGivenNames v6
        have hv6 : Keeps z0 v6 := by
          unfold v6
          refine Keeps.ite ?_ ?_
          · refine State.raisePath_keeps ?_
            refine State.set_keeps ?_
            exact hv5
          · exact hv5
        clear_value v6
        refine State.modGrp_keeps ?_
        exact hv6
      · refine State.showSeg_keeps ?_
        exact hv5

theorem State.carrySigma_keeps {z0 : State} {s : State} {g : Fin 8} {a : Nat} {a3 : Nat} (h0 : Keeps z0 s) : Keeps z0 (State.carrySigma s g a a3) := by
  unfold State.carrySigma
  split
  · refine State.modGrp_keeps ?_
    exact h0
  · split
    · exact h0
    · extract_lets -merge +onlyGivenNames v1 v2
      clear_value v1
      clear_value v2
      refine Keeps.ite ?_ ?_
      · refine State.modGrp_keeps ?_
        exact h0
      · extract_lets -merge +onlyGivenNames v3
        clear_value v3
        refine State.carrySigma_keeps ?_
        refine State.segDone_keeps ?_
        exact h0

theorem State.placeMembers_keeps {z0 : State} {s : State} {g : Fin 8} (h0 : Keeps z0 s) : Keeps z0 (State.placeMembers s g) := by
  unfold State.placeMembers
  split
  · exact h0
  · refine Keeps.ite ?_ ?_
    · exact h0
    · extract_lets -merge +onlyGivenNames v1
      clear_value v1
      refine State.setMembers_keeps ?_
      exact h0

theorem State.rampF_keeps {z0 : State} {s : State} {g : Fin 8} (h0 : Keeps z0 s) : Keeps z0 (State.rampF s g) := by
  unfold State.rampF
  extract_lets -merge +onlyGivenNames v1 v2 v3 v4 v5 v6
  clear_value v1
  clear_value v2
  clear_value v3
  clear_value v4
  clear_value v5
  clear_value v6
  refine State.modGrp_keeps ?_
  exact h0

theorem State.advance_keeps {z0 : State} {s : State} {g : Fin 8} {x : Seg} {t : List Seg} (h0 : Keeps z0 s) : KeepsP z0 (State.advance s g x t) := by
  unfold State.advance
  extract_lets -merge +onlyGivenNames v1
  clear_value v1
  refine KeepsP.ite ?_ ?_
  · refine KeepsP.ite ?_ ?_
    · refine KeepsP.mk ?_
      exact h0
    · split
      · refine KeepsP.mk ?_
        exact h0
      · extract_lets -merge +onlyGivenNames v2 v3 v4 v5 v6
        clear_value v2
        clear_value v3
        clear_value v4
        clear_value v5
        clear_value v6
        refine KeepsP.mk ?_
        refine State.modGrp_keeps ?_
        exact h0
  · refine KeepsP.ite ?_ ?_
    · refine KeepsP.mk ?_
      refine State.modGrp_keeps ?_
      exact h0
    · extract_lets -merge +onlyGivenNames v7 v8 v9 v10 v11 v12
      clear_value v7
      clear_value v8
      clear_value v9
      clear_value v10
      clear_value v11
      clear_value v12
      refine KeepsP.mk ?_
      refine State.modGrp_keeps ?_
      exact h0

theorem State.groupCycle_keeps {z0 : State} {s : State} {g : Fin 8} (h0 : Keeps z0 s) : Keeps z0 (State.groupCycle s g) := by
  unfold State.groupCycle
  split
  · refine Keeps.ite ?_ ?_
    · refine State.grpBegin_keeps ?_
      exact h0
    · exact h0
  · extract_lets -merge +onlyGivenNames v1
    have hv1 : Keeps z0 v1 := by
      unfold v1
      refine State.rampF_keeps ?_
      exact h0
    clear_value v1
    split
    · refine Keeps.ite ?_ ?_
      · refine State.raisePath_keeps ?_
        refine State.set_keeps ?_
        exact hv1
      · exact hv1
    · split
      rename_i s2 y3 y4
      have h5 : Keeps z0 s2 := by
        refine KeepsP.of_eq y4 ?_
        refine State.advance_keeps ?_
        exact hv1
      extract_lets -merge +onlyGivenNames v6
      clear_value v6
      refine State.placeMembers_keeps ?_
      refine State.carrySigma_keeps ?_
      exact h5
  · extract_lets -merge +onlyGivenNames v7
    have hv7 : Keeps z0 v7 := by
      unfold v7
      refine State.rampF_keeps ?_
      exact h0
    clear_value v7
    split
    · refine Keeps.ite ?_ ?_
      · refine State.raisePath_keeps ?_
        refine State.set_keeps ?_
        exact hv7
      · exact hv7
    · split
      rename_i s8 y9 y10
      have h11 : Keeps z0 s8 := by
        refine KeepsP.of_eq y10 ?_
        refine State.advance_keeps ?_
        exact hv7
      extract_lets -merge +onlyGivenNames v12
      clear_value v12
      refine State.placeMembers_keeps ?_
      refine State.carrySigma_keeps ?_
      exact h11
  · refine State.rampF_keeps ?_
    exact h0
  · exact h0

theorem State.refuseGrp_keeps {z0 : State} {s : State} {g : Fin 8} {code : Nat} (h0 : Keeps z0 s) : Keeps z0 (State.refuseGrp s g code) := by
  unfold State.refuseGrp
  refine State.raise_keeps ?_
  refine State.set_keeps ?_
  exact h0

theorem State.grpGo_keeps {z0 : State} {s : State} {g : Fin 8} {ssw : Bool} {ssel : Nat} (h0 : Keeps z0 s) : Keeps z0 (State.grpGo s g ssw ssel) := by
  unfold State.grpGo
  refine Keeps.ite ?_ ?_
  · refine State.refuseGrp_keeps ?_
    exact h0
  · refine Keeps.ite ?_ ?_
    · refine State.refuseGrp_keeps ?_
      exact h0
    · refine Keeps.ite ?_ ?_
      · refine State.refuseGrp_keeps ?_
        exact h0
      · refine Keeps.ite ?_ ?_
        · refine State.refuseGrp_keeps ?_
          exact h0
        · refine Keeps.ite ?_ ?_
          · refine State.refuseGrp_keeps ?_
            exact h0
          · extract_lets -merge +onlyGivenNames v1
            have hv1 : Keeps z0 v1 := by
              unfold v1
              refine State.set_keeps ?_
              exact h0
            clear_value v1
            refine Keeps.ite ?_ ?_
            · refine State.modGrp_keeps ?_
              refine State.set_keeps ?_
              exact hv1
            · refine State.grpBegin_keeps ?_
              exact hv1

theorem State.grpHold_keeps {z0 : State} {s : State} {g : Fin 8} (h0 : Keeps z0 s) : Keeps z0 (State.grpHold s g) := by
  unfold State.grpHold
  refine Keeps.ite ?_ ?_
  · refine State.modGrp_keeps ?_
    refine State.set_keeps ?_
    refine State.set_keeps ?_
    exact h0
  · refine State.refuseGrp_keeps ?_
    exact h0

theorem State.grpResume_keeps {z0 : State} {s : State} {g : Fin 8} (h0 : Keeps z0 s) : Keeps z0 (State.grpResume s g) := by
  unfold State.grpResume
  refine Keeps.ite ?_ ?_
  · refine State.refuseGrp_keeps ?_
    exact h0
  · refine Keeps.ite ?_ ?_
    · refine State.refuseGrp_keeps ?_
      exact h0
    · extract_lets -merge +onlyGivenNames v1
      clear_value v1
      refine State.modGrp_keeps ?_
      refine State.set_keeps ?_
      refine State.set_keeps ?_
      exact h0

theorem State.grpAbort_keeps {z0 : State} {s : State} {g : Fin 8} (h0 : Keeps z0 s) : Keeps z0 (State.grpAbort s g) := by
  unfold State.grpAbort
  refine Keeps.ite ?_ ?_
  · extract_lets -merge +onlyGivenNames v1
    have hv1 : Keeps z0 v1 := by
      unfold v1
      refine State.set_keeps ?_
      refine State.set_keeps ?_
      exact h0
    clear_value v1
    refine State.modGrp_keeps ?_
    refine State.set_keeps ?_
    exact hv1
  · refine State.refuseGrp_keeps ?_
    exact h0

theorem execGo_keeps {z0 : State} {g : Fin 8} {ssw : Bool} {ssel : Fin 4} {s : State} (h0 : Keeps z0 s) : KeepsOut z0 (execGo g ssw ssel s) := by
  unfold execGo
  refine KeepsOut.next ?_
  refine State.grpGo_keeps ?_
  exact h0

theorem execGroupHold_keeps {z0 : State} {g : Fin 8} {s : State} (h0 : Keeps z0 s) : KeepsOut z0 (execGroupHold g s) := by
  unfold execGroupHold
  refine KeepsOut.next ?_
  refine State.grpHold_keeps ?_
  exact h0

theorem execGroupResume_keeps {z0 : State} {g : Fin 8} {s : State} (h0 : Keeps z0 s) : KeepsOut z0 (execGroupResume g s) := by
  unfold execGroupResume
  refine KeepsOut.next ?_
  refine State.grpResume_keeps ?_
  exact h0

theorem execGroupAbort_keeps {z0 : State} {g : Fin 8} {s : State} (h0 : Keeps z0 s) : KeepsOut z0 (execGroupAbort g s) := by
  unfold execGroupAbort
  refine KeepsOut.next ?_
  refine State.grpAbort_keeps ?_
  exact h0

theorem State.appendLoop_keeps {z0 : State} {s : State} {g : Fin 8} {a : Nat} (h0 : Keeps z0 s) : Keeps z0 (State.appendLoop s g a) := by
  unfold State.appendLoop
  split
  · exact h0
  · extract_lets -merge +onlyGivenNames v1 v2
    clear_value v1
    clear_value v2
    split
    · refine State.refuseGrp_keeps ?_
      exact h0
    · extract_lets -merge +onlyGivenNames v3
      have hv3 : Keeps z0 v3 := by
        unfold v3
        refine State.modGrp_keeps ?_
        exact h0
      clear_value v3
      refine State.appendLoop_keeps ?_
      refine State.set_keeps ?_
      exact hv3

theorem State.grpAppend_keeps {z0 : State} {s : State} {g : Fin 8} {napp : Nat} (h0 : Keeps z0 s) : Keeps z0 (State.grpAppend s g napp) := by
  unfold State.grpAppend
  refine Keeps.ite ?_ ?_
  · exact h0
  · extract_lets -merge +onlyGivenNames v1
    have hv1 : Keeps z0 v1 := by
      unfold v1
      refine State.appendLoop_keeps ?_
      refine State.set_keeps ?_
      exact h0
    clear_value v1
    refine Keeps.ite ?_ ?_
    · extract_lets -merge +onlyGivenNames v2 v3
      clear_value v2
      have hv3 : Keeps z0 v3 := by
        unfold v3
        refine State.set_keeps ?_
        exact hv1
      clear_value v3
      refine State.showSeg_keeps ?_
      refine State.modGrp_keeps ?_
      exact hv3
    · exact hv1

theorem execAppend_keeps {z0 : State} {g : Fin 8} {napp : Nat} {s : State} (h0 : Keeps z0 s) : KeepsOut z0 (execAppend g napp s) := by
  unfold execAppend
  refine KeepsOut.next ?_
  refine State.grpAppend_keeps ?_
  exact h0

/-! FaultOps -/

theorem State.dropLatched_keeps {z0 : State} {s : State} {skind : Nat} {sindex : Nat} (h0 : Keeps z0 s) : Keeps z0 (State.dropLatched s skind sindex) := by
  unfold State.dropLatched
  exact Keeps.frame h0 rfl rfl rfl rfl rfl rfl rfl rfl rfl rfl

theorem State.clearResult_keeps {z0 : State} {s : State} {skind : Nat} {sindex : Nat} {code : Nat} (h0 : Keeps z0 s) : Keeps z0 (State.clearResult s skind sindex code) := by
  unfold State.clearResult
  extract_lets -merge +onlyGivenNames v1
  have hv1 : Keeps z0 v1 := by
    unfold v1
    refine State.set_keeps ?_
    exact h0
  clear_value v1
  refine Keeps.ite ?_ ?_
  · exact hv1
  · extract_lets -merge +onlyGivenNames v2 v3
    clear_value v2
    clear_value v3
    refine State.raise_keeps ?_
    exact hv1

theorem State.clearSlice_keeps {z0 : State} {s : State} {n : Slice} (h0 : Keeps z0 s) : Keeps z0 (State.clearSlice s n) := by
  unfold State.clearSlice
  extract_lets -merge +onlyGivenNames v1 v2 v3 v4 v5
  have hv1 : Keeps z0 v1 := by
    unfold v1
    refine State.set_keeps ?_
    exact h0
  clear_value v1
  have hv2 : Keeps z0 v2 := by
    unfold v2
    refine State.set_keeps ?_
    exact hv1
  clear_value v2
  have hv3 : Keeps z0 v3 := by
    unfold v3
    refine State.set_keeps ?_
    exact hv2
  clear_value v3
  have hv4 : Keeps z0 v4 := by
    unfold v4
    refine State.set_keeps ?_
    exact hv3
  clear_value v4
  have hv5 : Keeps z0 v5 := by
    unfold v5
    refine State.modSense_keeps ?_
    exact hv4
  clear_value v5
  refine Keeps.ite ?_ ?_
  · refine State.modFb_keeps ?_
    refine State.set_keeps ?_
    exact hv5
  · exact hv5

theorem State.clearAxis_keeps {z0 : State} {s : State} {n : Nat} (h0 : Keeps z0 s) : Keeps z0 (State.clearAxis s n) := by
  unfold State.clearAxis
  extract_lets -merge +onlyGivenNames v1
  clear_value v1
  refine Keeps.ite ?_ ?_
  · refine State.clearResult_keeps ?_
    exact h0
  · extract_lets -merge +onlyGivenNames v2 v3 v4
    clear_value v2
    have hv3 : Keeps z0 v3 := by
      unfold v3
      refine State.dropLatched_keeps ?_
      exact h0
    clear_value v3
    have hv4 : Keeps z0 v4 := by
      unfold v4
      refine Keeps.ite ?_ ?_
      · refine State.setAxst_keeps ?_
        exact hv3
      · exact hv3
    clear_value v4
    refine State.clearResult_keeps ?_
    refine State.each_keeps ?_ ?_
    · exact hv4
    · intro s5 x6 x7
      refine State.clearSlice_keeps ?_
      exact x7

theorem execClear_keeps {z0 : State} {n : Slice} {s : State} (h0 : Keeps z0 s) : KeepsOut z0 (execClear n s) := by
  unfold execClear
  refine KeepsOut.next ?_
  refine State.clearAxis_keeps ?_
  exact h0

/-! Fio -/

theorem State.modFio_keeps {z0 : State} {s : State} {f : FioDyn → FioDyn} (h0 : Keeps z0 s) : Keeps z0 (State.modFio s f) := by
  unfold State.modFio
  exact Keeps.frame h0 rfl rfl rfl rfl rfl rfl rfl rfl rfl rfl

theorem State.raiseField_keeps {z0 s : State} {r : FaultRec} (h0 : Keeps z0 s) : Keeps z0 (State.raiseField s r) := by
  unfold State.raiseField
  split
  · exact State.raise_keeps h0
  · refine h0.fieldQueue fun i => ?_
    have hq := i.queue
    split
    · simp only [List.length_append, List.length_singleton]; omega
    · split
      · rename_i k hk
        have := List.findIdx?_eq_some_iff_findIdx_eq.1 hk
        simp only [List.length_append, List.length_singleton, List.length_eraseIdx]
        split <;> omega
      · exact hq

theorem State.raiseFieldMod_keeps {z0 : State} {s : State} {code : Nat} {sev : Nat} {detail : Nat} (h0 : Keeps z0 s) : Keeps z0 (State.raiseFieldMod s code sev detail) := by
  unfold State.raiseFieldMod
  refine State.raiseField_keeps ?_
  exact h0

theorem State.holdLevels_keeps {z0 : State} {s : State} (h0 : Keeps z0 s) : Keeps z0 (State.holdLevels s) := by
  unfold State.holdLevels
  refine Keeps.ite ?_ ?_
  · exact h0
  · extract_lets -merge +onlyGivenNames v1
    clear_value v1
    refine State.modFio_keeps ?_
    exact Keeps.frame h0 rfl rfl rfl rfl rfl rfl rfl rfl rfl rfl

theorem execFioInputEvent_keeps {z0 : State} {k : Fin 24} {level : Bool} {stamp : Stamp} {s : State} (h0 : Keeps z0 s) : KeepsOut z0 (execFioInputEvent k level stamp s) := by
  unfold execFioInputEvent
  refine KeepsOut.ite ?_ ?_
  · refine KeepsOut.next ?_
    exact h0
  · extract_lets -merge +onlyGivenNames v1 v2
    have hv1 : Keeps z0 v1 := by
      unfold v1
      refine State.putBit_keeps ?_
      exact h0
    clear_value v1
    clear_value v2
    refine KeepsOut.ite ?_ ?_
    · refine KeepsOut.next ?_
      exact hv1
    · extract_lets -merge +onlyGivenNames v3 v4 v5 v6
      clear_value v3
      have hv4 : Keeps z0 v4 := by
        unfold v4
        refine State.modFio_keeps ?_
        exact hv1
      clear_value v4
      have hv5 : Keeps z0 v5 := by
        unfold v5
        refine State.arrive_keeps ?_
        exact hv4
      clear_value v5
      have hv6 : Keeps z0 v6 := by
        unfold v6
        refine State.fireSource_keeps ?_
        refine State.latchEvent_keeps ?_
        exact hv5
      clear_value v6
      refine KeepsOut.next ?_
      refine State.extEvent_keeps ?_
      refine State.homeInput_keeps ?_
      exact hv6

theorem execFioOpenWire_keeps {z0 : State} {k : Fin 24} {s : State} (h0 : Keeps z0 s) : KeepsOut z0 (execFioOpenWire k s) := by
  unfold execFioOpenWire
  refine KeepsOut.ite ?_ ?_
  · refine KeepsOut.next ?_
    exact h0
  · refine KeepsOut.next ?_
    refine State.raiseFieldMod_keeps ?_
    refine State.set_keeps ?_
    exact h0

theorem execFioOpenWireClear_keeps {z0 : State} {k : Fin 24} {s : State} (h0 : Keeps z0 s) : KeepsOut z0 (execFioOpenWireClear k s) := by
  unfold execFioOpenWireClear
  refine KeepsOut.next ?_
  refine State.set_keeps ?_
  exact h0

theorem State.raiseChannel_keeps {z0 : State} {s : State} {k : Nat} {code : Nat} {detail : Nat} (h0 : Keeps z0 s) : Keeps z0 (State.raiseChannel s k code detail) := by
  unfold State.raiseChannel
  split
  · refine State.raiseField_keeps ?_
    exact h0
  · refine State.raiseFieldMod_keeps ?_
    exact h0

theorem State.latchOff_keeps {z0 : State} {s : State} {k : Nat} {cause : ChannelFault} (h0 : Keeps z0 s) : Keeps z0 (State.latchOff s k cause) := by
  unfold State.latchOff
  extract_lets -merge +onlyGivenNames v1 v2 v3
  clear_value v1
  clear_value v2
  have hv3 : Keeps z0 v3 := by
    unfold v3
    refine State.each_keeps ?_ ?_
    · exact h0
    · intro s4 x5 x6
      refine State.modFio_keeps ?_
      refine State.bump_keeps ?_
      refine State.set_keeps ?_
      refine State.set_keeps ?_
      exact x6
  clear_value v3
  refine Keeps.ite ?_ ?_
  · refine State.raiseChannel_keeps ?_
    exact hv3
  · exact hv3

theorem execFioChannelLatch_keeps {z0 : State} {k : Fin 24} {cause : ChannelFault} {s : State} (h0 : Keeps z0 s) : KeepsOut z0 (execFioChannelLatch k cause s) := by
  unfold execFioChannelLatch
  refine KeepsOut.ite ?_ ?_
  · refine KeepsOut.next ?_
    exact h0
  · refine KeepsOut.next ?_
    refine State.latchOff_keeps ?_
    exact h0

theorem State.unlatch_keeps {z0 : State} {s : State} {k : Nat} (h0 : Keeps z0 s) : Keeps z0 (State.unlatch s k) := by
  unfold State.unlatch
  refine State.each_keeps ?_ ?_
  · exact h0
  · intro s1 x2 x3
    refine State.modFio_keeps ?_
    refine State.set_keeps ?_
    refine State.set_keeps ?_
    exact x3

theorem execFioRetry_keeps {z0 : State} {k : Fin 24} {s : State} (h0 : Keeps z0 s) : KeepsOut z0 (execFioRetry k s) := by
  unfold execFioRetry
  extract_lets -merge +onlyGivenNames v1
  clear_value v1
  refine KeepsOut.ite ?_ ?_
  · refine KeepsOut.next ?_
    refine State.unlatch_keeps ?_
    exact h0
  · refine KeepsOut.next ?_
    exact h0

theorem State.clearChannels_keeps {z0 : State} {s : State} {mask : Nat} (h0 : Keeps z0 s) : Keeps z0 (State.clearChannels s mask) := by
  unfold State.clearChannels
  refine State.each_keeps ?_ ?_
  · exact h0
  · intro s1 x2 x3
    refine Keeps.ite ?_ ?_
    · refine State.unlatch_keeps ?_
      exact x3
    · exact x3

theorem execFioClr_keeps {z0 : State} {mask : Nat} {s : State} (h0 : Keeps z0 s) : KeepsOut z0 (execFioClr mask s) := by
  unfold execFioClr
  refine KeepsOut.next ?_
  refine Keeps.ite ?_ ?_
  · refine State.clearChannels_keeps ?_
    exact h0
  · exact h0

theorem execOffPulseTest_keeps {z0 : State} {k : Fin 24} {readHigh : Bool} {s : State} (h0 : Keeps z0 s) : KeepsOut z0 (execOffPulseTest k readHigh s) := by
  unfold execOffPulseTest
  refine KeepsOut.ite ?_ ?_
  · refine KeepsOut.next ?_
    exact h0
  · refine KeepsOut.next ?_
    refine State.latchOff_keeps ?_
    exact h0

theorem execFioPwmPeriod_keeps {z0 : State} {k : Fin 16} {s : State} (h0 : Keeps z0 s) : KeepsOut z0 (execFioPwmPeriod k s) := by
  unfold execFioPwmPeriod
  extract_lets -merge +onlyGivenNames v1
  clear_value v1
  refine KeepsOut.next ?_
  refine State.applyStaged_keeps ?_
  refine State.unstage_keeps ?_
  exact h0

theorem State.fioFire_keeps {z0 : State} {s : State} {k : Nat} (h0 : Keeps z0 s) : Keeps z0 (State.fioFire s k) := by
  unfold State.fioFire
  extract_lets -merge +onlyGivenNames v1 v2
  clear_value v1
  clear_value v2
  refine State.modFio_keeps ?_
  exact h0

theorem execFioCmpPulseEnd_keeps {z0 : State} {k : Fin 24} {s : State} (h0 : Keeps z0 s) : KeepsOut z0 (execFioCmpPulseEnd k s) := by
  unfold execFioCmpPulseEnd
  refine KeepsOut.next ?_
  refine State.modFio_keeps ?_
  exact h0

theorem State.enableGroup_keeps {z0 : State} {s : State} {g : Nat} (h0 : Keeps z0 s) : Keeps z0 (State.enableGroup s g) := by
  unfold State.enableGroup
  refine State.modFio_keeps ?_
  exact h0

theorem State.updateInvalid_keeps {z0 : State} {s : State} (h0 : Keeps z0 s) : Keeps z0 (State.updateInvalid s) := by
  unfold State.updateInvalid
  refine State.set_keeps ?_
  exact h0

theorem execFieldSupplyWarning_keeps {z0 : State} {sup : Fin 2} {s : State} (h0 : Keeps z0 s) : KeepsOut z0 (execFieldSupplyWarning sup s) := by
  unfold execFieldSupplyWarning
  extract_lets -merge +onlyGivenNames v1
  clear_value v1
  refine KeepsOut.ite ?_ ?_
  · refine KeepsOut.next ?_
    exact h0
  · refine KeepsOut.next ?_
    refine State.raiseFieldMod_keeps ?_
    refine State.set_keeps ?_
    exact h0

theorem execFieldSupplyWarningClear_keeps {z0 : State} {sup : Fin 2} {s : State} (h0 : Keeps z0 s) : KeepsOut z0 (execFieldSupplyWarningClear sup s) := by
  unfold execFieldSupplyWarningClear
  refine KeepsOut.next ?_
  refine State.set_keeps ?_
  exact h0

theorem execFieldSupplyCutoff_keeps {z0 : State} {sup : Fin 2} {s : State} (h0 : Keeps z0 s) : KeepsOut z0 (execFieldSupplyCutoff sup s) := by
  unfold execFieldSupplyCutoff
  extract_lets -merge +onlyGivenNames v1
  clear_value v1
  refine KeepsOut.ite ?_ ?_
  · refine KeepsOut.next ?_
    exact h0
  · extract_lets -merge +onlyGivenNames v2 v3 v4
    clear_value v2
    have hv3 : Keeps z0 v3 := by
      unfold v3
      refine State.bump_keeps ?_
      refine State.set_keeps ?_
      refine State.set_keeps ?_
      exact h0
    clear_value v3
    have hv4 : Keeps z0 v4 := by
      unfold v4
      refine State.each_keeps ?_ ?_
      · exact hv3
      · intro s5 x6 x7
        refine State.raiseField_keeps ?_
        exact x7
    clear_value v4
    refine KeepsOut.next ?_
    refine State.updateInvalid_keeps ?_
    refine State.raiseFieldMod_keeps ?_
    exact hv4

theorem execFieldSupplyRecovery_keeps {z0 : State} {sup : Fin 2} {s : State} (h0 : Keeps z0 s) : KeepsOut z0 (execFieldSupplyRecovery sup s) := by
  unfold execFieldSupplyRecovery
  extract_lets -merge +onlyGivenNames v1
  clear_value v1
  refine KeepsOut.ite ?_ ?_
  · refine KeepsOut.next ?_
    exact h0
  · extract_lets -merge +onlyGivenNames v2 v3
    have hv2 : Keeps z0 v2 := by
      unfold v2
      refine State.set_keeps ?_
      refine State.set_keeps ?_
      exact h0
    clear_value v2
    clear_value v3
    refine KeepsOut.next ?_
    refine State.updateInvalid_keeps ?_
    refine State.modFio_keeps ?_
    exact hv2

theorem State.feedWatchdog_keeps {z0 : State} {s : State} (h0 : Keeps z0 s) : Keeps z0 (State.feedWatchdog s) := by
  unfold State.feedWatchdog
  refine State.modFio_keeps ?_
  exact h0

theorem State.kick_keeps {z0 : State} {s : State} {v : Nat} (h0 : Keeps z0 s) : Keeps z0 (State.kick s v) := by
  unfold State.kick
  refine Keeps.ite ?_ ?_
  · refine State.feedWatchdog_keeps ?_
    exact h0
  · exact h0

theorem execWdkick_keeps {z0 : State} {value : Nat} {s : State} (h0 : Keeps z0 s) : KeepsOut z0 (execWdkick value s) := by
  unfold execWdkick
  refine KeepsOut.next ?_
  refine Keeps.ite ?_ ?_
  · refine State.kick_keeps ?_
    exact h0
  · exact h0

theorem State.clearWatchdog_keeps {z0 : State} {s : State} (h0 : Keeps z0 s) : Keeps z0 (State.clearWatchdog s) := by
  unfold State.clearWatchdog
  refine Keeps.ite ?_ ?_
  · extract_lets -merge +onlyGivenNames v1
    have hv1 : Keeps z0 v1 := by
      unfold v1
      refine State.set_keeps ?_
      exact h0
    clear_value v1
    refine Keeps.ite ?_ ?_
    · exact hv1
    · refine State.modFio_keeps ?_
      exact hv1
  · exact h0

theorem execWdclr_keeps {z0 : State} {s : State} (h0 : Keeps z0 s) : KeepsOut z0 (execWdclr s) := by
  unfold execWdclr
  refine KeepsOut.next ?_
  refine Keeps.ite ?_ ?_
  · refine State.clearWatchdog_keeps ?_
    exact h0
  · exact h0

theorem execFieldWatchdogExpiry_keeps {z0 : State} {s : State} (h0 : Keeps z0 s) : KeepsOut z0 (execFieldWatchdogExpiry s) := by
  unfold execFieldWatchdogExpiry
  refine KeepsOut.ite ?_ ?_
  · refine KeepsOut.next ?_
    exact h0
  · extract_lets -merge +onlyGivenNames v1
    have hv1 : Keeps z0 v1 := by
      unfold v1
      refine State.modFio_keeps ?_
      exact h0
    clear_value v1
    refine KeepsOut.ite ?_ ?_
    · refine KeepsOut.next ?_
      exact hv1
    · refine KeepsOut.next ?_
      refine State.raiseFieldMod_keeps ?_
      refine State.bump_keeps ?_
      refine State.set_keeps ?_
      refine State.holdLevels_keeps ?_
      exact hv1

/-! Can -/

theorem State.modCan_keeps {z0 : State} {s : State} {c : Fin 2} {f : CanDyn → CanDyn} (h0 : Keeps z0 s) : Keeps z0 (State.modCan s c f) := by
  unfold State.modCan
  exact Keeps.frame h0 rfl rfl rfl rfl rfl rfl rfl rfl rfl rfl

theorem State.canJoin_keeps {z0 : State} {s : State} {c : Fin 2} (h0 : Keeps z0 s) : Keeps z0 (State.canJoin s c) := by
  unfold State.canJoin
  refine Keeps.ite ?_ ?_
  · refine State.set_keeps ?_
    exact h0
  · exact h0

theorem State.raiseCan_keeps {z0 : State} {s : State} {code : Nat} {sev : Nat} {c : Fin 2} (h0 : Keeps z0 s) : Keeps z0 (State.raiseCan s code sev c) := by
  unfold State.raiseCan
  refine State.raiseMod_keeps ?_
  exact h0

theorem State.confine_keeps {z0 : State} {s : State} {c : Fin 2} {tec : Nat} {rec_ : Nat} (h0 : Keeps z0 s) : Keeps z0 (State.confine s c tec rec_) := by
  unfold State.confine
  extract_lets -merge +onlyGivenNames v1 v2
  clear_value v1
  have hv2 : Keeps z0 v2 := by
    unfold v2
    refine State.set_keeps ?_
    exact h0
  clear_value v2
  refine Keeps.ite ?_ ?_
  · exact hv2
  · refine Keeps.ite ?_ ?_
    · refine State.raiseCan_keeps ?_
      refine State.bump_keeps ?_
      refine State.set_keeps ?_
      refine State.set_keeps ?_
      exact hv2
    · extract_lets -merge +onlyGivenNames v3
      have hv3 : Keeps z0 v3 := by
        unfold v3
        refine State.set_keeps ?_
        exact hv2
      clear_value v3
      refine Keeps.ite ?_ ?_
      · refine State.raiseCan_keeps ?_
        refine State.bump_keeps ?_
        refine State.set_keeps ?_
        exact hv3
      · refine Keeps.ite ?_ ?_
        · refine State.set_keeps ?_
          exact hv3
        · exact hv3

theorem execCanBusError_keeps {z0 : State} {c : Fin 2} {kind : CanErr} {tx : Bool} {mark : Bool} {s : State} (h0 : Keeps z0 s) : KeepsOut z0 (execCanBusError c kind tx mark s) := by
  unfold execCanBusError
  refine KeepsOut.ite ?_ ?_
  · refine KeepsOut.next ?_
    exact h0
  · extract_lets -merge +onlyGivenNames v1 v2 v3
    have hv1 : Keeps z0 v1 := by
      unfold v1
      refine State.canJoin_keeps ?_
      exact h0
    clear_value v1
    clear_value v2
    clear_value v3
    refine KeepsOut.ite ?_ ?_
    · extract_lets -merge +onlyGivenNames v4
      clear_value v4
      refine KeepsOut.next ?_
      refine Keeps.ite ?_ ?_
      · exact hv1
      · refine State.confine_keeps ?_
        exact hv1
    · refine KeepsOut.next ?_
      refine State.confine_keeps ?_
      exact hv1

theorem execCanBusoffRecovery_keeps {z0 : State} {c : Fin 2} {s : State} (h0 : Keeps z0 s) : KeepsOut z0 (execCanBusoffRecovery c s) := by
  unfold execCanBusoffRecovery
  refine KeepsOut.ite ?_ ?_
  · refine KeepsOut.next ?_
    exact h0
  · extract_lets -merge +onlyGivenNames v1
    have hv1 : Keeps z0 v1 := by
      unfold v1
      refine State.set_keeps ?_
      refine State.set_keeps ?_
      refine State.set_keeps ?_
      exact h0
    clear_value v1
    refine KeepsOut.next ?_
    refine State.raiseCan_keeps ?_
    refine State.set_keeps ?_
    exact hv1

theorem State.heldWrite_keeps {z0 : State} {s : State} {a : Nat} (h0 : Keeps z0 s) : Keeps z0 (State.heldWrite s a) := by
  unfold State.heldWrite
  refine State.raiseMod_keeps ?_
  exact h0

theorem State.txRequest_keeps {z0 : State} {s : State} {c : Fin 2} {mask : Nat} (h0 : Keeps z0 s) : Keeps z0 (State.txRequest s c mask) := by
  unfold State.txRequest
  split
  · extract_lets -merge +onlyGivenNames v1
    have hv1 : Keeps z0 v1 := by
      unfold v1
      refine State.set_keeps ?_
      exact h0
    clear_value v1
    refine State.modCan_keeps ?_
    exact hv1
  · refine State.heldWrite_keeps ?_
    exact h0
  · exact h0

theorem execTxreq_keeps {z0 : State} {c : Fin 2} {mask : Nat} {s : State} (h0 : Keeps z0 s) : KeepsOut z0 (execTxreq c mask s) := by
  unfold execTxreq
  refine KeepsOut.next ?_
  refine Keeps.ite ?_ ?_
  · refine State.txRequest_keeps ?_
    exact h0
  · exact h0

theorem State.finishTx_keeps {z0 : State} {s : State} {c : Fin 2} {e : Nat} {result : Nat} {sof : Option Nat} (h0 : Keeps z0 s) : Keeps z0 (State.finishTx s c e result sof) := by
  unfold State.finishTx
  extract_lets -merge +onlyGivenNames v1 v2 v3
  clear_value v1
  have hv2 : Keeps z0 v2 := by
    unfold v2
    split
    · refine State.wr_keeps ?_
      exact h0
    · refine State.drawn_keeps ?_
      refine State.wr_keeps ?_
      exact h0
  clear_value v2
  have hv3 : Keeps z0 v3 := by
    unfold v3
    refine State.wr_keeps ?_
    refine State.wr_keeps ?_
    exact hv2
  clear_value v3
  refine State.putBit_keeps ?_
  refine State.putBit_keeps ?_
  exact hv3

theorem State.txWithdraw_keeps {z0 : State} {s : State} {c : Fin 2} {mask : Nat} (h0 : Keeps z0 s) : Keeps z0 (State.txWithdraw s c mask) := by
  unfold State.txWithdraw
  refine State.each_keeps ?_ ?_
  · exact h0
  · intro s1 x2 x3
    refine Keeps.ite ?_ ?_
    · exact x3
    · refine Keeps.ite ?_ ?_
      · refine State.modCan_keeps ?_
        exact x3
      · refine State.finishTx_keeps ?_
        exact x3

theorem execTxabt_keeps {z0 : State} {c : Fin 2} {mask : Nat} {s : State} (h0 : Keeps z0 s) : KeepsOut z0 (execTxabt c mask s) := by
  unfold execTxabt
  refine KeepsOut.next ?_
  refine Keeps.ite ?_ ?_
  · refine State.txWithdraw_keeps ?_
    exact h0
  · exact h0

theorem State.txAck_keeps {z0 : State} {s : State} {c : Fin 2} {mask : Nat} (h0 : Keeps z0 s) : Keeps z0 (State.txAck s c mask) := by
  unfold State.txAck
  refine State.set_keeps ?_
  exact h0

theorem execTxdone_keeps {z0 : State} {c : Fin 2} {mask : Nat} {s : State} (h0 : Keeps z0 s) : KeepsOut z0 (execTxdone c mask s) := by
  unfold execTxdone
  refine KeepsOut.next ?_
  refine Keeps.ite ?_ ?_
  · refine State.txAck_keeps ?_
    exact h0
  · exact h0

theorem State.rxCount_keeps {z0 : State} {s : State} {c : Fin 2} (h0 : Keeps z0 s) : Keeps z0 (State.rxCount s c) := by
  unfold State.rxCount
  refine State.set_keeps ?_
  exact h0

theorem State.rxAck_keeps {z0 : State} {s : State} {c : Fin 2} {h : Nat} {mask : Nat} (h0 : Keeps z0 s) : Keeps z0 (State.rxAck s c h mask) := by
  unfold State.rxAck
  refine State.rxCount_keeps ?_
  refine State.set_keeps ?_
  exact h0

theorem execRxfull_keeps {z0 : State} {c : Fin 2} {h : Fin 2} {mask : Nat} {s : State} (h0 : Keeps z0 s) : KeepsOut z0 (execRxfull c h mask s) := by
  unfold execRxfull
  refine KeepsOut.next ?_
  refine Keeps.ite ?_ ?_
  · refine State.rxAck_keeps ?_
    exact h0
  · exact h0

theorem execCanTxStart_keeps {z0 : State} {c : Fin 2} {s : State} (h0 : Keeps z0 s) : KeepsOut z0 (execCanTxStart c s) := by
  unfold execCanTxStart
  refine KeepsOut.ite ?_ ?_
  · refine KeepsOut.next ?_
    exact h0
  · extract_lets -merge +onlyGivenNames v1 v2
    have hv1 : Keeps z0 v1 := by
      unfold v1
      refine State.canJoin_keeps ?_
      exact h0
    clear_value v1
    have hv2 : ∀ s3 x4, Keeps z0 s3 → Keeps z0 (v2 s3 x4) := by
      intro s5 x6 x7
      unfold v2
      refine State.modCan_keeps ?_
      exact x7
    clear_value v2
    refine KeepsOut.ite ?_ ?_
    · split
      · refine KeepsOut.next ?_
        refine hv2 _ _ ?_
        exact hv1
      · refine KeepsOut.next ?_
        exact hv1
    · split
      · refine KeepsOut.ite ?_ ?_
        · refine KeepsOut.next ?_
          exact hv1
        · refine KeepsOut.ite ?_ ?_
          · refine KeepsOut.next ?_
            refine Keeps.ite ?_ ?_
            · refine hv2 _ _ ?_
              exact hv1
            · exact hv1
          · refine KeepsOut.ite ?_ ?_
            · split
              · refine KeepsOut.next ?_
                refine hv2 _ _ ?_
                exact hv1
              · refine KeepsOut.next ?_
                exact hv1
            · refine KeepsOut.next ?_
              exact hv1
      · refine KeepsOut.next ?_
        exact hv1

theorem State.ttCycle_keeps {z0 : State} {s : State} {c : Fin 2} {b : Nat} (h0 : Keeps z0 s) : Keeps z0 (State.ttCycle s c b) := by
  unfold State.ttCycle
  refine State.modCan_keeps ?_
  refine State.set_keeps ?_
  exact h0

theorem State.ttMissNow_keeps {z0 : State} {s : State} {c : Fin 2} {e : Nat} (h0 : Keeps z0 s) : Keeps z0 (State.ttMissNow s c e) := by
  unfold State.ttMissNow
  split
  · refine Keeps.ite ?_ ?_
    · refine State.bump_keeps ?_
      exact h0
    · exact h0
  · exact h0

theorem State.txEnded_keeps {z0 : State} {s : State} {c : Fin 2} {e : Nat} {r : CanTxResult} {stamp : Nat} (h0 : Keeps z0 s) : Keeps z0 (State.txEnded s c e r stamp) := by
  unfold State.txEnded
  extract_lets -merge +onlyGivenNames v1 v2
  clear_value v1
  have hv2 : Keeps z0 v2 := by
    unfold v2
    refine State.modCan_keeps ?_
    exact h0
  clear_value v2
  split
  · extract_lets -merge +onlyGivenNames v3
    have hv3 : Keeps z0 v3 := by
      unfold v3
      refine State.modCan_keeps ?_
      exact hv2
    clear_value v3
    refine State.finishTx_keeps ?_
    refine State.confine_keeps ?_
    exact hv3
  · extract_lets -merge +onlyGivenNames v4
    have hv4 : Keeps z0 v4 := by
      unfold v4
      refine State.ttMissNow_keeps ?_
      exact hv2
    clear_value v4
    refine Keeps.ite ?_ ?_
    · refine State.finishTx_keeps ?_
      exact hv4
    · exact hv4
  · extract_lets -merge +onlyGivenNames v5 v6 v7
    clear_value v5
    have hv6 : Keeps z0 v6 := by
      unfold v6
      refine State.modCan_keeps ?_
      refine State.ttMissNow_keeps ?_
      exact hv2
    clear_value v6
    clear_value v7
    refine Keeps.ite ?_ ?_
    · refine State.finishTx_keeps ?_
      exact hv6
    · refine Keeps.ite ?_ ?_
      · refine State.finishTx_keeps ?_
        exact hv6
      · exact hv6

theorem execCanTxComplete_keeps {z0 : State} {c : Fin 2} {r : CanTxResult} {stamp : Stamp} {s : State} (h0 : Keeps z0 s) : KeepsOut z0 (execCanTxComplete c r stamp s) := by
  unfold execCanTxComplete
  split
  · refine KeepsOut.next ?_
    exact h0
  · extract_lets -merge +onlyGivenNames v1
    clear_value v1
    refine KeepsOut.ite ?_ ?_
    · extract_lets -merge +onlyGivenNames v2
      have hv2 : Keeps z0 v2 := by
        unfold v2
        refine State.ttCycle_keeps ?_
        refine State.confine_keeps ?_
        exact h0
      clear_value v2
      refine KeepsOut.next ?_
      refine State.modCan_keeps ?_
      exact hv2
    · refine KeepsOut.next ?_
      refine State.modCan_keeps ?_
      exact h0
  · refine KeepsOut.next ?_
    refine State.txEnded_keeps ?_
    exact h0

theorem execCanTtReferenceSend_keeps {z0 : State} {c : Fin 2} {s : State} (h0 : Keeps z0 s) : KeepsOut z0 (execCanTtReferenceSend c s) := by
  unfold execCanTtReferenceSend
  refine KeepsOut.ite ?_ ?_
  · refine KeepsOut.next ?_
    exact h0
  · extract_lets -merge +onlyGivenNames v1 v2
    have hv1 : Keeps z0 v1 := by
      unfold v1
      refine State.canJoin_keeps ?_
      exact h0
    clear_value v1
    clear_value v2
    refine KeepsOut.ite ?_ ?_
    · split
      · refine KeepsOut.next ?_
        refine State.modCan_keeps ?_
        exact hv1
      · refine KeepsOut.next ?_
        exact hv1
    · refine KeepsOut.next ?_
      refine State.modCan_keeps ?_
      exact hv1

theorem State.canFire_keeps {z0 : State} {s : State} {k : Nat} {ns : Nat} (h0 : Keeps z0 s) : Keeps z0 (State.canFire s k ns) := by
  unfold State.canFire
  refine State.each_keeps ?_ ?_
  · exact h0
  · intro s1 x2 x3
    refine Keeps.ite ?_ ?_
    · refine State.modCan_keeps ?_
      exact x3
    · exact x3

theorem execCanTtWindow_keeps {z0 : State} {c : Fin 2} {col : Nat} {s : State} (h0 : Keeps z0 s) : KeepsOut z0 (execCanTtWindow c col s) := by
  unfold execCanTtWindow
  refine KeepsOut.ite ?_ ?_
  · refine KeepsOut.next ?_
    exact h0
  · extract_lets -merge +onlyGivenNames v1
    have hv1 : Keeps z0 v1 := by
      unfold v1
      split
      · refine State.bump_keeps ?_
        exact h0
      · exact h0
    clear_value v1
    refine KeepsOut.ite ?_ ?_
    · refine KeepsOut.next ?_
      refine State.modCan_keeps ?_
      exact hv1
    · extract_lets -merge +onlyGivenNames v2 v3
      clear_value v2
      clear_value v3
      refine KeepsOut.next ?_
      refine State.modCan_keeps ?_
      exact hv1

theorem execCanTtSyncLoss_keeps {z0 : State} {c : Fin 2} {s : State} (h0 : Keeps z0 s) : KeepsOut z0 (execCanTtSyncLoss c s) := by
  unfold execCanTtSyncLoss
  refine KeepsOut.ite ?_ ?_
  · refine KeepsOut.next ?_
    exact h0
  · extract_lets -merge +onlyGivenNames v1
    have hv1 : Keeps z0 v1 := by
      unfold v1
      refine State.modCan_keeps ?_
      refine State.set_keeps ?_
      exact h0
    clear_value v1
    refine KeepsOut.next ?_
    refine State.raiseCan_keeps ?_
    exact hv1

theorem State.canQueue_keeps {z0 : State} {s : State} {c : Fin 2} {k : Nat} {f : CanFrame} (h0 : Keeps z0 s) : Keeps z0 (State.canQueue s c k f) := by
  unfold State.canQueue
  extract_lets -merge +onlyGivenNames v1
  clear_value v1
  refine Keeps.ite ?_ ?_
  · refine State.raiseCan_keeps ?_
    refine State.bump_keeps ?_
    exact h0
  · extract_lets -merge +onlyGivenNames v2 v3 v4
    clear_value v2
    have hv3 : Keeps z0 v3 := by
      unfold v3
      exact Keeps.frame h0 rfl rfl rfl rfl rfl rfl rfl rfl rfl rfl
    clear_value v3
    have hv4 : Keeps z0 v4 := by
      unfold v4
      refine State.putBit_keeps ?_
      refine State.putBytes_keeps ?_
      exact hv3
    clear_value v4
    refine State.rxCount_keeps ?_
    refine State.set_keeps ?_
    exact hv4

theorem State.ttReference_keeps {z0 : State} {s : State} {c : Fin 2} {f : CanFrame} (h0 : Keeps z0 s) : Keeps z0 (State.ttReference s c f) := by
  unfold State.ttReference
  refine Keeps.ite ?_ ?_
  · refine State.ttCycle_keeps ?_
    exact h0
  · exact h0

theorem execCanFrameReceived_keeps {z0 : State} {c : Fin 2} {f : CanFrame} {s : State} (h0 : Keeps z0 s) : KeepsOut z0 (execCanFrameReceived c f s) := by
  unfold execCanFrameReceived
  refine KeepsOut.ite ?_ ?_
  · refine KeepsOut.next ?_
    exact h0
  · extract_lets -merge +onlyGivenNames v1 v2 v3 v4
    have hv1 : Keeps z0 v1 := by
      unfold v1
      refine State.canJoin_keeps ?_
      exact h0
    clear_value v1
    clear_value v2
    have hv3 : Keeps z0 v3 := by
      unfold v3
      refine Keeps.ite ?_ ?_
      · refine State.drawn_keeps ?_
        refine State.confine_keeps ?_
        exact hv1
      · refine State.confine_keeps ?_
        exact hv1
    clear_value v3
    have hv4 : Keeps z0 v4 := by
      unfold v4
      refine State.ttReference_keeps ?_
      exact hv3
    clear_value v4
    split
    · refine KeepsOut.next ?_
      exact hv4
    · refine KeepsOut.ite ?_ ?_
      · extract_lets -merge +onlyGivenNames v5
        clear_value v5
        refine KeepsOut.next ?_
        refine State.arrive_keeps ?_
        exact Keeps.frame hv4 rfl rfl rfl rfl rfl rfl rfl rfl rfl rfl
      · refine KeepsOut.next ?_
        refine State.canQueue_keeps ?_
        exact hv4

theorem execCanTxdTimeout_keeps {z0 : State} {s : State} (h0 : Keeps z0 s) : KeepsOut z0 (execCanTxdTimeout s) := by
  unfold execCanTxdTimeout
  refine KeepsOut.ite ?_ ?_
  · refine KeepsOut.next ?_
    exact h0
  · refine KeepsOut.next ?_
    refine State.raiseCan_keeps ?_
    refine State.set_keeps ?_
    exact h0

theorem execCanWakePattern_keeps {z0 : State} {s : State} (h0 : Keeps z0 s) : KeepsOut z0 (execCanWakePattern s) := by
  unfold execCanWakePattern
  refine KeepsOut.ite ?_ ?_
  · refine KeepsOut.next ?_
    refine State.modCan_keeps ?_
    exact h0
  · refine KeepsOut.next ?_
    exact h0

theorem State.canStart_keeps {z0 : State} {s : State} (h0 : Keeps z0 s) : Keeps z0 (State.canStart s) := by
  unfold State.canStart
  refine State.each_keeps ?_ ?_
  · exact h0
  · intro s1 x2 x3
    refine Keeps.ite ?_ ?_
    · exact x3
    · extract_lets -merge +onlyGivenNames v4 v5
      have hv4 : Keeps z0 v4 := by
        unfold v4
        refine State.setB_keeps ?_
        refine State.set_keeps ?_
        exact x3
      clear_value v4
      have hv5 : Keeps z0 v5 := by
        unfold v5
        refine State.set_keeps ?_
        refine State.set_keeps ?_
        refine State.set_keeps ?_
        exact hv4
      clear_value v5
      refine State.modCan_keeps ?_
      exact hv5

theorem State.canWithdraw_keeps {z0 : State} {s : State} (h0 : Keeps z0 s) : Keeps z0 (State.canWithdraw s) := by
  unfold State.canWithdraw
  refine State.each_keeps ?_ ?_
  · exact h0
  · intro s1 x2 x3
    refine State.txWithdraw_keeps ?_
    exact x3

theorem State.canRestrict_keeps {z0 : State} {s : State} (h0 : Keeps z0 s) : Keeps z0 (State.canRestrict s) := by
  unfold State.canRestrict
  refine State.each_keeps ?_ ?_
  · refine State.canWithdraw_keeps ?_
    exact h0
  · intro s1 x2 x3
    refine Keeps.ite ?_ ?_
    · refine State.modCan_keeps ?_
      refine State.set_keeps ?_
      exact x3
    · exact x3

theorem State.canFreeAll_keeps {z0 : State} {s : State} (h0 : Keeps z0 s) : Keeps z0 (State.canFreeAll s) := by
  unfold State.canFreeAll
  refine State.each_keeps ?_ ?_
  · exact h0
  · intro s1 x2 x3
    refine State.set_keeps ?_
    exact x3

theorem State.canHalt_keeps {z0 : State} {s : State} (h0 : Keeps z0 s) : Keeps z0 (State.canHalt s) := by
  unfold State.canHalt
  refine State.each_keeps ?_ ?_
  · refine State.canWithdraw_keeps ?_
    exact h0
  · intro s1 x2 x3
    refine State.modCan_keeps ?_
    exact x3

/-! Compare -/

theorem State.setCmpTime_keeps {z0 : State} {s : State} {k : Nat} {t : Nat} (h0 : Keeps z0 s) : Keeps z0 (State.setCmpTime s k t) := by
  unfold State.setCmpTime
  extract_lets -merge +onlyGivenNames v1 v2
  have hv1 : Keeps z0 v1 := by
    unfold v1
    refine State.set_keeps ?_
    exact h0
  clear_value v1
  have hv2 : Keeps z0 v2 := by
    unfold v2
    refine State.set_keeps ?_
    exact hv1
  clear_value v2
  refine State.set_keeps ?_
  exact hv2

theorem State.setSpent_keeps {z0 : State} {s : State} {k : Nat} {b : Bool} (h0 : Keeps z0 s) : Keeps z0 (State.setSpent s k b) := by
  unfold State.setSpent
  refine State.modTime_keeps ?_
  exact h0

theorem State.reportsAt_keeps {z0 s : State} {k t : Nat} (h0 : Keeps z0 s) : Keeps z0 (State.reportsAt s k t) := by
  refine State.each_keeps h0 fun s i h => ?_
  split
  · exact h
  rename_i x e
  extract_lets +onlyGivenNames touches swap y src s1
  have hy : Inv z0 → y.wf = true := fun j => by
    have hx := (h.2 j).session e
    show Session.wf (if swap then { x with report := x.nextReport, nextReport := none } else x) = true
    split <;> exact hx
  have put : ∀ (u : State), Keeps z0 u → ∀ v : Session, (Inv z0 → v.wf = true) →
      Keeps z0 { u with host := { u.host with sessions := setNth u.host.sessions i v } } := fun u hu v hv =>
    ⟨hu.1, fun j => { hu.2 j with sessions := all_setNth (hu.2 j).sessions (hv j) }⟩
  have h1 : Keeps z0 s1 := put s h y hy
  clear_value y s1
  split
  · exact h1
  split
  · exact h1
  split
  · exact put s1 h1 _ fun j => hy j
  · exact State.offerLaunch_keeps (put _ (State.each_keeps h1 fun s x h => State.afterRead_keeps h) _ fun j => hy j)

theorem State.fireCmp_keeps {z0 : State} {s : State} {k : Nat} {late : Bool} (h0 : Keeps z0 s) : Keeps z0 (State.fireCmp s k late) := by
  unfold State.fireCmp
  extract_lets -merge +onlyGivenNames v1 v2 v3 v4 v5 v6 v7 v8 v9 v10 v11
  clear_value v1
  have hv2 : Keeps z0 v2 := by
    unfold v2
    refine State.bump_keeps ?_
    refine State.set_keeps ?_
    exact h0
  clear_value v2
  have hv3 : Keeps z0 v3 := by
    unfold v3
    refine Keeps.ite ?_ ?_
    · refine State.set_keeps ?_
      exact hv2
    · exact hv2
  clear_value v3
  have hv4 : Keeps z0 v4 := by
    unfold v4
    refine State.arrive_keeps ?_
    exact hv3
  clear_value v4
  have hv5 : Keeps z0 v5 := by
    unfold v5
    refine State.fireSource_keeps ?_
    refine State.latchEvent_keeps ?_
    exact hv4
  clear_value v5
  have hv6 : Keeps z0 v6 := by
    unfold v6
    refine Keeps.ite ?_ ?_
    · refine State.modTime_keeps ?_
      exact hv5
    · exact hv5
  clear_value v6
  clear_value v7
  clear_value v8
  have hv9 : Keeps z0 v9 := by
    unfold v9
    refine Keeps.ite ?_ ?_
    · exact hv6
    · refine State.modTime_keeps ?_
      exact hv6
  clear_value v9
  have hv10 : Keeps z0 v10 := by
    unfold v10
    refine State.extEvent_keeps ?_
    refine State.canFire_keeps ?_
    refine State.fioFire_keeps ?_
    exact hv9
  clear_value v10
  have hv11 : Keeps z0 v11 := by
    unfold v11
    refine State.reportsAt_keeps ?_
    exact hv10
  clear_value v11
  refine Keeps.ite ?_ ?_
  · refine State.setSpent_keeps ?_
    exact hv11
  · refine State.setCmpTime_keeps ?_
    exact hv11

theorem execComparatorFire_keeps {z0 : State} {k : Fin 16} {s : State} (h0 : Keeps z0 s) : KeepsOut z0 (execComparatorFire k s) := by
  unfold execComparatorFire
  refine KeepsOut.ite ?_ ?_
  · refine KeepsOut.next ?_
    exact h0
  · refine KeepsOut.next ?_
    refine State.fireCmp_keeps ?_
    refine State.clockTo_keeps ?_
    exact h0

theorem State.cmpEnable_keeps {z0 : State} {s : State} {k : Nat} (h0 : Keeps z0 s) : Keeps z0 (State.cmpEnable s k) := by
  unfold State.cmpEnable
  extract_lets -merge +onlyGivenNames v1 v2
  clear_value v1
  clear_value v2
  refine Keeps.ite ?_ ?_
  · refine State.setSpent_keeps ?_
    exact h0
  · refine State.setSpent_keeps ?_
    refine State.setCmpTime_keeps ?_
    exact h0

theorem State.cmpWriteEn_keeps {z0 : State} {s : State} {k : Nat} {v : Bool} (h0 : Keeps z0 s) : Keeps z0 (State.cmpWriteEn s k v) := by
  unfold State.cmpWriteEn
  extract_lets -merge +onlyGivenNames v1 v2
  clear_value v1
  have hv2 : Keeps z0 v2 := by
    unfold v2
    refine State.setB_keeps ?_
    exact h0
  clear_value v2
  refine Keeps.ite ?_ ?_
  · refine Keeps.ite ?_ ?_
    · refine State.cmpEnable_keeps ?_
      exact hv2
    · exact hv2
  · refine Keeps.ite ?_ ?_
    · exact hv2
    · refine State.setSpent_keeps ?_
      exact hv2

theorem State.cmpStart_keeps {z0 : State} {s : State} (h0 : Keeps z0 s) : Keeps z0 (State.cmpStart s) := by
  unfold State.cmpStart
  refine State.each_keeps ?_ ?_
  · exact h0
  · intro s1 x2 x3
    refine Keeps.ite ?_ ?_
    · refine State.cmpEnable_keeps ?_
      exact x3
    · exact x3

theorem State.stepClock_keeps {z0 : State} {s : State} {t : Nat} (h0 : Keeps z0 s) : Keeps z0 (State.stepClock s t) := by
  unfold State.stepClock
  extract_lets -merge +onlyGivenNames v1 v2 v3 v4
  clear_value v1
  clear_value v2
  clear_value v3
  have hv4 : Keeps z0 v4 := by
    unfold v4
    exact Keeps.frame h0 rfl rfl rfl rfl rfl rfl rfl rfl rfl rfl
  clear_value v4
  extract_lets -merge +onlyGivenNames v5
  have hv5 : Keeps z0 v5 := by
    unfold v5
    refine State.set_keeps ?_
    refine State.bump_keeps ?_
    exact hv4
  clear_value v5
  refine State.each_keeps ?_ ?_
  · exact hv5
  · intro s6 x7 x8
    refine Keeps.ite ?_ ?_
    · exact x8
    · extract_lets -merge +onlyGivenNames v9 v10
      clear_value v9
      clear_value v10
      refine Keeps.ite ?_ ?_
      · extract_lets -merge +onlyGivenNames v11
        clear_value v11
        refine State.setCmpTime_keeps ?_
        exact x8
      · refine Keeps.ite ?_ ?_
        · refine State.fireCmp_keeps ?_
          exact x8
        · exact x8

theorem State.stepBy_keeps {z0 : State} {s : State} {d : Int} (h0 : Keeps z0 s) : Keeps z0 (State.stepBy s d) := by
  unfold State.stepBy
  refine State.stepClock_keeps ?_
  exact h0

theorem execSyncOutPulseEnd_keeps {z0 : State} {s : State} (h0 : Keeps z0 s) : KeepsOut z0 (execSyncOutPulseEnd s) := by
  unfold execSyncOutPulseEnd
  refine KeepsOut.next ?_
  refine State.modTime_keeps ?_
  exact h0

theorem execBurstSampleSet_keeps {z0 : State} {n : Slice} {conv : Tri Int} {s : State} (h0 : Keeps z0 s) : KeepsOut z0 (execBurstSampleSet n conv s) := by
  unfold execBurstSampleSet
  extract_lets -merge +onlyGivenNames v1
  clear_value v1
  refine KeepsOut.ite ?_ ?_
  · refine KeepsOut.next ?_
    exact h0
  · extract_lets -merge +onlyGivenNames v2 v3
    clear_value v2
    have hv3 : Keeps z0 v3 := by
      unfold v3
      refine State.modTime_keeps ?_
      exact h0
    clear_value v3
    refine KeepsOut.next ?_
    refine State.modAcq_keeps ?_
    exact hv3

/-! SchedRun -/

theorem State.modSched_keeps {z0 : State} {s : State} {f : SchedDyn → SchedDyn} (h0 : Keeps z0 s) : Keeps z0 (State.modSched s f) := by
  unfold State.modSched
  exact Keeps.frame h0 rfl rfl rfl rfl rfl rfl rfl rfl rfl rfl

theorem State.coreLevels_keeps {z0 : State} {s : State} (h0 : Keeps z0 s) : Keeps z0 (State.coreLevels s) := by
  unfold State.coreLevels
  refine State.each_keeps ?_ ?_
  · exact h0
  · intro s1 x2 x3
    refine Keeps.ite ?_ ?_
    · refine State.set_keeps ?_
      exact x3
    · refine Keeps.ite ?_ ?_
      · refine State.set_keeps ?_
        exact x3
      · exact x3

theorem State.schedStart_keeps {z0 : State} {s : State} (h0 : Keeps z0 s) : Keeps z0 (State.schedStart s) := by
  unfold State.schedStart
  extract_lets -merge +onlyGivenNames v1
  have hv1 : Keeps z0 v1 := by
    unfold v1
    refine State.set_keeps ?_
    refine State.set_keeps ?_
    exact h0
  clear_value v1
  refine State.modSched_keeps ?_
  exact hv1

theorem State.schedStop_keeps {z0 : State} {s : State} (h0 : Keeps z0 s) : Keeps z0 (State.schedStop s) := by
  unfold State.schedStop
  refine State.modSched_keeps ?_
  refine State.set_keeps ?_
  exact h0

end Sys2Proof.Machine
end

