-- ==== Sys2Proof/Laws/Keeps5.lean ====
section
/-!
SUPPORT. Laws/Keeps5.lean: what the operations and the meanings of Machine/Lease, AxisCmd, FaultLog, Start, Image, PipOps keep (Laws/Keeps.lean).
-/

namespace Sys2Proof.Machine

/-! Lease -/

theorem State.modTwin_keeps {z0 : State} {s : State} {f : TwinDyn → TwinDyn} (h0 : Keeps z0 s) : Keeps z0 (State.modTwin s f) := by
  unfold State.modTwin
  exact Keeps.frame h0 rfl rfl rfl rfl rfl rfl rfl rfl rfl rfl

theorem State.setToken_keeps {z0 : State} {s : State} {b : Bool} (h0 : Keeps z0 s) : Keeps z0 (State.setToken s b) := by
  unfold State.setToken
  refine State.withState_keeps ?_ ?_
  · refine State.setB_keeps ?_
    exact h0
  · intro s1 x2
    refine State.setB_keeps ?_
    exact x2

theorem State.gapBegin_keeps {z0 : State} {s : State} {seen : Bool} (h0 : Keeps z0 s) : Keeps z0 (State.gapBegin s seen) := by
  unfold State.gapBegin
  extract_lets -merge +onlyGivenNames v1 v2
  clear_value v1
  have hv2 : Keeps z0 v2 := by
    unfold v2
    refine State.modFio_keeps ?_
    refine State.set_keeps ?_
    exact h0
  clear_value v2
  refine Keeps.ite ?_ ?_
  · refine State.modTwin_keeps ?_
    exact hv2
  · exact hv2

theorem State.gapOver_keeps {z0 : State} {s : State} (h0 : Keeps z0 s) : Keeps z0 (State.gapOver s) := by
  unfold State.gapOver
  refine State.modFio_keeps ?_
  refine State.set_keeps ?_
  exact h0

theorem State.freeLevels_keeps {z0 : State} {s : State} (h0 : Keeps z0 s) : Keeps z0 (State.freeLevels s) := by
  unfold State.freeLevels
  refine Keeps.ite ?_ ?_
  · exact h0
  · refine State.modFio_keeps ?_
    exact h0

theorem State.shadow_keeps {z0 : State} {s : State} (h0 : Keeps z0 s) : Keeps z0 (State.shadow s) := by
  unfold State.shadow
  refine Keeps.ite ?_ ?_
  · exact h0
  · extract_lets -merge +onlyGivenNames v1 v2
    have hv1 : Keeps z0 v1 := by
      unfold v1
      refine State.canRestrict_keeps ?_
      refine State.setDev_keeps ?_
      refine State.holdLevels_keeps ?_
      exact h0
    clear_value v1
    have hv2 : Keeps z0 v2 := by
      unfold v2
      refine State.set_keeps ?_
      refine State.set_keeps ?_
      refine State.set_keeps ?_
      exact hv1
    clear_value v2
    refine State.modTwin_keeps ?_
    exact hv2

theorem State.claimNow_keeps {z0 : State} {s : State} (h0 : Keeps z0 s) : Keeps z0 (State.claimNow s) := by
  unfold State.claimNow
  extract_lets -merge +onlyGivenNames v1 v2 v3
  clear_value v1
  have hv2 : Keeps z0 v2 := by
    unfold v2
    refine State.set_keeps ?_
    refine State.setToken_keeps ?_
    refine State.set_keeps ?_
    exact h0
  clear_value v2
  have hv3 : Keeps z0 v3 := by
    unfold v3
    exact Keeps.frame hv2 rfl rfl rfl rfl rfl rfl rfl rfl rfl rfl
  clear_value v3
  refine State.modTwin_keeps ?_
  refine State.canFreeAll_keeps ?_
  refine State.gapOver_keeps ?_
  exact hv3

theorem State.arbYield_keeps {z0 : State} {s : State} (h0 : Keeps z0 s) : Keeps z0 (State.arbYield s) := by
  unfold State.arbYield
  extract_lets -merge +onlyGivenNames v1
  have hv1 : Keeps z0 v1 := by
    unfold v1
    refine State.bump_keeps ?_
    refine State.setToken_keeps ?_
    refine State.set_keeps ?_
    exact h0
  clear_value v1
  refine Keeps.ite ?_ ?_
  · refine State.canRestrict_keeps ?_
    exact hv1
  · refine State.shadow_keeps ?_
    exact hv1

theorem State.loadLease_keeps {z0 : State} {s : State} (h0 : Keeps z0 s) : Keeps z0 (State.loadLease s) := by
  unfold State.loadLease
  refine State.modTwin_keeps ?_
  exact h0

theorem State.releaseToken_keeps {z0 : State} {s : State} {orderly : Bool} (h0 : Keeps z0 s) : Keeps z0 (State.releaseToken s orderly) := by
  unfold State.releaseToken
  extract_lets -merge +onlyGivenNames v1
  clear_value v1
  refine Keeps.ite ?_ ?_
  · exact h0
  · extract_lets -merge +onlyGivenNames v2 v3
    have hv2 : Keeps z0 v2 := by
      unfold v2
      refine Keeps.ite ?_ ?_
      · refine State.gapBegin_keeps ?_
        exact h0
      · exact h0
    clear_value v2
    have hv3 : Keeps z0 v3 := by
      unfold v3
      refine State.setToken_keeps ?_
      refine State.set_keeps ?_
      exact hv2
    clear_value v3
    refine State.modTwin_keeps ?_
    exact hv3

theorem State.lockout_keeps {z0 : State} {s : State} (h0 : Keeps z0 s) : Keeps z0 (State.lockout s) := by
  unfold State.lockout
  extract_lets -merge +onlyGivenNames v1 v2 v3
  have hv1 : Keeps z0 v1 := by
    unfold v1
    refine Keeps.ite ?_ ?_
    · refine State.gapBegin_keeps ?_
      exact h0
    · exact h0
  clear_value v1
  have hv2 : Keeps z0 v2 := by
    unfold v2
    refine State.raiseMod_keeps ?_
    refine State.bump_keeps ?_
    refine State.setToken_keeps ?_
    refine State.set_keeps ?_
    exact hv1
  clear_value v2
  have hv3 : Keeps z0 v3 := by
    unfold v3
    refine State.modTwin_keeps ?_
    exact hv2
  clear_value v3
  refine Keeps.ite ?_ ?_
  · refine State.setDev_keeps ?_
    refine State.each_keeps ?_ ?_
    · exact hv3
    · intro s4 x5 x6
      refine State.reactF3_keeps ?_
      exact x6
  · exact hv3

theorem State.leaseLost_keeps {z0 : State} {s : State} (h0 : Keeps z0 s) : Keeps z0 (State.leaseLost s) := by
  unfold State.leaseLost
  extract_lets -merge +onlyGivenNames v1 v2 v3
  have hv1 : Keeps z0 v1 := by
    unfold v1
    refine State.gapBegin_keeps ?_
    exact h0
  clear_value v1
  have hv2 : Keeps z0 v2 := by
    unfold v2
    refine State.bump_keeps ?_
    refine State.setToken_keeps ?_
    refine State.set_keeps ?_
    exact hv1
  clear_value v2
  have hv3 : Keeps z0 v3 := by
    unfold v3
    refine State.modTwin_keeps ?_
    exact hv2
  clear_value v3
  refine Keeps.ite ?_ ?_
  · refine State.shadow_keeps ?_
    refine State.axesOut_keeps ?_
    exact hv3
  · exact hv3

theorem State.syncCheck_keeps {z0 : State} {s : State} (h0 : Keeps z0 s) : Keeps z0 (State.syncCheck s) := by
  unfold State.syncCheck
  extract_lets -merge +onlyGivenNames v1
  clear_value v1
  refine State.setB_keeps ?_
  exact h0

theorem State.ageAxis_keeps {z0 : State} {s : State} {n : Slice} (h0 : Keeps z0 s) : Keeps z0 (State.ageAxis s n) := by
  unfold State.ageAxis
  split
  · exact h0
  · refine Keeps.ite ?_ ?_
    · exact h0
    · extract_lets -merge +onlyGivenNames v1
      have hv1 : Keeps z0 v1 := by
        unfold v1
        refine State.modTwin_keeps ?_
        exact h0
      clear_value v1
      refine State.syncCheck_keeps ?_
      refine Keeps.ite ?_ ?_
      · exact hv1
      · refine State.putBit_keeps ?_
        exact hv1

theorem State.twinServo_keeps {z0 : State} {s : State} {n : Slice} (h0 : Keeps z0 s) : Keeps z0 (State.twinServo s n) := by
  unfold State.twinServo
  refine Keeps.ite ?_ ?_
  · exact h0
  · refine State.ageAxis_keeps ?_
    refine State.modTwin_keeps ?_
    exact h0

/-! AxisCmd -/

theorem State.enableSlice_keeps {z0 : State} {s : State} {n : Slice} (h0 : Keeps z0 s) : Keeps z0 (State.enableSlice s n) := by
  unfold State.enableSlice
  extract_lets -merge +onlyGivenNames v1 v2 v3 v4
  have hv1 : Keeps z0 v1 := by
    unfold v1
    refine State.set_keeps ?_
    exact h0
  clear_value v1
  have hv2 : Keeps z0 v2 := by
    unfold v2
    refine State.modAx_keeps ?_
    exact hv1
  clear_value v2
  have hv3 : Keeps z0 v3 := by
    unfold v3
    refine State.modPwm_keeps ?_
    exact hv2
  clear_value v3
  have hv4 : Keeps z0 v4 := by
    unfold v4
    refine State.each_keeps ?_ ?_
    · exact hv3
    · intro s5 x6 x7
      refine State.toReset_keeps ?_
      exact x7
  clear_value v4
  refine State.modSense_keeps ?_
  exact hv4

theorem State.axEnable_keeps {z0 : State} {s : State} {n : Slice} (h0 : Keeps z0 s) : Keeps z0 (State.axEnable s n) := by
  unfold State.axEnable
  extract_lets -merge +onlyGivenNames v1
  clear_value v1
  refine Keeps.ite ?_ ?_
  · refine State.raiseAx_keeps ?_
    refine State.set_keeps ?_
    exact h0
  · extract_lets -merge +onlyGivenNames v2 v3 v4 v5 v6
    have hv2 : Keeps z0 v2 := by
      unfold v2
      refine State.each_keeps ?_ ?_
      · exact h0
      · intro s7 x8 x9
        refine State.enableSlice_keeps ?_
        exact x9
    clear_value v2
    have hv3 : Keeps z0 v3 := by
      unfold v3
      refine State.set_keeps ?_
      exact hv2
    clear_value v3
    have hv4 : Keeps z0 v4 := by
      unfold v4
      refine State.set_keeps ?_
      exact hv3
    clear_value v4
    have hv5 : Keeps z0 v5 := by
      unfold v5
      refine State.modAx_keeps ?_
      exact hv4
    clear_value v5
    have hv6 : Keeps z0 v6 := by
      unfold v6
      refine State.startRest_keeps ?_
      refine State.supOff_keeps ?_
      exact hv5
    clear_value v6
    refine State.set_keeps ?_
    refine State.setAxst_keeps ?_
    exact hv6

theorem execEnable_keeps {z0 : State} {n : Slice} {s : State} (h0 : Keeps z0 s) : KeepsOut z0 (execEnable n s) := by
  unfold execEnable
  refine KeepsOut.next ?_
  refine State.axEnable_keeps ?_
  exact h0

theorem State.axStop_keeps {z0 : State} {s : State} {n : Slice} (h0 : Keeps z0 s) : Keeps z0 (State.axStop s n) := by
  unfold State.axStop
  split
  · refine State.leave_keeps ?_
    exact h0
  · refine State.stopLeads_keeps ?_
    exact h0
  · exact h0

theorem State.axQuick_keeps {z0 : State} {s : State} {n : Slice} (h0 : Keeps z0 s) : Keeps z0 (State.axQuick s n) := by
  unfold State.axQuick
  split
  · refine State.leave_keeps ?_
    exact h0
  · refine State.stopLeads_keeps ?_
    exact h0
  · extract_lets -merge +onlyGivenNames v1
    have hv1 : Keeps z0 v1 := by
      unfold v1
      refine State.modAx_keeps ?_
      exact h0
    clear_value v1
    refine Keeps.ite ?_ ?_
    · refine State.feedHold_keeps ?_
      exact hv1
    · refine State.modSup_keeps ?_
      exact hv1
  · exact h0

theorem State.axDisable_keeps {z0 : State} {s : State} {n : Slice} (h0 : Keeps z0 s) : Keeps z0 (State.axDisable s n) := by
  unfold State.axDisable
  split
  · refine State.leave_keeps ?_
    exact h0
  · refine State.modSup_keeps ?_
    refine State.modAx_keeps ?_
    refine State.leave_keeps ?_
    exact h0
  · refine State.modSup_keeps ?_
    refine State.modAx_keeps ?_
    refine State.leave_keeps ?_
    exact h0
  · exact h0

theorem execStop_keeps {z0 : State} {n : Slice} {s : State} (h0 : Keeps z0 s) : KeepsOut z0 (execStop n s) := by
  unfold execStop
  refine KeepsOut.next ?_
  refine State.axStop_keeps ?_
  exact h0

theorem execQuickStop_keeps {z0 : State} {n : Slice} {s : State} (h0 : Keeps z0 s) : KeepsOut z0 (execQuickStop n s) := by
  unfold execQuickStop
  refine KeepsOut.next ?_
  refine State.axQuick_keeps ?_
  exact h0

theorem execDisable_keeps {z0 : State} {n : Slice} {s : State} (h0 : Keeps z0 s) : KeepsOut z0 (execDisable n s) := by
  unfold execDisable
  refine KeepsOut.next ?_
  refine State.axDisable_keeps ?_
  exact h0

theorem State.initialSetpoint_keeps {z0 : State} {s : State} {n : Slice} (h0 : Keeps z0 s) : KeepsP z0 (State.initialSetpoint s n) := by
  unfold State.initialSetpoint
  extract_lets -merge +onlyGivenNames v1
  clear_value v1
  split
  · refine State.gearEngage_keeps ?_
    exact h0
  · refine KeepsP.mk ?_
    refine State.modProf_keeps ?_
    exact h0
  · refine KeepsP.mk ?_
    refine State.modProf_keeps ?_
    exact h0

theorem State.stepFour_keeps {z0 : State} {s : State} {n : Slice} (h0 : Keeps z0 s) : Keeps z0 (State.stepFour s n) := by
  unfold State.stepFour
  split
  rename_i s1 y2 y3
  have h4 : Keeps z0 s1 := by
    refine KeepsP.of_eq y3 ?_
    refine State.initialSetpoint_keeps ?_
    exact h0
  refine Keeps.ite ?_ ?_
  · refine State.modAx_keeps ?_
    refine State.set_keeps ?_
    exact h4
  · refine State.raiseAx_keeps ?_
    refine State.set_keeps ?_
    exact h4

theorem State.closeLoop_keeps {z0 : State} {s : State} {n : Slice} (h0 : Keeps z0 s) : Keeps z0 (State.closeLoop s n) := by
  unfold State.closeLoop
  refine Keeps.ite ?_ ?_
  · exact h0
  · extract_lets -merge +onlyGivenNames v1 v2
    have hv1 : Keeps z0 v1 := by
      unfold v1
      refine State.set_keeps ?_
      refine State.setAxst_keeps ?_
      exact h0
    clear_value v1
    have hv2 : Keeps z0 v2 := by
      unfold v2
      refine State.modAx_keeps ?_
      exact hv1
    clear_value v2
    refine State.supStart_keeps ?_
    exact hv2

theorem State.angleDone_keeps {z0 : State} {s : State} {n : Slice} {o : EnableObs} (h0 : Keeps z0 s) : Keeps z0 (State.angleDone s n o) := by
  unfold State.angleDone
  refine Keeps.ite ?_ ?_
  · extract_lets -merge +onlyGivenNames v1 v2
    have hv1 : Keeps z0 v1 := by
      unfold v1
      refine State.set_keeps ?_
      exact h0
    clear_value v1
    have hv2 : Keeps z0 v2 := by
      unfold v2
      refine State.set_keeps ?_
      exact hv1
    clear_value v2
    refine State.startRest_keeps ?_
    refine State.set_keeps ?_
    exact hv2
  · exact h0

theorem execEnableStepDone_keeps {z0 : State} {n : Slice} {o : EnableObs} {s : State} (h0 : Keeps z0 s) : KeepsOut z0 (execEnableStepDone n o s) := by
  unfold execEnableStepDone
  extract_lets -merge +onlyGivenNames v1
  clear_value v1
  refine KeepsOut.ite ?_ ?_
  · refine KeepsOut.next ?_
    exact h0
  · refine KeepsOut.ite ?_ ?_
    · refine KeepsOut.next ?_
      refine Keeps.ite ?_ ?_
      · refine KeepsP.fst ?_
        refine State.calibrate_keeps ?_
        exact h0
      · exact h0
    · split
      · split
        rename_i s2 y3 y4
        have h5 : Keeps z0 s2 := by
          refine KeepsP.of_eq y4 ?_
          refine State.calibrate_keeps ?_
          exact h0
        refine KeepsOut.next ?_
        refine Keeps.ite ?_ ?_
        · refine State.set_keeps ?_
          exact h5
        · exact h5
      · refine KeepsOut.ite ?_ ?_
        · extract_lets -merge +onlyGivenNames v6
          have hv6 : Keeps z0 v6 := by
            unfold v6
            refine State.set_keeps ?_
            exact h0
          clear_value v6
          refine KeepsOut.next ?_
          refine Keeps.ite ?_ ?_
          · refine State.enterAlign_keeps ?_
            exact hv6
          · exact hv6
        · refine KeepsOut.next ?_
          exact h0
      · refine KeepsOut.ite ?_ ?_
        · refine KeepsOut.next ?_
          exact h0
        · refine KeepsOut.next ?_
          refine State.stepFour_keeps ?_
          refine State.angleDone_keeps ?_
          exact h0
      · refine KeepsOut.next ?_
        refine State.closeLoop_keeps ?_
        exact h0
      · refine KeepsOut.next ?_
        exact h0

theorem execBootstrapPrechargeStart_keeps {z0 : State} {s : State} (h0 : Keeps z0 s) : KeepsOut z0 (execBootstrapPrechargeStart s) := by
  unfold execBootstrapPrechargeStart
  split
  · refine KeepsOut.next ?_
    refine State.modPwm_keeps ?_
    exact h0
  · refine KeepsOut.next ?_
    exact h0

theorem execPrechargePhase_keeps {z0 : State} {n : Slice} {o : EnableObs} {s : State} (h0 : Keeps z0 s) : KeepsOut z0 (execPrechargePhase n o s) := by
  unfold execPrechargePhase
  split
  · refine KeepsOut.next ?_
    exact h0
  · refine KeepsOut.next ?_
    refine State.modPwm_keeps ?_
    exact h0
  · refine KeepsOut.next ?_
    refine State.modPwm_keeps ?_
    exact h0
  · extract_lets -merge +onlyGivenNames v1
    have hv1 : Keeps z0 v1 := by
      unfold v1
      refine State.modPwm_keeps ?_
      exact h0
    clear_value v1
    refine KeepsOut.ite ?_ ?_
    · refine KeepsOut.next ?_
      refine State.modAx_keeps ?_
      exact hv1
    · refine KeepsOut.next ?_
      refine State.raiseAx_keeps ?_
      exact hv1

theorem execBrakeDisbrkTimeout_keeps {z0 : State} {n : Slice} {s : State} (h0 : Keeps z0 s) : KeepsOut z0 (execBrakeDisbrkTimeout n s) := by
  unfold execBrakeDisbrkTimeout
  refine KeepsOut.next ?_
  refine State.modAx_keeps ?_
  exact h0

theorem State.axCommand_keeps {z0 : State} {s : State} {n : Slice} {cmd : Nat} (h0 : Keeps z0 s) : Keeps z0 (State.axCommand s n cmd) := by
  unfold State.axCommand
  split
  · refine State.axEnable_keeps ?_
    exact h0
  · refine State.axStop_keeps ?_
    exact h0
  · refine State.axQuick_keeps ?_
    exact h0
  · refine State.axDisable_keeps ?_
    exact h0
  · refine State.clearAxis_keeps ?_
    exact h0
  · exact h0

theorem State.prCommand_keeps {z0 : State} {s : State} {n : Slice} {v : Nat} (h0 : Keeps z0 s) : Keeps z0 (State.prCommand s n v) := by
  unfold State.prCommand
  split
  · refine State.moveTo_keeps ?_
    exact h0
  · refine State.moveTo_keeps ?_
    exact h0
  · refine State.jogTo_keeps ?_
    exact h0
  · refine State.homeTo_keeps ?_
    exact h0
  · refine State.homeAbort_keeps ?_
    exact h0
  · exact h0

theorem State.grpCommand_keeps {z0 : State} {s : State} {g : Fin 8} {v : Nat} (h0 : Keeps z0 s) : Keeps z0 (State.grpCommand s g v) := by
  unfold State.grpCommand
  split
  · refine State.grpGo_keeps ?_
    exact h0
  · refine State.grpHold_keeps ?_
    exact h0
  · refine State.grpResume_keeps ?_
    exact h0
  · refine State.grpAbort_keeps ?_
    exact h0
  · refine State.grpAppend_keeps ?_
    exact h0
  · exact h0

theorem State.takeServo_keeps {z0 : State} {s : State} {n : Slice} (h0 : Keeps z0 s) : Keeps z0 (State.takeServo s n) := by
  unfold State.takeServo
  extract_lets -merge +onlyGivenNames v1 v2 v3 v4 v5
  clear_value v1
  clear_value v2
  clear_value v3
  have hv4 : Keeps z0 v4 := by
    unfold v4
    refine State.takeIf_keeps ?_
    exact h0
  clear_value v4
  have hv5 : Keeps z0 v5 := by
    unfold v5
    refine State.set_keeps ?_
    exact hv4
  clear_value v5
  refine Keeps.ite ?_ ?_
  · refine State.modProf_keeps ?_
    exact hv5
  · exact hv5

theorem State.takeGroup_keeps {z0 : State} {s : State} {g : Fin 8} (h0 : Keeps z0 s) : KeepsP z0 (State.takeGroup s g) := by
  unfold State.takeGroup
  extract_lets -merge +onlyGivenNames v1 v2
  clear_value v1
  clear_value v2
  refine KeepsP.mk ?_
  refine State.unstage_keeps ?_
  refine State.takeIf_keeps ?_
  exact h0

theorem State.generate_keeps {z0 : State} {s : State} {n : Slice} (h0 : Keeps z0 s) : Keeps z0 (State.generate s n) := by
  unfold State.generate
  refine Keeps.ite ?_ ?_
  · refine State.rampCycle_keeps ?_
    exact h0
  · refine Keeps.ite ?_ ?_
    · exact h0
    · split
      · refine State.homeCycle_keeps ?_
        refine State.planCycle_keeps ?_
        exact h0
      · refine State.gearCycle_keeps ?_
        exact h0
      · refine State.homeCycle_keeps ?_
        refine State.planCycle_keeps ?_
        exact h0
      · exact h0

theorem State.publish_keeps {z0 : State} {s : State} {n : Slice} (h0 : Keeps z0 s) : Keeps z0 (State.publish s n) := by
  unfold State.publish
  split
  · exact h0
  · exact h0
  · refine Keeps.ite ?_ ?_
    · exact h0
    · extract_lets -merge +onlyGivenNames v1
      clear_value v1
      refine State.setS_keeps ?_
      exact h0
  · refine State.setS_keeps ?_
    exact h0

theorem execServoBoundary_keeps {z0 : State} {n : Slice} {s : State} (h0 : Keeps z0 s) : KeepsOut z0 (execServoBoundary n s) := by
  unfold execServoBoundary
  refine KeepsOut.ite ?_ ?_
  · refine KeepsOut.next ?_
    exact h0
  · extract_lets -merge +onlyGivenNames v1 v2 v3 v4
    have hv1 : Keeps z0 v1 := by
      unfold v1
      refine State.thermalBoundary_keeps ?_
      exact h0
    clear_value v1
    have hv2 : Keeps z0 v2 := by
      unfold v2
      exact Keeps.frame hv1 rfl rfl rfl rfl rfl rfl rfl rfl rfl rfl
    clear_value v2
    clear_value v3
    have hv4 : Keeps z0 v4 := by
      unfold v4
      refine State.corrApply_keeps ?_
      refine State.takeServo_keeps ?_
      exact hv2
    clear_value v4
    refine KeepsOut.ite ?_ ?_
    · refine KeepsOut.next ?_
      refine State.unstage_keeps ?_
      exact hv4
    · extract_lets -merge +onlyGivenNames v5 v6 v7 v8 v9
      have hv5 : Keeps z0 v5 := by
        unfold v5
        refine State.twinServo_keeps ?_
        exact hv4
      clear_value v5
      clear_value v6
      have hv7 : Keeps z0 v7 := by
        unfold v7
        refine Keeps.ite ?_ ?_
        · exact hv5
        · refine State.closeLoop_keeps ?_
          exact hv5
      clear_value v7
      clear_value v8
      have hv9 : Keeps z0 v9 := by
        unfold v9
        refine Keeps.ite ?_ ?_
        · exact hv7
        · refine State.generate_keeps ?_
          exact hv7
      clear_value v9
      split
      rename_i s10 y11 y12
      have h13 : Keeps z0 s10 := by
        refine KeepsP.of_eq y12 ?_
        split
        · split
          rename_i s14 y15 y16
          have h17 : Keeps z0 s14 := by
            refine KeepsP.of_eq y16 ?_
            refine State.takeGroup_keeps ?_
            exact hv9
          refine KeepsP.mk ?_
          refine Keeps.ite ?_ ?_
          · exact h17
          · refine State.groupCycle_keeps ?_
            exact h17
        · refine KeepsP.mk ?_
          exact hv9
      extract_lets -merge +onlyGivenNames v18 v19 v20 v21
      have hv18 : Keeps z0 v18 := by
        unfold v18
        refine State.unstage_keeps ?_
        exact h13
      clear_value v18
      have hv19 : Keeps z0 v19 := by
        unfold v19
        split
        · refine State.axCommand_keeps ?_
          exact hv18
        · exact hv18
      clear_value v19
      have hv20 : Keeps z0 v20 := by
        unfold v20
        split
        · refine State.prCommand_keeps ?_
          exact hv19
        · exact hv19
      clear_value v20
      have hv21 : Keeps z0 v21 := by
        unfold v21
        split
        · refine State.grpCommand_keeps ?_
          exact hv20
        · exact hv20
      clear_value v21
      refine KeepsOut.ite ?_ ?_
      · refine KeepsOut.next ?_
        exact hv21
      · extract_lets -merge +onlyGivenNames v22 v23
        have hv22 : Keeps z0 v22 := by
          unfold v22
          refine Keeps.ite ?_ ?_
          · refine State.replanNow_keeps ?_
            refine State.armedStart_keeps ?_
            exact hv21
          · exact hv21
        clear_value v22
        have hv23 : Keeps z0 v23 := by
          unfold v23
          refine Keeps.ite ?_ ?_
          · refine State.stepCycle_keeps ?_
            exact hv22
          · exact hv22
        clear_value v23
        refine KeepsOut.next ?_
        refine Keeps.ite ?_ ?_
        · refine State.publish_keeps ?_
          exact hv23
        · exact hv23

/-! FaultLog -/

theorem State.faultNotice_keeps {z0 : State} {s : State} {e : LogEntry} (h0 : Keeps z0 s) : Keeps z0 (State.faultNotice s e) := by
  unfold State.faultNotice
  refine Keeps.ite ?_ ?_
  · exact h0
  · refine State.notice_keeps ?_
    exact h0

theorem State.countFault_keeps {z0 : State} {s : State} {sev : Nat} (h0 : Keeps z0 s) : Keeps z0 (State.countFault s sev) := by
  unfold State.countFault
  split
  · refine State.bump_keeps ?_
    exact h0
  · refine State.bump_keeps ?_
    exact h0
  · refine State.bump_keeps ?_
    exact h0
  · refine State.bump_keeps ?_
    exact h0
  · exact h0

theorem State.logNew_keeps {z0 s : State} {e : LogEntry} (h0 : Keeps z0 s) : Keeps z0 (State.logNew s e) := by
  unfold State.logNew
  extract_lets +onlyGivenNames n e' place
  have hp : ∀ k l, place = some (k, l) → Inv s → l.length + 1 ≤ 256 := by
    intro k l hk i
    have hl := i.log
    by_cases hf : s.faults.log.length < 256
    · simp only [place, if_pos hf, Option.some.injEq, Prod.mk.injEq] at hk
      rw [← hk.2]; omega
    · simp only [place, if_neg hf] at hk
      have := makeRoom_length hk
      omega
  clear_value place
  split
  · exact State.bump_keeps h0
  · exact State.faultNotice_keeps (State.countFault_keeps (h0.log fun i => by
      have := hp _ _ rfl i
      simpa using this))

theorem State.logFault_keeps {z0 s : State} {e : LogEntry} (h0 : Keeps z0 s) : Keeps z0 (State.logFault s e) := by
  unfold State.logFault
  split
  · split
    · exact h0.log fun i => by simpa using i.log
    · exact State.logNew_keeps h0
  · exact State.logNew_keeps h0

theorem State.rindLog_keeps {z0 : State} {s : State} {code : Nat} {sev : Nat} {detail : Nat} (h0 : Keeps z0 s) : Keeps z0 (State.rindLog s code sev detail) := by
  unfold State.rindLog
  extract_lets -merge +onlyGivenNames v1
  clear_value v1
  refine State.logFault_keeps ?_
  exact h0

/-! Start -/

theorem netReset_launch : ∀ p : Fin 3, NetDyn.reset.ports[p].launch.length ≤ 64 := by decide

/-- A state built anew that keeps the queue and whose memory, queues and tables are empty. -/
theorem Keeps.anew {z0 s t : State} (h : Keeps z0 s) (hp : t.pending = s.pending) (hm : t.mem = []) (hr : Inv s → Regs.wf t.regs = true)
    (ha : t.boot.slotA = s.boot.slotA) (hb : t.boot.slotB = s.boot.slotB) (hl : t.faults.log.length ≤ s.faults.log.length)
    (hq : t.faults.fieldQueue = []) (hs : t.host = HostDyn.reset) (hn : t.net = NetDyn.reset) : Keeps z0 t := by
  refine ⟨hp.trans h.1, fun i => ?_⟩
  have j := h.2 i
  exact ⟨by rw [hm]; rfl, hr j, ha ▸ j.slotA, hb ▸ j.slotB, Nat.le_trans hl j.log, by rw [hq]; exact Nat.zero_le _, by rw [hs]; rfl,
    by rw [hn]; exact Nat.zero_le _, by rw [hn]; exact netReset_launch⟩

theorem State.clearDomains_keeps {z0 s : State} (h0 : Keeps z0 s) : Keeps z0 (State.clearDomains s) := by
  unfold State.clearDomains
  extract_lets +onlyGivenNames b r0 r1 r2 r3 r4 r5 t t1 t2
  have ht : Keeps z0 t := h0.anew rfl rfl (fun i => Regs.wf_filter i.regs) rfl rfl (Nat.le_refl _) rfl rfl rfl
  clear_value t
  exact State.set_keeps (State.each_keeps (State.setB_keeps (State.setB_keeps ht)) fun s x h => State.toReset_keeps h)

theorem State.beginIntake_keeps {z0 : State} {s : State} (h0 : Keeps z0 s) : Keeps z0 (State.beginIntake s) := by
  unfold State.beginIntake
  extract_lets -merge +onlyGivenNames v1 v2 v3
  have hv1 : Keeps z0 v1 := by
    unfold v1
    refine State.coreLevels_keeps ?_
    refine State.clearDomains_keeps ?_
    exact h0
  clear_value v1
  have hv2 : Keeps z0 v2 := by
    unfold v2
    refine State.set_keeps ?_
    refine State.set_keeps ?_
    exact hv1
  clear_value v2
  have hv3 : Keeps z0 v3 := by
    unfold v3
    refine State.set_keeps ?_
    refine State.set_keeps ?_
    exact hv2
  clear_value v3
  refine State.modBoot_keeps ?_ ?_
  · exact Keeps.frame hv3 rfl rfl rfl rfl rfl rfl rfl rfl rfl rfl
  · exact fun _ => ⟨rfl, rfl⟩

theorem State.faultAxes_keeps {z0 : State} {s : State} (h0 : Keeps z0 s) : Keeps z0 (State.faultAxes s) := by
  unfold State.faultAxes
  refine State.each_keeps ?_ ?_
  · exact h0
  · intro s1 x2 x3
    refine State.reactF3_keeps ?_
    exact x3

theorem State.enterHalt_keeps {z0 : State} {s : State} (h0 : Keeps z0 s) : Keeps z0 (State.enterHalt s) := by
  unfold State.enterHalt
  refine Keeps.ite ?_ ?_
  · exact h0
  · extract_lets -merge +onlyGivenNames v1 v2 v3
    clear_value v1
    have hv2 : Keeps z0 v2 := by
      unfold v2
      refine State.faultAxes_keeps ?_
      refine State.releaseToken_keeps ?_
      exact h0
    clear_value v2
    have hv3 : Keeps z0 v3 := by
      unfold v3
      refine State.schedStop_keeps ?_
      refine State.setDev_keeps ?_
      refine State.holdLevels_keeps ?_
      exact hv2
    clear_value v3
    refine State.modBoot_keeps ?_ ?_
    · refine State.canHalt_keeps ?_
      refine State.acqStopRun_keeps ?_
      exact hv3
    · exact fun _ => ⟨rfl, rfl⟩

theorem State.bothCauses_keeps {z0 s : State} {code : Nat} (h0 : Keeps z0 s) : Keeps z0 (State.bothCauses s code) :=
  h0.log fun i => by simpa using i.log

theorem State.leaveFor_keeps {z0 : State} {s : State} {byPower : Bool} (h0 : Keeps z0 s) : Keeps z0 (State.leaveFor s byPower) := by
  unfold State.leaveFor
  extract_lets -merge +onlyGivenNames v1
  clear_value v1
  refine Keeps.ite ?_ ?_
  · extract_lets -merge +onlyGivenNames v2 v3
    clear_value v2
    have hv3 : Keeps z0 v3 := by
      unfold v3
      refine Keeps.ite ?_ ?_
      · exact h0
      · refine State.bothCauses_keeps ?_
        exact h0
    clear_value v3
    refine State.modBoot_keeps ?_ ?_
    · exact hv3
    · (intro b; split <;> exact ⟨rfl, rfl⟩)
  · extract_lets -merge +onlyGivenNames v5 v6 v7 v8 v9 v10
    have hv5 : Keeps z0 v5 := by
      unfold v5
      refine State.bump_keeps ?_
      exact h0
    clear_value v5
    have hv6 : Keeps z0 v6 := by
      unfold v6
      refine State.faultAxes_keeps ?_
      refine State.releaseToken_keeps ?_
      exact hv5
    clear_value v6
    have hv7 : Keeps z0 v7 := by
      unfold v7
      refine State.each_keeps ?_ ?_
      · refine State.canHalt_keeps ?_
        exact hv6
      · intro s11 x12 x13
        refine State.modCan_keeps ?_
        exact x13
    clear_value v7
    have hv8 : Keeps z0 v8 := by
      unfold v8
      refine State.each_keeps ?_ ?_
      · exact hv7
      · intro s14 x15 x16
        refine State.modPort_keeps ?_ ?_
        · exact x16
        · exact fun _ => Nat.le_refl _
    clear_value v8
    have hv9 : Keeps z0 v9 := by
      unfold v9
      exact Keeps.frame hv8 rfl rfl rfl rfl rfl rfl rfl rfl rfl rfl
    clear_value v9
    have hv10 : Keeps z0 v10 := by
      unfold v10
      refine State.rindLog_keeps ?_
      exact hv9
    clear_value v10
    refine State.modBoot_keeps ?_ ?_
    · exact hv10
    · exact fun _ => ⟨rfl, rfl⟩

theorem State.diesOff_keeps {z0 : State} {s : State} (h0 : Keeps z0 s) : Keeps z0 (State.diesOff s) := by
  unfold State.diesOff
  extract_lets -merge +onlyGivenNames v1
  have hv1 : Keeps z0 v1 := by
    unfold v1
    refine State.each_keeps ?_ ?_
    · refine State.set_keeps ?_
      exact h0
    · intro s2 x3 x4
      refine State.toReset_keeps ?_
      exact x4
  clear_value v1
  exact Keeps.frame hv1 rfl rfl rfl rfl rfl rfl rfl rfl rfl rfl

theorem State.domainsOff_keeps {z0 : State} {s : State} (h0 : Keeps z0 s) : Keeps z0 (State.domainsOff s) := by
  unfold State.domainsOff
  refine State.diesOff_keeps ?_
  refine State.modBoot_keeps ?_ ?_
  · refine State.set_keeps ?_
    refine State.clearDomains_keeps ?_
    exact h0
  · exact fun _ => ⟨rfl, rfl⟩

theorem State.fieldOn_keeps {z0 : State} {s : State} (h0 : Keeps z0 s) : Keeps z0 (State.fieldOn s) := by
  unfold State.fieldOn
  refine State.setOverlay_keeps ?_
  exact Keeps.frame h0 rfl rfl rfl rfl rfl rfl rfl rfl rfl rfl

theorem State.startSequence_keeps {z0 : State} {s : State} (h0 : Keeps z0 s) : Keeps z0 (State.startSequence s) := by
  unfold State.startSequence
  extract_lets -merge +onlyGivenNames v1
  refine Keeps.ite ?_ ?_
  · exact h0
  · extract_lets -merge +onlyGivenNames v2
    have hv2 : Keeps z0 v2 := by
      unfold v2
      refine Keeps.ite ?_ ?_
      · refine State.set_keeps ?_
        exact h0
      · exact h0
    clear_value v2
    refine State.modBoot_keeps ?_ ?_
    · exact Keeps.frame hv2 rfl rfl rfl rfl rfl rfl rfl rfl rfl rfl
    · exact fun _ => ⟨rfl, rfl⟩

theorem State.forgive_keeps {z0 : State} {s : State} (h0 : Keeps z0 s) : Keeps z0 (State.forgive s) := by
  unfold State.forgive
  refine State.modBoot_keeps ?_ ?_
  · exact h0
  · exact fun _ => ⟨rfl, rfl⟩

theorem State.endSessions_keeps {z0 s : State} (h0 : Keeps z0 s) : Keeps z0 (State.endSessions s) :=
  State.set_keeps (State.set_keeps (State.set_keeps (h0.sessions fun _ => rfl)))

/-! Image -/

theorem State.copySect_keeps {z0 : State} {s : State} {m : List Host.Cell} {x : Sect} (h0 : Keeps z0 s) : Keeps z0 (State.copySect s m x) := by
  unfold State.copySect
  refine Keeps.ite ?_ ?_
  · refine State.putBytes_keeps ?_
    exact h0
  · exact h0

theorem State.applyRec_keeps {z0 : State} {s : State} {r : ImgRec} (h0 : Keeps z0 s) : Keeps z0 (State.applyRec s r) := by
  unfold State.applyRec
  split
  · refine State.each_keeps ?_ ?_
    · exact h0
    · intro s1 x2 x3
      extract_lets -merge +onlyGivenNames v4 v5
      clear_value v4
      clear_value v5
      refine Keeps.ite ?_ ?_
      · exact x3
      · refine State.set_keeps ?_
        exact x3
  · refine Keeps.ite ?_ ?_
    · refine State.wr_keeps ?_
      exact h0
    · exact h0

theorem State.undoRec_keeps {z0 : State} {s : State} {r : ImgRec} (h0 : Keeps z0 s) : Keeps z0 (State.undoRec s r) := by
  unfold State.undoRec
  refine Keeps.ite ?_ ?_
  · refine State.set_keeps ?_
    exact h0
  · split
    · refine State.each_keeps ?_ ?_
      · exact h0
      · intro s1 x2 x3
        refine State.toReset_keeps ?_
        exact x3
    · refine Keeps.ite ?_ ?_
      · refine State.wr_keeps ?_
        exact h0
      · exact h0

theorem State.install_keeps {z0 : State} {s : State} {part : List Nat} {g : List Grant} {l : List ImgRec} (h0 : Keeps z0 s) : Keeps z0 (State.install s part g l) := by
  unfold State.install
  refine State.each_keeps ?_ ?_
  · exact h0.withArc
  · intro s1 x2 x3
    refine State.applyRec_keeps ?_
    exact x3

theorem State.uninstall_keeps {z0 : State} {s : State} {m : List Host.Cell} (h0 : Keeps z0 s) : Keeps z0 (State.uninstall s m) := by
  unfold State.uninstall
  extract_lets -merge +onlyGivenNames v1 v2
  clear_value v1
  have hv2 : Keeps z0 v2 := by
    unfold v2
    refine State.each_keeps ?_ ?_
    · refine State.zeroRange_keeps ?_
      exact h0
    · intro s3 x4 x5
      refine State.undoRec_keeps ?_
      exact x5
  clear_value v2
  exact hv2.withArc

/-! PipOps -/

theorem State.modCore_keeps {z0 : State} {s : State} {k : Core} {f : CoreDyn → CoreDyn} (h0 : Keeps z0 s) : Keeps z0 (State.modCore s k f) := by
  unfold State.modCore
  exact Keeps.frame h0 rfl rfl rfl rfl rfl rfl rfl rfl rfl rfl

theorem State.note_keeps {z0 : State} {s : State} {k : Core} {n : CoreNote} (h0 : Keeps z0 s) : Keeps z0 (State.note s k n) := by
  unfold State.note
  exact Keeps.frame h0 rfl rfl rfl rfl rfl rfl rfl rfl rfl rfl

theorem State.endRun_keeps {z0 : State} {s : State} {k : Core} (h0 : Keeps z0 s) : Keeps z0 (State.endRun s k) := by
  unfold State.endRun
  extract_lets -merge +onlyGivenNames v1
  have hv1 : Keeps z0 v1 := by
    unfold v1
    refine State.modCore_keeps ?_
    exact h0
  clear_value v1
  refine State.set_keeps ?_
  exact hv1

theorem State.abandon_keeps {z0 : State} {s : State} {k : Core} {code : Nat} (h0 : Keeps z0 s) : Keeps z0 (State.abandon s k code) := by
  unfold State.abandon
  extract_lets -merge +onlyGivenNames v1 v2 v3 v4 v5 v6 v7
  clear_value v1
  clear_value v2
  have hv3 : Keeps z0 v3 := by
    unfold v3
    refine State.set_keeps ?_
    exact h0
  clear_value v3
  have hv4 : Keeps z0 v4 := by
    unfold v4
    refine State.set_keeps ?_
    exact hv3
  clear_value v4
  have hv5 : Keeps z0 v5 := by
    unfold v5
    refine State.set_keeps ?_
    exact hv4
  clear_value v5
  have hv6 : Keeps z0 v6 := by
    unfold v6
    refine State.set_keeps ?_
    exact hv5
  clear_value v6
  have hv7 : Keeps z0 v7 := by
    unfold v7
    refine State.note_keeps ?_
    refine State.endRun_keeps ?_
    exact hv6
  clear_value v7
  refine Keeps.ite ?_ ?_
  · exact hv7
  · refine State.raiseGraph_keeps ?_
    exact hv7

theorem State.coreCorr_keeps {z0 : State} {s : State} {k : Core} {a : Nat} (h0 : Keeps z0 s) : Keeps z0 (State.coreCorr s k a) := by
  unfold State.coreCorr
  extract_lets -merge +onlyGivenNames v1
  have hv1 : Keeps z0 v1 := by
    unfold v1
    refine State.set_keeps ?_
    refine State.bump_keeps ?_
    exact h0
  clear_value v1
  refine State.modCore_keeps ?_
  exact hv1

theorem State.coreUncorr_keeps {z0 : State} {s : State} {k : Core} {a : Nat} (h0 : Keeps z0 s) : Keeps z0 (State.coreUncorr s k a) := by
  unfold State.coreUncorr
  refine State.set_keeps ?_
  refine State.bump_keeps ?_
  exact h0

theorem State.showPc_keeps {z0 : State} {s : State} {k : Core} (h0 : Keeps z0 s) : Keeps z0 (State.showPc s k) := by
  unfold State.showPc
  refine Keeps.ite ?_ ?_
  · refine State.set_keeps ?_
    exact h0
  · exact h0

theorem State.awaitLoads_keeps {z0 : State} {s : State} {k : Core} {codes : List Nat} (h0 : Keeps z0 s) : Keeps z0 (State.awaitLoads s k codes) := by
  unfold State.awaitLoads
  refine Keeps.ite ?_ ?_
  · extract_lets -merge +onlyGivenNames v1
    clear_value v1
    refine State.modCore_keeps ?_
    refine State.drawn_keeps ?_
    exact h0
  · refine State.modCore_keeps ?_
    exact h0

theorem State.pipFrame_keeps {z0 : State} {s : State} {x : PipAt} {cond : Nat} {codes : List Nat} {legal : Bool} {lastOk : Bool} {body : State → State} (h0 : Keeps z0 s) (hf1 : ∀ y1, Keeps z0 y1 → Keeps z0 (body y1)) : Keeps z0 (State.pipFrame s x cond codes legal lastOk body) := by
  unfold State.pipFrame
  extract_lets -merge +onlyGivenNames v1
  refine Keeps.ite ?_ ?_
  · exact h0
  · extract_lets -merge +onlyGivenNames v2 v3
    have hv2 : Keeps z0 v2 := by
      unfold v2
      refine State.modCore_keeps ?_
      exact h0
    clear_value v2
    clear_value v3
    refine Keeps.ite ?_ ?_
    · refine State.abandon_keeps ?_
      exact hv2
    · refine Keeps.ite ?_ ?_
      · refine State.abandon_keeps ?_
        refine State.coreUncorr_keeps ?_
        exact hv2
      · extract_lets -merge +onlyGivenNames v4
        have hv4 : Keeps z0 v4 := by
          unfold v4
          refine Keeps.ite ?_ ?_
          · refine State.coreCorr_keeps ?_
            exact hv2
          · exact hv2
        clear_value v4
        refine Keeps.ite ?_ ?_
        · refine State.abandon_keeps ?_
          exact hv4
        · refine Keeps.ite ?_ ?_
          · refine State.showPc_keeps ?_
            refine State.modCore_keeps ?_
            exact hv4
          · refine Keeps.ite ?_ ?_
            · refine State.abandon_keeps ?_
              refine State.coreUncorr_keeps ?_
              exact hv4
            · refine Keeps.ite ?_ ?_
              · refine State.abandon_keeps ?_
                exact hv4
              · refine State.showPc_keeps ?_
                refine hf1 _ ?_
                refine State.awaitLoads_keeps ?_
                exact hv4

theorem State.pipCore_keeps {z0 : State} {s : State} {x : PipAt} {cond : Nat} {codes : List Nat} {legal : Bool} {cycles : CoreDyn → Nat} {f : CoreDyn → CoreDyn} (h0 : Keeps z0 s) : Keeps z0 (State.pipCore s x cond codes legal cycles f) := by
  unfold State.pipCore
  refine State.pipFrame_keeps ?_ ?_
  · exact h0
  · intro s1 x2
    refine State.modCore_keeps ?_
    exact x2

theorem State.pipR_keeps {z0 : State} {s : State} {x : PipAt} {f : RForm} {legal : Bool} {cycles : Nat} {g : CoreDyn → CoreDyn} {more : optParam (List Nat) []} (h0 : Keeps z0 s) : Keeps z0 (State.pipR s x f legal cycles g more) := by
  unfold State.pipR
  refine State.pipCore_keeps ?_
  exact h0

theorem State.pipI_keeps {z0 : State} {s : State} {x : PipAt} {f : IForm} {legal : Bool} {g : CoreDyn → CoreDyn} (h0 : Keeps z0 s) : Keeps z0 (State.pipI s x f legal g) := by
  unfold State.pipI
  refine State.pipCore_keeps ?_
  exact h0

end Sys2Proof.Machine
end

