-- ==== Sys2Proof/Laws/Keeps6.lean ====
section
/-!
SUPPORT. Laws/Keeps6.lean: what the operations and the meanings of Machine/Twin, Dev, Sto, Power, Mcc keep (Laws/Keeps.lean).
-/

namespace Sys2Proof.Machine

/-! Twin -/

theorem execMirrorFrameSend_keeps {z0 : State} {s : State} (h0 : Keeps z0 s) : KeepsOut z0 (execMirrorFrameSend s) := by
  unfold execMirrorFrameSend
  refine KeepsOut.ite ?_ ?_
  · refine KeepsOut.next ?_
    exact h0
  · extract_lets -merge +onlyGivenNames v1
    clear_value v1
    refine KeepsOut.next ?_
    refine State.modTwin_keeps ?_
    exact Keeps.frame h0 rfl rfl rfl rfl rfl rfl rfl rfl rfl rfl

theorem execHarsoLinkUp_keeps {z0 : State} {s : State} (h0 : Keeps z0 s) : KeepsOut z0 (execHarsoLinkUp s) := by
  unfold execHarsoLinkUp
  refine KeepsOut.ite ?_ ?_
  · refine KeepsOut.next ?_
    exact h0
  · refine KeepsOut.next ?_
    refine State.syncCheck_keeps ?_
    refine State.set_keeps ?_
    exact h0

theorem State.twinLost_keeps {z0 : State} {s : State} (h0 : Keeps z0 s) : Keeps z0 (State.twinLost s) := by
  unfold State.twinLost
  refine Keeps.ite ?_ ?_
  · refine State.raiseMod_keeps ?_
    exact h0
  · exact h0

theorem execHarsoLinkDown_keeps {z0 : State} {s : State} (h0 : Keeps z0 s) : KeepsOut z0 (execHarsoLinkDown s) := by
  unfold execHarsoLinkDown
  refine KeepsOut.ite ?_ ?_
  · refine KeepsOut.next ?_
    exact h0
  · refine KeepsOut.next ?_
    refine State.twinLost_keeps ?_
    refine State.syncCheck_keeps ?_
    refine State.set_keeps ?_
    exact h0

theorem execTwinFrameTimeout_keeps {z0 : State} {k : TwinTimeout} {s : State} (h0 : Keeps z0 s) : KeepsOut z0 (execTwinFrameTimeout k s) := by
  unfold execTwinFrameTimeout
  refine KeepsOut.ite ?_ ?_
  · refine KeepsOut.next ?_
    exact h0
  · split
    · refine KeepsOut.ite ?_ ?_
      · refine KeepsOut.next ?_
        exact h0
      · refine KeepsOut.next ?_
        refine State.twinLost_keeps ?_
        refine State.modTwin_keeps ?_
        refine State.passTo_keeps ?_
        exact h0
    · refine KeepsOut.ite ?_ ?_
      · refine KeepsOut.next ?_
        exact h0
      · refine KeepsOut.next ?_
        refine State.twinLost_keeps ?_
        refine State.modTwin_keeps ?_
        exact h0

theorem State.alignPair_keeps {z0 : State} {s : State} {n : Slice} {p : Int} (h0 : Keeps z0 s) : Keeps z0 (State.alignPair s n p) := by
  unfold State.alignPair
  refine Keeps.ite ?_ ?_
  · refine State.putBit_keeps ?_
    exact h0
  · extract_lets -merge +onlyGivenNames v1 v2 v3 v4
    clear_value v1
    clear_value v2
    clear_value v3
    have hv4 : Keeps z0 v4 := by
      unfold v4
      refine State.modTwin_keeps ?_
      exact h0
    clear_value v4
    refine State.putBit_keeps ?_
    exact hv4

theorem State.takeRecord_keeps {z0 : State} {s : State} {r : MirrorAxis} (h0 : Keeps z0 s) : Keeps z0 (State.takeRecord s r) := by
  unfold State.takeRecord
  extract_lets -merge +onlyGivenNames v1
  refine Keeps.ite ?_ ?_
  · exact h0
  · extract_lets -merge +onlyGivenNames v2 v3 v4 v5 v6 v7
    have hv2 : Keeps z0 v2 := by
      unfold v2
      refine State.set_keeps ?_
      exact h0
    clear_value v2
    clear_value v3
    have hv4 : Keeps z0 v4 := by
      unfold v4
      refine Keeps.ite ?_ ?_
      · exact hv2
      · refine State.setAxst_keeps ?_
        exact hv2
    clear_value v4
    have hv5 : Keeps z0 v5 := by
      unfold v5
      refine State.setS_keeps ?_
      exact hv4
    clear_value v5
    have hv6 : Keeps z0 v6 := by
      unfold v6
      refine State.modProf_keeps ?_
      exact hv5
    clear_value v6
    have hv7 : Keeps z0 v7 := by
      unfold v7
      refine State.modTwin_keeps ?_
      exact hv6
    clear_value v7
    refine State.alignPair_keeps ?_
    refine State.putBit_keeps ?_
    exact hv7

theorem State.takeGroupRecord_keeps {z0 : State} {s : State} {r : MirrorGroup} (h0 : Keeps z0 s) : Keeps z0 (State.takeGroupRecord s r) := by
  unfold State.takeGroupRecord
  extract_lets -merge +onlyGivenNames v1 v2 v3 v4 v5 v6
  clear_value v2
  clear_value v3
  clear_value v4
  have hv5 : Keeps z0 v5 := by
    unfold v5
    refine State.modGrp_keeps ?_
    exact h0
  clear_value v5
  have hv6 : Keeps z0 v6 := by
    unfold v6
    refine State.set_keeps ?_
    refine State.set_keeps ?_
    exact hv5
  clear_value v6
  refine State.set_keeps ?_
  exact hv6

theorem State.takeHeader_keeps {z0 : State} {s : State} {f : MirrorFrame} (h0 : Keeps z0 s) : Keeps z0 (State.takeHeader s f) := by
  unfold State.takeHeader
  extract_lets -merge +onlyGivenNames v1 v2 v3 v4 v5 v6 v7 v8 v9 v10 v11 v12 v13
  clear_value v1
  clear_value v2
  have hv3 : Keeps z0 v3 := by
    unfold v3
    refine State.set_keeps ?_
    refine State.setB_keeps ?_
    refine State.setB_keeps ?_
    exact h0
  clear_value v3
  have hv4 : Keeps z0 v4 := by
    unfold v4
    refine State.setB_keeps ?_
    exact hv3
  clear_value v4
  have hv5 : Keeps z0 v5 := by
    unfold v5
    refine State.modTwin_keeps ?_
    exact hv4
  clear_value v5
  clear_value v6
  have hv7 : Keeps z0 v7 := by
    unfold v7
    refine Keeps.ite ?_ ?_
    · refine State.raiseMod_keeps ?_
      exact hv5
    · exact hv5
  clear_value v7
  have hv8 : Keeps z0 v8 := by
    unfold v8
    refine State.setB_keeps ?_
    exact hv7
  clear_value v8
  clear_value v9
  have hv10 : Keeps z0 v10 := by
    unfold v10
    refine Keeps.ite ?_ ?_
    · refine State.raiseMod_keeps ?_
      exact hv8
    · exact hv8
  clear_value v10
  have hv11 : Keeps z0 v11 := by
    unfold v11
    refine State.setB_keeps ?_
    exact hv10
  clear_value v11
  have hv12 : Keeps z0 v12 := by
    unfold v12
    refine Keeps.ite ?_ ?_
    · refine State.lockout_keeps ?_
      exact hv11
    · exact hv11
  clear_value v12
  have hv13 : Keeps z0 v13 := by
    unfold v13
    refine Keeps.ite ?_ ?_
    · refine State.set_keeps ?_
      exact hv12
    · exact hv12
  clear_value v13
  refine Keeps.ite ?_ ?_
  · refine State.shadow_keeps ?_
    exact hv13
  · exact hv13

theorem execMirrorFrameReceived_keeps {z0 : State} {f : MirrorFrame} {s : State} (h0 : Keeps z0 s) : KeepsOut z0 (execMirrorFrameReceived f s) := by
  unfold execMirrorFrameReceived
  refine KeepsOut.ite ?_ ?_
  · refine KeepsOut.next ?_
    exact h0
  · refine KeepsOut.ite ?_ ?_
    · refine KeepsOut.next ?_
      refine State.bump_keeps ?_
      exact h0
    · refine KeepsOut.ite ?_ ?_
      · refine KeepsOut.next ?_
        refine State.raiseMod_keeps ?_
        refine State.bump_keeps ?_
        exact h0
      · extract_lets -merge +onlyGivenNames v1 v2
        clear_value v1
        have hv2 : Keeps z0 v2 := by
          unfold v2
          refine Keeps.ite ?_ ?_
          · exact h0.withArc
          · exact h0
        clear_value v2
        extract_lets -merge +onlyGivenNames v3
        have hv3 : Keeps z0 v3 := by
          unfold v3
          refine State.takeHeader_keeps ?_
          exact hv2
        clear_value v3
        refine KeepsOut.ite ?_ ?_
        · refine KeepsOut.next ?_
          refine State.syncCheck_keeps ?_
          exact hv3
        · extract_lets -merge +onlyGivenNames v4 v5 v6
          have hv4 : Keeps z0 v4 := by
            unfold v4
            refine State.arrive_keeps ?_
            exact hv3
          clear_value v4
          have hv5 : Keeps z0 v5 := by
            unfold v5
            exact Keeps.frame hv4 rfl rfl rfl rfl rfl rfl rfl rfl rfl rfl
          clear_value v5
          have hv6 : Keeps z0 v6 := by
            unfold v6
            refine State.each_keeps ?_ ?_
            · exact hv5
            · intro s7 x8 x9
              refine State.takeGroupRecord_keeps ?_
              exact x9
          clear_value v6
          refine KeepsOut.next ?_
          refine State.syncCheck_keeps ?_
          refine State.each_keeps ?_ ?_
          · exact hv6
          · intro s10 x11 x12
            refine State.takeRecord_keeps ?_
            exact x12

theorem execHoldInChange_keeps {z0 : State} {level : Bool} {s : State} (h0 : Keeps z0 s) : KeepsOut z0 (execHoldInChange level s) := by
  unfold execHoldInChange
  extract_lets -merge +onlyGivenNames v1 v2
  clear_value v1
  have hv2 : Keeps z0 v2 := by
    unfold v2
    refine State.setB_keeps ?_
    exact h0
  clear_value v2
  refine KeepsOut.ite ?_ ?_
  · refine KeepsOut.next ?_
    exact hv2
  · refine KeepsOut.ite ?_ ?_
    · refine KeepsOut.ite ?_ ?_
      · refine KeepsOut.next ?_
        refine State.arbYield_keeps ?_
        exact hv2
      · refine KeepsOut.next ?_
        exact hv2
    · extract_lets -merge +onlyGivenNames v3
      have hv3 : Keeps z0 v3 := by
        unfold v3
        refine State.modTwin_keeps ?_
        exact hv2
      clear_value v3
      refine KeepsOut.next ?_
      refine Keeps.ite ?_ ?_
      · refine State.gapBegin_keeps ?_
        exact hv3
      · exact hv3

theorem execClaim_keeps {z0 : State} {s : State} (h0 : Keeps z0 s) : KeepsOut z0 (execClaim s) := by
  unfold execClaim
  refine KeepsOut.ite ?_ ?_
  · refine KeepsOut.next ?_
    exact h0
  · extract_lets -merge +onlyGivenNames v1
    clear_value v1
    refine KeepsOut.ite ?_ ?_
    · refine KeepsOut.next ?_
      refine State.claimNow_keeps ?_
      refine State.passTo_keeps ?_
      exact h0
    · refine KeepsOut.next ?_
      exact h0

theorem execArbWindowEnd_keeps {z0 : State} {s : State} (h0 : Keeps z0 s) : KeepsOut z0 (execArbWindowEnd s) := by
  unfold execArbWindowEnd
  refine KeepsOut.ite ?_ ?_
  · refine KeepsOut.next ?_
    exact h0
  · extract_lets -merge +onlyGivenNames v1
    have hv1 : Keeps z0 v1 := by
      unfold v1
      refine State.set_keeps ?_
      refine State.passBoth_keeps ?_
      exact h0
    clear_value v1
    refine KeepsOut.next ?_
    refine State.modTwin_keeps ?_
    refine State.bump_keeps ?_
    refine State.loadLease_keeps ?_
    exact hv1

theorem execTokenconf_keeps {z0 : State} {s : State} (h0 : Keeps z0 s) : KeepsOut z0 (execTokenconf s) := by
  unfold execTokenconf
  extract_lets -merge +onlyGivenNames v1
  clear_value v1
  refine KeepsOut.ite ?_ ?_
  · refine KeepsOut.next ?_
    refine State.lockout_keeps ?_
    exact h0
  · refine KeepsOut.next ?_
    exact h0

theorem execLeaseExpiry_keeps {z0 : State} {s : State} (h0 : Keeps z0 s) : KeepsOut z0 (execLeaseExpiry s) := by
  unfold execLeaseExpiry
  refine KeepsOut.ite ?_ ?_
  · refine KeepsOut.next ?_
    exact h0
  · refine KeepsOut.next ?_
    refine State.leaseLost_keeps ?_
    refine State.passTo_keeps ?_
    exact h0

theorem execSwitchoverGapEnd_keeps {z0 : State} {s : State} (h0 : Keeps z0 s) : KeepsOut z0 (execSwitchoverGapEnd s) := by
  unfold execSwitchoverGapEnd
  refine KeepsOut.ite ?_ ?_
  · refine KeepsOut.next ?_
    exact h0
  · refine KeepsOut.next ?_
    refine State.modTwin_keeps ?_
    refine State.gapOver_keeps ?_
    exact h0

theorem execReclaim_keeps {z0 : State} {s : State} (h0 : Keeps z0 s) : KeepsOut z0 (execReclaim s) := by
  unfold execReclaim
  extract_lets -merge +onlyGivenNames v1
  clear_value v1
  refine KeepsOut.ite ?_ ?_
  · refine KeepsOut.next ?_
    refine State.modTwin_keeps ?_
    refine State.set_keeps ?_
    exact h0
  · refine KeepsOut.next ?_
    exact h0

theorem State.resumeAxis_keeps {z0 : State} {s : State} {n : Slice} {age : Nat} {r : MirrorAxis} (h0 : Keeps z0 s) : Keeps z0 (State.resumeAxis s n age r) := by
  unfold State.resumeAxis
  extract_lets -merge +onlyGivenNames v1 v2 v3 v4 v5
  clear_value v1
  clear_value v2
  clear_value v3
  have hv4 : Keeps z0 v4 := by
    unfold v4
    refine State.modSup_keeps ?_
    refine State.modFb_keeps ?_
    exact h0
  clear_value v4
  have hv5 : Keeps z0 v5 := by
    unfold v5
    refine State.setS_keeps ?_
    exact hv4
  clear_value v5
  extract_lets -merge +onlyGivenNames v6 v7
  have hv6 : Keeps z0 v6 := by
    unfold v6
    refine State.setS_keeps ?_
    exact hv5
  clear_value v6
  have hv7 : Keeps z0 v7 := by
    unfold v7
    refine State.setB_keeps ?_
    refine State.setB_keeps ?_
    exact hv6
  clear_value v7
  extract_lets -merge +onlyGivenNames v8 v9
  have hv8 : Keeps z0 v8 := by
    unfold v8
    refine Keeps.ite ?_ ?_
    · refine State.set_keeps ?_
      refine State.set_keeps ?_
      exact h0
    · refine State.setB_keeps ?_
      exact hv7
  clear_value v8
  clear_value v9
  refine Keeps.ite ?_ ?_
  · exact hv8
  · extract_lets -merge +onlyGivenNames v10 v11 v12 v13 v14
    have hv10 : Keeps z0 v10 := by
      unfold v10
      refine State.modProf_keeps ?_
      exact hv8
    clear_value v10
    have hv11 : Keeps z0 v11 := by
      unfold v11
      refine Keeps.ite ?_ ?_
      · split
        · refine State.each_keeps ?_ ?_
          · exact hv10
          · intro s15 x16 x17
            refine State.groupCycle_keeps ?_
            exact x17
        · exact hv10
      · refine State.each_keeps ?_ ?_
        · exact hv10
        · intro s18 x19 x20
          refine State.generate_keeps ?_
          exact x20
    clear_value v11
    have hv12 : Keeps z0 v12 := by
      unfold v12
      refine State.supStart_keeps ?_
      exact hv11
    clear_value v12
    have hv13 : Keeps z0 v13 := by
      unfold v13
      refine State.modSup_keeps ?_
      exact hv12
    clear_value v13
    have hv14 : Keeps z0 v14 := by
      unfold v14
      refine Keeps.ite ?_ ?_
      · refine State.startRamp_keeps ?_
        refine State.modAx_keeps ?_
        exact hv13
      · exact hv13
    clear_value v14
    refine Keeps.ite ?_ ?_
    · exact hv14
    · refine Keeps.ite ?_ ?_
      · extract_lets -merge +onlyGivenNames v21 v22
        clear_value v21
        have hv22 : Keeps z0 v22 := by
          unfold v22
          refine State.enterSync_keeps ?_
          exact hv14
        clear_value v22
        exact Keeps.frame hv22 rfl rfl rfl rfl rfl rfl rfl rfl rfl rfl
      · refine State.modStart_keeps ?_
        refine State.set_keeps ?_
        exact hv14

theorem State.takeOver_keeps {z0 : State} {s : State} {n : Slice} (h0 : Keeps z0 s) : Keeps z0 (State.takeOver s n) := by
  unfold State.takeOver
  extract_lets -merge +onlyGivenNames v1
  have hv1 : ∀ s2, Keeps z0 s2 → Keeps z0 (v1 s2) := by
    intro s3 x4
    unfold v1
    refine Keeps.ite ?_ ?_
    · refine State.leave_keeps ?_
      exact x4
    · exact x4
  clear_value v1
  refine Keeps.ite ?_ ?_
  · refine hv1 _ ?_
    exact h0
  · split
    · refine hv1 _ ?_
      exact h0
    · refine State.resumeAxis_keeps ?_
      exact h0

theorem State.claimRun_keeps {z0 : State} {s : State} (h0 : Keeps z0 s) : Keeps z0 (State.claimRun s) := by
  unfold State.claimRun
  extract_lets -merge +onlyGivenNames v1 v2 v3 v4
  clear_value v1
  have hv2 : Keeps z0 v2 := by
    unfold v2
    refine State.modTwin_keeps ?_
    refine State.freeLevels_keeps ?_
    refine State.setDev_keeps ?_
    exact h0
  clear_value v2
  have hv3 : Keeps z0 v3 := by
    unfold v3
    refine State.set_keeps ?_
    exact hv2
  clear_value v3
  have hv4 : Keeps z0 v4 := by
    unfold v4
    exact Keeps.frame hv3 rfl rfl rfl rfl rfl rfl rfl rfl rfl rfl
  clear_value v4
  refine Keeps.ite ?_ ?_
  · refine State.raiseMod_keeps ?_
    refine State.each_keeps ?_ ?_
    · exact hv4
    · intro s5 x6 x7
      refine State.takeOver_keeps ?_
      exact x7
  · exact hv4

theorem State.twinCycle_keeps {z0 : State} {s : State} (h0 : Keeps z0 s) : Keeps z0 (State.twinCycle s) := by
  unfold State.twinCycle
  refine Keeps.ite ?_ ?_
  · exact h0
  · extract_lets -merge +onlyGivenNames v1 v2
    have hv1 : Keeps z0 v1 := by
      unfold v1
      refine State.modTwin_keeps ?_
      exact h0
    clear_value v1
    have hv2 : Keeps z0 v2 := by
      unfold v2
      refine Keeps.ite ?_ ?_
      · refine State.claimRun_keeps ?_
        exact hv1
      · exact hv1
    clear_value v2
    refine Keeps.ite ?_ ?_
    · refine State.modTwin_keeps ?_
      exact hv2
    · exact hv2

theorem State.completionPulse_keeps {z0 : State} {s : State} (h0 : Keeps z0 s) : Keeps z0 (State.completionPulse s) := by
  unfold State.completionPulse
  extract_lets -merge +onlyGivenNames v1
  have hv1 : Keeps z0 v1 := by
    unfold v1
    refine Keeps.ite ?_ ?_
    · refine State.loadLease_keeps ?_
      exact h0
    · exact h0
  clear_value v1
  refine Keeps.ite ?_ ?_
  · refine State.feedWatchdog_keeps ?_
    exact hv1
  · exact hv1

/-! Dev -/

theorem State.cmdResult_keeps {z0 : State} {s : State} {code : Nat} (h0 : Keeps z0 s) : Keeps z0 (State.cmdResult s code) := by
  unfold State.cmdResult
  extract_lets -merge +onlyGivenNames v1
  have hv1 : Keeps z0 v1 := by
    unfold v1
    refine State.set_keeps ?_
    exact h0
  clear_value v1
  refine Keeps.ite ?_ ?_
  · exact hv1
  · refine State.raiseMod_keeps ?_
    exact hv1

theorem State.sysRun_keeps {z0 : State} {s : State} (h0 : Keeps z0 s) : Keeps z0 (State.sysRun s) := by
  unfold State.sysRun
  extract_lets -merge +onlyGivenNames v1
  have hv1 : Keeps z0 v1 := by
    unfold v1
    refine State.cmdResult_keeps ?_
    exact h0
  clear_value v1
  refine Keeps.ite ?_ ?_
  · exact hv1
  · refine Keeps.ite ?_ ?_
    · refine State.freeLevels_keeps ?_
      refine State.setDev_keeps ?_
      exact hv1
    · refine Keeps.ite ?_ ?_
      · refine State.claimNow_keeps ?_
        exact hv1
      · refine State.shadow_keeps ?_
        exact hv1

theorem State.sysHold_keeps {z0 : State} {s : State} (h0 : Keeps z0 s) : Keeps z0 (State.sysHold s) := by
  unfold State.sysHold
  extract_lets -merge +onlyGivenNames v1
  have hv1 : Keeps z0 v1 := by
    unfold v1
    refine State.cmdResult_keeps ?_
    exact h0
  clear_value v1
  refine Keeps.ite ?_ ?_
  · exact hv1
  · refine State.freeLevels_keeps ?_
    refine State.setDev_keeps ?_
    refine State.releaseToken_keeps ?_
    exact hv1

theorem State.sysService_keeps {z0 : State} {s : State} (h0 : Keeps z0 s) : Keeps z0 (State.sysService s) := by
  unfold State.sysService
  extract_lets -merge +onlyGivenNames v1
  have hv1 : Keeps z0 v1 := by
    unfold v1
    refine State.cmdResult_keeps ?_
    exact h0
  clear_value v1
  refine Keeps.ite ?_ ?_
  · exact hv1
  · refine State.setDev_keeps ?_
    exact hv1

theorem State.leaveSvc_keeps {z0 : State} {s : State} (h0 : Keeps z0 s) : Keeps z0 (State.leaveSvc s) := by
  unfold State.leaveSvc
  extract_lets -merge +onlyGivenNames v1
  have hv1 : Keeps z0 v1 := by
    unfold v1
    refine State.cmdResult_keeps ?_
    exact h0
  clear_value v1
  refine Keeps.ite ?_ ?_
  · exact hv1
  · refine State.setDev_keeps ?_
    exact hv1

theorem State.sysRestart_keeps {z0 : State} {s : State} (h0 : Keeps z0 s) : Keeps z0 (State.sysRestart s) := by
  unfold State.sysRestart
  extract_lets -merge +onlyGivenNames v1
  have hv1 : Keeps z0 v1 := by
    unfold v1
    refine State.cmdResult_keeps ?_
    exact h0
  clear_value v1
  refine Keeps.ite ?_ ?_
  · exact hv1
  · refine State.beginIntake_keeps ?_
    refine State.axesOut_keeps ?_
    exact hv1

theorem State.sysCommand_keeps {z0 : State} {s : State} {v : Nat} (h0 : Keeps z0 s) : Keeps z0 (State.sysCommand s v) := by
  unfold State.sysCommand
  split
  · refine State.sysRun_keeps ?_
    exact h0
  · refine State.sysHold_keeps ?_
    exact h0
  · refine State.sysService_keeps ?_
    exact h0
  · refine State.leaveSvc_keeps ?_
    exact h0
  · refine State.sysRestart_keeps ?_
    exact h0
  · exact h0

theorem execSysRun_keeps {z0 : State} {s : State} (h0 : Keeps z0 s) : KeepsOut z0 (execSysRun s) := by
  unfold execSysRun
  refine KeepsOut.next ?_
  refine State.sysRun_keeps ?_
  exact h0

theorem execSysHold_keeps {z0 : State} {s : State} (h0 : Keeps z0 s) : KeepsOut z0 (execSysHold s) := by
  unfold execSysHold
  refine KeepsOut.next ?_
  refine State.sysHold_keeps ?_
  exact h0

theorem execSysService_keeps {z0 : State} {s : State} (h0 : Keeps z0 s) : KeepsOut z0 (execSysService s) := by
  unfold execSysService
  refine KeepsOut.next ?_
  refine State.sysService_keeps ?_
  exact h0

theorem execLeaveService_keeps {z0 : State} {s : State} (h0 : Keeps z0 s) : KeepsOut z0 (execLeaveService s) := by
  unfold execLeaveService
  refine KeepsOut.next ?_
  refine State.leaveSvc_keeps ?_
  exact h0

theorem execRestart_keeps {z0 : State} {s : State} (h0 : Keeps z0 s) : KeepsOut z0 (execRestart s) := by
  unfold execRestart
  refine KeepsOut.next ?_
  refine State.sysRestart_keeps ?_
  exact h0

/-! Sto -/

theorem State.fbUpdate_keeps {z0 : State} {s : State} (h0 : Keeps z0 s) : Keeps z0 (State.fbUpdate s) := by
  unfold State.fbUpdate
  refine State.setB_keeps ?_
  exact h0

theorem State.openSwitches_keeps {z0 : State} {s : State} (h0 : Keeps z0 s) : Keeps z0 (State.openSwitches s) := by
  unfold State.openSwitches
  extract_lets -merge +onlyGivenNames v1 v2 v3
  clear_value v1
  have hv2 : Keeps z0 v2 := by
    unfold v2
    refine State.set_keeps ?_
    exact h0
  clear_value v2
  clear_value v3
  extract_lets -merge +onlyGivenNames v4
  have hv4 : Keeps z0 v4 := by
    unfold v4
    exact Keeps.frame hv2 rfl rfl rfl rfl rfl rfl rfl rfl rfl rfl
  clear_value v4
  refine State.fbUpdate_keeps ?_
  exact hv4

theorem State.stoFail_keeps {z0 : State} {s : State} {cause : Nat} (h0 : Keeps z0 s) : Keeps z0 (State.stoFail s cause) := by
  unfold State.stoFail
  refine Keeps.ite ?_ ?_
  · exact h0
  · extract_lets -merge +onlyGivenNames v1 v2 v3 v4
    have hv1 : Keeps z0 v1 := by
      unfold v1
      refine State.set_keeps ?_
      exact h0
    clear_value v1
    have hv2 : Keeps z0 v2 := by
      unfold v2
      refine State.set_keeps ?_
      exact hv1
    clear_value v2
    have hv3 : Keeps z0 v3 := by
      unfold v3
      refine State.set_keeps ?_
      exact hv2
    clear_value v3
    have hv4 : Keeps z0 v4 := by
      unfold v4
      refine State.openSwitches_keeps ?_
      exact hv3
    clear_value v4
    refine State.raiseMod_keeps ?_
    refine State.torqueOff_keeps ?_
    exact hv4

theorem State.tryRelease_keeps {z0 : State} {s : State} (h0 : Keeps z0 s) : Keeps z0 (State.tryRelease s) := by
  unfold State.tryRelease
  refine Keeps.ite ?_ ?_
  · extract_lets -merge +onlyGivenNames v1 v2 v3
    have hv1 : Keeps z0 v1 := by
      unfold v1
      refine State.set_keeps ?_
      exact h0
    clear_value v1
    have hv2 : Keeps z0 v2 := by
      unfold v2
      refine State.set_keeps ?_
      exact hv1
    clear_value v2
    clear_value v3
    extract_lets -merge +onlyGivenNames v4
    have hv4 : Keeps z0 v4 := by
      unfold v4
      exact Keeps.frame hv2 rfl rfl rfl rfl rfl rfl rfl rfl rfl rfl
    clear_value v4
    refine State.fbUpdate_keeps ?_
    exact hv4
  · exact h0

theorem execStoEngage_keeps {z0 : State} {offUs : Nat} {s : State} (h0 : Keeps z0 s) : KeepsOut z0 (execStoEngage offUs s) := by
  unfold execStoEngage
  refine KeepsOut.ite ?_ ?_
  · refine KeepsOut.next ?_
    exact h0
  · refine KeepsOut.ite ?_ ?_
    · refine KeepsOut.next ?_
      refine State.set_keeps ?_
      refine State.set_keeps ?_
      exact h0
    · refine KeepsOut.ite ?_ ?_
      · refine KeepsOut.next ?_
        refine State.bump_keeps ?_
        exact h0
      · extract_lets -merge +onlyGivenNames v1 v2 v3 v4 v5
        have hv1 : Keeps z0 v1 := by
          unfold v1
          refine State.set_keeps ?_
          refine State.set_keeps ?_
          exact h0
        clear_value v1
        have hv2 : Keeps z0 v2 := by
          unfold v2
          refine State.set_keeps ?_
          exact hv1
        clear_value v2
        have hv3 : Keeps z0 v3 := by
          unfold v3
          refine State.set_keeps ?_
          exact hv2
        clear_value v3
        have hv4 : Keeps z0 v4 := by
          unfold v4
          refine State.bump_keeps ?_
          exact hv3
        clear_value v4
        have hv5 : Keeps z0 v5 := by
          unfold v5
          refine State.openSwitches_keeps ?_
          exact hv4
        clear_value v5
        refine KeepsOut.next ?_
        refine State.raiseMod_keeps ?_
        refine State.torqueOff_keeps ?_
        exact hv5

theorem execStoReleaseRequest_keeps {z0 : State} {s : State} (h0 : Keeps z0 s) : KeepsOut z0 (execStoReleaseRequest s) := by
  unfold execStoReleaseRequest
  refine KeepsOut.ite ?_ ?_
  · refine KeepsOut.next ?_
    exact h0
  · extract_lets -merge +onlyGivenNames v1 v2
    have hv1 : Keeps z0 v1 := by
      unfold v1
      refine State.set_keeps ?_
      refine State.set_keeps ?_
      exact h0
    clear_value v1
    have hv2 : Keeps z0 v2 := by
      unfold v2
      refine State.fbUpdate_keeps ?_
      refine State.set_keeps ?_
      exact hv1
    clear_value v2
    refine KeepsOut.next ?_
    refine State.tryRelease_keeps ?_
    exact hv2

theorem State.stoLive_keeps {z0 : State} {s : State} {o : StoObs} (h0 : Keeps z0 s) : Keeps z0 (State.stoLive s o) := by
  unfold State.stoLive
  extract_lets -merge +onlyGivenNames v1 v2
  have hv1 : Keeps z0 v1 := by
    unfold v1
    refine State.setB_keeps ?_
    exact h0
  clear_value v1
  have hv2 : Keeps z0 v2 := by
    unfold v2
    refine State.setB_keeps ?_
    exact hv1
  clear_value v2
  refine State.setB_keeps ?_
  exact hv2

theorem execStoReleaseStep_keeps {z0 : State} {o : StoObs} {s : State} (h0 : Keeps z0 s) : KeepsOut z0 (execStoReleaseStep o s) := by
  unfold execStoReleaseStep
  split
  · extract_lets -merge +onlyGivenNames v1
    have hv1 : Keeps z0 v1 := by
      unfold v1
      refine State.stoLive_keeps ?_
      exact h0
    clear_value v1
    refine KeepsOut.ite ?_ ?_
    · refine KeepsOut.next ?_
      refine State.stoFail_keeps ?_
      exact hv1
    · refine KeepsOut.ite ?_ ?_
      · refine KeepsOut.next ?_
        refine State.stoFail_keeps ?_
        exact hv1
      · refine KeepsOut.next ?_
        exact Keeps.frame hv1 rfl rfl rfl rfl rfl rfl rfl rfl rfl rfl
  · extract_lets -merge +onlyGivenNames v2
    have hv2 : Keeps z0 v2 := by
      unfold v2
      refine State.stoLive_keeps ?_
      exact h0
    clear_value v2
    refine KeepsOut.ite ?_ ?_
    · extract_lets -merge +onlyGivenNames v3
      have hv3 : Keeps z0 v3 := by
        unfold v3
        refine State.set_keeps ?_
        exact hv2
      clear_value v3
      refine KeepsOut.next ?_
      exact Keeps.frame hv3 rfl rfl rfl rfl rfl rfl rfl rfl rfl rfl
    · refine KeepsOut.ite ?_ ?_
      · refine KeepsOut.next ?_
        refine State.stoFail_keeps ?_
        exact hv2
      · refine KeepsOut.next ?_
        refine State.stoFail_keeps ?_
        exact hv2
  · refine KeepsOut.next ?_
    exact h0

theorem execTorqueOffClear_keeps {z0 : State} {s : State} (h0 : Keeps z0 s) : KeepsOut z0 (execTorqueOffClear s) := by
  unfold execTorqueOffClear
  refine KeepsOut.ite ?_ ?_
  · extract_lets -merge +onlyGivenNames v1
    clear_value v1
    extract_lets -merge +onlyGivenNames v2
    have hv2 : Keeps z0 v2 := by
      unfold v2
      exact Keeps.frame h0 rfl rfl rfl rfl rfl rfl rfl rfl rfl rfl
    clear_value v2
    refine KeepsOut.next ?_
    refine State.setOverlay_keeps ?_
    exact hv2
  · refine KeepsOut.next ?_
    exact h0

theorem execStoOpenCheck_keeps {z0 : State} {o : StoObs} {s : State} (h0 : Keeps z0 s) : KeepsOut z0 (execStoOpenCheck o s) := by
  unfold execStoOpenCheck
  refine KeepsOut.ite ?_ ?_
  · refine KeepsOut.next ?_
    exact h0
  · extract_lets -merge +onlyGivenNames v1
    have hv1 : Keeps z0 v1 := by
      unfold v1
      refine State.stoLive_keeps ?_
      exact h0
    clear_value v1
    refine KeepsOut.ite ?_ ?_
    · refine KeepsOut.next ?_
      refine State.stoFail_keeps ?_
      exact hv1
    · refine KeepsOut.next ?_
      refine State.fbUpdate_keeps ?_
      exact Keeps.frame hv1 rfl rfl rfl rfl rfl rfl rfl rfl rfl rfl

theorem execStoSwitchTest_keeps {z0 : State} {sw : Fin 2} {ok : Bool} {s : State} (h0 : Keeps z0 s) : KeepsOut z0 (execStoSwitchTest sw ok s) := by
  unfold execStoSwitchTest
  refine KeepsOut.ite ?_ ?_
  · refine KeepsOut.next ?_
    exact h0
  · refine KeepsOut.ite ?_ ?_
    · refine KeepsOut.next ?_
      extract_lets -merge +onlyGivenNames v1
      have hv1 : Keeps z0 v1 := by
        unfold v1
        refine State.bump_keeps ?_
        exact h0
      clear_value v1
      exact Keeps.frame hv1 rfl rfl rfl rfl rfl rfl rfl rfl rfl rfl
    · refine KeepsOut.next ?_
      refine State.stoFail_keeps ?_
      exact h0

theorem execStoInputDisagree_keeps {z0 : State} {s : State} (h0 : Keeps z0 s) : KeepsOut z0 (execStoInputDisagree s) := by
  unfold execStoInputDisagree
  refine KeepsOut.next ?_
  refine Keeps.ite ?_ ?_
  · refine State.stoFail_keeps ?_
    exact h0
  · exact h0

theorem execStoClockFailure_keeps {z0 : State} {s : State} (h0 : Keeps z0 s) : KeepsOut z0 (execStoClockFailure s) := by
  unfold execStoClockFailure
  refine KeepsOut.next ?_
  refine Keeps.ite ?_ ?_
  · refine State.stoFail_keeps ?_
    exact h0
  · exact h0

theorem execStoFbMismatch_keeps {z0 : State} {s : State} (h0 : Keeps z0 s) : KeepsOut z0 (execStoFbMismatch s) := by
  unfold execStoFbMismatch
  refine KeepsOut.next ?_
  refine Keeps.ite ?_ ?_
  · refine State.stoFail_keeps ?_
    exact h0
  · exact h0

/-! Power -/

theorem execPerfLevelChangeDone_keeps {z0 : State} {s : State} (h0 : Keeps z0 s) : KeepsOut z0 (execPerfLevelChangeDone s) := by
  unfold execPerfLevelChangeDone
  refine KeepsOut.next ?_
  refine Keeps.ite ?_ ?_
  · refine State.perfCheck_keeps ?_
    refine State.set_keeps ?_
    refine State.set_keeps ?_
    exact h0
  · exact h0

/-- The switch back at reset. -/
theorem Keeps.netReset {z0 s t : State} (h : Keeps z0 s) (e : t = { s with outbox := t.outbox, net := NetDyn.reset }) : Keeps z0 t := by
  rw [e]
  exact ⟨h.1, fun i => { h.2 i with learn := Nat.zero_le _, launch := netReset_launch }⟩

theorem State.sleepCmd_keeps {z0 s : State} {v : Nat} (h0 : Keeps z0 s) : Keeps z0 (State.sleepCmd s v) := by
  unfold State.sleepCmd
  refine Keeps.ite h0 ?_
  extract_lets +onlyGivenNames code s1
  have h1 : Keeps z0 s1 := State.set_keeps h0
  clear_value s1
  refine Keeps.ite (State.raiseMod_keeps h1) ?_
  extract_lets +onlyGivenNames replay s2 s3 s4 s5
  have h2 : Keeps z0 s2 := State.canHalt_keeps (State.acqStopRun_keeps (State.holdLevels_keeps (State.setB_keeps h1)))
  clear_value s2
  have h3 : Keeps z0 s3 := State.each_keeps (Keeps.netReset h2 rfl) fun s x h =>
    State.set_keeps (State.set_keeps (State.dropPort_keeps h))
  clear_value s3
  have h4 : Keeps z0 s4 := Keeps.ite (State.set_keeps h3) (State.schedStop_keeps h3)
  clear_value s4
  exact State.modPw_keeps (State.set_keeps (State.modFio_keeps (State.clockStop_keeps h4)))

theorem State.takeSleepWords_keeps {z0 : State} {s : State} (h0 : Keeps z0 s) : Keeps z0 (State.takeSleepWords s) := by
  unfold State.takeSleepWords
  extract_lets -merge +onlyGivenNames v1 v2
  clear_value v1
  have hv2 : Keeps z0 v2 := by
    unfold v2
    refine State.applyStaged_keeps ?_
    exact h0
  clear_value v2
  exact Keeps.frame hv2 rfl rfl rfl rfl rfl rfl rfl rfl rfl rfl

theorem execSleepS1_keeps {z0 : State} {s : State} (h0 : Keeps z0 s) : KeepsOut z0 (execSleepS1 s) := by
  unfold execSleepS1
  refine KeepsOut.next ?_
  refine State.sleepCmd_keeps ?_
  refine State.takeSleepWords_keeps ?_
  exact h0

theorem execSleepS2_keeps {z0 : State} {s : State} (h0 : Keeps z0 s) : KeepsOut z0 (execSleepS2 s) := by
  unfold execSleepS2
  refine KeepsOut.next ?_
  refine State.sleepCmd_keeps ?_
  refine State.takeSleepWords_keeps ?_
  exact h0

theorem execSleepS3_keeps {z0 : State} {s : State} (h0 : Keeps z0 s) : KeepsOut z0 (execSleepS3 s) := by
  unfold execSleepS3
  refine KeepsOut.next ?_
  refine State.sleepCmd_keeps ?_
  refine State.takeSleepWords_keeps ?_
  exact h0

theorem State.loseS2_keeps {z0 : State} {s : State} (h0 : Keeps z0 s) : Keeps z0 (State.loseS2 s) := by
  unfold State.loseS2
  extract_lets -merge +onlyGivenNames v1 v2 v3 v4
  have hv1 : Keeps z0 v1 := by
    unfold v1
    refine State.each_keeps ?_ ?_
    · exact h0
    · intro s5 x6 x7
      refine Keeps.ite ?_ ?_
      · exact x7
      · refine State.zeroRange_keeps ?_
        exact x7
  clear_value v1
  have hv2 : Keeps z0 v2 := by
    unfold v2
    refine State.schedStop_keeps ?_
    exact Keeps.frame hv1 rfl rfl rfl rfl rfl rfl rfl rfl rfl rfl
  clear_value v2
  have hv3 : Keeps z0 v3 := by
    unfold v3
    refine State.each_keeps ?_ ?_
    · exact hv2
    · intro s8 x9 x10
      refine State.modPwm_keeps ?_
      refine State.modAx_keeps ?_
      exact x10
  clear_value v3
  have hv4 : Keeps z0 v4 := by
    unfold v4
    refine State.diesOff_keeps ?_
    refine State.modFio_keeps ?_
    exact hv3
  clear_value v4
  refine State.modBoot_keeps ?_ ?_
  · refine State.coreLevels_keeps ?_
    refine State.set_keeps ?_
    exact Keeps.frame hv4 rfl rfl rfl rfl rfl rfl rfl rfl rfl rfl
  · exact fun _ => ⟨rfl, rfl⟩

theorem State.startWake_keeps {z0 : State} {s : State} {src : Nat} {pre : Bool} {replayed : Bool} (h0 : Keeps z0 s) : Keeps z0 (State.startWake s src pre replayed) := by
  unfold State.startWake
  extract_lets -merge +onlyGivenNames v1 v2
  have hv1 : Keeps z0 v1 := by
    unfold v1
    refine State.setB_keeps ?_
    refine State.setB_keeps ?_
    refine State.set_keeps ?_
    exact h0
  clear_value v1
  have hv2 : Keeps z0 v2 := by
    unfold v2
    refine State.set_keeps ?_
    refine State.set_keeps ?_
    exact hv1
  clear_value v2
  split
  · refine State.modPw_keeps ?_
    exact hv2
  · refine State.modPw_keeps ?_
    exact hv2
  · refine State.startSequence_keeps ?_
    refine State.modPw_keeps ?_
    exact hv2

theorem execSleepEntryComplete_keeps {z0 : State} {s : State} (h0 : Keeps z0 s) : KeepsOut z0 (execSleepEntryComplete s) := by
  unfold execSleepEntryComplete
  extract_lets -merge +onlyGivenNames v1
  clear_value v1
  refine KeepsOut.ite ?_ ?_
  · refine KeepsOut.next ?_
    exact h0
  · extract_lets -merge +onlyGivenNames v2 v3 v4 v5 v6
    have hv2 : Keeps z0 v2 := by
      unfold v2
      refine State.bump_keeps ?_
      refine State.set_keeps ?_
      exact h0
    clear_value v2
    clear_value v3
    clear_value v4
    have hv5 : Keeps z0 v5 := by
      unfold v5
      split
      · exact hv2
      · refine State.loseS2_keeps ?_
        exact hv2
      · refine State.domainsOff_keeps ?_
        exact hv2
    clear_value v5
    have hv6 : Keeps z0 v6 := by
      unfold v6
      refine State.modPw_keeps ?_
      exact hv5
    clear_value v6
    split
    · refine KeepsOut.next ?_
      refine State.startWake_keeps ?_
      exact hv6
    · refine KeepsOut.next ?_
      exact hv6

theorem execWakeEvent_keeps {z0 : State} {src : WakeSrc} {window : Bool} {s : State} (h0 : Keeps z0 s) : KeepsOut z0 (execWakeEvent src window s) := by
  unfold execWakeEvent
  refine KeepsOut.ite ?_ ?_
  · refine KeepsOut.next ?_
    exact h0
  · extract_lets -merge +onlyGivenNames v1
    have hv1 : Keeps z0 v1 := by
      unfold v1
      refine Keeps.ite ?_ ?_
      · refine State.passTo_keeps ?_
        exact h0
      · exact h0
    clear_value v1
    refine KeepsOut.ite ?_ ?_
    · refine KeepsOut.ite ?_ ?_
      · refine KeepsOut.next ?_
        exact hv1
      · refine KeepsOut.ite ?_ ?_
        · refine KeepsOut.next ?_
          refine State.modPw_keeps ?_
          exact hv1
        · refine KeepsOut.ite ?_ ?_
          · refine KeepsOut.next ?_
            refine State.modPw_keeps ?_
            exact hv1
          · refine KeepsOut.ite ?_ ?_
            · refine KeepsOut.next ?_
              refine State.modPw_keeps ?_
              exact hv1
            · refine KeepsOut.next ?_
              exact hv1
    · refine KeepsOut.ite ?_ ?_
      · refine KeepsOut.next ?_
        refine State.startWake_keeps ?_
        exact hv1
      · refine KeepsOut.next ?_
        exact hv1

theorem State.copyLimits_keeps {z0 : State} {s : State} (h0 : Keeps z0 s) : Keeps z0 (State.copyLimits s) := by
  unfold State.copyLimits
  exact h0.withArc

theorem State.startEngines_keeps {z0 s : State} (h0 : Keeps z0 s) : Keeps z0 (State.startEngines s) :=
  State.canStart_keeps (State.cmpStart_keeps (State.clockStart_keeps (Keeps.netReset h0 rfl)))

theorem State.startUnits_keeps {z0 : State} {s : State} {withSlices : Bool} (h0 : Keeps z0 s) : Keeps z0 (State.startUnits s withSlices) := by
  unfold State.startUnits
  refine State.modBoot_keeps ?_ ?_
  · exact h0
  · exact fun _ => ⟨rfl, rfl⟩

theorem State.awake_keeps {z0 : State} {s : State} (h0 : Keeps z0 s) : Keeps z0 (State.awake s) := by
  unfold State.awake
  extract_lets -merge +onlyGivenNames v1 v2 v3 v4 v5 v6
  clear_value v1
  have hv2 : Keeps z0 v2 := by
    unfold v2
    refine Keeps.ite ?_ ?_
    · exact h0
    · refine State.copyLimits_keeps ?_
      exact h0
  clear_value v2
  have hv3 : Keeps z0 v3 := by
    unfold v3
    refine State.endSessions_keeps ?_
    exact hv2
  clear_value v3
  clear_value v4
  have hv5 : Keeps z0 v5 := by
    unfold v5
    exact Keeps.frame hv3 rfl rfl rfl rfl rfl rfl rfl rfl rfl rfl
  clear_value v5
  have hv6 : Keeps z0 v6 := by
    unfold v6
    refine State.modPw_keeps ?_
    exact hv5
  clear_value v6
  extract_lets -merge +onlyGivenNames v7 v8
  have hv7 : Keeps z0 v7 := by
    unfold v7
    refine State.modFio_keeps ?_
    refine State.startEngines_keeps ?_
    exact hv6
  clear_value v7
  have hv8 : Keeps z0 v8 := by
    unfold v8
    refine Keeps.ite ?_ ?_
    · refine State.set_keeps ?_
      exact hv7
    · refine State.schedStart_keeps ?_
      exact hv7
  clear_value v8
  refine State.tryRelease_keeps ?_
  refine State.startUnits_keeps ?_
  exact hv8

theorem execWakeStepDone_keeps {z0 : State} {s : State} (h0 : Keeps z0 s) : KeepsOut z0 (execWakeStepDone s) := by
  unfold execWakeStepDone
  refine KeepsOut.ite ?_ ?_
  · refine KeepsOut.next ?_
    exact h0
  · split
    · refine KeepsOut.next ?_
      refine State.modPw_keeps ?_
      refine State.fieldOn_keeps ?_
      refine State.modBoot_keeps ?_ ?_
      · refine State.coreLevels_keeps ?_
        refine State.set_keeps ?_
        exact h0
      · exact fun _ => ⟨rfl, rfl⟩
    · refine KeepsOut.next ?_
      refine State.modPw_keeps ?_
      exact h0
    · refine KeepsOut.next ?_
      refine State.modPw_keeps ?_
      refine State.modBoot_keeps ?_ ?_
      · exact h0
      · exact fun _ => ⟨rfl, rfl⟩
    · refine KeepsOut.next ?_
      refine State.awake_keeps ?_
      exact h0
    · refine KeepsOut.next ?_
      exact h0

theorem execWakeStepTimeout_keeps {z0 : State} {s : State} (h0 : Keeps z0 s) : KeepsOut z0 (execWakeStepTimeout s) := by
  unfold execWakeStepTimeout
  extract_lets -merge +onlyGivenNames v1
  clear_value v1
  refine KeepsOut.ite ?_ ?_
  · refine KeepsOut.next ?_
    exact h0
  · extract_lets -merge +onlyGivenNames v2
    have hv2 : Keeps z0 v2 := by
      unfold v2
      refine State.set_keeps ?_
      exact h0
    clear_value v2
    refine KeepsOut.ite ?_ ?_
    · extract_lets -merge +onlyGivenNames v3
      have hv3 : Keeps z0 v3 := by
        unfold v3
        refine State.domainsOff_keeps ?_
        refine State.set_keeps ?_
        exact hv2
      clear_value v3
      refine KeepsOut.next ?_
      refine State.rindLog_keeps ?_
      refine State.modBoot_keeps ?_ ?_
      · exact hv3
      · exact fun _ => ⟨rfl, rfl⟩
    · extract_lets -merge +onlyGivenNames v5
      have hv5 : Keeps z0 v5 := by
        unfold v5
        refine State.loseS2_keeps ?_
        refine State.bump_keeps ?_
        exact hv2
      clear_value v5
      refine KeepsOut.next ?_
      refine State.modPw_keeps ?_
      exact hv5

theorem execWakeRetry_keeps {z0 : State} {s : State} (h0 : Keeps z0 s) : KeepsOut z0 (execWakeRetry s) := by
  unfold execWakeRetry
  refine KeepsOut.next ?_
  refine Keeps.ite ?_ ?_
  · refine State.modPw_keeps ?_
    exact h0
  · exact h0

theorem State.modZone_keeps {z0 : State} {s : State} {z : Nat} {f : ZoneDyn → ZoneDyn} (h0 : Keeps z0 s) : Keeps z0 (State.modZone s z f) := by
  unfold State.modZone
  refine State.modPw_keeps ?_
  exact h0

theorem State.takeReading_keeps {z0 : State} {s : State} {r : Reading} (h0 : Keeps z0 s) : Keeps z0 (State.takeReading s r) := by
  unfold State.takeReading
  extract_lets -merge +onlyGivenNames v1
  clear_value v1
  refine Keeps.ite ?_ ?_
  · exact h0
  · extract_lets -merge +onlyGivenNames v2
    have hv2 : Keeps z0 v2 := by
      unfold v2
      refine State.set_keeps ?_
      refine State.setS_keeps ?_
      exact h0
    clear_value v2
    refine Keeps.ite ?_ ?_
    · extract_lets -merge +onlyGivenNames v3
      clear_value v3
      split
      · refine State.set_keeps ?_
        exact hv2
      · refine State.set_keeps ?_
        exact hv2
      · refine State.set_keeps ?_
        exact hv2
      · refine State.set_keeps ?_
        exact hv2
      · exact hv2
    · extract_lets -merge +onlyGivenNames v4
      have hv4 : Keeps z0 v4 := by
        unfold v4
        refine State.modZone_keeps ?_
        exact hv2
      clear_value v4
      refine State.setS_keeps ?_
      exact hv4

theorem State.judgeSensor_keeps {z0 : State} {s : State} {z : Nat} (h0 : Keeps z0 s) : Keeps z0 (State.judgeSensor s z) := by
  unfold State.judgeSensor
  extract_lets -merge +onlyGivenNames v1 v2
  clear_value v1
  clear_value v2
  refine Keeps.ite ?_ ?_
  · extract_lets -merge +onlyGivenNames v3
    have hv3 : Keeps z0 v3 := by
      unfold v3
      refine State.putBit_keeps ?_
      refine State.modZone_keeps ?_
      exact h0
    clear_value v3
    refine Keeps.ite ?_ ?_
    · exact hv3
    · refine State.raiseMod_keeps ?_
      exact hv3
  · extract_lets -merge +onlyGivenNames v4
    have hv4 : Keeps z0 v4 := by
      unfold v4
      refine State.modZone_keeps ?_
      exact h0
    clear_value v4
    refine Keeps.ite ?_ ?_
    · refine State.putBit_keeps ?_
      exact hv4
    · exact hv4

theorem State.thrNotice_keeps {z0 : State} {s : State} {z : Nat} {stage : Nat} {grace : Nat} (h0 : Keeps z0 s) : Keeps z0 (State.thrNotice s z stage grace) := by
  unfold State.thrNotice
  extract_lets -merge +onlyGivenNames v1
  clear_value v1
  refine State.notice_keeps ?_
  exact h0

theorem State.graceLeft_keeps {z0 : State} {s : State} (h0 : Keeps z0 s) : Keeps z0 (State.graceLeft s) := by
  unfold State.graceLeft
  refine State.set_keeps ?_
  exact h0

theorem State.enforce_keeps {z0 : State} {s : State} (h0 : Keeps z0 s) : Keeps z0 (State.enforce s) := by
  unfold State.enforce
  refine State.modPw_keeps ?_
  refine State.each_keeps ?_ ?_
  · exact h0
  · intro s1 x2 x3
    refine Keeps.ite ?_ ?_
    · refine State.modZone_keeps ?_
      exact x3
    · exact x3

theorem State.countSteps_keeps {z0 : State} {s : State} (h0 : Keeps z0 s) : Keeps z0 (State.countSteps s) := by
  unfold State.countSteps
  refine State.each_keeps ?_ ?_
  · exact h0
  · intro s1 x2 x3
    refine Keeps.ite ?_ ?_
    · refine State.modZone_keeps ?_
      exact x3
    · refine State.modZone_keeps ?_
      exact x3

theorem State.raiseThrottle_keeps {z0 : State} {s : State} {z : Nat} (h0 : Keeps z0 s) : Keeps z0 (State.raiseThrottle s z) := by
  unfold State.raiseThrottle
  extract_lets -merge +onlyGivenNames v1 v2
  clear_value v1
  have hv2 : Keeps z0 v2 := by
    unfold v2
    refine State.modPw_keeps ?_
    refine State.setOverlay_keeps ?_
    exact h0
  clear_value v2
  refine State.raiseMod_keeps ?_
  refine State.thrNotice_keeps ?_
  exact hv2

theorem State.releaseThrottle_keeps {z0 : State} {s : State} (h0 : Keeps z0 s) : Keeps z0 (State.releaseThrottle s) := by
  unfold State.releaseThrottle
  extract_lets -merge +onlyGivenNames v1 v2 v3 v4 v5
  have hv1 : Keeps z0 v1 := by
    unfold v1
    refine State.setOverlay_keeps ?_
    refine State.setOverlay_keeps ?_
    exact h0
  clear_value v1
  have hv2 : Keeps z0 v2 := by
    unfold v2
    refine State.modPw_keeps ?_
    exact hv1
  clear_value v2
  have hv3 : Keeps z0 v3 := by
    unfold v3
    refine State.raiseMod_keeps ?_
    refine State.thrNotice_keeps ?_
    exact hv2
  clear_value v3
  clear_value v4
  have hv5 : Keeps z0 v5 := by
    unfold v5
    refine State.each_keeps ?_ ?_
    · exact hv3
    · intro s6 x7 x8
      refine State.applyFactors_keeps ?_
      exact x8
  clear_value v5
  refine Keeps.ite ?_ ?_
  · refine State.perfCheck_keeps ?_
    refine State.set_keeps ?_
    refine State.modPw_keeps ?_
    exact hv5
  · exact hv5

theorem State.judgeZones_keeps {z0 : State} {s : State} (h0 : Keeps z0 s) : Keeps z0 (State.judgeZones s) := by
  unfold State.judgeZones
  extract_lets -merge +onlyGivenNames v1 v2 v3 v4 v5 v6 v7 v8 v9
  have hv1 : Keeps z0 v1 := by
    unfold v1
    refine State.each_keeps ?_ ?_
    · exact h0
    · intro s10 x11 x12
      refine State.judgeSensor_keeps ?_
      exact x12
  clear_value v1
  clear_value v2
  have hv3 : Keeps z0 v3 := by
    unfold v3
    refine State.set_keeps ?_
    exact hv1
  clear_value v3
  have hv4 : Keeps z0 v4 := by
    unfold v4
    split
    · refine Keeps.ite ?_ ?_
      · exact hv3
      · refine State.raiseThrottle_keeps ?_
        exact hv3
    · exact hv3
  clear_value v4
  clear_value v5
  have hv6 : Keeps z0 v6 := by
    unfold v6
    refine Keeps.ite ?_ ?_
    · exact hv4
    · refine State.modPw_keeps ?_
      exact hv4
  clear_value v6
  have hv7 : Keeps z0 v7 := by
    unfold v7
    refine State.each_keeps ?_ ?_
    · exact hv6
    · intro s13 x14 x15
      refine Keeps.ite ?_ ?_
      · exact x15
      · refine State.raiseZone_keeps ?_
        exact x15
  clear_value v7
  have hv8 : Keeps z0 v8 := by
    unfold v8
    refine Keeps.ite ?_ ?_
    · exact hv7
    · refine Keeps.ite ?_ ?_
      · refine State.countSteps_keeps ?_
        exact hv7
      · refine Keeps.ite ?_ ?_
        · refine State.enforce_keeps ?_
          exact hv7
        · exact hv7
  clear_value v8
  have hv9 : Keeps z0 v9 := by
    unfold v9
    refine Keeps.ite ?_ ?_
    · refine State.releaseThrottle_keeps ?_
      exact hv8
    · exact hv8
  clear_value v9
  refine State.graceLeft_keeps ?_
  exact hv9

theorem execHousekeepingSample_keeps {z0 : State} {readings : List Reading} {s : State} (h0 : Keeps z0 s) : KeepsOut z0 (execHousekeepingSample readings s) := by
  unfold execHousekeepingSample
  refine KeepsOut.ite ?_ ?_
  · refine KeepsOut.next ?_
    exact h0
  · extract_lets -merge +onlyGivenNames v1 v2
    have hv1 : Keeps z0 v1 := by
      unfold v1
      refine Keeps.ite ?_ ?_
      · exact h0
      · refine State.passTo_keeps ?_
        exact h0
    clear_value v1
    have hv2 : Keeps z0 v2 := by
      unfold v2
      refine State.each_keeps ?_ ?_
      · refine State.modPw_keeps ?_
        exact hv1
      · intro s3 x4 x5
        refine State.takeReading_keeps ?_
        exact x5
    clear_value v2
    refine KeepsOut.next ?_
    refine Keeps.ite ?_ ?_
    · refine State.judgeZones_keeps ?_
      exact hv2
    · exact hv2

theorem execGraceExpiry_keeps {z0 : State} {s : State} (h0 : Keeps z0 s) : KeepsOut z0 (execGraceExpiry s) := by
  unfold execGraceExpiry
  refine KeepsOut.ite ?_ ?_
  · refine KeepsOut.next ?_
    exact h0
  · extract_lets -merge +onlyGivenNames v1
    have hv1 : Keeps z0 v1 := by
      unfold v1
      refine State.graceLeft_keeps ?_
      refine State.passTo_keeps ?_
      exact h0
    clear_value v1
    refine KeepsOut.next ?_
    refine Keeps.ite ?_ ?_
    · refine State.enforce_keeps ?_
      exact hv1
    · exact hv1

theorem State.ladderStep_keeps {z0 : State} {s : State} {z : Nat} (h0 : Keeps z0 s) : KeepsO z0 (State.ladderStep s z) := by
  unfold State.ladderStep
  refine KeepsO.ite ?_ ?_
  · refine KeepsO.some ?_
    refine State.perfCheck_keeps ?_
    refine State.bump_keeps ?_
    exact h0
  · refine KeepsO.ite ?_ ?_
    · refine KeepsO.some ?_
      refine State.modZone_keeps ?_
      exact h0
    · refine KeepsO.ite ?_ ?_
      · refine KeepsO.some ?_
        refine State.modZone_keeps ?_
        exact h0
      · exact KeepsO.none

theorem execThrottleStep_keeps {z0 : State} {z : Fin 14} {s : State} (h0 : Keeps z0 s) : KeepsOut z0 (execThrottleStep z s) := by
  unfold execThrottleStep
  refine KeepsOut.ite ?_ ?_
  · refine KeepsOut.next ?_
    exact h0
  · extract_lets -merge +onlyGivenNames v1
    have hv1 : Keeps z0 v1 := by
      unfold v1
      refine State.modZone_keeps ?_
      exact h0
    clear_value v1
    split
    · refine KeepsOut.next ?_
      exact hv1
    · rename_i s2 y3
      have h4 : Keeps z0 s2 := by
        refine KeepsO.of_eq y3 ?_
        refine State.ladderStep_keeps ?_
        exact hv1
      extract_lets -merge +onlyGivenNames v5
      have hv5 : Keeps z0 v5 := by
        unfold v5
        refine State.each_keeps ?_ ?_
        · exact h4
        · intro s6 x7 x8
          refine State.applyFactors_keeps ?_
          exact x8
      clear_value v5
      refine KeepsOut.next ?_
      refine State.thrNotice_keeps ?_
      refine State.setOverlay_keeps ?_
      exact hv5

/-! Mcc -/

theorem State.mccBoundary_keeps {z0 : State} {s : State} (h0 : Keeps z0 s) : Keeps z0 (State.mccBoundary s) := by
  unfold State.mccBoundary
  extract_lets -merge +onlyGivenNames v1 v2 v3 v4
  clear_value v1
  have hv2 : Keeps z0 v2 := by
    unfold v2
    refine State.applyStaged_keeps ?_
    refine State.unstage_keeps ?_
    exact h0
  clear_value v2
  have hv3 : Keeps z0 v3 := by
    unfold v3
    split
    · refine State.sysCommand_keeps ?_
      exact hv2
    · exact hv2
  clear_value v3
  have hv4 : Keeps z0 v4 := by
    unfold v4
    split
    · refine State.sleepCmd_keeps ?_
      exact hv3
    · exact hv3
  clear_value v4
  refine State.flushState_keeps ?_
  refine State.perfCheck_keeps ?_
  exact hv4

end Sys2Proof.Machine
end

