-- ==== Sys2Proof/Laws/Keeps7.lean ====
section
/-!
SUPPORT. Laws/Keeps7.lean: what the operations and the meanings of Machine/Sched, Boot, Bus, Faults, Update keep (Laws/Keeps.lean).
-/

namespace Sys2Proof.Machine

/-! Sched -/

theorem State.putEdge_keeps {z0 : State} {s : State} {x : EdgeDyn} (h0 : Keeps z0 s) : Keeps z0 (State.putEdge s x) := by
  unfold State.putEdge
  refine State.modSched_keeps ?_
  exact h0

theorem State.allocate_keeps {z0 : State} {s : State} {e : Nat} (h0 : Keeps z0 s) : KeepsP z0 (State.allocate s e) := by
  unfold State.allocate
  extract_lets -merge +onlyGivenNames v1 v2
  clear_value v1
  clear_value v2
  refine KeepsP.mk ?_
  refine State.putEdge_keeps ?_
  exact h0

theorem State.captureEdge_keeps {z0 : State} {s : State} {e : Nat} {a : Nat} (h0 : Keeps z0 s) : Keeps z0 (State.captureEdge s e a) := by
  unfold State.captureEdge
  extract_lets -merge +onlyGivenNames v1 v2
  clear_value v1
  clear_value v2
  exact Keeps.frame h0 rfl rfl rfl rfl rfl rfl rfl rfl rfl rfl

theorem State.postToken_keeps {z0 : State} {s : State} {e : Nat} {origin : Nat} (h0 : Keeps z0 s) : Keeps z0 (State.postToken s e origin) := by
  unfold State.postToken
  extract_lets -merge +onlyGivenNames v1
  clear_value v1
  split
  · exact h0
  · extract_lets -merge +onlyGivenNames v2 v3 v4 v5 v6
    have hv2 : Keeps z0 v2 := by
      unfold v2
      refine State.captureEdge_keeps ?_
      exact h0
    clear_value v2
    clear_value v3
    clear_value v5
    have hv6 : Keeps z0 v6 := by
      unfold v6
      refine State.putEdge_keeps ?_
      exact hv2
    clear_value v6
    refine Keeps.ite ?_ ?_
    · refine State.raiseGraph_keeps ?_
      refine State.bump_keeps ?_
      exact hv6
    · exact hv6

theorem State.freeSlots_keeps {z0 : State} {s : State} {p : Nat} (h0 : Keeps z0 s) : Keeps z0 (State.freeSlots s p) := by
  unfold State.freeSlots
  refine State.each_keeps ?_ ?_
  · exact h0
  · intro s1 x2 x3
    extract_lets -merge +onlyGivenNames v4 v5 v6
    clear_value v4
    clear_value v5
    clear_value v6
    refine State.putEdge_keeps ?_
    exact x3

theorem State.enqueue_keeps {z0 : State} {s : State} {p : Nat} {t : Nat} (h0 : Keeps z0 s) : Keeps z0 (State.enqueue s p t) := by
  unfold State.enqueue
  refine State.modSched_keeps ?_
  exact h0

theorem State.releaseDelayed_keeps {z0 : State} {s : State} {p : Nat} {t : Nat} (h0 : Keeps z0 s) : Keeps z0 (State.releaseDelayed s p t) := by
  unfold State.releaseDelayed
  refine State.enqueue_keeps ?_
  refine State.modSched_keeps ?_
  exact h0

theorem State.makeReady_keeps {z0 : State} {s : State} {t : Nat} {p : Nat} (h0 : Keeps z0 s) : Keeps z0 (State.makeReady s t p) := by
  unfold State.makeReady
  extract_lets -merge +onlyGivenNames v1 v2 v3 v4
  clear_value v1
  clear_value v2
  clear_value v3
  have hv4 : Keeps z0 v4 := by
    unfold v4
    refine Keeps.ite ?_ ?_
    · exact h0
    · refine State.modSched_keeps ?_
      exact h0
  clear_value v4
  refine Keeps.ite ?_ ?_
  · refine State.enqueue_keeps ?_
    exact hv4
  · refine State.modSched_keeps ?_
    exact hv4

theorem State.modGraph_keeps {z0 : State} {s : State} {g : Nat} {f : GraphDyn → GraphDyn} (h0 : Keeps z0 s) : Keeps z0 (State.modGraph s g f) := by
  unfold State.modGraph
  refine State.modSched_keeps ?_
  exact h0

theorem State.recordMiss_keeps {z0 : State} {s : State} {p : Nat} (h0 : Keeps z0 s) : Keeps z0 (State.recordMiss s p) := by
  unfold State.recordMiss
  extract_lets -merge +onlyGivenNames v1 v2 v3 v4 v5 v6 v7 v8
  clear_value v1
  clear_value v2
  have hv3 : Keeps z0 v3 := by
    unfold v3
    refine State.bump_keeps ?_
    exact h0
  clear_value v3
  have hv4 : Keeps z0 v4 := by
    unfold v4
    refine State.set_keeps ?_
    refine State.set_keeps ?_
    exact hv3
  clear_value v4
  have hv5 : Keeps z0 v5 := by
    unfold v5
    refine State.set_keeps ?_
    refine State.set_keeps ?_
    exact hv4
  clear_value v5
  have hv6 : Keeps z0 v6 := by
    unfold v6
    refine State.modSched_keeps ?_
    exact hv5
  clear_value v6
  have hv7 : Keeps z0 v7 := by
    unfold v7
    refine Keeps.ite ?_ ?_
    · exact hv6
    · refine State.raiseGraph_keeps ?_
      exact hv6
  clear_value v7
  have hv8 : Keeps z0 v8 := by
    unfold v8
    refine Keeps.ite ?_ ?_
    · refine State.modSched_keeps ?_
      exact hv7
    · exact hv7
  clear_value v8
  refine Keeps.ite ?_ ?_
  · refine State.modGraph_keeps ?_
    exact hv8
  · exact hv8

theorem State.groupBound_keeps {z0 : State} {s : State} {g : Nat} (h0 : Keeps z0 s) : Keeps z0 (State.groupBound s g) := by
  unfold State.groupBound
  extract_lets -merge +onlyGivenNames v1 v2 v3 v4 v5
  clear_value v1
  clear_value v2
  clear_value v3
  clear_value v4
  have hv5 : Keeps z0 v5 := by
    unfold v5
    refine State.modGraph_keeps ?_
    exact h0
  clear_value v5
  refine Keeps.ite ?_ ?_
  · refine State.raiseGraph_keeps ?_
    exact hv5
  · exact hv5

theorem State.judgeCycle_keeps {z0 : State} {s : State} (h0 : Keeps z0 s) : Keeps z0 (State.judgeCycle s) := by
  unfold State.judgeCycle
  extract_lets -merge +onlyGivenNames v1 v2 v3
  clear_value v1
  clear_value v2
  have hv3 : Keeps z0 v3 := by
    unfold v3
    refine State.modSched_keeps ?_
    exact h0
  clear_value v3
  refine Keeps.ite ?_ ?_
  · exact hv3
  · refine Keeps.ite ?_ ?_
    · refine State.set_keeps ?_
      refine State.bump_keeps ?_
      exact hv3
    · refine State.completionPulse_keeps ?_
      refine State.set_keeps ?_
      exact hv3

theorem State.retireRun_keeps {z0 : State} {s : State} {k : Nat} {p : Nat} {t : Nat} {late : Bool} (h0 : Keeps z0 s) : Keeps z0 (State.retireRun s k p t late) := by
  unfold State.retireRun
  extract_lets -merge +onlyGivenNames v1 v2 v3
  have hv1 : Keeps z0 v1 := by
    unfold v1
    refine State.freeSlots_keeps ?_
    refine State.putBit_keeps ?_
    exact h0
  clear_value v1
  have hv2 : Keeps z0 v2 := by
    unfold v2
    refine State.modSched_keeps ?_
    exact hv1
  clear_value v2
  have hv3 : Keeps z0 v3 := by
    unfold v3
    split
    · refine Keeps.ite ?_ ?_
      · refine State.set_keeps ?_
        exact hv2
      · exact hv2
    · exact hv2
  clear_value v3
  refine State.modSched_keeps ?_
  exact hv3

theorem State.takeNote_keeps {z0 : State} {s : State} {t : Nat} {k : Nat} {n : CoreNote} (h0 : Keeps z0 s) : Keeps z0 (State.takeNote s t k n) := by
  unfold State.takeNote
  split
  · exact h0
  · split
    · split
      · refine State.postToken_keeps ?_
        exact h0
      · exact h0
    · refine State.retireRun_keeps ?_
      exact h0
    · extract_lets -merge +onlyGivenNames v1
      have hv1 : Keeps z0 v1 := by
        unfold v1
        refine State.retireRun_keeps ?_
        exact h0
      clear_value v1
      refine Keeps.ite ?_ ?_
      · refine State.modSched_keeps ?_
        exact hv1
      · exact hv1

theorem State.takeNotes_keeps {z0 : State} {s : State} {t : Nat} (h0 : Keeps z0 s) : Keeps z0 (State.takeNotes s t) := by
  unfold State.takeNotes
  extract_lets -merge +onlyGivenNames v1 v2
  clear_value v1
  have hv2 : Keeps z0 v2 := by
    unfold v2
    refine State.modSched_keeps ?_
    exact h0
  clear_value v2
  refine State.each_keeps ?_ ?_
  · exact hv2
  · intro s3 x4 x5
    refine State.each_keeps ?_ ?_
    · exact x5
    · intro s6 x7 x8
      refine State.takeNote_keeps ?_
      exact x8

theorem State.sourceEvent_keeps {z0 : State} {s : State} {t : Nat} {i : Nat} {ev : SrcEvent} (h0 : Keeps z0 s) : Keeps z0 (State.sourceEvent s t i ev) := by
  unfold State.sourceEvent
  extract_lets -merge +onlyGivenNames v1 v2 v3 v4 v5
  clear_value v1
  clear_value v2
  clear_value v3
  have hv4 : Keeps z0 v4 := by
    unfold v4
    refine State.modSched_keeps ?_
    exact h0
  clear_value v4
  have hv5 : Keeps z0 v5 := by
    unfold v5
    refine Keeps.ite ?_ ?_
    · refine State.twinCycle_keeps ?_
      refine State.judgeCycle_keeps ?_
      exact hv4
    · exact hv4
  clear_value v5
  refine Keeps.ite ?_ ?_
  · exact hv5
  · extract_lets -merge +onlyGivenNames v6 v7
    clear_value v6
    have hv7 : Keeps z0 v7 := by
      unfold v7
      refine Keeps.ite ?_ ?_
      · refine State.mccBoundary_keeps ?_
        exact hv5
      · exact hv5
    clear_value v7
    split
    rename_i s8 y9 y10
    have h11 : Keeps z0 s8 := by
      refine KeepsP.of_eq y10 ?_
      refine State.allocate_keeps ?_
      exact hv7
    extract_lets -merge +onlyGivenNames v12 v13
    have hv12 : Keeps z0 v12 := by
      unfold v12
      refine State.putBytes_keeps ?_
      exact h11
    clear_value v12
    have hv13 : Keeps z0 v13 := by
      unfold v13
      refine State.postToken_keeps ?_
      exact hv12
    clear_value v13
    refine State.each_keeps ?_ ?_
    · exact hv13
    · intro s14 x15 x16
      refine Keeps.ite ?_ ?_
      · refine State.groupBound_keeps ?_
        exact x16
      · exact x16

theorem State.takeSources_keeps {z0 : State} {s : State} {t : Nat} (h0 : Keeps z0 s) : Keeps z0 (State.takeSources s t) := by
  unfold State.takeSources
  extract_lets -merge +onlyGivenNames v1 v2
  clear_value v1
  have hv2 : Keeps z0 v2 := by
    unfold v2
    refine State.modSched_keeps ?_
    exact h0
  clear_value v2
  refine Keeps.ite ?_ ?_
  · exact hv2
  · refine State.each_keeps ?_ ?_
    · exact hv2
    · intro s3 x4 x5
      refine State.each_keeps ?_ ?_
      · exact x5
      · intro s6 x7 x8
        refine State.sourceEvent_keeps ?_
        exact x8

theorem State.dispatch_keeps {z0 : State} {s : State} {t : Nat} {p : Nat} {k : Nat} (h0 : Keeps z0 s) : Keeps z0 (State.dispatch s t p k) := by
  unfold State.dispatch
  extract_lets -merge +onlyGivenNames v1 v2 v3 v4
  clear_value v1
  clear_value v2
  clear_value v3
  clear_value v4
  split
  rename_i s5 y6 y7
  have h8 : Keeps z0 s5 := by
    refine KeepsP.of_eq y7 ?_
    refine KeepsP.foldl ?_ ?_
    · intro x9 x10 x11
      extract_lets -merge +onlyGivenNames v12
      have hv12 : Keeps z0 v12 := by
        unfold v12
        refine KeepsP.fst ?_
        exact x11
      clear_value v12
      split
      · extract_lets -merge +onlyGivenNames v13 v14
        clear_value v13
        have hv14 : Keeps z0 v14 := by
          unfold v14
          refine State.wr_keeps ?_
          refine State.putEdge_keeps ?_
          exact hv12
        clear_value v14
        refine KeepsP.mk ?_
        exact hv14
      · refine KeepsP.mk ?_
        refine State.wr_keeps ?_
        exact hv12
    · refine KeepsP.mk ?_
      exact h0
  extract_lets -merge +onlyGivenNames v15 v16 v17 v18 v19
  have hv15 : Keeps z0 v15 := by
    unfold v15
    refine Keeps.foldl ?_ ?_
    · intro s20 x21 x22
      split
      · split
        rename_i s23 y24 y25
        have h26 : Keeps z0 s23 := by
          refine KeepsP.of_eq y25 ?_
          refine State.allocate_keeps ?_
          exact x22
        refine State.wr_keeps ?_
        exact h26
      · refine State.wr_keeps ?_
        exact x22
    · exact h8
  clear_value v15
  clear_value v16
  have hv17 : Keeps z0 v17 := by
    unfold v17
    refine State.modCore_keeps ?_
    refine State.drawn_keeps ?_
    exact hv15
  clear_value v17
  have hv18 : Keeps z0 v18 := by
    unfold v18
    refine State.set_keeps ?_
    refine State.set_keeps ?_
    exact hv17
  clear_value v18
  have hv19 : Keeps z0 v19 := by
    unfold v19
    refine State.putBit_keeps ?_
    exact hv18
  clear_value v19
  refine State.modSched_keeps ?_
  exact hv19

theorem State.dispatchFrom_keeps {z0 : State} {t : Nat} {l : List QueueDyn} : ∀ {s : State} {chosen : List Nat}, Keeps z0 s →
    Keeps z0 (State.dispatchFrom s t chosen l) := by
  induction l with
  | nil => intro s chosen h; exact h
  | cons q r ih =>
    intro s chosen h
    unfold State.dispatchFrom
    refine Keeps.ite h ?_
    split
    · exact ih (State.dispatch_keeps h)
    · exact ih h

theorem State.takeDeadlines_keeps {z0 : State} {s : State} {t : Nat} (h0 : Keeps z0 s) : Keeps z0 (State.takeDeadlines s t) := by
  unfold State.takeDeadlines
  extract_lets -merge +onlyGivenNames v1
  clear_value v1
  refine State.each_keeps ?_ ?_
  · exact h0
  · intro s2 x3 x4
    refine State.recordMiss_keeps ?_
    exact x4

theorem execSchedulerTick_keeps {z0 : State} {s : State} (h0 : Keeps z0 s) : KeepsOut z0 (execSchedulerTick s) := by
  unfold execSchedulerTick
  refine KeepsOut.ite ?_ ?_
  · refine KeepsOut.next ?_
    exact h0
  · extract_lets -merge +onlyGivenNames v1 v2
    clear_value v1
    have hv2 : Keeps z0 v2 := by
      unfold v2
      refine State.takeNotes_keeps ?_
      refine State.set_keeps ?_
      exact h0
    clear_value v2
    refine KeepsOut.ite ?_ ?_
    · refine KeepsOut.next ?_
      refine State.takeDeadlines_keeps ?_
      refine State.modSched_keeps ?_
      exact hv2
    · extract_lets -merge +onlyGivenNames v3 v4 v5 v6 v7
      have hv3 : Keeps z0 v3 := by
        unfold v3
        refine State.takeSources_keeps ?_
        exact hv2
      clear_value v3
      clear_value v4
      have hv5 : Keeps z0 v5 := by
        unfold v5
        refine State.each_keeps ?_ ?_
        · exact hv3
        · intro s8 x9 x10
          refine State.releaseDelayed_keeps ?_
          exact x10
      clear_value v5
      have hv6 : Keeps z0 v6 := by
        unfold v6
        refine State.each_keeps ?_ ?_
        · exact hv5
        · intro s11 x12 x13
          refine State.makeReady_keeps ?_
          exact x13
      clear_value v6
      have hv7 : Keeps z0 v7 := by
        unfold v7
        refine State.takeDeadlines_keeps ?_
        exact hv6
      clear_value v7
      refine KeepsOut.next ?_
      refine State.dispatchFrom_keeps ?_
      exact hv7

theorem State.tickTo_keeps {z0 : State} {s : State} {t : Nat} (h0 : Keeps z0 s) : Keeps z0 (State.tickTo s t) := by
  unfold State.tickTo
  refine Keeps.ite ?_ ?_
  · refine State.set_keeps ?_
    exact h0
  · exact h0

theorem execDelayRelease_keeps {z0 : State} {p : Nat} {s : State} (h0 : Keeps z0 s) : KeepsOut z0 (execDelayRelease p s) := by
  unfold execDelayRelease
  split
  · refine KeepsOut.next ?_
    refine State.releaseDelayed_keeps ?_
    refine State.tickTo_keeps ?_
    exact h0
  · refine KeepsOut.next ?_
    exact h0

theorem execDeadlineMiss_keeps {z0 : State} {p : Nat} {s : State} (h0 : Keeps z0 s) : KeepsOut z0 (execDeadlineMiss p s) := by
  unfold execDeadlineMiss
  split
  · refine KeepsOut.next ?_
    refine State.recordMiss_keeps ?_
    refine State.tickTo_keeps ?_
    exact h0
  · refine KeepsOut.next ?_
    exact h0

theorem execPipOverrun_keeps {z0 : State} {k : Core} {s : State} (h0 : Keeps z0 s) : KeepsOut z0 (execPipOverrun k s) := by
  unfold execPipOverrun
  split
  · refine KeepsOut.next ?_
    exact h0
  · extract_lets -merge +onlyGivenNames v1
    clear_value v1
    refine KeepsOut.ite ?_ ?_
    · refine KeepsOut.next ?_
      exact h0
    · extract_lets -merge +onlyGivenNames v2 v3
      have hv2 : Keeps z0 v2 := by
        unfold v2
        refine State.bump_keeps ?_
        refine State.tickTo_keeps ?_
        exact h0
      clear_value v2
      have hv3 : Keeps z0 v3 := by
        unfold v3
        refine State.modCore_keeps ?_
        exact hv2
      clear_value v3
      refine KeepsOut.next ?_
      refine State.raiseGraph_keeps ?_
      exact hv3

theorem execPipRuntimeExpiry_keeps {z0 : State} {k : Core} {s : State} (h0 : Keeps z0 s) : KeepsOut z0 (execPipRuntimeExpiry k s) := by
  unfold execPipRuntimeExpiry
  split
  · refine KeepsOut.next ?_
    exact h0
  · extract_lets -merge +onlyGivenNames v1
    have hv1 : Keeps z0 v1 := by
      unfold v1
      refine State.bump_keeps ?_
      refine State.tickTo_keeps ?_
      exact h0
    clear_value v1
    refine KeepsOut.next ?_
    refine State.abandon_keeps ?_
    exact hv1

/-! Boot -/

theorem State.intakeMs_keeps {z0 : State} {s : State} (h0 : Keeps z0 s) : Keeps z0 (State.intakeMs s) := by
  unfold State.intakeMs
  refine State.set_keeps ?_
  exact h0

theorem State.intakeHalt_keeps {z0 : State} {s : State} {code : Nat} (h0 : Keeps z0 s) : Keeps z0 (State.intakeHalt s code) := by
  unfold State.intakeHalt
  refine State.raiseMod_keeps ?_
  refine State.enterHalt_keeps ?_
  refine State.intakeMs_keeps ?_
  refine State.set_keeps ?_
  exact h0

theorem State.failSlot_keeps {z0 : State} {s : State} {code : Nat} (h0 : Keeps z0 s) : Keeps z0 (State.failSlot s code) := by
  unfold State.failSlot
  extract_lets -merge +onlyGivenNames v1 v2 v3
  clear_value v1
  have hv2 : Keeps z0 v2 := by
    unfold v2
    refine State.uninstall_keeps ?_
    refine State.raiseMod_keeps ?_
    refine State.set_keeps ?_
    exact h0
  clear_value v2
  have hv3 : Keeps z0 v3 := by
    unfold v3
    refine State.toReset_keeps ?_
    exact hv2
  clear_value v3
  refine Keeps.ite ?_ ?_
  · refine State.intakeHalt_keeps ?_
    exact hv3
  · split
    · refine State.intakeHalt_keeps ?_
      exact hv3
    · refine State.modBoot_keeps ?_ ?_
      · exact hv3
      · exact fun _ => ⟨rfl, rfl⟩

theorem State.intakeLinks_keeps {z0 : State} {s : State} {o : IntakeObs} (h0 : Keeps z0 s) : Keeps z0 (State.intakeLinks s o) := by
  unfold State.intakeLinks
  refine Keeps.ite ?_ ?_
  · refine State.intakeHalt_keeps ?_
    exact h0
  · extract_lets -merge +onlyGivenNames v1 v2
    clear_value v1
    clear_value v2
    extract_lets -merge +onlyGivenNames v3
    have hv3 : Keeps z0 v3 := by
      unfold v3
      exact h0.withArc
    clear_value v3
    refine State.modBoot_keeps ?_ ?_
    · refine State.set_keeps ?_
      refine State.set_keeps ?_
      refine State.set_keeps ?_
      exact hv3
    · exact fun _ => ⟨rfl, rfl⟩

theorem State.intakeDiscover_keeps {z0 : State} {s : State} {o : IntakeObs} (h0 : Keeps z0 s) : Keeps z0 (State.intakeDiscover s o) := by
  unfold State.intakeDiscover
  refine Keeps.ite ?_ ?_
  · refine State.intakeHalt_keeps ?_
    exact h0
  · refine Keeps.ite ?_ ?_
    · refine State.intakeHalt_keeps ?_
      exact h0
    · extract_lets -merge +onlyGivenNames v1 v2
      have hv1 : Keeps z0 v1 := by
        unfold v1
        refine State.set_keeps ?_
        refine State.set_keeps ?_
        exact h0
      clear_value v1
      have hv2 : Keeps z0 v2 := by
        unfold v2
        refine Keeps.ite ?_ ?_
        · exact hv1
        · refine State.raiseMod_keeps ?_
          exact hv1
      clear_value v2
      refine State.modBoot_keeps ?_ ?_
      · exact hv2
      · exact fun _ => ⟨rfl, rfl⟩

theorem State.intakeHeaders_keeps {z0 : State} {s : State} (h0 : Keeps z0 s) : Keeps z0 (State.intakeHeaders s) := by
  unfold State.intakeHeaders
  extract_lets -merge +onlyGivenNames v1 v2 v3 v4 v5 v6
  clear_value v1
  clear_value v2
  clear_value v3
  have hv4 : Keeps z0 v4 := by
    unfold v4
    refine State.set_keeps ?_
    exact h0
  clear_value v4
  have hv5 : Keeps z0 v5 := by
    unfold v5
    refine Keeps.ite ?_ ?_
    · exact hv4
    · refine State.set_keeps ?_
      exact hv4
  clear_value v5
  have hv6 : Keeps z0 v6 := by
    unfold v6
    refine Keeps.ite ?_ ?_
    · exact hv5
    · refine State.set_keeps ?_
      exact hv5
  clear_value v6
  split
  · refine State.intakeHalt_keeps ?_
    exact hv6
  · refine State.modBoot_keeps ?_ ?_
    · exact hv6
    · exact fun _ => ⟨rfl, rfl⟩

theorem State.intakePassOne_keeps {z0 : State} {s : State} (h0 : Keeps z0 s) : Keeps z0 (State.intakePassOne s) := by
  unfold State.intakePassOne
  extract_lets -merge +onlyGivenNames v1 v2 v3
  clear_value v1
  clear_value v2
  have hv3 : Keeps z0 v3 := by
    unfold v3
    refine State.each_keeps ?_ ?_
    · exact h0
    · intro s4 x5 x6
      refine State.copySect_keeps ?_
      exact x6
  clear_value v3
  refine Keeps.ite ?_ ?_
  · refine State.failSlot_keeps ?_
    exact hv3
  · refine State.modBoot_keeps ?_ ?_
    · exact hv3
    · exact fun _ => ⟨rfl, rfl⟩

theorem State.intakeSign_keeps {z0 : State} {s : State} (h0 : Keeps z0 s) : Keeps z0 (State.intakeSign s) := by
  unfold State.intakeSign
  extract_lets -merge +onlyGivenNames v1
  clear_value v1
  refine Keeps.ite ?_ ?_
  · refine State.failSlot_keeps ?_
    exact h0
  · refine State.modBoot_keeps ?_ ?_
    · exact h0
    · exact fun _ => ⟨rfl, rfl⟩

theorem State.intakePassTwo_keeps {z0 : State} {s : State} {o : IntakeObs} (h0 : Keeps z0 s) : Keeps z0 (State.intakePassTwo s o) := by
  unfold State.intakePassTwo
  split
  · extract_lets -merge +onlyGivenNames v1
    have hv1 : Keeps z0 v1 := by
      unfold v1
      refine State.set_keeps ?_
      refine State.install_keeps ?_
      exact h0
    clear_value v1
    refine State.modBoot_keeps ?_ ?_
    · exact hv1
    · exact fun _ => ⟨rfl, rfl⟩
  · refine State.failSlot_keeps ?_
    exact h0

theorem State.intakeCheck_keeps {z0 : State} {s : State} (h0 : Keeps z0 s) : Keeps z0 (State.intakeCheck s) := by
  unfold State.intakeCheck
  refine Keeps.ite ?_ ?_
  · refine State.failSlot_keeps ?_
    exact h0
  · extract_lets -merge +onlyGivenNames v1 v2
    clear_value v1
    have hv2 : Keeps z0 v2 := by
      unfold v2
      refine State.each_keeps ?_ ?_
      · exact h0
      · intro s3 x4 x5
        refine State.modAx_keeps ?_
        exact x5
    clear_value v2
    refine State.modBoot_keeps ?_ ?_
    · refine State.set_keeps ?_
      exact hv2
    · exact fun _ => ⟨rfl, rfl⟩

theorem State.intakeEnd_keeps {z0 : State} {s : State} (h0 : Keeps z0 s) : Keeps z0 (State.intakeEnd s) := by
  unfold State.intakeEnd
  extract_lets -merge +onlyGivenNames v1 v2 v3 v4 v5 v6 v7 v8
  clear_value v1
  clear_value v2
  have hv3 : Keeps z0 v3 := by
    unfold v3
    refine State.setB_keeps ?_
    refine State.set_keeps ?_
    refine State.set_keeps ?_
    refine State.set_keeps ?_
    exact h0
  clear_value v3
  have hv4 : Keeps z0 v4 := by
    unfold v4
    refine State.set_keeps ?_
    refine State.setB_keeps ?_
    exact hv3
  clear_value v4
  have hv5 : Keeps z0 v5 := by
    unfold v5
    refine State.setB_keeps ?_
    exact hv4
  clear_value v5
  have hv6 : Keeps z0 v6 := by
    unfold v6
    refine State.schedStart_keeps ?_
    refine State.startEngines_keeps ?_
    refine State.modBoot_keeps ?_ ?_
    · exact hv5
    · exact fun _ => ⟨rfl, rfl⟩
  clear_value v6
  clear_value v7
  have hv8 : Keeps z0 v8 := by
    unfold v8
    refine State.startUnits_keeps ?_
    exact Keeps.frame hv6 rfl rfl rfl rfl rfl rfl rfl rfl rfl rfl
  clear_value v8
  extract_lets -merge +onlyGivenNames v10
  have hv10 : Keeps z0 v10 := by
    unfold v10
    refine State.tryRelease_keeps ?_
    exact hv8
  clear_value v10
  refine Keeps.ite ?_ ?_
  · refine State.modBoot_keeps ?_ ?_
    · refine State.enableGroup_keeps ?_
      exact hv10
    · exact fun _ => ⟨rfl, rfl⟩
  · exact hv10

theorem State.intakeLock_keeps {z0 : State} {s : State} {o : IntakeObs} (h0 : Keeps z0 s) : Keeps z0 (State.intakeLock s o) := by
  unfold State.intakeLock
  refine Keeps.ite ?_ ?_
  · refine State.failSlot_keeps ?_
    exact h0
  · refine State.intakeEnd_keeps ?_
    refine State.copyLimits_keeps ?_
    exact h0

theorem execIntakeStepDone_keeps {z0 : State} {o : IntakeObs} {s : State} (h0 : Keeps z0 s) : KeepsOut z0 (execIntakeStepDone o s) := by
  unfold execIntakeStepDone
  extract_lets -merge +onlyGivenNames v1
  clear_value v1
  refine KeepsOut.ite ?_ ?_
  · refine KeepsOut.next ?_
    exact h0
  · extract_lets -merge +onlyGivenNames v2 v3
    have hv2 : Keeps z0 v2 := by
      unfold v2
      refine State.passTo_keeps ?_
      exact h0
    clear_value v2
    clear_value v3
    extract_lets -merge +onlyGivenNames v4
    have hv4 : Keeps z0 v4 := by
      unfold v4
      refine Keeps.ite ?_ ?_
      · exact hv2.withArc
      · exact hv2
    clear_value v4
    refine KeepsOut.ite ?_ ?_
    · refine KeepsOut.next ?_
      refine State.intakeHalt_keeps ?_
      exact hv4
    · split
      · refine KeepsOut.next ?_
        refine State.intakeLinks_keeps ?_
        exact hv4
      · refine KeepsOut.next ?_
        refine State.modBoot_keeps ?_ ?_
        · exact hv4
        · exact fun _ => ⟨rfl, rfl⟩
      · refine KeepsOut.next ?_
        refine State.intakeDiscover_keeps ?_
        exact hv4
      · refine KeepsOut.next ?_
        refine Keeps.ite ?_ ?_
        · refine State.intakeHeaders_keeps ?_
          exact hv4
        · refine State.intakeHalt_keeps ?_
          exact hv4
      · refine KeepsOut.next ?_
        refine Keeps.ite ?_ ?_
        · refine State.intakePassOne_keeps ?_
          exact hv4
        · refine State.failSlot_keeps ?_
          exact hv4
      · refine KeepsOut.next ?_
        refine State.intakeSign_keeps ?_
        exact hv4
      · refine KeepsOut.next ?_
        refine Keeps.ite ?_ ?_
        · refine State.intakePassTwo_keeps ?_
          exact hv4
        · refine State.failSlot_keeps ?_
          exact hv4
      · refine KeepsOut.next ?_
        refine State.intakeCheck_keeps ?_
        exact hv4
      · refine KeepsOut.next ?_
        refine State.intakeLock_keeps ?_
        exact hv4

theorem execIntakeTimeout_keeps {z0 : State} {s : State} (h0 : Keeps z0 s) : KeepsOut z0 (execIntakeTimeout s) := by
  unfold execIntakeTimeout
  refine KeepsOut.ite ?_ ?_
  · refine KeepsOut.next ?_
    exact h0
  · refine KeepsOut.next ?_
    refine State.intakeHalt_keeps ?_
    refine State.passTo_keeps ?_
    exact h0

theorem State.updateEnd_keeps {z0 : State} {s : State} {code : Nat} (h0 : Keeps z0 s) : Keeps z0 (State.updateEnd s code) := by
  unfold State.updateEnd
  refine State.modBoot_keeps ?_ ?_
  · refine State.set_keeps ?_
    refine State.set_keeps ?_
    exact h0
  · exact fun _ => ⟨rfl, rfl⟩

theorem execFlashBurstTimeout_keeps {z0 : State} {s : State} (h0 : Keeps z0 s) : KeepsOut z0 (execFlashBurstTimeout s) := by
  unfold execFlashBurstTimeout
  refine KeepsOut.ite ?_ ?_
  · refine KeepsOut.next ?_
    exact h0
  · refine KeepsOut.ite ?_ ?_
    · refine KeepsOut.next ?_
      refine State.updateEnd_keeps ?_
      exact h0
    · split
      · refine KeepsOut.next ?_
        refine State.intakeHalt_keeps ?_
        exact h0
      · refine KeepsOut.next ?_
        refine State.intakeHalt_keeps ?_
        exact h0
      · refine KeepsOut.next ?_
        refine State.failSlot_keeps ?_
        exact h0
      · refine KeepsOut.next ?_
        refine State.failSlot_keeps ?_
        exact h0
      · refine KeepsOut.next ?_
        exact h0

theorem execFlashSupplyLimit_keeps {z0 : State} {s : State} (h0 : Keeps z0 s) : KeepsOut z0 (execFlashSupplyLimit s) := by
  unfold execFlashSupplyLimit
  refine KeepsOut.ite ?_ ?_
  · refine KeepsOut.next ?_
    exact h0
  · extract_lets -merge +onlyGivenNames v1
    have hv1 : Keeps z0 v1 := by
      unfold v1
      refine State.modBoot_keeps ?_ ?_
      · exact h0
      · exact fun _ => ⟨rfl, rfl⟩
    clear_value v1
    refine KeepsOut.next ?_
    refine Keeps.ite ?_ ?_
    · refine State.intakeHalt_keeps ?_
      exact hv1
    · refine Keeps.ite ?_ ?_
      · refine State.updateEnd_keeps ?_
        exact hv1
      · exact hv1

theorem State.startSlice_keeps {z0 : State} {s : State} {n : Slice} (h0 : Keeps z0 s) : Keeps z0 (State.startSlice s n) := by
  unfold State.startSlice
  extract_lets -merge +onlyGivenNames v1 v2 v3 v4 v5 v6
  clear_value v1
  have hv2 : Keeps z0 v2 := by
    unfold v2
    refine State.modAx_keeps ?_
    exact h0
  clear_value v2
  clear_value v3
  have hv4 : Keeps z0 v4 := by
    unfold v4
    refine State.modPwm_keeps ?_
    exact hv2
  clear_value v4
  have hv5 : Keeps z0 v5 := by
    unfold v5
    refine State.fbStart_keeps ?_
    refine State.modSense_keeps ?_
    exact hv4
  clear_value v5
  have hv6 : Keeps z0 v6 := by
    unfold v6
    refine State.each_keeps ?_ ?_
    · exact hv5
    · intro s7 x8 x9
      refine State.toReset_keeps ?_
      exact x9
  clear_value v6
  extract_lets -merge +onlyGivenNames v10
  have hv10 : Keeps z0 v10 := by
    unfold v10
    refine State.set_keeps ?_
    exact hv6
  clear_value v10
  refine State.modProf_keeps ?_
  exact hv10

theorem execSliceStart_keeps {z0 : State} {s : State} (h0 : Keeps z0 s) : KeepsOut z0 (execSliceStart s) := by
  unfold execSliceStart
  refine KeepsOut.ite ?_ ?_
  · refine KeepsOut.next ?_
    exact h0
  · split
    · refine KeepsOut.next ?_
      exact h0
    · refine KeepsOut.next ?_
      refine State.modBoot_keeps ?_ ?_
      · refine State.startSlice_keeps ?_
        exact h0
      · exact fun _ => ⟨rfl, rfl⟩

theorem State.holdState_keeps {z0 : State} {s : State} (h0 : Keeps z0 s) : Keeps z0 (State.holdState s) := by
  unfold State.holdState
  extract_lets -merge +onlyGivenNames v1
  have hv1 : Keeps z0 v1 := by
    unfold v1
    refine State.modBoot_keeps ?_ ?_
    · exact h0
    · exact fun _ => ⟨rfl, rfl⟩
  clear_value v1
  refine Keeps.ite ?_ ?_
  · refine State.setDev_keeps ?_
    refine State.intakeMs_keeps ?_
    exact hv1
  · exact hv1

theorem execFieldGroupEnable_keeps {z0 : State} {s : State} (h0 : Keeps z0 s) : KeepsOut z0 (execFieldGroupEnable s) := by
  unfold execFieldGroupEnable
  refine KeepsOut.ite ?_ ?_
  · refine KeepsOut.next ?_
    exact h0
  · split
    · refine KeepsOut.next ?_
      refine State.modFio_keeps ?_
      exact h0
    · refine KeepsOut.ite ?_ ?_
      · refine KeepsOut.next ?_
        exact h0
      · extract_lets -merge +onlyGivenNames v1 v2
        clear_value v1
        have hv2 : Keeps z0 v2 := by
          unfold v2
          refine State.modBoot_keeps ?_ ?_
          · refine State.enableGroup_keeps ?_
            exact h0
          · exact fun _ => ⟨rfl, rfl⟩
        clear_value v2
        refine KeepsOut.next ?_
        refine Keeps.ite ?_ ?_
        · refine State.holdState_keeps ?_
          exact hv2
        · exact hv2

/-! Bus -/

theorem State.busSample_keeps {z0 : State} {s : State} {k : Fin 4} {v : Nat} (h0 : Keeps z0 s) : Keeps z0 (State.busSample s k v) := by
  unfold State.busSample
  extract_lets -merge +onlyGivenNames v1 v2 v3
  have hv1 : Keeps z0 v1 := by
    unfold v1
    refine State.set_keeps ?_
    exact h0
  clear_value v1
  clear_value v2
  have hv3 : Keeps z0 v3 := by
    unfold v3
    refine State.putBit_keeps ?_
    exact hv1
  clear_value v3
  refine Keeps.ite ?_ ?_
  · exact hv3
  · refine State.modBus_keeps ?_
    exact hv3

theorem execChopperOn_keeps {z0 : State} {k : Fin 4} {v : Nat} {s : State} (h0 : Keeps z0 s) : KeepsOut z0 (execChopperOn k v s) := by
  unfold execChopperOn
  extract_lets -merge +onlyGivenNames v1
  have hv1 : Keeps z0 v1 := by
    unfold v1
    refine State.busSample_keeps ?_
    exact h0
  clear_value v1
  refine KeepsOut.ite ?_ ?_
  · refine KeepsOut.next ?_
    refine State.modBus_keeps ?_
    refine State.putBit_keeps ?_
    exact hv1
  · refine KeepsOut.next ?_
    exact hv1

theorem execChopperOff_keeps {z0 : State} {k : Fin 4} {v : Nat} {s : State} (h0 : Keeps z0 s) : KeepsOut z0 (execChopperOff k v s) := by
  unfold execChopperOff
  extract_lets -merge +onlyGivenNames v1
  have hv1 : Keeps z0 v1 := by
    unfold v1
    refine State.busSample_keeps ?_
    exact h0
  clear_value v1
  refine KeepsOut.ite ?_ ?_
  · refine KeepsOut.next ?_
    refine State.putBit_keeps ?_
    exact hv1
  · refine KeepsOut.next ?_
    exact hv1

theorem execChopperCheck_keeps {z0 : State} {k : Fin 4} {chi : Int} {v : Nat} {s : State} (h0 : Keeps z0 s) : KeepsOut z0 (execChopperCheck k chi v s) := by
  unfold execChopperCheck
  extract_lets -merge +onlyGivenNames v1
  have hv1 : Keeps z0 v1 := by
    unfold v1
    refine State.busSample_keeps ?_
    exact h0
  clear_value v1
  refine KeepsOut.ite ?_ ?_
  · extract_lets -merge +onlyGivenNames v2
    have hv2 : Keeps z0 v2 := by
      unfold v2
      refine State.modBus_keeps ?_
      exact hv1
    clear_value v2
    refine KeepsOut.ite ?_ ?_
    · refine KeepsOut.next ?_
      exact hv2
    · refine KeepsOut.next ?_
      refine State.raiseBus_keeps ?_
      refine State.bump_keeps ?_
      refine State.putBit_keeps ?_
      exact hv2
  · refine KeepsOut.next ?_
    exact hv1

theorem execRegenEntry_keeps {z0 : State} {k : Fin 4} {v : Nat} {s : State} (h0 : Keeps z0 s) : KeepsOut z0 (execRegenEntry k v s) := by
  unfold execRegenEntry
  extract_lets -merge +onlyGivenNames v1
  have hv1 : Keeps z0 v1 := by
    unfold v1
    refine State.busSample_keeps ?_
    exact h0
  clear_value v1
  refine KeepsOut.ite ?_ ?_
  · refine KeepsOut.next ?_
    refine State.raiseBus_keeps ?_
    refine State.putBit_keeps ?_
    exact hv1
  · refine KeepsOut.next ?_
    exact hv1

theorem execRegenRelease_keeps {z0 : State} {k : Fin 4} {v : Nat} {s : State} (h0 : Keeps z0 s) : KeepsOut z0 (execRegenRelease k v s) := by
  unfold execRegenRelease
  extract_lets -merge +onlyGivenNames v1
  have hv1 : Keeps z0 v1 := by
    unfold v1
    refine State.busSample_keeps ?_
    exact h0
  clear_value v1
  refine KeepsOut.ite ?_ ?_
  · refine KeepsOut.next ?_
    refine State.putBit_keeps ?_
    exact hv1
  · refine KeepsOut.next ?_
    exact hv1

theorem execActiveShortEntry_keeps {z0 : State} {k : Fin 4} {v : Nat} {s : State} (h0 : Keeps z0 s) : KeepsOut z0 (execActiveShortEntry k v s) := by
  unfold execActiveShortEntry
  extract_lets -merge +onlyGivenNames v1
  have hv1 : Keeps z0 v1 := by
    unfold v1
    refine State.busSample_keeps ?_
    exact h0
  clear_value v1
  refine KeepsOut.ite ?_ ?_
  · refine KeepsOut.next ?_
    refine State.raiseBus_keeps ?_
    refine State.bump_keeps ?_
    refine State.putBit_keeps ?_
    exact hv1
  · refine KeepsOut.next ?_
    exact hv1

theorem execActiveShortRelease_keeps {z0 : State} {k : Fin 4} {v : Nat} {s : State} (h0 : Keeps z0 s) : KeepsOut z0 (execActiveShortRelease k v s) := by
  unfold execActiveShortRelease
  extract_lets -merge +onlyGivenNames v1
  have hv1 : Keeps z0 v1 := by
    unfold v1
    refine State.busSample_keeps ?_
    exact h0
  clear_value v1
  refine KeepsOut.ite ?_ ?_
  · refine KeepsOut.next ?_
    refine State.putBit_keeps ?_
    exact hv1
  · refine KeepsOut.next ?_
    exact hv1

theorem execBusAbsEntry_keeps {z0 : State} {k : Fin 4} {v : Nat} {s : State} (h0 : Keeps z0 s) : KeepsOut z0 (execBusAbsEntry k v s) := by
  unfold execBusAbsEntry
  extract_lets -merge +onlyGivenNames v1
  have hv1 : Keeps z0 v1 := by
    unfold v1
    refine State.busSample_keeps ?_
    exact h0
  clear_value v1
  refine KeepsOut.ite ?_ ?_
  · refine KeepsOut.next ?_
    refine State.raiseBus_keeps ?_
    refine State.bump_keeps ?_
    refine State.putBit_keeps ?_
    exact hv1
  · refine KeepsOut.next ?_
    exact hv1

theorem execBusAbsRelease_keeps {z0 : State} {k : Fin 4} {v : Nat} {s : State} (h0 : Keeps z0 s) : KeepsOut z0 (execBusAbsRelease k v s) := by
  unfold execBusAbsRelease
  extract_lets -merge +onlyGivenNames v1
  have hv1 : Keeps z0 v1 := by
    unfold v1
    refine State.busSample_keeps ?_
    exact h0
  clear_value v1
  refine KeepsOut.ite ?_ ?_
  · refine KeepsOut.next ?_
    refine State.putBit_keeps ?_
    exact hv1
  · refine KeepsOut.next ?_
    exact hv1

theorem execBackstop_keeps {z0 : State} {k : Fin 4} {s : State} (h0 : Keeps z0 s) : KeepsOut z0 (execBackstop k s) := by
  unfold execBackstop
  refine KeepsOut.ite ?_ ?_
  · extract_lets -merge +onlyGivenNames v1 v2 v3
    have hv1 : Keeps z0 v1 := by
      unfold v1
      refine State.set_keeps ?_
      exact h0
    clear_value v1
    have hv2 : Keeps z0 v2 := by
      unfold v2
      refine State.bump_keeps ?_
      exact hv1
    clear_value v2
    have hv3 : Keeps z0 v3 := by
      unfold v3
      refine State.openSwitches_keeps ?_
      exact hv2
    clear_value v3
    refine KeepsOut.next ?_
    refine State.raiseMod_keeps ?_
    exact hv3
  · refine KeepsOut.next ?_
    exact h0

theorem execBackstopEnd_keeps {z0 : State} {s : State} (h0 : Keeps z0 s) : KeepsOut z0 (execBackstopEnd s) := by
  unfold execBackstopEnd
  refine KeepsOut.ite ?_ ?_
  · refine KeepsOut.next ?_
    refine State.tryRelease_keeps ?_
    refine State.fbUpdate_keeps ?_
    refine State.set_keeps ?_
    exact h0
  · refine KeepsOut.next ?_
    exact h0

theorem execBusuv_keeps {z0 : State} {k : Fin 4} {s : State} (h0 : Keeps z0 s) : KeepsOut z0 (execBusuv k s) := by
  unfold execBusuv
  refine KeepsOut.ite ?_ ?_
  · extract_lets -merge +onlyGivenNames v1
    have hv1 : Keeps z0 v1 := by
      unfold v1
      refine State.putBit_keeps ?_
      exact h0
    clear_value v1
    refine KeepsOut.next ?_
    refine State.raiseBus_keeps ?_
    refine State.modBus_keeps ?_
    exact hv1
  · refine KeepsOut.next ?_
    exact h0

/-! Faults -/

theorem State.loseHalf_keeps {z0 : State} {s : State} {r : FaultRec} (h0 : Keeps z0 s) : Keeps z0 (State.loseHalf s r) := by
  unfold State.loseHalf
  extract_lets -merge +onlyGivenNames v1
  clear_value v1
  refine State.set_keeps ?_
  exact h0

theorem State.markHalves_keeps {z0 : State} {l : List FaultRec} : ∀ {s : State}, Keeps z0 s → KeepsP z0 (State.markHalves s l) := by
  induction l with
  | nil => intro s h; exact h
  | cons r t ih =>
    intro s h
    unfold State.markHalves
    split
    · exact KeepsP.mk (ih (State.loseHalf_keeps h))
    · exact KeepsP.mk (ih h)

theorem State.latchRec_keeps {z0 : State} {s : State} {r : FaultRec} {half : Bool} (h0 : Keeps z0 s) : Keeps z0 (State.latchRec s r half) := by
  unfold State.latchRec
  refine Keeps.ite ?_ ?_
  · exact h0
  · extract_lets -merge +onlyGivenNames v1 v2 v3
    clear_value v1
    clear_value v2
    clear_value v3
    exact Keeps.frame h0 rfl rfl rfl rfl rfl rfl rfl rfl rfl rfl

theorem State.react_keeps {z0 : State} {s : State} {sev : Nat} {n : Slice} (h0 : Keeps z0 s) : Keeps z0 (State.react s sev n) := by
  unfold State.react
  refine Keeps.ite ?_ ?_
  · exact h0
  · refine Keeps.ite ?_ ?_
    · refine State.reactF2_keeps ?_
      exact h0
    · refine State.reactF3_keeps ?_
      exact h0

theorem State.logGroup_keeps {z0 : State} {s : State} {pre : FaultRec → Bool} {a : Nat} {a3 : List FaultRec} (h0 : Keeps z0 s) : Keeps z0 (State.logGroup s pre a a3) := by
  unfold State.logGroup
  split
  · exact h0
  · split
    · exact h0
    · refine State.logGroup_keeps ?_
      refine State.logFault_keeps ?_
      exact h0

theorem State.logAll_keeps {z0 : State} {s : State} {pre : FaultRec → Bool} {a : Nat} {a3 : List FaultRec} (h0 : Keeps z0 s) : Keeps z0 (State.logAll s pre a a3) := by
  unfold State.logAll
  split
  · exact h0
  · split
    · exact h0
    · extract_lets -merge +onlyGivenNames v1
      clear_value v1
      split
      extract_lets -merge +onlyGivenNames v2 v3
      have hv2 : Keeps z0 v2 := by
        unfold v2
        refine State.logGroup_keeps ?_
        exact h0
      clear_value v2
      have hv3 : Keeps z0 v3 := by
        unfold v3
        refine State.each_keeps ?_ ?_
        · exact hv2
        · intro s4 x5 x6
          refine State.logFault_keeps ?_
          exact x6
      clear_value v3
      refine State.logAll_keeps ?_
      exact hv3

theorem State.takeRecords_keeps {z0 : State} {s : State} {recs : List FaultRec} (h0 : Keeps z0 s) : Keeps z0 (State.takeRecords s recs) := by
  unfold State.takeRecords
  split
  rename_i s1 y2 y3
  have h4 : Keeps z0 s1 := by
    refine KeepsP.of_eq y3 ?_
    refine State.markHalves_keeps ?_
    exact h0
  extract_lets -merge +onlyGivenNames v5 v6 v7 v8 v9 v10 v11
  clear_value v5
  clear_value v6
  clear_value v7
  clear_value v8
  have hv9 : Keeps z0 v9 := by
    unfold v9
    refine State.each_keeps ?_ ?_
    · exact h4
    · intro s12 x13 x14
      refine State.latchRec_keeps ?_
      exact x14
  clear_value v9
  have hv10 : Keeps z0 v10 := by
    unfold v10
    refine State.each_keeps ?_ ?_
    · exact hv9
    · intro s15 x16 x17
      refine State.react_keeps ?_
      exact x17
  clear_value v10
  have hv11 : Keeps z0 v11 := by
    unfold v11
    refine State.logAll_keeps ?_
    exact hv10
  clear_value v11
  refine Keeps.ite ?_ ?_
  · refine State.enterHalt_keeps ?_
    exact hv11
  · refine Keeps.ite ?_ ?_
    · refine State.freeLevels_keeps ?_
      refine State.setDev_keeps ?_
      exact hv11
    · exact hv11

theorem execFaultRecord_keeps {z0 : State} {records : List FaultSpec} {s : State} (h0 : Keeps z0 s) : KeepsOut z0 (execFaultRecord records s) := by
  unfold execFaultRecord
  refine KeepsOut.ite ?_ ?_
  · refine KeepsOut.next ?_
    exact h0
  · extract_lets -merge +onlyGivenNames v1
    clear_value v1
    refine KeepsOut.next ?_
    refine State.takeRecords_keeps ?_
    exact Keeps.frame h0 rfl rfl rfl rfl rfl rfl rfl rfl rfl rfl

theorem State.clearScope_keeps {z0 : State} {s : State} {skind : Nat} {sindex : Nat} (h0 : Keeps z0 s) : Keeps z0 (State.clearScope s skind sindex) := by
  unfold State.clearScope
  refine Keeps.ite ?_ ?_
  · refine State.clearAxis_keeps ?_
    exact h0
  · extract_lets -merge +onlyGivenNames v1 v2 v3
    clear_value v1
    have hv2 : Keeps z0 v2 := by
      unfold v2
      refine Keeps.ite ?_ ?_
      · refine State.dropLatched_keeps ?_
        exact h0
      · exact h0
    clear_value v2
    have hv3 : Keeps z0 v3 := by
      unfold v3
      refine Keeps.ite ?_ ?_
      · refine State.set_keeps ?_
        exact hv2
      · exact hv2
    clear_value v3
    refine State.clearResult_keeps ?_
    exact hv3

theorem execFltClear_keeps {z0 : State} {skind : Nat} {sindex : Nat} {s : State} (h0 : Keeps z0 s) : KeepsOut z0 (execFltClear skind sindex s) := by
  unfold execFltClear
  refine KeepsOut.next ?_
  refine Keeps.ite ?_ ?_
  · refine State.clearScope_keeps ?_
    exact h0
  · exact h0

/-! Update -/

theorem State.drawBytes_keeps {z0 : State} {s : State} {a : Nat} (h0 : Keeps z0 s) : KeepsP z0 (State.drawBytes s a) := by
  unfold State.drawBytes
  split
  · refine KeepsP.mk ?_
    exact h0
  · split
    rename_i s1 y2 y3
    have h4 : Keeps z0 s1 := by
      refine KeepsP.of_eq y3 ?_
      refine State.drawBytes_keeps ?_
      refine State.drawn_keeps ?_
      exact h0
    refine KeepsP.mk ?_
    exact h4

theorem State.heldNotice_keeps {z0 : State} {s : State} {a : Nat} (h0 : Keeps z0 s) : Keeps z0 (State.heldNotice s a) := by
  unfold State.heldNotice
  refine State.raiseMod_keeps ?_
  exact h0

theorem State.updBegin_keeps {z0 : State} {s : State} {cmd : Nat} {slot : Nat} {off : Nat} {pages : Nat} (h0 : Keeps z0 s) : Keeps z0 (State.updBegin s cmd slot off pages) := by
  unfold State.updBegin
  refine State.modBoot_keeps ?_ ?_
  · refine State.set_keeps ?_
    exact h0
  · exact fun _ => ⟨rfl, rfl⟩

theorem State.update_keeps {z0 : State} {s : State} {cmd : Nat} {slot : Nat} {off : Nat} {pages : Nat} (h0 : Keeps z0 s) : Keeps z0 (State.update s cmd slot off pages) := by
  unfold State.update
  refine Keeps.ite ?_ ?_
  · refine State.heldNotice_keeps ?_
    exact h0
  · split
    · refine State.updBegin_keeps ?_
      exact h0
    · refine State.updateEnd_keeps ?_
      exact h0

theorem State.updStop_keeps {z0 : State} {s : State} (h0 : Keeps z0 s) : Keeps z0 (State.updStop s) := by
  unfold State.updStop
  refine Keeps.ite ?_ ?_
  · refine State.heldNotice_keeps ?_
    exact h0
  · refine Keeps.ite ?_ ?_
    · refine State.updateEnd_keeps ?_
      exact h0
    · refine Keeps.ite ?_ ?_
      · refine State.modBoot_keeps ?_ ?_
        · exact h0
        · exact fun _ => ⟨rfl, rfl⟩
      · exact h0

theorem State.endErase_keeps {z0 s : State} {whole : Bool} (h0 : Keeps z0 s) : Keeps z0 (State.endErase s whole) := by
  unfold State.endErase
  split
  · exact State.setFlash_keeps h0 fun _ => rfl
  · exact State.setFlash_keeps (State.drawn_keeps h0) fun i => Flash.wf_filter (Inv.flash (s := s.drawn) i _)

theorem State.endProgram_keeps {z0 s : State} {whole failed : Bool} (h0 : Keeps z0 s) : Keeps z0 (State.endProgram s whole failed) := by
  unfold State.endProgram
  extract_lets +onlyGivenNames k o n
  split
  · exact State.setFlash_keeps h0 fun i => Flash.wf_flashProgram (i.flash k)
  extract_lets +onlyGivenNames done m
  have hm : Inv z0 → Flash.wf m = true := fun i => Flash.wf_flashProgram ((h0.2 i).flash k)
  clear_value m
  have put : ∀ (u : State) (l : List Host.Cell), Keeps z0 u → (Inv z0 → Flash.wf l = true) → Keeps z0 (u.setFlash k l) := fun u l hu hl =>
    ⟨hu.1, fun i => (State.setFlash_keeps (Keeps.refl u) fun _ => hl i).2 (hu.2 i)⟩
  split
  · split
    rename_i s1 l e
    exact put s1 _ (KeepsP.of_eq e (State.drawBytes_keeps (State.drawn_keeps h0))) fun i => Flash.wf_flashProgram (hm i)
  · exact put s.drawn m (State.drawn_keeps h0) hm

theorem State.endVerify_keeps {z0 s : State} {flashOk : Bool} (h0 : Keeps z0 s) : Keeps z0 (State.endVerify s flashOk) := by
  unfold State.endVerify
  extract_lets +onlyGivenNames k m
  have hm : Inv z0 → Flash.wf m = true := fun i => (h0.2 i).flash k
  clear_value m
  have put : ∀ (u : State) (l : List Host.Cell), Keeps z0 u → (Inv z0 → Flash.wf l = true) → Keeps z0 (u.setFlash k l) := fun u l hu hl =>
    ⟨hu.1, fun i => (State.setFlash_keeps (Keeps.refl u) fun _ => hl i).2 (hu.2 i)⟩
  split
  · extract_lets +onlyGivenNames n
    split
    · exact State.updateEnd_keeps (put s n h0 fun i => Flash.wf_flashProgram (hm i))
    · split
      rename_i s1 l e
      exact State.updateEnd_keeps (put s1 _ (KeepsP.of_eq e (State.drawBytes_keeps h0)) fun i => Flash.wf_flashProgram (hm i))
  · exact State.updateEnd_keeps h0

theorem State.endRetire_keeps {z0 s : State} {flashOk : Bool} (h0 : Keeps z0 s) : Keeps z0 (State.endRetire s flashOk) := by
  unfold State.endRetire
  extract_lets +onlyGivenNames k n
  have hn : Inv s → Flash.wf n = true := fun i => Flash.wf_flashProgram (i.flash k)
  split
  · exact State.updateEnd_keeps (State.setFlash_keeps h0 hn)
  split
  · exact State.updateEnd_keeps (State.drawn_keeps h0)
  · exact State.updateEnd_keeps (State.setFlash_keeps (State.drawn_keeps h0) fun i => Flash.wf_flashProgram (Inv.flash (s := s.drawn) i k))

theorem State.setKeyHash_keeps {z0 : State} {s : State} {l : List Nat} (h0 : Keeps z0 s) : Keeps z0 (State.setKeyHash s l) := by
  unfold State.setKeyHash
  refine State.each_keeps ?_ ?_
  · exact h0
  · intro s1 x2 x3
    refine State.set_keeps ?_
    exact x3

theorem State.endFuse_keeps {z0 : State} {s : State} {flashOk : Bool} (h0 : Keeps z0 s) : Keeps z0 (State.endFuse s flashOk) := by
  unfold State.endFuse
  extract_lets -merge +onlyGivenNames v1
  clear_value v1
  refine Keeps.ite ?_ ?_
  · refine State.updateEnd_keeps ?_
    refine State.setKeyHash_keeps ?_
    exact h0
  · split
    rename_i s2 y3 y4
    have h5 : Keeps z0 s2 := by
      refine KeepsP.of_eq y4 ?_
      refine State.drawBytes_keeps ?_
      exact h0
    refine State.updateEnd_keeps ?_
    refine State.setKeyHash_keeps ?_
    exact h5

theorem State.endAborted_keeps {z0 : State} {s : State} (h0 : Keeps z0 s) : Keeps z0 (State.endAborted s) := by
  unfold State.endAborted
  extract_lets -merge +onlyGivenNames v1
  have hv1 : Keeps z0 v1 := by
    unfold v1
    refine State.drawn_keeps ?_
    refine State.set_keeps ?_
    exact h0
  clear_value v1
  refine State.modBoot_keeps ?_ ?_
  · refine State.drawn_keeps ?_
    refine State.set_keeps ?_
    exact hv1
  · exact fun _ => ⟨rfl, rfl⟩

theorem execImageUpdateComplete_keeps {z0 : State} {flashOk : Bool} {s : State} (h0 : Keeps z0 s) : KeepsOut z0 (execImageUpdateComplete flashOk s) := by
  unfold execImageUpdateComplete
  refine KeepsOut.ite ?_ ?_
  · refine KeepsOut.next ?_
    exact h0
  · extract_lets -merge +onlyGivenNames v1
    clear_value v1
    split
    · refine KeepsOut.next ?_
      refine Keeps.ite ?_ ?_
      · refine State.updateEnd_keeps ?_
        refine State.endErase_keeps ?_
        exact h0
      · refine Keeps.ite ?_ ?_
        · refine State.endAborted_keeps ?_
          refine State.endErase_keeps ?_
          exact h0
        · refine State.updateEnd_keeps ?_
          refine State.endErase_keeps ?_
          exact h0
    · refine KeepsOut.next ?_
      refine Keeps.ite ?_ ?_
      · refine State.updateEnd_keeps ?_
        refine State.endProgram_keeps ?_
        exact h0
      · refine Keeps.ite ?_ ?_
        · refine State.endAborted_keeps ?_
          refine State.endProgram_keeps ?_
          exact h0
        · refine State.updateEnd_keeps ?_
          refine State.endProgram_keeps ?_
          exact h0
    · refine KeepsOut.next ?_
      refine Keeps.ite ?_ ?_
      · refine State.endAborted_keeps ?_
        exact h0
      · refine State.endVerify_keeps ?_
        exact h0
    · refine KeepsOut.next ?_
      refine State.endRetire_keeps ?_
      exact h0
    · refine KeepsOut.next ?_
      refine State.endFuse_keeps ?_
      exact h0
    · refine KeepsOut.next ?_
      exact h0

theorem execErase_keeps {z0 : State} {slot : Fin 2} {s : State} (h0 : Keeps z0 s) : KeepsOut z0 (execErase slot s) := by
  unfold execErase
  refine KeepsOut.next ?_
  refine State.update_keeps ?_
  exact h0

theorem execProgram_keeps {z0 : State} {slot : Fin 2} {offset : Nat} {pages : Nat} {s : State} (h0 : Keeps z0 s) : KeepsOut z0 (execProgram slot offset pages s) := by
  unfold execProgram
  refine KeepsOut.next ?_
  refine State.update_keeps ?_
  exact h0

theorem execVerify_keeps {z0 : State} {slot : Fin 2} {s : State} (h0 : Keeps z0 s) : KeepsOut z0 (execVerify slot s) := by
  unfold execVerify
  refine KeepsOut.next ?_
  refine State.update_keeps ?_
  exact h0

theorem execRetire_keeps {z0 : State} {s : State} (h0 : Keeps z0 s) : KeepsOut z0 (execRetire s) := by
  unfold execRetire
  refine KeepsOut.next ?_
  refine State.update_keeps ?_
  exact h0

theorem execKeyfuse_keeps {z0 : State} {s : State} (h0 : Keeps z0 s) : KeepsOut z0 (execKeyfuse s) := by
  unfold execKeyfuse
  refine KeepsOut.next ?_
  refine State.update_keeps ?_
  exact h0

theorem execAbort_keeps {z0 : State} {s : State} (h0 : Keeps z0 s) : KeepsOut z0 (execAbort s) := by
  unfold execAbort
  refine KeepsOut.next ?_
  refine State.updStop_keeps ?_
  exact h0

end Sys2Proof.Machine
end

