-- ==== Sys2Proof/Laws/Keeps8.lean ====
section
/-!
SUPPORT. Laws/Keeps8.lean: what the operations and the meanings of Machine/Ptp, PipFlow, RegWrite, Links, HostProtocol keep (Laws/Keeps.lean).
-/

namespace Sys2Proof.Machine

/-! Ptp -/

theorem State.servo_keeps {z0 : State} {s : State} {ofs : Int} {present : Bool} (h0 : Keeps z0 s) : Keeps z0 (State.servo s ofs present) := by
  unfold State.servo
  extract_lets -merge +onlyGivenNames v1 v2 v3 v4 v5
  have hv1 : Keeps z0 v1 := by
    unfold v1
    refine Keeps.ite ?_ ?_
    · refine Keeps.ite ?_ ?_
      · refine State.stepBy_keeps ?_
        exact h0
      · refine State.setRate_keeps ?_
        exact h0
    · refine State.drawn_keeps ?_
      refine State.setRate_keeps ?_
      exact h0
  clear_value v1
  clear_value v2
  clear_value v4
  have hv5 : Keeps z0 v5 := by
    unfold v5
    refine State.modTime_keeps ?_
    exact hv1
  clear_value v5
  refine Keeps.ite ?_ ?_
  · refine Keeps.ite ?_ ?_
    · refine State.loseLock_keeps ?_
      exact hv5
    · exact hv5
  · refine Keeps.ite ?_ ?_
    · refine State.setLock_keeps ?_
      exact hv5
    · exact hv5

theorem execSyncReceived_keeps {z0 : State} {r : SyncRec} {s : State} (h0 : Keeps z0 s) : KeepsOut z0 (execSyncReceived r s) := by
  unfold execSyncReceived
  refine KeepsOut.ite ?_ ?_
  · refine KeepsOut.next ?_
    exact h0
  · extract_lets -merge +onlyGivenNames v1 v2 v3 v4 v5 v6
    clear_value v1
    clear_value v2
    clear_value v3
    clear_value v4
    have hv5 : Keeps z0 v5 := by
      unfold v5
      refine State.setS_keeps ?_
      exact h0
    clear_value v5
    have hv6 : Keeps z0 v6 := by
      unfold v6
      refine State.modTime_keeps ?_
      exact hv5
    clear_value v6
    refine KeepsOut.ite ?_ ?_
    · refine KeepsOut.next ?_
      exact hv6
    · refine KeepsOut.next ?_
      refine State.servo_keeps ?_
      exact hv6

theorem execAnnounceReceived_keeps {z0 : State} {r : AnnounceRec} {s : State} (h0 : Keeps z0 s) : KeepsOut z0 (execAnnounceReceived r s) := by
  unfold execAnnounceReceived
  refine KeepsOut.ite ?_ ?_
  · refine KeepsOut.next ?_
    exact h0
  · extract_lets -merge +onlyGivenNames v1 v2
    clear_value v1
    have hv2 : Keeps z0 v2 := by
      unfold v2
      refine State.modTime_keeps ?_
      exact h0
    clear_value v2
    refine KeepsOut.next ?_
    refine State.chooseMaster_keeps ?_
    exact hv2

theorem State.setDelay_keeps {z0 : State} {s : State} {p : Fin 2} {d : Int} (h0 : Keeps z0 s) : Keeps z0 (State.setDelay s p d) := by
  unfold State.setDelay
  extract_lets -merge +onlyGivenNames v1
  have hv1 : Keeps z0 v1 := by
    unfold v1
    refine State.modTime_keeps ?_
    exact h0
  clear_value v1
  refine Keeps.ite ?_ ?_
  · refine State.set_keeps ?_
    exact hv1
  · exact hv1

theorem execDelayMessageReceived_keeps {z0 : State} {r : DelayRec} {s : State} (h0 : Keeps z0 s) : KeepsOut z0 (execDelayMessageReceived r s) := by
  unfold execDelayMessageReceived
  refine KeepsOut.ite ?_ ?_
  · refine KeepsOut.next ?_
    exact h0
  · split
    · refine KeepsOut.ite ?_ ?_
      · refine KeepsOut.next ?_
        exact h0
      · extract_lets -merge +onlyGivenNames v1
        clear_value v1
        refine KeepsOut.next ?_
        refine State.setDelay_keeps ?_
        exact h0
    · refine KeepsOut.ite ?_ ?_
      · refine KeepsOut.next ?_
        exact h0
      · extract_lets -merge +onlyGivenNames v2
        clear_value v2
        refine KeepsOut.next ?_
        refine State.setDelay_keeps ?_
        exact h0
    · refine KeepsOut.ite ?_ ?_
      · refine KeepsOut.next ?_
        exact h0
      · refine KeepsOut.next ?_
        refine State.send_keeps ?_
        exact h0
    · refine KeepsOut.ite ?_ ?_
      · refine KeepsOut.next ?_
        exact h0
      · refine KeepsOut.next ?_
        refine State.send_keeps ?_
        exact h0

theorem execPtpMessageInterval_keeps {z0 : State} {p : Fin 2} {kind : PtpInterval} {s : State} (h0 : Keeps z0 s) : KeepsOut z0 (execPtpMessageInterval p kind s) := by
  unfold execPtpMessageInterval
  refine KeepsOut.ite ?_ ?_
  · refine KeepsOut.next ?_
    exact h0
  · split
    · refine KeepsOut.ite ?_ ?_
      · refine KeepsOut.next ?_
        exact h0
      · extract_lets -merge +onlyGivenNames v1
        clear_value v1
        refine KeepsOut.ite ?_ ?_
        · refine KeepsOut.next ?_
          refine State.send_keeps ?_
          refine State.send_keeps ?_
          exact h0
        · refine KeepsOut.next ?_
          refine State.send_keeps ?_
          exact h0
    · refine KeepsOut.next ?_
      refine Keeps.ite ?_ ?_
      · refine State.send_keeps ?_
        exact h0
      · exact h0
    · refine KeepsOut.ite ?_ ?_
      · refine KeepsOut.next ?_
        refine State.send_keeps ?_
        exact h0
      · refine KeepsOut.ite ?_ ?_
        · refine KeepsOut.next ?_
          exact h0
        · refine KeepsOut.next ?_
          refine State.send_keeps ?_
          exact h0

theorem execSyncTimeout_keeps {z0 : State} {s : State} (h0 : Keeps z0 s) : KeepsOut z0 (execSyncTimeout s) := by
  unfold execSyncTimeout
  refine KeepsOut.ite ?_ ?_
  · refine KeepsOut.next ?_
    exact h0
  · refine KeepsOut.next ?_
    refine State.loseLock_keeps ?_
    exact h0

theorem execAnnounceTimeout_keeps {z0 : State} {s : State} (h0 : Keeps z0 s) : KeepsOut z0 (execAnnounceTimeout s) := by
  unfold execAnnounceTimeout
  refine KeepsOut.ite ?_ ?_
  · refine KeepsOut.next ?_
    exact h0
  · split
    · refine KeepsOut.next ?_
      refine Keeps.ite ?_ ?_
      · refine State.becomeMaster_keeps ?_
        exact h0
      · exact h0
    · extract_lets -merge +onlyGivenNames v1 v2
      have hv1 : Keeps z0 v1 := by
        unfold v1
        refine State.modTime_keeps ?_
        exact h0
      clear_value v1
      have hv2 : Keeps z0 v2 := by
        unfold v2
        refine State.loseLock_keeps ?_
        exact hv1
      clear_value v2
      refine KeepsOut.next ?_
      refine Keeps.ite ?_ ?_
      · refine State.becomeMaster_keeps ?_
        exact hv2
      · refine State.chooseMaster_keeps ?_
        exact hv2

theorem execTimedrift_keeps {z0 : State} {s : State} (h0 : Keeps z0 s) : KeepsOut z0 (execTimedrift s) := by
  unfold execTimedrift
  refine KeepsOut.ite ?_ ?_
  · refine KeepsOut.next ?_
    exact h0
  · refine KeepsOut.next ?_
    refine State.raiseMod_keeps ?_
    refine State.modTime_keeps ?_
    refine State.set_keeps ?_
    exact h0

theorem State.adjust_keeps {z0 : State} {s : State} {ofs : Int} (h0 : Keeps z0 s) : Keeps z0 (State.adjust s ofs) := by
  unfold State.adjust
  refine Keeps.ite ?_ ?_
  · refine State.stepBy_keeps ?_
    exact h0
  · refine State.heldWrite_keeps ?_
    exact h0

theorem execPtpAdj_keeps {z0 : State} {ofs : Int} {s : State} (h0 : Keeps z0 s) : KeepsOut z0 (execPtpAdj ofs s) := by
  unfold execPtpAdj
  refine KeepsOut.next ?_
  refine State.adjust_keeps ?_
  exact h0

theorem State.stageSec_keeps {z0 : State} {s : State} {sec : Nat} (h0 : Keeps z0 s) : Keeps z0 (State.stageSec s sec) := by
  unfold State.stageSec
  refine Keeps.ite ?_ ?_
  · refine State.stage_keeps ?_
    exact h0
  · refine State.heldWrite_keeps ?_
    exact h0

theorem execPtpSetsec_keeps {z0 : State} {sec : Nat} {s : State} (h0 : Keeps z0 s) : KeepsOut z0 (execPtpSetsec sec s) := by
  unfold execPtpSetsec
  refine KeepsOut.next ?_
  refine State.stageSec_keeps ?_
  exact h0

theorem execNsCarry_keeps {z0 : State} {s : State} (h0 : Keeps z0 s) : KeepsOut z0 (execNsCarry s) := by
  unfold execNsCarry
  refine KeepsOut.ite ?_ ?_
  · refine KeepsOut.next ?_
    exact h0
  · extract_lets -merge +onlyGivenNames v1
    have hv1 : Keeps z0 v1 := by
      unfold v1
      refine State.clockTo_keeps ?_
      exact h0
    clear_value v1
    split
    · refine KeepsOut.next ?_
      refine State.stepClock_keeps ?_
      refine State.unstage_keeps ?_
      exact hv1
    · refine KeepsOut.next ?_
      exact hv1

theorem execSyncInEdge_keeps {z0 : State} {stamp : Stamp} {s : State} (h0 : Keeps z0 s) : KeepsOut z0 (execSyncInEdge stamp s) := by
  unfold execSyncInEdge
  refine KeepsOut.ite ?_ ?_
  · refine KeepsOut.next ?_
    exact h0
  · extract_lets -merge +onlyGivenNames v1
    have hv1 : Keeps z0 v1 := by
      unfold v1
      refine State.set_keeps ?_
      refine State.set_keeps ?_
      exact h0
    clear_value v1
    refine KeepsOut.ite ?_ ?_
    · refine KeepsOut.next ?_
      exact hv1
    · extract_lets -merge +onlyGivenNames v2 v3 v4 v5
      clear_value v2
      clear_value v3
      clear_value v4
      have hv5 : Keeps z0 v5 := by
        unfold v5
        refine State.modTime_keeps ?_
        exact hv1
      clear_value v5
      refine KeepsOut.next ?_
      refine State.servo_keeps ?_
      exact hv5

theorem State.sourceLost_keeps {z0 : State} {s : State} (h0 : Keeps z0 s) : Keeps z0 (State.sourceLost s) := by
  unfold State.sourceLost
  extract_lets -merge +onlyGivenNames v1
  have hv1 : Keeps z0 v1 := by
    unfold v1
    refine State.modTime_keeps ?_
    exact h0
  clear_value v1
  refine Keeps.ite ?_ ?_
  · refine State.loseLock_keeps ?_
    exact hv1
  · exact hv1

theorem execSyncInMissing_keeps {z0 : State} {s : State} (h0 : Keeps z0 s) : KeepsOut z0 (execSyncInMissing s) := by
  unfold execSyncInMissing
  extract_lets -merge +onlyGivenNames v1
  have hv1 : Keeps z0 v1 := by
    unfold v1
    refine State.set_keeps ?_
    exact h0
  clear_value v1
  refine KeepsOut.ite ?_ ?_
  · refine KeepsOut.next ?_
    refine State.sourceLost_keeps ?_
    exact hv1
  · refine KeepsOut.next ?_
    exact hv1

theorem execRefInLoss_keeps {z0 : State} {s : State} (h0 : Keeps z0 s) : KeepsOut z0 (execRefInLoss s) := by
  unfold execRefInLoss
  extract_lets -merge +onlyGivenNames v1
  have hv1 : Keeps z0 v1 := by
    unfold v1
    refine State.set_keeps ?_
    exact h0
  clear_value v1
  refine KeepsOut.ite ?_ ?_
  · refine KeepsOut.next ?_
    refine State.sourceLost_keeps ?_
    exact hv1
  · refine KeepsOut.next ?_
    exact hv1

theorem execRefGate_keeps {z0 : State} {count : Nat} {s : State} (h0 : Keeps z0 s) : KeepsOut z0 (execRefGate count s) := by
  unfold execRefGate
  refine KeepsOut.ite ?_ ?_
  · refine KeepsOut.next ?_
    exact h0
  · extract_lets -merge +onlyGivenNames v1
    have hv1 : Keeps z0 v1 := by
      unfold v1
      refine State.set_keeps ?_
      exact h0
    clear_value v1
    refine KeepsOut.ite ?_ ?_
    · refine KeepsOut.next ?_
      exact hv1
    · extract_lets -merge +onlyGivenNames v2 v3
      clear_value v2
      have hv3 : Keeps z0 v3 := by
        unfold v3
        refine State.setRate_keeps ?_
        exact hv1
      clear_value v3
      refine KeepsOut.ite ?_ ?_
      · refine KeepsOut.next ?_
        exact hv3
      · extract_lets -merge +onlyGivenNames v4 v5
        have hv5 : Keeps z0 v5 := by
          unfold v5
          refine State.modTime_keeps ?_
          exact hv3
        clear_value v5
        refine KeepsOut.ite ?_ ?_
        · refine KeepsOut.next ?_
          refine State.setLock_keeps ?_
          exact hv5
        · refine KeepsOut.next ?_
          exact hv5

theorem execRindTimeCopy_keeps {z0 : State} {s : State} (h0 : Keeps z0 s) : KeepsOut z0 (execRindTimeCopy s) := by
  unfold execRindTimeCopy
  refine KeepsOut.ite ?_ ?_
  · refine KeepsOut.next ?_
    exact Keeps.frame h0 rfl rfl rfl rfl rfl rfl rfl rfl rfl rfl
  · refine KeepsOut.next ?_
    exact h0

theorem execPtpTime0Read_keeps {z0 : State} {s : State} (h0 : Keeps z0 s) : KeepsOut z0 (execPtpTime0Read s) := by
  unfold execPtpTime0Read
  refine KeepsOut.next ?_
  refine State.afterRead_keeps ?_
  exact h0

/-! PipFlow -/

theorem execBr_keeps {z0 : State} {x : PipAt} {f : BForm} {s : State} (h0 : Keeps z0 s) : KeepsOut z0 (execBr x f s) := by
  unfold execBr
  refine KeepsOut.next ?_
  refine State.pipFrame_keeps ?_ ?_
  · exact h0
  · intro s1 x2
    refine State.modCore_keeps ?_
    exact x2

theorem execCall_keeps {z0 : State} {x : PipAt} {f : BForm} {s : State} (h0 : Keeps z0 s) : KeepsOut z0 (execCall x f s) := by
  unfold execCall
  refine KeepsOut.next ?_
  refine State.pipFrame_keeps ?_ ?_
  · exact h0
  · intro s1 x2
    refine State.modCore_keeps ?_
    exact x2

theorem execJmp_keeps {z0 : State} {x : PipAt} {f : RForm} {s : State} (h0 : Keeps z0 s) : KeepsOut z0 (execJmp x f s) := by
  unfold execJmp
  refine KeepsOut.next ?_
  refine State.pipFrame_keeps ?_ ?_
  · exact h0
  · intro s1 x2
    refine State.modCore_keeps ?_
    exact x2

theorem execRep_keeps {z0 : State} {x : PipAt} {f : BForm} {s : State} (h0 : Keeps z0 s) : KeepsOut z0 (execRep x f s) := by
  unfold execRep
  refine KeepsOut.next ?_
  refine State.pipFrame_keeps ?_ ?_
  · exact h0
  · intro s1 x2
    extract_lets -merge +onlyGivenNames v3 v4
    clear_value v3
    clear_value v4
    split
    · refine State.modCore_keeps ?_
      exact x2
    · refine State.abandon_keeps ?_
      exact x2

theorem State.postEdge_keeps {z0 : State} {s : State} {k : Core} {e : Nat} (h0 : Keeps z0 s) : Keeps z0 (State.postEdge s k e) := by
  unfold State.postEdge
  extract_lets -merge +onlyGivenNames v1
  clear_value v1
  refine Keeps.ite ?_ ?_
  · exact h0
  · refine State.note_keeps ?_
    refine State.modCore_keeps ?_
    exact h0

theorem State.finishPip_keeps {z0 : State} {s : State} {k : Core} (h0 : Keeps z0 s) : Keeps z0 (State.finishPip s k) := by
  unfold State.finishPip
  extract_lets -merge +onlyGivenNames v1 v2 v3
  clear_value v1
  have hv2 : Keeps z0 v2 := by
    unfold v2
    refine Keeps.foldl ?_ ?_
    · intro s4 x5 x6
      refine Keeps.ite ?_ ?_
      · refine State.postEdge_keeps ?_
        exact x6
      · exact x6
    · exact h0
  clear_value v2
  have hv3 : Keeps z0 v3 := by
    unfold v3
    refine State.bump_keeps ?_
    exact hv2
  clear_value v3
  extract_lets -merge +onlyGivenNames v7
  have hv7 : Keeps z0 v7 := by
    unfold v7
    refine Keeps.ite ?_ ?_
    · refine Keeps.ite ?_ ?_
      · refine State.raiseGraph_keeps ?_
        refine State.modCore_keeps ?_
        exact hv3
      · exact hv3
    · exact hv2
  clear_value v7
  refine State.note_keeps ?_
  refine State.endRun_keeps ?_
  exact hv7

theorem State.afterStores_keeps {z0 : State} {s : State} {k : Core} {w : CoreWait} (h0 : Keeps z0 s) : Keeps z0 (State.afterStores s k w) := by
  unfold State.afterStores
  extract_lets -merge +onlyGivenNames v1
  have hv1 : ∀ s2, Keeps z0 s2 → Keeps z0 (v1 s2) := by
    intro s3 x4
    unfold v1
    refine State.modCore_keeps ?_
    exact x4
  clear_value v1
  split
  · exact h0
  · refine hv1 _ ?_
    refine State.postEdge_keeps ?_
    exact h0
  · refine hv1 _ ?_
    exact h0
  · refine State.finishPip_keeps ?_
    exact h0

theorem State.waitStores_keeps {z0 : State} {s : State} {k : Core} {w : CoreWait} (h0 : Keeps z0 s) : Keeps z0 (State.waitStores s k w) := by
  unfold State.waitStores
  extract_lets -merge +onlyGivenNames v1
  have hv1 : Keeps z0 v1 := by
    unfold v1
    refine State.modCore_keeps ?_
    exact h0
  clear_value v1
  refine Keeps.ite ?_ ?_
  · refine State.afterStores_keeps ?_
    exact hv1
  · refine State.modCore_keeps ?_
    exact hv1

theorem execPost_keeps {z0 : State} {x : PipAt} {f : RForm} {s : State} (h0 : Keeps z0 s) : KeepsOut z0 (execPost x f s) := by
  unfold execPost
  refine KeepsOut.next ?_
  refine State.pipFrame_keeps ?_ ?_
  · exact h0
  · intro s1 x2
    refine Keeps.ite ?_ ?_
    · refine State.waitStores_keeps ?_
      exact x2
    · refine State.abandon_keeps ?_
      exact x2

theorem execDone_keeps {z0 : State} {x : PipAt} {f : RForm} {s : State} (h0 : Keeps z0 s) : KeepsOut z0 (execDone x f s) := by
  unfold execDone
  refine KeepsOut.next ?_
  refine State.pipFrame_keeps ?_ ?_
  · exact h0
  · intro s1 x2
    refine State.waitStores_keeps ?_
    exact x2

theorem execFence_keeps {z0 : State} {x : PipAt} {f : RForm} {s : State} (h0 : Keeps z0 s) : KeepsOut z0 (execFence x f s) := by
  unfold execFence
  refine KeepsOut.next ?_
  refine State.pipFrame_keeps ?_ ?_
  · exact h0
  · intro s1 x2
    refine State.waitStores_keeps ?_
    exact x2

theorem execLoadDataArrival_keeps {z0 : State} {k : Core} {s : State} (h0 : Keeps z0 s) : KeepsOut z0 (execLoadDataArrival k s) := by
  unfold execLoadDataArrival
  refine KeepsOut.next ?_
  refine State.modCore_keeps ?_
  exact h0

theorem State.dbgRefused_keeps {z0 : State} {s : State} (h0 : Keeps z0 s) : Keeps z0 (State.dbgRefused s) := by
  unfold State.dbgRefused
  refine State.raiseMod_keeps ?_
  exact h0

theorem execBrk_keeps {z0 : State} {x : PipAt} {f : RForm} {s : State} (h0 : Keeps z0 s) : KeepsOut z0 (execBrk x f s) := by
  unfold execBrk
  refine KeepsOut.next ?_
  refine State.pipFrame_keeps ?_ ?_
  · exact h0
  · intro s1 x2
    extract_lets -merge +onlyGivenNames v3
    have hv3 : Keeps z0 v3 := by
      unfold v3
      refine State.modCore_keeps ?_
      exact x2
    clear_value v3
    refine Keeps.ite ?_ ?_
    · refine State.bump_keeps ?_
      exact hv3
    · refine Keeps.ite ?_ ?_
      · refine State.modCore_keeps ?_
        exact hv3
      · exact hv3

theorem State.dbgHalt_keeps {z0 : State} {s : State} {k : Core} (h0 : Keeps z0 s) : Keeps z0 (State.dbgHalt s k) := by
  unfold State.dbgHalt
  refine Keeps.ite ?_ ?_
  · refine State.set_keeps ?_
    exact h0
  · refine State.dbgRefused_keeps ?_
    exact h0

theorem State.dbgResume_keeps {z0 : State} {s : State} {k : Core} (h0 : Keeps z0 s) : Keeps z0 (State.dbgResume s k) := by
  unfold State.dbgResume
  refine Keeps.ite ?_ ?_
  · refine State.dbgRefused_keeps ?_
    exact h0
  · extract_lets -merge +onlyGivenNames v1
    have hv1 : Keeps z0 v1 := by
      unfold v1
      refine State.modCore_keeps ?_
      refine State.set_keeps ?_
      exact h0
    clear_value v1
    refine Keeps.ite ?_ ?_
    · refine State.set_keeps ?_
      refine State.set_keeps ?_
      exact hv1
    · exact hv1

theorem State.dbgStep_keeps {z0 : State} {s : State} {k : Core} (h0 : Keeps z0 s) : Keeps z0 (State.dbgStep s k) := by
  unfold State.dbgStep
  refine Keeps.ite ?_ ?_
  · refine State.dbgRefused_keeps ?_
    exact h0
  · refine Keeps.ite ?_ ?_
    · refine State.modCore_keeps ?_
      exact h0
    · exact h0

theorem execHalt_keeps {z0 : State} {k : Core} {s : State} (h0 : Keeps z0 s) : KeepsOut z0 (execHalt k s) := by
  unfold execHalt
  refine KeepsOut.next ?_
  refine State.dbgHalt_keeps ?_
  exact h0

theorem execResume_keeps {z0 : State} {k : Core} {s : State} (h0 : Keeps z0 s) : KeepsOut z0 (execResume k s) := by
  unfold execResume
  refine KeepsOut.next ?_
  refine State.dbgResume_keeps ?_
  exact h0

theorem execStep_keeps {z0 : State} {k : Core} {s : State} (h0 : Keeps z0 s) : KeepsOut z0 (execStep k s) := by
  unfold execStep
  refine KeepsOut.next ?_
  refine State.dbgStep_keeps ?_
  exact h0

theorem execCoreDebugHalted_keeps {z0 : State} {k : Core} {place : List Nat} {s : State} (h0 : Keeps z0 s) : KeepsOut z0 (execCoreDebugHalted k place s) := by
  unfold execCoreDebugHalted
  extract_lets -merge +onlyGivenNames v1 v2
  clear_value v1
  clear_value v2
  refine KeepsOut.ite ?_ ?_
  · extract_lets -merge +onlyGivenNames v3 v4 v5
    have hv3 : Keeps z0 v3 := by
      unfold v3
      refine State.set_keeps ?_
      refine State.set_keeps ?_
      exact h0
    clear_value v3
    have hv4 : Keeps z0 v4 := by
      unfold v4
      refine State.set_keeps ?_
      exact hv3
    clear_value v4
    have hv5 : Keeps z0 v5 := by
      unfold v5
      refine State.modCore_keeps ?_
      exact hv4
    clear_value v5
    refine KeepsOut.next ?_
    refine State.each_keeps ?_ ?_
    · exact hv5
    · intro s6 x7 x8
      refine Keeps.ite ?_ ?_
      · refine State.freeze_keeps ?_
        exact x8
      · exact x8
  · refine KeepsOut.next ?_
    exact h0

theorem execLocalMemoryScrub_keeps {z0 : State} {k : Core} {ecc : EccSeen} {s : State} (h0 : Keeps z0 s) : KeepsOut z0 (execLocalMemoryScrub k ecc s) := by
  unfold execLocalMemoryScrub
  refine KeepsOut.ite ?_ ?_
  · refine KeepsOut.next ?_
    exact h0
  · extract_lets -merge +onlyGivenNames v1 v2 v3
    clear_value v1
    clear_value v2
    clear_value v3
    extract_lets -merge +onlyGivenNames v4
    have hv4 : Keeps z0 v4 := by
      unfold v4
      exact h0.withArc
    clear_value v4
    split
    · refine KeepsOut.next ?_
      exact hv4
    · refine KeepsOut.next ?_
      refine State.set_keeps ?_
      refine State.bump_keeps ?_
      exact hv4
    · refine KeepsOut.next ?_
      refine State.coreUncorr_keeps ?_
      exact hv4

theorem execIllegalInstruction_keeps {z0 : State} {x : PipAt} {_word : Nat} {s : State} (h0 : Keeps z0 s) : KeepsOut z0 (execIllegalInstruction x _word s) := by
  unfold execIllegalInstruction
  refine KeepsOut.next ?_
  refine State.pipFrame_keeps ?_ ?_
  · exact h0
  · intro s1 x2
    exact x2

/-! RegWrite -/

theorem State.asWritten_keeps {z0 : State} {s : State} {ws : List WordW} (h0 : Keeps z0 s) : Keeps z0 (State.asWritten s ws) := by
  unfold State.asWritten
  refine State.each_keeps ?_ ?_
  · refine State.applyStaged_keeps ?_
    exact h0
  · intro s1 x2 x3
    split
    · refine State.each_keeps ?_ ?_
      · exact x3
      · intro s4 x5 x6
        refine State.set_keeps ?_
        exact x6
    · exact x3

theorem State.noteRefusal_keeps {z0 : State} {s : State} {a : Nat} {code : Nat} (h0 : Keeps z0 s) : Keeps z0 (State.noteRefusal s a code) := by
  unfold State.noteRefusal
  refine Keeps.ite ?_ ?_
  · refine State.heldNotice_keeps ?_
    exact h0
  · refine Keeps.ite ?_ ?_
    · refine State.raiseMod_keeps ?_
      exact h0
    · refine Keeps.ite ?_ ?_
      · refine State.heldNotice_keeps ?_
        exact h0
      · exact h0

theorem State.writeField_keeps {z0 : State} {s : State} {r : RegName} {idx : List Nat} {w : WordW} {f : FDef} (h0 : Keeps z0 s) : Keeps z0 (State.writeField s r idx w f) := by
  unfold State.writeField
  extract_lets -merge +onlyGivenNames v1
  clear_value v1
  refine Keeps.ite ?_ ?_
  · refine State.set_keeps ?_
    exact h0
  · refine Keeps.ite ?_ ?_
    · exact h0
    · extract_lets -merge +onlyGivenNames v2 v3 v4
      clear_value v2
      clear_value v3
      clear_value v4
      split
      · refine State.stage_keeps ?_
        exact h0
      · refine State.set_keeps ?_
        exact h0

theorem State.stageCmd_keeps {z0 : State} {s : State} {w : WordW} {own : Own} {i : Nat} (h0 : Keeps z0 s) : Keeps z0 (State.stageCmd s w own i) := by
  unfold State.stageCmd
  refine State.stage_keeps ?_
  exact h0

theorem State.ev5Switch_keeps {z0 : State} {s : State} {n : Slice} (h0 : Keeps z0 s) : Keeps z0 (State.ev5Switch s n) := by
  unfold State.ev5Switch
  refine Keeps.ite ?_ ?_
  · exact h0
  · refine Keeps.ite ?_ ?_
    · refine Keeps.ite ?_ ?_
      · refine State.modFb_keeps ?_
        exact h0
      · exact h0
    · refine State.modFb_keeps ?_
      refine State.set_keeps ?_
      exact h0

theorem State.shadowWrite_keeps {z0 : State} {s : State} {n : Slice} {window : Nat} {ws : List WordW} {w : WordW} (h0 : Keeps z0 s) : Keeps z0 (State.shadowWrite s n window ws w) := by
  unfold State.shadowWrite
  refine Keeps.ite ?_ ?_
  · exact h0
  · extract_lets -merge +onlyGivenNames v1
    clear_value v1
    refine State.modPwm_keeps ?_
    exact h0

theorem State.dbgWrite_keeps {z0 : State} {s : State} {k : Core} {w : WordW} (h0 : Keeps z0 s) : Keeps z0 (State.dbgWrite s k w) := by
  unfold State.dbgWrite
  extract_lets -merge +onlyGivenNames v1 v2
  have hv1 : Keeps z0 v1 := by
    unfold v1
    refine Keeps.ite ?_ ?_
    · refine State.set_keeps ?_
      exact h0
    · exact h0
  clear_value v1
  have hv2 : Keeps z0 v2 := by
    unfold v2
    refine Keeps.ite ?_ ?_
    · refine Keeps.ite ?_ ?_
      · refine Keeps.ite ?_ ?_
        · exact hv1
        · refine State.dbgHalt_keeps ?_
          exact hv1
      · refine State.dbgResume_keeps ?_
        exact hv1
    · exact hv1
  clear_value v2
  refine Keeps.ite ?_ ?_
  · refine State.dbgStep_keeps ?_
    exact hv2
  · exact hv2

theorem State.clearChopper_keeps {z0 : State} {s : State} {mask : Nat} (h0 : Keeps z0 s) : Keeps z0 (State.clearChopper s mask) := by
  unfold State.clearChopper
  refine State.each_keeps ?_ ?_
  · exact h0
  · intro s1 x2 x3
    refine Keeps.ite ?_ ?_
    · refine State.putBit_keeps ?_
      exact x3
    · exact x3

theorem State.regAction_keeps {z0 : State} {s : State} {n : RegName} {idx : List Nat} {ws : List WordW} {w : WordW} (h0 : Keeps z0 s) : Keeps z0 (State.regAction s n idx ws w) := by
  unfold State.regAction
  extract_lets -merge +onlyGivenNames v1 v2 v3 v4
  clear_value v2
  clear_value v3
  clear_value v4
  split
  · refine State.stageCmd_keeps ?_
    exact h0
  · refine State.stageCmd_keeps ?_
    exact h0
  · refine State.stageCmd_keeps ?_
    exact h0
  · refine Keeps.ite ?_ ?_
    · refine State.grpCommand_keeps ?_
      exact h0
    · refine State.stageCmd_keeps ?_
      exact h0
  · refine Keeps.ite ?_ ?_
    · refine State.commitAt_keeps ?_
      exact h0
    · exact h0
  · refine State.shadowWrite_keeps ?_
    exact h0
  · refine State.shadowWrite_keeps ?_
    exact h0
  · refine State.shadowWrite_keeps ?_
    exact h0
  · extract_lets -merge +onlyGivenNames v5
    have hv5 : Keeps z0 v5 := by
      unfold v5
      refine Keeps.ite ?_ ?_
      · refine State.set_keeps ?_
        exact h0
      · exact h0
    clear_value v5
    refine Keeps.ite ?_ ?_
    · refine State.set_keeps ?_
      exact hv5
    · exact hv5
  · refine State.ev5Switch_keeps ?_
    exact h0
  · refine State.svcmd1_keeps ?_
    exact h0
  · refine Keeps.ite ?_ ?_
    · refine State.fireLine_keeps ?_
      exact h0
    · exact h0
  · extract_lets -merge +onlyGivenNames v6
    have hv6 : Keeps z0 v6 := by
      unfold v6
      refine Keeps.ite ?_ ?_
      · refine State.flushTable_keeps ?_
        exact h0
      · exact h0
    clear_value v6
    refine Keeps.ite ?_ ?_
    · refine State.switchPort_keeps ?_
      exact hv6
    · exact hv6
  · refine Keeps.ite ?_ ?_
    · exact h0
    · refine Keeps.ite ?_ ?_
      · refine State.acqStart_keeps ?_
        exact h0
      · refine State.acqStopRun_keeps ?_
        exact h0
  · extract_lets -merge +onlyGivenNames v7 v8
    have hv7 : Keeps z0 v7 := by
      unfold v7
      refine Keeps.ite ?_ ?_
      · refine State.acqArm_keeps ?_
        exact h0
      · exact h0
    clear_value v7
    have hv8 : Keeps z0 v8 := by
      unfold v8
      refine Keeps.ite ?_ ?_
      · refine State.trigIdle_keeps ?_
        exact hv7
      · exact hv7
    clear_value v8
    refine Keeps.ite ?_ ?_
    · refine State.acqForce_keeps ?_
      exact hv8
    · exact hv8
  · refine State.txRequest_keeps ?_
    exact h0
  · refine State.txWithdraw_keeps ?_
    exact h0
  · refine State.txAck_keeps ?_
    exact h0
  · refine State.rxAck_keeps ?_
    exact h0
  · refine State.kick_keeps ?_
    exact h0
  · extract_lets -merge +onlyGivenNames v9
    have hv9 : Keeps z0 v9 := by
      unfold v9
      refine State.clearChannels_keeps ?_
      exact h0
    clear_value v9
    refine Keeps.ite ?_ ?_
    · refine State.clearWatchdog_keeps ?_
      exact hv9
    · exact hv9
  · refine Keeps.ite ?_ ?_
    · refine State.updStop_keeps ?_
      exact h0
    · refine State.update_keeps ?_
      exact h0
  · refine State.dbgWrite_keeps ?_
    exact h0
  · refine State.setRate_keeps ?_
    exact h0
  · refine Keeps.ite ?_ ?_
    · refine State.adjust_keeps ?_
      exact h0
    · exact h0
  · refine State.stageSec_keeps ?_
    exact h0
  · refine Keeps.ite ?_ ?_
    · refine State.cmpWriteEn_keeps ?_
      exact h0
    · exact h0
  · refine State.clearScope_keeps ?_
    exact h0
  · refine State.clearChopper_keeps ?_
    exact h0
  · exact h0

theorem State.noteReserved_keeps {z0 : State} {s : State} {r : RegRow RegName} {w : WordW} (h0 : Keeps z0 s) : Keeps z0 (State.noteReserved s r w) := by
  unfold State.noteReserved
  refine Keeps.ite ?_ ?_
  · exact h0
  · refine State.raiseMod_keeps ?_
    exact h0

theorem State.writeReg_keeps {z0 : State} {s : State} {sess : Nat} {ws : List WordW} {w : WordW} {r : RegRow RegName} {idx : List Nat} (h0 : Keeps z0 s) : Keeps z0 (State.writeReg s sess ws w r idx) := by
  unfold State.writeReg
  extract_lets -merge +onlyGivenNames v1 v2 v3
  clear_value v1
  have hv2 : Keeps z0 v2 := by
    unfold v2
    refine State.noteReserved_keeps ?_
    exact h0
  clear_value v2
  have hv3 : Keeps z0 v3 := by
    unfold v3
    refine Keeps.ite ?_ ?_
    · exact hv2
    · refine State.each_keeps ?_ ?_
      · exact hv2
      · intro s4 x5 x6
        refine State.writeField_keeps ?_
        exact x6
  clear_value v3
  refine State.regAction_keeps ?_
  exact hv3

theorem State.writeWord_keeps {z0 : State} {s : State} {sess : Nat} {ws : List WordW} {w : WordW} (h0 : Keeps z0 s) : Keeps z0 (State.writeWord s sess ws w) := by
  unfold State.writeWord
  split
  · split
    · refine State.writeReg_keeps ?_
      exact h0
    · refine State.wr_keeps ?_
      exact h0
  · refine State.wr_keeps ?_
    exact h0

theorem State.mccAtOnce_keeps {z0 : State} {s : State} (h0 : Keeps z0 s) : Keeps z0 (State.mccAtOnce s) := by
  unfold State.mccAtOnce
  refine Keeps.ite ?_ ?_
  · refine State.mccBoundary_keeps ?_
    exact h0
  · exact h0

theorem State.writeWords_keeps {z0 : State} {s : State} {who : Init} {sess : Nat} {ws : List WordW} (h0 : Keeps z0 s) : KeepsP z0 (State.writeWords s who sess ws) := by
  unfold State.writeWords
  split
  · refine KeepsP.mk ?_
    refine State.noteRefusal_keeps ?_
    exact h0
  · refine KeepsP.mk ?_
    refine State.mccAtOnce_keeps ?_
    refine State.each_keeps ?_ ?_
    · exact h0
    · intro s1 x2 x3
      refine State.writeWord_keeps ?_
      exact x3

theorem State.answer_keeps {z0 : State} {s : State} {a : Answer} (h0 : Keeps z0 s) : Keeps z0 (State.answer s a) := by
  unfold State.answer
  exact h0.withArc

theorem execRegisterWrite_keeps {z0 : State} {who : Init} {sz : AccSize} {addr : Nat} {value : Nat} {s : State} (h0 : Keeps z0 s) : KeepsOut z0 (execRegisterWrite who sz addr value s) := by
  unfold execRegisterWrite
  split
  · refine KeepsOut.ite ?_ ?_
    · refine KeepsOut.next ?_
      exact h0
    · refine KeepsOut.ite ?_ ?_
      · refine KeepsOut.next ?_
        refine State.answer_keeps ?_
        exact h0
      · split
        rename_i s1 y2 y3
        have h4 : Keeps z0 s1 := by
          refine KeepsP.of_eq y3 ?_
          refine State.writeWords_keeps ?_
          exact h0
        refine KeepsOut.next ?_
        refine State.answer_keeps ?_
        exact h4
  · refine KeepsOut.next ?_
    exact h0

/-! Links -/

theorem State.modArc_keeps {z0 : State} {s : State} {f : ArcDyn → ArcDyn} (h0 : Keeps z0 s) : Keeps z0 (State.modArc s f) := by
  unfold State.modArc
  exact h0.withArc

theorem State.putLink_keeps {z0 : State} {s : State} {l : Link} {x : LinkDyn} (h0 : Keeps z0 s) : Keeps z0 (State.putLink s l x) := by
  unfold State.putLink
  split
  · refine State.modArc_keeps ?_
    exact h0
  · refine State.modArc_keeps ?_
    exact h0
  · refine State.modArc_keeps ?_
    exact h0

theorem State.deliverLoad_keeps {z0 : State} {s : State} {p : Payload} (h0 : Keeps z0 s) : Keeps z0 (State.deliverLoad s p) := by
  unfold State.deliverLoad
  split
  · exact h0
  · refine State.raise_keeps ?_
    exact h0

theorem State.feedDie_keeps {z0 : State} {s : State} {l : Link} (h0 : Keeps z0 s) : Keeps z0 (State.feedDie s l) := by
  unfold State.feedDie
  split
  · refine State.modArc_keeps ?_
    exact h0
  · refine State.modArc_keeps ?_
    exact h0
  · exact h0

theorem State.retrain_keeps {z0 : State} {s : State} {l : Link} (h0 : Keeps z0 s) : Keeps z0 (State.retrain s l) := by
  unfold State.retrain
  refine State.bump_keeps ?_
  refine State.set_keeps ?_
  refine State.putLink_keeps ?_
  exact h0

theorem execSliceLinkFlit_keeps {z0 : State} {link : Link} {toControl : Bool} {seq : Nat} {crcOk : Bool} {load : Payload} {s : State} (h0 : Keeps z0 s) : KeepsOut z0 (execSliceLinkFlit link toControl seq crcOk load s) := by
  unfold execSliceLinkFlit
  extract_lets -merge +onlyGivenNames v1
  clear_value v1
  refine KeepsOut.ite ?_ ?_
  · refine KeepsOut.next ?_
    exact h0
  · extract_lets -merge +onlyGivenNames v2 v3 v4 v5
    clear_value v2
    clear_value v3
    clear_value v4
    clear_value v5
    refine KeepsOut.ite ?_ ?_
    · extract_lets -merge +onlyGivenNames v6
      have hv6 : Keeps z0 v6 := by
        unfold v6
        refine State.putLink_keeps ?_
        exact h0
      clear_value v6
      refine KeepsOut.next ?_
      refine Keeps.ite ?_ ?_
      · refine State.deliverLoad_keeps ?_
        exact hv6
      · refine State.feedDie_keeps ?_
        exact hv6
    · refine KeepsOut.ite ?_ ?_
      · refine KeepsOut.next ?_
        refine State.bump_keeps ?_
        refine State.putLink_keeps ?_
        exact h0
      · refine KeepsOut.ite ?_ ?_
        · refine KeepsOut.next ?_
          refine State.retrain_keeps ?_
          exact h0
        · refine KeepsOut.next ?_
          exact h0

theorem execLinkRetrainComplete_keeps {z0 s : State} {link : Link} (h0 : Keeps z0 s) : KeepsOut z0 (execLinkRetrainComplete link s) := by
  unfold execLinkRetrainComplete
  refine KeepsOut.ite (KeepsOut.next h0) ?_
  extract_lets +onlyGivenNames src s1
  have h1 : Keeps z0 s1 := State.feedDie_keeps (State.set_keeps (State.putLink_keeps h0))
  clear_value s1
  split
  · exact KeepsOut.next (State.each_keeps (h1.fieldQueue (l := []) fun _ => Nat.zero_le _) fun s x h => State.raise_keeps h)
  · exact KeepsOut.next h1

theorem execSliceLinkWatchdog_keeps {z0 : State} {die : Fin 2} {s : State} (h0 : Keeps z0 s) : KeepsOut z0 (execSliceLinkWatchdog die s) := by
  unfold execSliceLinkWatchdog
  refine KeepsOut.ite ?_ ?_
  · refine KeepsOut.next ?_
    exact h0
  · extract_lets -merge +onlyGivenNames v1 v2
    have hv1 : Keeps z0 v1 := by
      unfold v1
      refine State.modArc_keeps ?_
      exact h0
    clear_value v1
    have hv2 : Keeps z0 v2 := by
      unfold v2
      refine State.each_keeps ?_ ?_
      · exact hv1
      · intro s3 x4 x5
        refine State.modAx_keeps ?_
        exact x5
    clear_value v2
    refine KeepsOut.next ?_
    refine State.raiseDie_keeps ?_
    exact hv2

theorem State.corrAt_keeps {z0 : State} {s : State} {a : Nat} (h0 : Keeps z0 s) : Keeps z0 (State.corrAt s a) := by
  unfold State.corrAt
  split
  · refine State.set_keeps ?_
    refine State.bump_keeps ?_
    exact h0
  · refine State.modArc_keeps ?_
    exact h0

theorem State.uncorrAt_keeps {z0 : State} {s : State} {a : Nat} (h0 : Keeps z0 s) : Keeps z0 (State.uncorrAt s a) := by
  unfold State.uncorrAt
  extract_lets -merge +onlyGivenNames v1
  have hv1 : Keeps z0 v1 := by
    unfold v1
    split
    · refine State.set_keeps ?_
      refine State.bump_keeps ?_
      exact h0
    · exact h0
  clear_value v1
  refine State.raiseMod_keeps ?_
  exact hv1

theorem State.refuseCore_keeps {z0 : State} {s : State} {who : Init} {code : Nat} (h0 : Keeps z0 s) : Keeps z0 (State.refuseCore s who code) := by
  unfold State.refuseCore
  split
  · refine Keeps.ite ?_ ?_
    · refine State.abandon_keeps ?_
      exact h0
    · exact h0
  · exact h0

theorem State.fabricRead_keeps {z0 : State} {s : State} {who : Init} {sz : AccSize} {a : Nat} {ecc : EccSeen} (h0 : Keeps z0 s) : Keeps z0 (State.fabricRead s who sz a ecc) := by
  unfold State.fabricRead
  extract_lets -merge +onlyGivenNames v1
  clear_value v1
  split
  · refine Keeps.ite ?_ ?_
    · split
      · refine Keeps.ite ?_ ?_
        · refine State.answer_keeps ?_
          refine State.abandon_keeps ?_
          refine Keeps.ite ?_ ?_
          · refine State.coreUncorr_keeps ?_
            exact h0
          · exact h0
        · refine State.answer_keeps ?_
          refine State.uncorrAt_keeps ?_
          exact h0
      · refine State.answer_keeps ?_
        refine State.uncorrAt_keeps ?_
        exact h0
    · extract_lets -merge +onlyGivenNames v2
      have hv2 : Keeps z0 v2 := by
        unfold v2
        refine Keeps.ite ?_ ?_
        · refine State.corrAt_keeps ?_
          exact h0
        · exact h0
      clear_value v2
      refine State.answer_keeps ?_
      refine State.afterRead_keeps ?_
      exact hv2
  · refine State.answer_keeps ?_
    refine State.refuseCore_keeps ?_
    exact h0
  · refine State.answer_keeps ?_
    refine State.refuseCore_keeps ?_
    refine State.raiseMod_keeps ?_
    exact h0
  · refine State.answer_keeps ?_
    exact h0

theorem execFabricAccess_keeps {z0 : State} {who : Init} {write : Bool} {sz : AccSize} {addr : Nat} {value : Nat} {ecc : EccSeen} {s : State} (h0 : Keeps z0 s) : KeepsOut z0 (execFabricAccess who write sz addr value ecc s) := by
  unfold execFabricAccess
  refine KeepsOut.ite ?_ ?_
  · refine KeepsOut.next ?_
    exact h0
  · refine KeepsOut.ite ?_ ?_
    · refine KeepsOut.next ?_
      refine State.answer_keeps ?_
      refine State.refuseCore_keeps ?_
      exact h0
    · refine KeepsOut.ite ?_ ?_
      · refine KeepsOut.next ?_
        refine State.fabricRead_keeps ?_
        exact h0
      · split
        rename_i s1 y2 y3
        have h4 : Keeps z0 s1 := by
          refine KeepsP.of_eq y3 ?_
          refine State.writeWords_keeps ?_
          exact h0
        extract_lets -merge +onlyGivenNames v5
        refine KeepsOut.next ?_
        refine State.answer_keeps ?_
        refine Keeps.ite ?_ ?_
        · refine State.refuseCore_keeps ?_
          exact h4
        · exact h4

theorem execSramScrub_keeps {z0 : State} {bank : Fin 48} {ecc : EccSeen} {s : State} (h0 : Keeps z0 s) : KeepsOut z0 (execSramScrub bank ecc s) := by
  unfold execSramScrub
  refine KeepsOut.ite ?_ ?_
  · refine KeepsOut.next ?_
    exact h0
  · extract_lets -merge +onlyGivenNames v1 v2 v3
    clear_value v1
    clear_value v2
    have hv3 : Keeps z0 v3 := by
      unfold v3
      refine State.modArc_keeps ?_
      exact h0
    clear_value v3
    split
    · refine KeepsOut.next ?_
      exact hv3
    · refine KeepsOut.next ?_
      refine State.corrAt_keeps ?_
      exact hv3
    · refine KeepsOut.next ?_
      refine State.uncorrAt_keeps ?_
      exact hv3

/-! HostProtocol -/

theorem State.reply_keeps {z0 : State} {s : State} {q : HpReq} {type : Nat} {sess : Nat} {code : Nat} {dup : Bool} {body : List Nat} (h0 : Keeps z0 s) : Keeps z0 (State.reply s q type sess code dup body) := by
  unfold State.reply
  extract_lets -merge +onlyGivenNames v1
  have hv1 : Keeps z0 v1 := by
    unfold v1
    refine Keeps.ite ?_ ?_
    · exact h0
    · refine State.bump_keeps ?_
      exact h0
  clear_value v1
  refine State.send_keeps ?_
  exact hv1

theorem State.takeRequest_keeps {z0 : State} {s : State} {q : HpReq} {opening : Bool} {go : State → State} (h0 : Keeps z0 s) (hf1 : ∀ y1, Keeps z0 y1 → Keeps z0 (go y1)) : Keeps z0 (State.takeRequest s q opening go) := by
  unfold State.takeRequest
  refine Keeps.ite ?_ ?_
  · exact h0
  · refine Keeps.ite ?_ ?_
    · refine State.bump_keeps ?_
      exact h0
    · refine Keeps.ite ?_ ?_
      · refine Keeps.ite ?_ ?_
        · refine hf1 _ ?_
          exact h0
        · refine State.bump_keeps ?_
          exact h0
      · refine Keeps.ite ?_ ?_
        · exact h0
        · refine hf1 _ ?_
          exact h0

theorem State.endSession_keeps {z0 : State} {s : State} {i : Nat} (h0 : Keeps z0 s) : Keeps z0 (State.endSession s i) := by
  unfold State.endSession
  extract_lets -merge +onlyGivenNames v1 v2
  have hv1 : Keeps z0 v1 := by
    unfold v1
    refine State.modSession_keeps ?_ ?_
    · exact h0
    · exact fun _ _ => rfl
  clear_value v1
  have hv2 : Keeps z0 v2 := by
    unfold v2
    refine State.putBit_keeps ?_
    refine State.putBit_keeps ?_
    exact hv1
  clear_value v2
  refine Keeps.ite ?_ ?_
  · refine State.set_keeps ?_
    exact hv2
  · exact hv2

theorem execHpOpen_keeps {z0 s : State} {q : HpReq} {notify : Bool} (h0 : Keeps z0 s) : KeepsOut z0 (execHpOpen q notify s) := by
  unfold execHpOpen
  refine KeepsOut.next (State.takeRequest_keeps h0 fun s h => ?_)
  refine Keeps.ite (State.reply_keeps h) ?_
  split
  · exact State.reply_keeps h
  · exact State.reply_keeps (State.putBit_keeps (State.putBit_keeps (State.modSession_keeps
      (State.drawn_keeps (State.drawn_keeps (State.drawn_keeps h))) fun _ _ => by simp [Session.wf, Session.reset])))

theorem State.ordered_keeps {z0 : State} {s : State} {q : HpReq} {type : Nat} {run : State → State × Nat × List Nat} (h0 : Keeps z0 s) (hf1 : ∀ y1, Keeps z0 y1 → KeepsP z0 (run y1)) : Keeps z0 (State.ordered s q type run) := by
  unfold State.ordered
  refine State.takeRequest_keeps ?_ ?_
  · exact h0
  · intro s1 x2
    refine Keeps.ite ?_ ?_
    · refine State.reply_keeps ?_
      exact x2
    · extract_lets -merge +onlyGivenNames v3 v4
      clear_value v3
      clear_value v4
      refine Keeps.ite ?_ ?_
      · split
        rename_i s5 y6 y7 y8
        have h9 : Keeps z0 s5 := by
          refine KeepsP.of_eq y8 ?_
          refine hf1 _ ?_
          exact x2
        refine State.reply_keeps ?_
        refine State.modSession_keeps ?_ ?_
        · exact h9
        · exact fun _ h => Session.wf_keep h
      · split
        · refine State.reply_keeps ?_
          exact x2
        · refine State.reply_keeps ?_
          exact x2

theorem execHpClose_keeps {z0 : State} {q : HpReq} {s : State} (h0 : Keeps z0 s) : KeepsOut z0 (execHpClose q s) := by
  unfold execHpClose
  extract_lets -merge +onlyGivenNames v1 v2
  clear_value v1
  have hv2 : Keeps z0 v2 := by
    unfold v2
    refine State.ordered_keeps ?_ ?_
    · exact h0
    · intro s3 x4
      refine KeepsP.mk ?_
      exact x4
  clear_value v2
  refine KeepsOut.next ?_
  refine Keeps.ite ?_ ?_
  · refine State.endSession_keeps ?_
    exact hv2
  · exact hv2

theorem execHpNop_keeps {z0 : State} {q : HpReq} {s : State} (h0 : Keeps z0 s) : KeepsOut z0 (execHpNop q s) := by
  unfold execHpNop
  refine KeepsOut.next ?_
  refine State.ordered_keeps ?_ ?_
  · exact h0
  · intro s1 x2
    refine KeepsP.mk ?_
    exact x2

theorem State.hostRead_keeps {z0 : State} {s : State} {q : HpReq} {addr : Nat} {count : Nat} (h0 : Keeps z0 s) : KeepsP z0 (State.hostRead s q addr count) := by
  unfold State.hostRead
  split
  · extract_lets -merge +onlyGivenNames v1
    clear_value v1
    split
    · refine KeepsP.mk ?_
      refine State.noteRefusal_keeps ?_
      exact h0
    · refine KeepsP.mk ?_
      refine State.each_keeps ?_ ?_
      · exact h0
      · intro s2 x3 x4
        refine State.afterRead_keeps ?_
        exact x4
  · refine KeepsP.mk ?_
    exact h0

theorem execHpRead_keeps {z0 : State} {q : HpReq} {addr : Nat} {count : Nat} {s : State} (h0 : Keeps z0 s) : KeepsOut z0 (execHpRead q addr count s) := by
  unfold execHpRead
  refine KeepsOut.next ?_
  refine State.ordered_keeps ?_ ?_
  · exact h0
  · intro s1 x2
    refine State.hostRead_keeps ?_
    exact x2

theorem State.hostWrite_keeps {z0 : State} {s : State} {q : HpReq} {shape : Nat} {ws : List WordW} (h0 : Keeps z0 s) : KeepsP z0 (State.hostWrite s q shape ws) := by
  unfold State.hostWrite
  refine KeepsP.ite ?_ ?_
  · refine KeepsP.mk ?_
    exact h0
  · split
    rename_i s1 y2 y3
    have h4 : Keeps z0 s1 := by
      refine KeepsP.of_eq y3 ?_
      refine State.writeWords_keeps ?_
      exact h0
    split
    · refine KeepsP.mk ?_
      exact h4
    · refine KeepsP.mk ?_
      exact h4

theorem execHpWrite_keeps {z0 : State} {q : HpReq} {addr : Nat} {words : List Nat} {s : State} (h0 : Keeps z0 s) : KeepsOut z0 (execHpWrite q addr words s) := by
  unfold execHpWrite
  refine KeepsOut.next ?_
  refine State.ordered_keeps ?_ ?_
  · exact h0
  · intro s1 x2
    refine State.hostWrite_keeps ?_
    exact x2

theorem execHpWritem_keeps {z0 : State} {q : HpReq} {addr : Nat} {writes : List MaskWrite} {s : State} (h0 : Keeps z0 s) : KeepsOut z0 (execHpWritem q addr writes s) := by
  unfold execHpWritem
  refine KeepsOut.next ?_
  refine State.ordered_keeps ?_ ?_
  · exact h0
  · intro s1 x2
    refine State.hostWrite_keeps ?_
    exact x2

theorem State.takeElem_keeps {z0 : State} {s : State} {e : List Nat} (h0 : Keeps z0 s) : KeepsP z0 (State.takeElem s e) := by
  unfold State.takeElem
  extract_lets -merge +onlyGivenNames v1 v2 v3
  clear_value v1
  clear_value v2
  clear_value v3
  refine KeepsP.ite ?_ ?_
  · refine KeepsP.mk ?_
    refine State.bump_keeps ?_
    exact h0
  · refine KeepsP.ite ?_ ?_
    · refine KeepsP.mk ?_
      refine State.bump_keeps ?_
      exact h0
    · refine KeepsP.ite ?_ ?_
      · refine KeepsP.mk ?_
        refine State.raiseMod_keeps ?_
        refine State.bump_keeps ?_
        exact h0
      · extract_lets -merge +onlyGivenNames v4
        extract_lets -merge +onlyGivenNames v5
        have hv5 : Keeps z0 v5 := by
          unfold v5
          exact Keeps.frame h0 rfl rfl rfl rfl rfl rfl rfl rfl rfl rfl
        clear_value v5
        refine KeepsP.mk ?_
        refine State.arrive_keeps ?_
        exact hv5

theorem State.takeElems_keeps {z0 : State} {l : List (List Nat)} : ∀ {s : State}, Keeps z0 s → KeepsP z0 (State.takeElems s l) := by
  induction l with
  | nil => intro s h; exact h
  | cons e t ih =>
    intro s h
    unfold State.takeElems
    split
    rename_i s1 r e1
    have h1 : Keeps z0 s1 := KeepsP.of_eq e1 (State.takeElem_keeps h)
    split
    rename_i s2 rs e2
    exact KeepsP.mk (KeepsP.of_eq e2 (ih h1))

theorem execSetpt_keeps {z0 : State} {q : HpReq} {elements : List (List Nat)} {ackReq : Bool} {s : State} (h0 : Keeps z0 s) : KeepsOut z0 (execSetpt q elements ackReq s) := by
  unfold execSetpt
  refine KeepsOut.next ?_
  refine State.takeRequest_keeps ?_ ?_
  · exact h0
  · intro s1 x2
    refine Keeps.ite ?_ ?_
    · exact x2
    · refine Keeps.ite ?_ ?_
      · refine Keeps.ite ?_ ?_
        · refine State.reply_keeps ?_
          exact x2
        · exact x2
      · split
        rename_i s3 y4 y5
        have h6 : Keeps z0 s3 := by
          refine KeepsP.of_eq y5 ?_
          refine State.takeElems_keeps ?_
          exact x2
        extract_lets -merge +onlyGivenNames v7
        clear_value v7
        refine Keeps.ite ?_ ?_
        · refine State.reply_keeps ?_
          exact h6
        · exact h6

theorem State.runSegment_keeps {z0 : State} {s : State} {q : HpReq} {g : Fin 8} {segs : List (List Nat)} (h0 : Keeps z0 s) : KeepsP z0 (State.runSegment s q g segs) := by
  unfold State.runSegment
  extract_lets -merge +onlyGivenNames v1
  clear_value v1
  refine KeepsP.ite ?_ ?_
  · refine KeepsP.mk ?_
    exact h0
  · refine KeepsP.ite ?_ ?_
    · refine KeepsP.mk ?_
      exact h0
    · refine KeepsP.ite ?_ ?_
      · refine KeepsP.mk ?_
        exact h0
      · refine KeepsP.ite ?_ ?_
        · refine KeepsP.mk ?_
          exact h0
        · split
          rename_i s2 y3 y4
          have h5 : Keeps z0 s2 := by
            refine KeepsP.of_eq y4 ?_
            refine State.writeWords_keeps ?_
            exact h0
          split
          · refine KeepsP.mk ?_
            exact h5
          · extract_lets -merge +onlyGivenNames v6
            have hv6 : Keeps z0 v6 := by
              unfold v6
              refine State.grpAppend_keeps ?_
              exact h5
            clear_value v6
            refine KeepsP.mk ?_
            exact hv6

theorem execSegment_keeps {z0 : State} {q : HpReq} {g : Fin 8} {segs : List (List Nat)} {s : State} (h0 : Keeps z0 s) : KeepsOut z0 (execSegment q g segs s) := by
  unfold execSegment
  refine KeepsOut.next ?_
  refine State.ordered_keeps ?_ ?_
  · exact h0
  · intro s1 x2
    refine State.runSegment_keeps ?_
    exact x2

theorem execRepcfg_keeps {z0 : State} {q : HpReq} {cmp : Nat} {offset : Nat} {addrs : List Nat} {s : State} (h0 : Keeps z0 s) : KeepsOut z0 (execRepcfg q cmp offset addrs s) := by
  unfold execRepcfg
  refine KeepsOut.next ?_
  refine State.ordered_keeps ?_ ?_
  · exact h0
  · intro s1 x2
    extract_lets -merge +onlyGivenNames v3
    clear_value v3
    refine KeepsP.ite ?_ ?_
    · refine KeepsP.mk ?_
      exact x2
    · refine KeepsP.mk ?_
      refine State.modSession_keeps ?_ ?_
      · exact x2
      · exact fun _ hx => hx

theorem execEvack_keeps {z0 s : State} {q : HpReq} {nseq : Nat} (h0 : Keeps z0 s) : KeepsOut z0 (execEvack q nseq s) := by
  unfold execEvack
  refine KeepsOut.next (State.takeRequest_keeps h0 fun s h => ?_)
  refine Keeps.ite (Keeps.ite (State.reply_keeps h) h) (Keeps.ite h ?_)
  exact State.modSession_keeps h fun x hx => Session.wf_notices hx (List.length_filter_le _ _)

theorem execHpUnknownType_keeps {z0 : State} {q : HpReq} {type : Nat} {s : State} (h0 : Keeps z0 s) : KeepsOut z0 (execHpUnknownType q type s) := by
  unfold execHpUnknownType
  refine KeepsOut.next ?_
  refine State.takeRequest_keeps ?_ ?_
  · exact h0
  · intro s1 x2
    refine Keeps.ite ?_ ?_
    · refine State.reply_keeps ?_
      exact x2
    · exact x2

theorem execNoticeRetry_keeps {z0 s : State} {session nseq : Nat} (h0 : Keeps z0 s) : KeepsOut z0 (execNoticeRetry session nseq s) := by
  unfold execNoticeRetry
  extract_lets +onlyGivenNames x
  refine KeepsOut.ite (KeepsOut.next h0) ?_
  split
  · exact KeepsOut.next h0
  · refine KeepsOut.ite (KeepsOut.next (State.bump_keeps ?_)) (KeepsOut.next (State.send_keeps ?_))
    · exact State.modSession_keeps h0 fun x hx => Session.wf_notices hx (List.length_filter_le _ _)
    · exact State.modSession_keeps h0 fun x hx => Session.wf_notices (n := x.lost) hx (by simp)

theorem execSessionTimeout_keeps {z0 : State} {session : Nat} {s : State} (h0 : Keeps z0 s) : KeepsOut z0 (execSessionTimeout session s) := by
  unfold execSessionTimeout
  refine KeepsOut.ite ?_ ?_
  · refine KeepsOut.next ?_
    exact h0
  · refine KeepsOut.next ?_
    refine State.endSession_keeps ?_
    exact h0

end Sys2Proof.Machine
end

