-- ==== Sys2Proof/Laws/Keeps9.lean ====
section
/-!
SUPPORT. Laws/Keeps9.lean: what the operations and the meanings of Machine/PipArith, PipAcc, PipMem, PowerUp, Step keep (Laws/Keeps.lean).
-/

namespace Sys2Proof.Machine

/-! PipArith -/

theorem execMov_keeps {z0 : State} {x : PipAt} {f : RForm} {s : State} (h0 : Keeps z0 s) : KeepsOut z0 (execMov x f s) := by
  unfold execMov
  refine KeepsOut.next ?_
  refine State.pipR_keeps ?_
  exact h0

theorem execMovi_keeps {z0 : State} {x : PipAt} {f : IForm} {s : State} (h0 : Keeps z0 s) : KeepsOut z0 (execMovi x f s) := by
  unfold execMovi
  refine KeepsOut.next ?_
  refine State.pipI_keeps ?_
  exact h0

theorem execMovis_keeps {z0 : State} {x : PipAt} {f : IForm} {s : State} (h0 : Keeps z0 s) : KeepsOut z0 (execMovis x f s) := by
  unfold execMovis
  refine KeepsOut.next ?_
  refine State.pipI_keeps ?_
  exact h0

theorem execMovhi_keeps {z0 : State} {x : PipAt} {f : IForm} {s : State} (h0 : Keeps z0 s) : KeepsOut z0 (execMovhi x f s) := by
  unfold execMovhi
  refine KeepsOut.next ?_
  refine State.pipI_keeps ?_
  exact h0

theorem execSwap_keeps {z0 : State} {x : PipAt} {f : RForm} {s : State} (h0 : Keeps z0 s) : KeepsOut z0 (execSwap x f s) := by
  unfold execSwap
  refine KeepsOut.next ?_
  refine State.pipR_keeps ?_
  exact h0

theorem execExt_keeps {z0 : State} {x : PipAt} {f : RForm} {s : State} (h0 : Keeps z0 s) : KeepsOut z0 (execExt x f s) := by
  unfold execExt
  refine KeepsOut.next ?_
  refine State.pipR_keeps ?_
  exact h0

theorem execIns_keeps {z0 : State} {x : PipAt} {f : RForm} {s : State} (h0 : Keeps z0 s) : KeepsOut z0 (execIns x f s) := by
  unfold execIns
  refine KeepsOut.next ?_
  refine State.pipR_keeps ?_
  exact h0

theorem execAdd_keeps {z0 : State} {x : PipAt} {f : RForm} {s : State} (h0 : Keeps z0 s) : KeepsOut z0 (execAdd x f s) := by
  unfold execAdd
  refine KeepsOut.next ?_
  refine State.pipR_keeps ?_
  exact h0

theorem execSub_keeps {z0 : State} {x : PipAt} {f : RForm} {s : State} (h0 : Keeps z0 s) : KeepsOut z0 (execSub x f s) := by
  unfold execSub
  refine KeepsOut.next ?_
  refine State.pipR_keeps ?_
  exact h0

theorem execAddi_keeps {z0 : State} {x : PipAt} {f : IForm} {s : State} (h0 : Keeps z0 s) : KeepsOut z0 (execAddi x f s) := by
  unfold execAddi
  refine KeepsOut.next ?_
  refine State.pipI_keeps ?_
  exact h0

theorem execCmp_keeps {z0 : State} {x : PipAt} {f : RForm} {s : State} (h0 : Keeps z0 s) : KeepsOut z0 (execCmp x f s) := by
  unfold execCmp
  refine KeepsOut.next ?_
  refine State.pipR_keeps ?_
  exact h0

theorem execCmpi_keeps {z0 : State} {x : PipAt} {f : IForm} {s : State} (h0 : Keeps z0 s) : KeepsOut z0 (execCmpi x f s) := by
  unfold execCmpi
  refine KeepsOut.next ?_
  refine State.pipI_keeps ?_
  exact h0

theorem execNeg_keeps {z0 : State} {x : PipAt} {f : RForm} {s : State} (h0 : Keeps z0 s) : KeepsOut z0 (execNeg x f s) := by
  unfold execNeg
  refine KeepsOut.next ?_
  refine State.pipR_keeps ?_
  exact h0

theorem execAbs_keeps {z0 : State} {x : PipAt} {f : RForm} {s : State} (h0 : Keeps z0 s) : KeepsOut z0 (execAbs x f s) := by
  unfold execAbs
  refine KeepsOut.next ?_
  refine State.pipR_keeps ?_
  exact h0

theorem execMin_keeps {z0 : State} {x : PipAt} {f : RForm} {s : State} (h0 : Keeps z0 s) : KeepsOut z0 (execMin x f s) := by
  unfold execMin
  refine KeepsOut.next ?_
  refine State.pipR_keeps ?_
  exact h0

theorem execMax_keeps {z0 : State} {x : PipAt} {f : RForm} {s : State} (h0 : Keeps z0 s) : KeepsOut z0 (execMax x f s) := by
  unfold execMax
  refine KeepsOut.next ?_
  refine State.pipR_keeps ?_
  exact h0

theorem execClamp_keeps {z0 : State} {x : PipAt} {f : RForm} {s : State} (h0 : Keeps z0 s) : KeepsOut z0 (execClamp x f s) := by
  unfold execClamp
  refine KeepsOut.next ?_
  refine State.pipR_keeps ?_
  exact h0

theorem execAnd_keeps {z0 : State} {x : PipAt} {f : RForm} {s : State} (h0 : Keeps z0 s) : KeepsOut z0 (execAnd x f s) := by
  unfold execAnd
  refine KeepsOut.next ?_
  refine State.pipR_keeps ?_
  exact h0

theorem execOr_keeps {z0 : State} {x : PipAt} {f : RForm} {s : State} (h0 : Keeps z0 s) : KeepsOut z0 (execOr x f s) := by
  unfold execOr
  refine KeepsOut.next ?_
  refine State.pipR_keeps ?_
  exact h0

theorem execXor_keeps {z0 : State} {x : PipAt} {f : RForm} {s : State} (h0 : Keeps z0 s) : KeepsOut z0 (execXor x f s) := by
  unfold execXor
  refine KeepsOut.next ?_
  refine State.pipR_keeps ?_
  exact h0

theorem execNot_keeps {z0 : State} {x : PipAt} {f : RForm} {s : State} (h0 : Keeps z0 s) : KeepsOut z0 (execNot x f s) := by
  unfold execNot
  refine KeepsOut.next ?_
  refine State.pipR_keeps ?_
  exact h0

theorem execShl_keeps {z0 : State} {x : PipAt} {f : RForm} {s : State} (h0 : Keeps z0 s) : KeepsOut z0 (execShl x f s) := by
  unfold execShl
  refine KeepsOut.next ?_
  refine State.pipR_keeps ?_
  exact h0

theorem execAsr_keeps {z0 : State} {x : PipAt} {f : RForm} {s : State} (h0 : Keeps z0 s) : KeepsOut z0 (execAsr x f s) := by
  unfold execAsr
  extract_lets -merge +onlyGivenNames v1
  clear_value v1
  refine KeepsOut.next ?_
  refine State.pipR_keeps ?_
  exact h0

theorem execLsr_keeps {z0 : State} {x : PipAt} {f : RForm} {s : State} (h0 : Keeps z0 s) : KeepsOut z0 (execLsr x f s) := by
  unfold execLsr
  refine KeepsOut.next ?_
  refine State.pipR_keeps ?_
  exact h0

theorem execCls_keeps {z0 : State} {x : PipAt} {f : RForm} {s : State} (h0 : Keeps z0 s) : KeepsOut z0 (execCls x f s) := by
  unfold execCls
  refine KeepsOut.next ?_
  refine State.pipR_keeps ?_
  exact h0

theorem execAdd2_keeps {z0 : State} {x : PipAt} {f : RForm} {s : State} (h0 : Keeps z0 s) : KeepsOut z0 (execAdd2 x f s) := by
  unfold execAdd2
  refine KeepsOut.next ?_
  refine State.pipR_keeps ?_
  exact h0

theorem execSub2_keeps {z0 : State} {x : PipAt} {f : RForm} {s : State} (h0 : Keeps z0 s) : KeepsOut z0 (execSub2 x f s) := by
  unfold execSub2
  refine KeepsOut.next ?_
  refine State.pipR_keeps ?_
  exact h0

theorem execNegh_keeps {z0 : State} {x : PipAt} {f : RForm} {s : State} (h0 : Keeps z0 s) : KeepsOut z0 (execNegh x f s) := by
  unfold execNegh
  refine KeepsOut.next ?_
  refine State.pipR_keeps ?_
  exact h0

theorem execQmul2_keeps {z0 : State} {x : PipAt} {f : RForm} {s : State} (h0 : Keeps z0 s) : KeepsOut z0 (execQmul2 x f s) := by
  unfold execQmul2
  extract_lets -merge +onlyGivenNames v1
  clear_value v1
  refine KeepsOut.next ?_
  refine State.pipR_keeps ?_
  exact h0

theorem execMull_keeps {z0 : State} {x : PipAt} {f : RForm} {s : State} (h0 : Keeps z0 s) : KeepsOut z0 (execMull x f s) := by
  unfold execMull
  refine KeepsOut.next ?_
  refine State.pipR_keeps ?_
  exact h0

theorem execMul_keeps {z0 : State} {x : PipAt} {f : RForm} {s : State} (h0 : Keeps z0 s) : KeepsOut z0 (execMul x f s) := by
  unfold execMul
  refine KeepsOut.next ?_
  refine State.pipR_keeps ?_
  exact h0

theorem execSincos_keeps {z0 : State} {x : PipAt} {f : RForm} {s : State} (h0 : Keeps z0 s) : KeepsOut z0 (execSincos x f s) := by
  unfold execSincos
  refine KeepsOut.next ?_
  refine State.pipR_keeps ?_
  exact h0

theorem execVlim_keeps {z0 : State} {x : PipAt} {f : RForm} {s : State} (h0 : Keeps z0 s) : KeepsOut z0 (execVlim x f s) := by
  unfold execVlim
  refine KeepsOut.next ?_
  refine State.pipR_keeps ?_
  exact h0

theorem execMaxi_keeps {z0 : State} {x : PipAt} {f : RForm} {s : State} (h0 : Keeps z0 s) : KeepsOut z0 (execMaxi x f s) := by
  unfold execMaxi
  refine KeepsOut.next ?_
  refine State.pipR_keeps ?_
  exact h0

theorem execMini_keeps {z0 : State} {x : PipAt} {f : RForm} {s : State} (h0 : Keeps z0 s) : KeepsOut z0 (execMini x f s) := by
  unfold execMini
  refine KeepsOut.next ?_
  refine State.pipR_keeps ?_
  exact h0

theorem execMaxai_keeps {z0 : State} {x : PipAt} {f : RForm} {s : State} (h0 : Keeps z0 s) : KeepsOut z0 (execMaxai x f s) := by
  unfold execMaxai
  refine KeepsOut.next ?_
  refine State.pipR_keeps ?_
  exact h0

theorem execNop_keeps {z0 : State} {x : PipAt} {f : RForm} {s : State} (h0 : Keeps z0 s) : KeepsOut z0 (execNop x f s) := by
  unfold execNop
  refine KeepsOut.next ?_
  refine State.pipR_keeps ?_
  exact h0

/-! PipAcc -/

theorem execMac1_keeps {z0 : State} {x : PipAt} {f : RForm} {s : State} (h0 : Keeps z0 s) : KeepsOut z0 (execMac1 x f s) := by
  unfold execMac1
  refine KeepsOut.next ?_
  refine State.pipR_keeps ?_
  exact h0

theorem execMsu1_keeps {z0 : State} {x : PipAt} {f : RForm} {s : State} (h0 : Keeps z0 s) : KeepsOut z0 (execMsu1 x f s) := by
  unfold execMsu1
  refine KeepsOut.next ?_
  refine State.pipR_keeps ?_
  exact h0

theorem execMac1z_keeps {z0 : State} {x : PipAt} {f : RForm} {s : State} (h0 : Keeps z0 s) : KeepsOut z0 (execMac1z x f s) := by
  unfold execMac1z
  refine KeepsOut.next ?_
  refine State.pipR_keeps ?_
  exact h0

theorem State.mac4_keeps {z0 : State} {s : State} {x : PipAt} {f : RForm} {g : Int → Int → Int} (h0 : Keeps z0 s) : Keeps z0 (State.mac4 s x f g) := by
  unfold State.mac4
  refine State.pipR_keeps ?_
  exact h0

theorem execMac4_keeps {z0 : State} {x : PipAt} {f : RForm} {s : State} (h0 : Keeps z0 s) : KeepsOut z0 (execMac4 x f s) := by
  unfold execMac4
  refine KeepsOut.next ?_
  refine State.mac4_keeps ?_
  exact h0

theorem execMsu4_keeps {z0 : State} {x : PipAt} {f : RForm} {s : State} (h0 : Keeps z0 s) : KeepsOut z0 (execMsu4 x f s) := by
  unfold execMsu4
  refine KeepsOut.next ?_
  refine State.mac4_keeps ?_
  exact h0

theorem execMac4z_keeps {z0 : State} {x : PipAt} {f : RForm} {s : State} (h0 : Keeps z0 s) : KeepsOut z0 (execMac4z x f s) := by
  unfold execMac4z
  refine KeepsOut.next ?_
  refine State.mac4_keeps ?_
  exact h0

theorem execMva_keeps {z0 : State} {x : PipAt} {f : RForm} {s : State} (h0 : Keeps z0 s) : KeepsOut z0 (execMva x f s) := by
  unfold execMva
  extract_lets -merge +onlyGivenNames v1 v2
  clear_value v1
  clear_value v2
  refine KeepsOut.next ?_
  refine State.pipCore_keeps ?_
  exact h0

theorem execMvaw_keeps {z0 : State} {x : PipAt} {f : RForm} {s : State} (h0 : Keeps z0 s) : KeepsOut z0 (execMvaw x f s) := by
  unfold execMvaw
  extract_lets -merge +onlyGivenNames v1 v2
  clear_value v1
  clear_value v2
  refine KeepsOut.next ?_
  refine State.pipCore_keeps ?_
  exact h0

theorem execLda_keeps {z0 : State} {x : PipAt} {f : RForm} {s : State} (h0 : Keeps z0 s) : KeepsOut z0 (execLda x f s) := by
  unfold execLda
  refine KeepsOut.next ?_
  refine State.pipR_keeps ?_
  exact h0

theorem execClra_keeps {z0 : State} {x : PipAt} {f : RForm} {s : State} (h0 : Keeps z0 s) : KeepsOut z0 (execClra x f s) := by
  unfold execClra
  refine KeepsOut.next ?_
  refine State.pipR_keeps ?_
  exact h0

theorem execAnrm_keeps {z0 : State} {x : PipAt} {f : RForm} {s : State} (h0 : Keeps z0 s) : KeepsOut z0 (execAnrm x f s) := by
  unfold execAnrm
  extract_lets -merge +onlyGivenNames v1
  clear_value v1
  refine KeepsOut.next ?_
  refine State.pipCore_keeps ?_
  exact h0

theorem execSnrm_keeps {z0 : State} {x : PipAt} {f : RForm} {s : State} (h0 : Keeps z0 s) : KeepsOut z0 (execSnrm x f s) := by
  unfold execSnrm
  refine KeepsOut.next ?_
  refine State.pipR_keeps ?_
  exact h0

theorem execSaln_keeps {z0 : State} {x : PipAt} {f : RForm} {s : State} (h0 : Keeps z0 s) : KeepsOut z0 (execSaln x f s) := by
  unfold execSaln
  extract_lets -merge +onlyGivenNames v1
  clear_value v1
  refine KeepsOut.next ?_
  refine State.pipR_keeps ?_
  exact h0

/-! PipMem -/

theorem State.refuseAccess_keeps {z0 : State} {s : State} {k : Core} {a : Nat} (h0 : Keeps z0 s) : Keeps z0 (State.refuseAccess s k a) := by
  unfold State.refuseAccess
  refine State.abandon_keeps ?_
  refine State.raiseMod_keeps ?_
  exact h0

theorem State.loadWith_keeps {z0 : State} {s : State} {k : Core} {f : MForm} {n : Nat} {dataEcc : EccSeen} {take : State → Nat → State} (h0 : Keeps z0 s) (hf1 : ∀ y1 y2, Keeps z0 y1 → Keeps z0 (take y1 y2)) : Keeps z0 (State.loadWith s k f n dataEcc take) := by
  unfold State.loadWith
  extract_lets -merge +onlyGivenNames v1 v2
  clear_value v1
  clear_value v2
  refine Keeps.ite ?_ ?_
  · refine State.abandon_keeps ?_
    exact h0
  · refine Keeps.ite ?_ ?_
    · refine State.abandon_keeps ?_
      exact h0
    · refine Keeps.ite ?_ ?_
      · refine State.refuseAccess_keeps ?_
        exact h0
      · refine Keeps.ite ?_ ?_
        · refine Keeps.ite ?_ ?_
          · refine State.abandon_keeps ?_
            refine State.coreUncorr_keeps ?_
            exact h0
          · refine State.abandon_keeps ?_
            exact h0
        · extract_lets -merge +onlyGivenNames v3
          have hv3 : Keeps z0 v3 := by
            unfold v3
            refine Keeps.ite ?_ ?_
            · refine Keeps.ite ?_ ?_
              · refine State.coreCorr_keeps ?_
                exact h0
              · refine State.corrAt_keeps ?_
                exact h0
            · exact h0
          clear_value v3
          refine hf1 _ _ ?_
          refine State.afterRead_keeps ?_
          exact hv3

theorem State.pipLoad_keeps {z0 : State} {s : State} {x : PipAt} {f : MForm} {n : Nat} {dest : List Nat} {legal : Bool} {dataEcc : EccSeen} {writes : Nat → List (Nat × Nat)} {half : Option Bool} (h0 : Keeps z0 s) : Keeps z0 (State.pipLoad s x f n dest legal dataEcc writes half) := by
  unfold State.pipLoad
  refine State.pipFrame_keeps ?_ ?_
  · exact h0
  · intro s1 x2
    extract_lets -merge +onlyGivenNames v3
    refine State.loadWith_keeps ?_ ?_
    · exact x2
    · intro s4 x5 x6
      extract_lets -merge +onlyGivenNames v7
      clear_value v7
      refine State.modCore_keeps ?_
      exact x6

theorem execLd_keeps {z0 : State} {x : PipAt} {f : MForm} {dataEcc : EccSeen} {s : State} (h0 : Keeps z0 s) : KeepsOut z0 (execLd x f dataEcc s) := by
  unfold execLd
  refine KeepsOut.next ?_
  refine State.pipLoad_keeps ?_
  exact h0

theorem execLdw_keeps {z0 : State} {x : PipAt} {f : MForm} {dataEcc : EccSeen} {s : State} (h0 : Keeps z0 s) : KeepsOut z0 (execLdw x f dataEcc s) := by
  unfold execLdw
  refine KeepsOut.next ?_
  refine State.pipLoad_keeps ?_
  exact h0

theorem execLdh_keeps {z0 : State} {x : PipAt} {f : MForm} {dataEcc : EccSeen} {s : State} (h0 : Keeps z0 s) : KeepsOut z0 (execLdh x f dataEcc s) := by
  unfold execLdh
  refine KeepsOut.next ?_
  refine State.pipLoad_keeps ?_
  exact h0

theorem execLdq_keeps {z0 : State} {x : PipAt} {f : MForm} {dataEcc : EccSeen} {s : State} (h0 : Keeps z0 s) : KeepsOut z0 (execLdq x f dataEcc s) := by
  unfold execLdq
  refine KeepsOut.next ?_
  refine State.pipLoad_keeps ?_
  exact h0

theorem execMacl4_keeps {z0 : State} {x : PipAt} {f : MForm} {dataEcc : EccSeen} {s : State} (h0 : Keeps z0 s) : KeepsOut z0 (execMacl4 x f dataEcc s) := by
  unfold execMacl4
  refine KeepsOut.next ?_
  refine State.pipFrame_keeps ?_ ?_
  · exact h0
  · intro s1 x2
    extract_lets -merge +onlyGivenNames v3 v4
    clear_value v4
    refine Keeps.ite ?_ ?_
    · refine State.refuseAccess_keeps ?_
      exact x2
    · refine State.loadWith_keeps ?_ ?_
      · exact x2
      · intro s5 x6 x7
        refine State.modCore_keeps ?_
        exact x7

theorem State.pipStore_keeps {z0 : State} {s : State} {x : PipAt} {f : MForm} {n : Nat} {codes : List Nat} {legal : Bool} {data : CoreDyn → Nat} (h0 : Keeps z0 s) : Keeps z0 (State.pipStore s x f n codes legal data) := by
  unfold State.pipStore
  refine State.pipFrame_keeps ?_ ?_
  · exact h0
  · intro s1 x2
    extract_lets -merge +onlyGivenNames v3 v4 v5 v6
    clear_value v4
    clear_value v5
    clear_value v6
    refine Keeps.ite ?_ ?_
    · refine State.abandon_keeps ?_
      exact x2
    · refine Keeps.ite ?_ ?_
      · refine State.abandon_keeps ?_
        exact x2
      · refine Keeps.ite ?_ ?_
        · refine State.refuseAccess_keeps ?_
          exact x2
        · extract_lets -merge +onlyGivenNames v7 v8
          clear_value v7
          have hv8 : Keeps z0 v8 := by
            unfold v8
            refine Keeps.ite ?_ ?_
            · refine State.wr_keeps ?_
              exact x2
            · exact x2
          clear_value v8
          refine State.modCore_keeps ?_
          exact hv8

theorem execSt_keeps {z0 : State} {x : PipAt} {f : MForm} {s : State} (h0 : Keeps z0 s) : KeepsOut z0 (execSt x f s) := by
  unfold execSt
  refine KeepsOut.next ?_
  refine State.pipStore_keeps ?_
  exact h0

theorem execSth_keeps {z0 : State} {x : PipAt} {f : MForm} {s : State} (h0 : Keeps z0 s) : KeepsOut z0 (execSth x f s) := by
  unfold execSth
  refine KeepsOut.next ?_
  refine State.pipStore_keeps ?_
  exact h0

theorem execStq_keeps {z0 : State} {x : PipAt} {f : MForm} {s : State} (h0 : Keeps z0 s) : KeepsOut z0 (execStq x f s) := by
  unfold execStq
  refine KeepsOut.next ?_
  refine State.pipStore_keeps ?_
  exact h0

theorem State.landStore_keeps {z0 : State} {s : State} {k : Core} {x : StoreDyn} (h0 : Keeps z0 s) : Keeps z0 (State.landStore s k x) := by
  unfold State.landStore
  split
  · refine KeepsP.fst ?_
    refine State.writeWords_keeps ?_
    exact h0
  · refine State.wr_keeps ?_
    exact h0

theorem execStoreAccepted_keeps {z0 : State} {c : Core} {s : State} (h0 : Keeps z0 s) : KeepsOut z0 (execStoreAccepted c s) := by
  unfold execStoreAccepted
  split
  · refine KeepsOut.next ?_
    exact h0
  · extract_lets -merge +onlyGivenNames v1
    have hv1 : Keeps z0 v1 := by
      unfold v1
      refine State.landStore_keeps ?_
      refine State.modCore_keeps ?_
      exact h0
    clear_value v1
    refine KeepsOut.ite ?_ ?_
    · refine KeepsOut.next ?_
      refine State.showPc_keeps ?_
      refine State.afterStores_keeps ?_
      exact hv1
    · refine KeepsOut.next ?_
      exact hv1

/-! PowerUp -/

theorem State.rindLost_keeps {z0 s : State} (h0 : Keeps z0 s) : Keeps z0 (State.rindLost s) :=
  h0.anew rfl rfl (fun i => Regs.wf_filter i.regs) rfl rfl (Nat.zero_le _) rfl rfl rfl

theorem execRindStart_keeps {z0 : State} {s : State} (h0 : Keeps z0 s) : KeepsOut z0 (execRindStart s) := by
  unfold execRindStart
  refine KeepsOut.ite ?_ ?_
  · refine KeepsOut.next ?_
    exact h0
  · refine KeepsOut.next ?_
    refine State.set_keeps ?_
    refine State.set_keeps ?_
    refine State.modBoot_keeps ?_ ?_
    · refine State.rindLost_keeps ?_
      exact h0
    · exact fun _ => ⟨rfl, rfl⟩

theorem execRindDropout_keeps {z0 : State} {s : State} (h0 : Keeps z0 s) : KeepsOut z0 (execRindDropout s) := by
  unfold execRindDropout
  refine KeepsOut.next ?_
  refine State.rindLost_keeps ?_
  exact h0

theorem execPresenceRecognised_keeps {z0 : State} {s : State} (h0 : Keeps z0 s) : KeepsOut z0 (execPresenceRecognised s) := by
  unfold execPresenceRecognised
  refine KeepsOut.ite ?_ ?_
  · refine KeepsOut.next ?_
    exact h0
  · extract_lets -merge +onlyGivenNames v1
    have hv1 : Keeps z0 v1 := by
      unfold v1
      refine State.set_keeps ?_
      refine State.set_keeps ?_
      exact h0
    clear_value v1
    refine KeepsOut.next ?_
    refine State.startSequence_keeps ?_
    refine State.set_keeps ?_
    exact hv1

theorem execRemovalRecognised_keeps {z0 : State} {s : State} (h0 : Keeps z0 s) : KeepsOut z0 (execRemovalRecognised s) := by
  unfold execRemovalRecognised
  refine KeepsOut.ite ?_ ?_
  · refine KeepsOut.next ?_
    exact h0
  · extract_lets -merge +onlyGivenNames v1 v2
    clear_value v1
    have hv2 : Keeps z0 v2 := by
      unfold v2
      refine State.set_keeps ?_
      refine State.set_keeps ?_
      refine State.set_keeps ?_
      refine State.drawn_keeps ?_
      exact h0
    clear_value v2
    refine KeepsOut.next ?_
    refine State.forgive_keeps ?_
    refine State.leaveFor_keeps ?_
    exact hv2

theorem execDepartureNotice_keeps {z0 : State} {s : State} (h0 : Keeps z0 s) : KeepsOut z0 (execDepartureNotice s) := by
  unfold execDepartureNotice
  refine KeepsOut.ite ?_ ?_
  · refine KeepsOut.next ?_
    exact h0
  · extract_lets -merge +onlyGivenNames v1
    clear_value v1
    refine KeepsOut.next ?_
    refine State.modBoot_keeps ?_ ?_
    · refine State.broadcast_keeps ?_
      exact h0
    · exact fun _ => ⟨rfl, rfl⟩

theorem execSwitchedDomainsOff_keeps {z0 : State} {s : State} (h0 : Keeps z0 s) : KeepsOut z0 (execSwitchedDomainsOff s) := by
  unfold execSwitchedDomainsOff
  refine KeepsOut.next ?_
  refine Keeps.ite ?_ ?_
  · refine State.startSequence_keeps ?_
    refine State.domainsOff_keeps ?_
    exact h0
  · exact h0

theorem State.modFeed_keeps {z0 : State} {s : State} {f : Fin 2} {g : FeedDyn → FeedDyn} (h0 : Keeps z0 s) : Keeps z0 (State.modFeed s f g) := by
  unfold State.modFeed
  refine State.modBoot_keeps ?_ ?_
  · exact h0
  · (intro b; split <;> exact ⟨rfl, rfl⟩)

theorem State.feedActs_keeps {z0 : State} {s : State} (h0 : Keeps z0 s) : Keeps z0 (State.feedActs s) := by
  unfold State.feedActs
  extract_lets -merge +onlyGivenNames v1 v2
  clear_value v1
  clear_value v2
  refine Keeps.ite ?_ ?_
  · extract_lets -merge +onlyGivenNames v3
    clear_value v3
    refine State.set_keeps ?_
    refine State.set_keeps ?_
    refine State.drawn_keeps ?_
    exact h0
  · refine State.setB_keeps ?_
    refine State.setB_keeps ?_
    exact h0

theorem State.rindRaise_keeps {z0 : State} {s : State} {code : Nat} {sev : Nat} {detail : Nat} (h0 : Keeps z0 s) : Keeps z0 (State.rindRaise s code sev detail) := by
  unfold State.rindRaise
  refine Keeps.ite ?_ ?_
  · refine State.raiseMod_keeps ?_
    exact h0
  · refine State.rindLog_keeps ?_
    exact h0

theorem execFeedValid_keeps {z0 : State} {f : Fin 2} {s : State} (h0 : Keeps z0 s) : KeepsOut z0 (execFeedValid f s) := by
  unfold execFeedValid
  refine KeepsOut.ite ?_ ?_
  · refine KeepsOut.next ?_
    exact h0
  · refine KeepsOut.next ?_
    refine State.feedActs_keeps ?_
    refine State.set_keeps ?_
    refine State.modFeed_keeps ?_
    exact h0

theorem State.feedOut_keeps {z0 : State} {s : State} {f : Fin 2} (h0 : Keeps z0 s) : Keeps z0 (State.feedOut s f) := by
  unfold State.feedOut
  refine Keeps.ite ?_ ?_
  · exact h0
  · extract_lets -merge +onlyGivenNames v1 v2 v3
    clear_value v1
    have hv2 : Keeps z0 v2 := by
      unfold v2
      refine State.set_keeps ?_
      refine State.modFeed_keeps ?_
      exact h0
    clear_value v2
    have hv3 : Keeps z0 v3 := by
      unfold v3
      refine State.feedActs_keeps ?_
      refine State.bump_keeps ?_
      exact hv2
    clear_value v3
    refine Keeps.ite ?_ ?_
    · refine State.rindRaise_keeps ?_
      refine State.modFeed_keeps ?_
      refine State.set_keeps ?_
      exact hv3
    · refine Keeps.ite ?_ ?_
      · exact hv3
      · refine State.forgive_keeps ?_
        exact hv3

theorem execFeedInvalid_keeps {z0 : State} {f : Fin 2} {s : State} (h0 : Keeps z0 s) : KeepsOut z0 (execFeedInvalid f s) := by
  unfold execFeedInvalid
  refine KeepsOut.next ?_
  refine State.feedOut_keeps ?_
  exact h0

theorem execFeedStable_keeps {z0 : State} {f : Fin 2} {s : State} (h0 : Keeps z0 s) : KeepsOut z0 (execFeedStable f s) := by
  unfold execFeedStable
  refine KeepsOut.ite ?_ ?_
  · refine KeepsOut.next ?_
    exact h0
  · extract_lets -merge +onlyGivenNames v1 v2 v3
    clear_value v1
    have hv2 : Keeps z0 v2 := by
      unfold v2
      refine State.modFeed_keeps ?_
      exact h0
    clear_value v2
    have hv3 : Keeps z0 v3 := by
      unfold v3
      refine Keeps.ite ?_ ?_
      · refine State.rindRaise_keeps ?_
        exact hv2
      · exact hv2
    clear_value v3
    refine KeepsOut.next ?_
    refine State.startSequence_keeps ?_
    exact hv3

theorem execFeedCurrentLimit_keeps {z0 : State} {f : Fin 2} {s : State} (h0 : Keeps z0 s) : KeepsOut z0 (execFeedCurrentLimit f s) := by
  unfold execFeedCurrentLimit
  refine KeepsOut.next ?_
  refine State.modFeed_keeps ?_
  refine State.feedOut_keeps ?_
  exact h0

theorem execFeedRetry_keeps {z0 : State} {f : Fin 2} {s : State} (h0 : Keeps z0 s) : KeepsOut z0 (execFeedRetry f s) := by
  unfold execFeedRetry
  refine KeepsOut.next ?_
  refine State.modFeed_keeps ?_
  exact h0

theorem execPowerFail_keeps {z0 : State} {s : State} (h0 : Keeps z0 s) : KeepsOut z0 (execPowerFail s) := by
  unfold execPowerFail
  refine KeepsOut.ite ?_ ?_
  · refine KeepsOut.next ?_
    exact h0
  · extract_lets -merge +onlyGivenNames v1
    have hv1 : Keeps z0 v1 := by
      unfold v1
      refine State.leaveFor_keeps ?_
      exact h0
    clear_value v1
    refine KeepsOut.next ?_
    refine State.modFeed_keeps ?_
    refine State.modFeed_keeps ?_
    exact hv1

theorem execPowerSequenceStep_keeps {z0 : State} {s : State} (h0 : Keeps z0 s) : KeepsOut z0 (execPowerSequenceStep s) := by
  unfold execPowerSequenceStep
  extract_lets -merge +onlyGivenNames v1
  refine KeepsOut.next ?_
  refine Keeps.ite ?_ ?_
  · refine State.modBoot_keeps ?_ ?_
    · exact h0
    · exact fun _ => ⟨rfl, rfl⟩
  · exact h0

theorem execDomainReady_keeps {z0 : State} {d : Fin 8} {s : State} (h0 : Keeps z0 s) : KeepsOut z0 (execDomainReady d s) := by
  unfold execDomainReady
  extract_lets -merge +onlyGivenNames v1
  refine KeepsOut.ite ?_ ?_
  · refine KeepsOut.next ?_
    exact h0
  · extract_lets -merge +onlyGivenNames v2 v3
    have hv2 : Keeps z0 v2 := by
      unfold v2
      refine State.modBoot_keeps ?_ ?_
      · refine State.putBit_keeps ?_
        exact h0
      · exact fun _ => ⟨rfl, rfl⟩
    clear_value v2
    have hv3 : Keeps z0 v3 := by
      unfold v3
      refine Keeps.ite ?_ ?_
      · refine State.fieldOn_keeps ?_
        exact hv2
      · refine State.coreLevels_keeps ?_
        exact hv2
    clear_value v3
    refine KeepsOut.ite ?_ ?_
    · refine KeepsOut.next ?_
      exact hv3
    · extract_lets -merge +onlyGivenNames v5
      have hv5 : Keeps z0 v5 := by
        unfold v5
        refine State.modBoot_keeps ?_ ?_
        · exact hv3
        · exact fun _ => ⟨rfl, rfl⟩
      clear_value v5
      refine KeepsOut.next ?_
      refine Keeps.ite ?_ ?_
      · exact hv5
      · refine State.beginIntake_keeps ?_
        exact hv5

theorem execDomainReadyTimeout_keeps {z0 : State} {s : State} (h0 : Keeps z0 s) : KeepsOut z0 (execDomainReadyTimeout s) := by
  unfold execDomainReadyTimeout
  extract_lets -merge +onlyGivenNames v1
  refine KeepsOut.ite ?_ ?_
  · refine KeepsOut.next ?_
    exact h0
  · extract_lets -merge +onlyGivenNames v2
    have hv2 : Keeps z0 v2 := by
      unfold v2
      refine State.set_keeps ?_
      refine State.set_keeps ?_
      refine State.domainsOff_keeps ?_
      exact h0
    clear_value v2
    refine KeepsOut.next ?_
    refine Keeps.ite ?_ ?_
    · refine State.rindLog_keeps ?_
      refine State.modBoot_keeps ?_ ?_
      · exact hv2
      · exact fun _ => ⟨rfl, rfl⟩
    · refine State.modBoot_keeps ?_ ?_
      · exact hv2
      · exact fun _ => ⟨rfl, rfl⟩

theorem execPowerUpRetry_keeps {z0 : State} {s : State} (h0 : Keeps z0 s) : KeepsOut z0 (execPowerUpRetry s) := by
  unfold execPowerUpRetry
  refine KeepsOut.next ?_
  refine Keeps.ite ?_ ?_
  · refine State.modBoot_keeps ?_ ?_
    · exact h0
    · exact fun _ => ⟨rfl, rfl⟩
  · exact h0

theorem execResetAsserted_keeps {z0 : State} {s : State} (h0 : Keeps z0 s) : KeepsOut z0 (execResetAsserted s) := by
  unfold execResetAsserted
  refine KeepsOut.ite ?_ ?_
  · refine KeepsOut.next ?_
    refine State.modBoot_keeps ?_ ?_
    · exact h0
    · exact fun _ => ⟨rfl, rfl⟩
  · extract_lets -merge +onlyGivenNames v2
    have hv2 : Keeps z0 v2 := by
      unfold v2
      refine State.releaseToken_keeps ?_
      exact h0
    clear_value v2
    refine KeepsOut.next ?_
    refine State.modBoot_keeps ?_ ?_
    · refine State.clearDomains_keeps ?_
      exact hv2
    · exact fun _ => ⟨rfl, rfl⟩

theorem execResetReleased_keeps {z0 : State} {s : State} (h0 : Keeps z0 s) : KeepsOut z0 (execResetReleased s) := by
  unfold execResetReleased
  refine KeepsOut.ite ?_ ?_
  · refine KeepsOut.next ?_
    exact h0
  · extract_lets -merge +onlyGivenNames v1
    have hv1 : Keeps z0 v1 := by
      unfold v1
      refine State.forgive_keeps ?_
      refine State.modBoot_keeps ?_ ?_
      · exact h0
      · exact fun _ => ⟨rfl, rfl⟩
    clear_value v1
    refine KeepsOut.next ?_
    refine Keeps.ite ?_ ?_
    · exact hv1
    · refine Keeps.ite ?_ ?_
      · refine State.beginIntake_keeps ?_
        exact hv1
      · refine State.startSequence_keeps ?_
        exact hv1

theorem execStrapChange_keeps {z0 : State} {addr : Nat} {rank : Nat} {s : State} (h0 : Keeps z0 s) : KeepsOut z0 (execStrapChange addr rank s) := by
  unfold execStrapChange
  extract_lets -merge +onlyGivenNames v1 v2 v3
  clear_value v1
  clear_value v2
  have hv3 : Keeps z0 v3 := by
    unfold v3
    refine State.set_keeps ?_
    refine State.set_keeps ?_
    exact h0
  clear_value v3
  refine KeepsOut.ite ?_ ?_
  · refine KeepsOut.next ?_
    refine State.raiseMod_keeps ?_
    refine State.set_keeps ?_
    exact hv3
  · refine KeepsOut.next ?_
    exact hv3

theorem State.tapLoad_keeps {z0 : State} {s : State} {ir : Nat} {service : Bool} (h0 : Keeps z0 s) : Keeps z0 (State.tapLoad s ir service) := by
  unfold State.tapLoad
  extract_lets -merge +onlyGivenNames v1 v2
  clear_value v1
  have hv2 : Keeps z0 v2 := by
    unfold v2
    refine State.modBoot_keeps ?_ ?_
    · exact h0
    · exact fun _ => ⟨rfl, rfl⟩
  clear_value v2
  refine Keeps.ite ?_ ?_
  · refine State.rindRaise_keeps ?_
    exact hv2
  · exact hv2

theorem execTapReset_keeps {z0 : State} {s : State} (h0 : Keeps z0 s) : KeepsOut z0 (execTapReset s) := by
  unfold execTapReset
  refine KeepsOut.next ?_
  refine State.modBoot_keeps ?_ ?_
  · exact h0
  · exact fun _ => ⟨rfl, rfl⟩

theorem execTapExtest_keeps {z0 : State} {s : State} (h0 : Keeps z0 s) : KeepsOut z0 (execTapExtest s) := by
  unfold execTapExtest
  refine KeepsOut.next ?_
  refine State.tapLoad_keeps ?_
  exact h0

theorem execTapIdcode_keeps {z0 : State} {s : State} (h0 : Keeps z0 s) : KeepsOut z0 (execTapIdcode s) := by
  unfold execTapIdcode
  refine KeepsOut.next ?_
  refine State.tapLoad_keeps ?_
  exact h0

theorem execTapSamplePreload_keeps {z0 : State} {pins : List Bool} {shifted : List Bool} {s : State} (h0 : Keeps z0 s) : KeepsOut z0 (execTapSamplePreload pins shifted s) := by
  unfold execTapSamplePreload
  refine KeepsOut.next ?_
  refine State.modBoot_keeps ?_ ?_
  · refine State.tapLoad_keeps ?_
    exact h0
  · exact fun _ => ⟨rfl, rfl⟩

theorem execTapHighz_keeps {z0 : State} {s : State} (h0 : Keeps z0 s) : KeepsOut z0 (execTapHighz s) := by
  unfold execTapHighz
  refine KeepsOut.next ?_
  refine State.tapLoad_keeps ?_
  exact h0

theorem execTapClamp_keeps {z0 : State} {s : State} (h0 : Keeps z0 s) : KeepsOut z0 (execTapClamp s) := by
  unfold execTapClamp
  refine KeepsOut.next ?_
  refine State.tapLoad_keeps ?_
  exact h0

theorem execTapBypass_keeps {z0 : State} {code : Nat} {s : State} (h0 : Keeps z0 s) : KeepsOut z0 (execTapBypass code s) := by
  unfold execTapBypass
  refine KeepsOut.ite ?_ ?_
  · refine KeepsOut.next ?_
    exact h0
  · refine KeepsOut.next ?_
    refine State.modBoot_keeps ?_ ?_
    · refine State.tapLoad_keeps ?_
      exact h0
    · exact fun _ => ⟨rfl, rfl⟩

end Sys2Proof.Machine
end

