-- ==== Sys2Proof/Laws/State.lean ====
section
/-!
SUPPORT. Laws/State.lean: what each named update of the state leaves as it was, one lemma for each other field.
-/

namespace Sys2Proof.Machine

variable (s : State)


@[simp] theorem State.set_pending (f : Fld) (v : Nat) : (s.set f v).pending = s.pending := rfl
@[simp] theorem State.set_draws (f : Fld) (v : Nat) : (s.set f v).draws = s.draws := rfl
@[simp] theorem State.set_mem (f : Fld) (v : Nat) : (s.set f v).mem = s.mem := rfl
@[simp] theorem State.set_staged (f : Fld) (v : Nat) : (s.set f v).staged = s.staged := rfl
@[simp] theorem State.set_arc (f : Fld) (v : Nat) : (s.set f v).arc = s.arc := rfl
@[simp] theorem State.set_faults (f : Fld) (v : Nat) : (s.set f v).faults = s.faults := rfl
@[simp] theorem State.set_ax (f : Fld) (v : Nat) : (s.set f v).ax = s.ax := rfl
@[simp] theorem State.set_pwm (f : Fld) (v : Nat) : (s.set f v).pwm = s.pwm := rfl
@[simp] theorem State.set_bus (f : Fld) (v : Nat) : (s.set f v).bus = s.bus := rfl
@[simp] theorem State.set_sup (f : Fld) (v : Nat) : (s.set f v).sup = s.sup := rfl
@[simp] theorem State.set_prof (f : Fld) (v : Nat) : (s.set f v).prof = s.prof := rfl
@[simp] theorem State.set_grp (f : Fld) (v : Nat) : (s.set f v).grp = s.grp := rfl
@[simp] theorem State.set_clock (f : Fld) (v : Nat) : (s.set f v).clock = s.clock := rfl
@[simp] theorem State.set_host (f : Fld) (v : Nat) : (s.set f v).host = s.host := rfl
@[simp] theorem State.set_outbox (f : Fld) (v : Nat) : (s.set f v).outbox = s.outbox := rfl
@[simp] theorem State.set_sense (f : Fld) (v : Nat) : (s.set f v).sense = s.sense := rfl
@[simp] theorem State.set_startq (f : Fld) (v : Nat) : (s.set f v).startq = s.startq := rfl
@[simp] theorem State.set_sched (f : Fld) (v : Nat) : (s.set f v).sched = s.sched := rfl
@[simp] theorem State.set_twin (f : Fld) (v : Nat) : (s.set f v).twin = s.twin := rfl
@[simp] theorem State.set_leaving (f : Fld) (v : Nat) : (s.set f v).leaving = s.leaving := rfl
@[simp] theorem State.set_sto (f : Fld) (v : Nat) : (s.set f v).sto = s.sto := rfl
@[simp] theorem State.set_fb (f : Fld) (v : Nat) : (s.set f v).fb = s.fb := rfl
@[simp] theorem State.set_pw (f : Fld) (v : Nat) : (s.set f v).pw = s.pw := rfl
@[simp] theorem State.set_core (f : Fld) (v : Nat) : (s.set f v).core = s.core := rfl
@[simp] theorem State.set_net (f : Fld) (v : Nat) : (s.set f v).net = s.net := rfl
@[simp] theorem State.set_time (f : Fld) (v : Nat) : (s.set f v).time = s.time := rfl
@[simp] theorem State.set_acq (f : Fld) (v : Nat) : (s.set f v).acq = s.acq := rfl
@[simp] theorem State.set_can (f : Fld) (v : Nat) : (s.set f v).can = s.can := rfl
@[simp] theorem State.set_fio (f : Fld) (v : Nat) : (s.set f v).fio = s.fio := rfl
@[simp] theorem State.set_boot (f : Fld) (v : Nat) : (s.set f v).boot = s.boot := rfl
@[simp] theorem State.set_byte (f : Fld) (v : Nat) (x : Nat) : (s.set f v).byte x = s.byte x := rfl

@[simp] theorem State.setS_pending (f : Fld) (v : Int) : (s.setS f v).pending = s.pending := rfl
@[simp] theorem State.setS_draws (f : Fld) (v : Int) : (s.setS f v).draws = s.draws := rfl
@[simp] theorem State.setS_mem (f : Fld) (v : Int) : (s.setS f v).mem = s.mem := rfl
@[simp] theorem State.setS_staged (f : Fld) (v : Int) : (s.setS f v).staged = s.staged := rfl
@[simp] theorem State.setS_arc (f : Fld) (v : Int) : (s.setS f v).arc = s.arc := rfl
@[simp] theorem State.setS_faults (f : Fld) (v : Int) : (s.setS f v).faults = s.faults := rfl
@[simp] theorem State.setS_ax (f : Fld) (v : Int) : (s.setS f v).ax = s.ax := rfl
@[simp] theorem State.setS_pwm (f : Fld) (v : Int) : (s.setS f v).pwm = s.pwm := rfl
@[simp] theorem State.setS_bus (f : Fld) (v : Int) : (s.setS f v).bus = s.bus := rfl
@[simp] theorem State.setS_sup (f : Fld) (v : Int) : (s.setS f v).sup = s.sup := rfl
@[simp] theorem State.setS_prof (f : Fld) (v : Int) : (s.setS f v).prof = s.prof := rfl
@[simp] theorem State.setS_grp (f : Fld) (v : Int) : (s.setS f v).grp = s.grp := rfl
@[simp] theorem State.setS_clock (f : Fld) (v : Int) : (s.setS f v).clock = s.clock := rfl
@[simp] theorem State.setS_host (f : Fld) (v : Int) : (s.setS f v).host = s.host := rfl
@[simp] theorem State.setS_outbox (f : Fld) (v : Int) : (s.setS f v).outbox = s.outbox := rfl
@[simp] theorem State.setS_sense (f : Fld) (v : Int) : (s.setS f v).sense = s.sense := rfl
@[simp] theorem State.setS_startq (f : Fld) (v : Int) : (s.setS f v).startq = s.startq := rfl
@[simp] theorem State.setS_sched (f : Fld) (v : Int) : (s.setS f v).sched = s.sched := rfl
@[simp] theorem State.setS_twin (f : Fld) (v : Int) : (s.setS f v).twin = s.twin := rfl
@[simp] theorem State.setS_leaving (f : Fld) (v : Int) : (s.setS f v).leaving = s.leaving := rfl
@[simp] theorem State.setS_sto (f : Fld) (v : Int) : (s.setS f v).sto = s.sto := rfl
@[simp] theorem State.setS_fb (f : Fld) (v : Int) : (s.setS f v).fb = s.fb := rfl
@[simp] theorem State.setS_pw (f : Fld) (v : Int) : (s.setS f v).pw = s.pw := rfl
@[simp] theorem State.setS_core (f : Fld) (v : Int) : (s.setS f v).core = s.core := rfl
@[simp] theorem State.setS_net (f : Fld) (v : Int) : (s.setS f v).net = s.net := rfl
@[simp] theorem State.setS_time (f : Fld) (v : Int) : (s.setS f v).time = s.time := rfl
@[simp] theorem State.setS_acq (f : Fld) (v : Int) : (s.setS f v).acq = s.acq := rfl
@[simp] theorem State.setS_can (f : Fld) (v : Int) : (s.setS f v).can = s.can := rfl
@[simp] theorem State.setS_fio (f : Fld) (v : Int) : (s.setS f v).fio = s.fio := rfl
@[simp] theorem State.setS_boot (f : Fld) (v : Int) : (s.setS f v).boot = s.boot := rfl
@[simp] theorem State.setS_byte (f : Fld) (v : Int) (x : Nat) : (s.setS f v).byte x = s.byte x := rfl

@[simp] theorem State.setB_pending (f : Fld) (b : Bool) : (s.setB f b).pending = s.pending := rfl
@[simp] theorem State.setB_draws (f : Fld) (b : Bool) : (s.setB f b).draws = s.draws := rfl
@[simp] theorem State.setB_mem (f : Fld) (b : Bool) : (s.setB f b).mem = s.mem := rfl
@[simp] theorem State.setB_staged (f : Fld) (b : Bool) : (s.setB f b).staged = s.staged := rfl
@[simp] theorem State.setB_arc (f : Fld) (b : Bool) : (s.setB f b).arc = s.arc := rfl
@[simp] theorem State.setB_faults (f : Fld) (b : Bool) : (s.setB f b).faults = s.faults := rfl
@[simp] theorem State.setB_ax (f : Fld) (b : Bool) : (s.setB f b).ax = s.ax := rfl
@[simp] theorem State.setB_pwm (f : Fld) (b : Bool) : (s.setB f b).pwm = s.pwm := rfl
@[simp] theorem State.setB_bus (f : Fld) (b : Bool) : (s.setB f b).bus = s.bus := rfl
@[simp] theorem State.setB_sup (f : Fld) (b : Bool) : (s.setB f b).sup = s.sup := rfl
@[simp] theorem State.setB_prof (f : Fld) (b : Bool) : (s.setB f b).prof = s.prof := rfl
@[simp] theorem State.setB_grp (f : Fld) (b : Bool) : (s.setB f b).grp = s.grp := rfl
@[simp] theorem State.setB_clock (f : Fld) (b : Bool) : (s.setB f b).clock = s.clock := rfl
@[simp] theorem State.setB_host (f : Fld) (b : Bool) : (s.setB f b).host = s.host := rfl
@[simp] theorem State.setB_outbox (f : Fld) (b : Bool) : (s.setB f b).outbox = s.outbox := rfl
@[simp] theorem State.setB_sense (f : Fld) (b : Bool) : (s.setB f b).sense = s.sense := rfl
@[simp] theorem State.setB_startq (f : Fld) (b : Bool) : (s.setB f b).startq = s.startq := rfl
@[simp] theorem State.setB_sched (f : Fld) (b : Bool) : (s.setB f b).sched = s.sched := rfl
@[simp] theorem State.setB_twin (f : Fld) (b : Bool) : (s.setB f b).twin = s.twin := rfl
@[simp] theorem State.setB_leaving (f : Fld) (b : Bool) : (s.setB f b).leaving = s.leaving := rfl
@[simp] theorem State.setB_sto (f : Fld) (b : Bool) : (s.setB f b).sto = s.sto := rfl
@[simp] theorem State.setB_fb (f : Fld) (b : Bool) : (s.setB f b).fb = s.fb := rfl
@[simp] theorem State.setB_pw (f : Fld) (b : Bool) : (s.setB f b).pw = s.pw := rfl
@[simp] theorem State.setB_core (f : Fld) (b : Bool) : (s.setB f b).core = s.core := rfl
@[simp] theorem State.setB_net (f : Fld) (b : Bool) : (s.setB f b).net = s.net := rfl
@[simp] theorem State.setB_time (f : Fld) (b : Bool) : (s.setB f b).time = s.time := rfl
@[simp] theorem State.setB_acq (f : Fld) (b : Bool) : (s.setB f b).acq = s.acq := rfl
@[simp] theorem State.setB_can (f : Fld) (b : Bool) : (s.setB f b).can = s.can := rfl
@[simp] theorem State.setB_fio (f : Fld) (b : Bool) : (s.setB f b).fio = s.fio := rfl
@[simp] theorem State.setB_boot (f : Fld) (b : Bool) : (s.setB f b).boot = s.boot := rfl
@[simp] theorem State.setB_byte (f : Fld) (b : Bool) (x : Nat) : (s.setB f b).byte x = s.byte x := rfl

@[simp] theorem State.putBit_pending (f : Fld) (i : Nat) (b : Bool) : (s.putBit f i b).pending = s.pending := rfl
@[simp] theorem State.putBit_draws (f : Fld) (i : Nat) (b : Bool) : (s.putBit f i b).draws = s.draws := rfl
@[simp] theorem State.putBit_mem (f : Fld) (i : Nat) (b : Bool) : (s.putBit f i b).mem = s.mem := rfl
@[simp] theorem State.putBit_staged (f : Fld) (i : Nat) (b : Bool) : (s.putBit f i b).staged = s.staged := rfl
@[simp] theorem State.putBit_arc (f : Fld) (i : Nat) (b : Bool) : (s.putBit f i b).arc = s.arc := rfl
@[simp] theorem State.putBit_faults (f : Fld) (i : Nat) (b : Bool) : (s.putBit f i b).faults = s.faults := rfl
@[simp] theorem State.putBit_ax (f : Fld) (i : Nat) (b : Bool) : (s.putBit f i b).ax = s.ax := rfl
@[simp] theorem State.putBit_pwm (f : Fld) (i : Nat) (b : Bool) : (s.putBit f i b).pwm = s.pwm := rfl
@[simp] theorem State.putBit_bus (f : Fld) (i : Nat) (b : Bool) : (s.putBit f i b).bus = s.bus := rfl
@[simp] theorem State.putBit_sup (f : Fld) (i : Nat) (b : Bool) : (s.putBit f i b).sup = s.sup := rfl
@[simp] theorem State.putBit_prof (f : Fld) (i : Nat) (b : Bool) : (s.putBit f i b).prof = s.prof := rfl
@[simp] theorem State.putBit_grp (f : Fld) (i : Nat) (b : Bool) : (s.putBit f i b).grp = s.grp := rfl
@[simp] theorem State.putBit_clock (f : Fld) (i : Nat) (b : Bool) : (s.putBit f i b).clock = s.clock := rfl
@[simp] theorem State.putBit_host (f : Fld) (i : Nat) (b : Bool) : (s.putBit f i b).host = s.host := rfl
@[simp] theorem State.putBit_outbox (f : Fld) (i : Nat) (b : Bool) : (s.putBit f i b).outbox = s.outbox := rfl
@[simp] theorem State.putBit_sense (f : Fld) (i : Nat) (b : Bool) : (s.putBit f i b).sense = s.sense := rfl
@[simp] theorem State.putBit_startq (f : Fld) (i : Nat) (b : Bool) : (s.putBit f i b).startq = s.startq := rfl
@[simp] theorem State.putBit_sched (f : Fld) (i : Nat) (b : Bool) : (s.putBit f i b).sched = s.sched := rfl
@[simp] theorem State.putBit_twin (f : Fld) (i : Nat) (b : Bool) : (s.putBit f i b).twin = s.twin := rfl
@[simp] theorem State.putBit_leaving (f : Fld) (i : Nat) (b : Bool) : (s.putBit f i b).leaving = s.leaving := rfl
@[simp] theorem State.putBit_sto (f : Fld) (i : Nat) (b : Bool) : (s.putBit f i b).sto = s.sto := rfl
@[simp] theorem State.putBit_fb (f : Fld) (i : Nat) (b : Bool) : (s.putBit f i b).fb = s.fb := rfl
@[simp] theorem State.putBit_pw (f : Fld) (i : Nat) (b : Bool) : (s.putBit f i b).pw = s.pw := rfl
@[simp] theorem State.putBit_core (f : Fld) (i : Nat) (b : Bool) : (s.putBit f i b).core = s.core := rfl
@[simp] theorem State.putBit_net (f : Fld) (i : Nat) (b : Bool) : (s.putBit f i b).net = s.net := rfl
@[simp] theorem State.putBit_time (f : Fld) (i : Nat) (b : Bool) : (s.putBit f i b).time = s.time := rfl
@[simp] theorem State.putBit_acq (f : Fld) (i : Nat) (b : Bool) : (s.putBit f i b).acq = s.acq := rfl
@[simp] theorem State.putBit_can (f : Fld) (i : Nat) (b : Bool) : (s.putBit f i b).can = s.can := rfl
@[simp] theorem State.putBit_fio (f : Fld) (i : Nat) (b : Bool) : (s.putBit f i b).fio = s.fio := rfl
@[simp] theorem State.putBit_boot (f : Fld) (i : Nat) (b : Bool) : (s.putBit f i b).boot = s.boot := rfl
@[simp] theorem State.putBit_byte (f : Fld) (i : Nat) (b : Bool) (x : Nat) : (s.putBit f i b).byte x = s.byte x := rfl

@[simp] theorem State.putByte_pending (a v : Nat) : (s.putByte a v).pending = s.pending := rfl
@[simp] theorem State.putByte_draws (a v : Nat) : (s.putByte a v).draws = s.draws := rfl
@[simp] theorem State.putByte_regs (a v : Nat) : (s.putByte a v).regs = s.regs := rfl
@[simp] theorem State.putByte_staged (a v : Nat) : (s.putByte a v).staged = s.staged := rfl
@[simp] theorem State.putByte_arc (a v : Nat) : (s.putByte a v).arc = s.arc := rfl
@[simp] theorem State.putByte_faults (a v : Nat) : (s.putByte a v).faults = s.faults := rfl
@[simp] theorem State.putByte_ax (a v : Nat) : (s.putByte a v).ax = s.ax := rfl
@[simp] theorem State.putByte_pwm (a v : Nat) : (s.putByte a v).pwm = s.pwm := rfl
@[simp] theorem State.putByte_bus (a v : Nat) : (s.putByte a v).bus = s.bus := rfl
@[simp] theorem State.putByte_sup (a v : Nat) : (s.putByte a v).sup = s.sup := rfl
@[simp] theorem State.putByte_prof (a v : Nat) : (s.putByte a v).prof = s.prof := rfl
@[simp] theorem State.putByte_grp (a v : Nat) : (s.putByte a v).grp = s.grp := rfl
@[simp] theorem State.putByte_clock (a v : Nat) : (s.putByte a v).clock = s.clock := rfl
@[simp] theorem State.putByte_host (a v : Nat) : (s.putByte a v).host = s.host := rfl
@[simp] theorem State.putByte_outbox (a v : Nat) : (s.putByte a v).outbox = s.outbox := rfl
@[simp] theorem State.putByte_sense (a v : Nat) : (s.putByte a v).sense = s.sense := rfl
@[simp] theorem State.putByte_startq (a v : Nat) : (s.putByte a v).startq = s.startq := rfl
@[simp] theorem State.putByte_sched (a v : Nat) : (s.putByte a v).sched = s.sched := rfl
@[simp] theorem State.putByte_twin (a v : Nat) : (s.putByte a v).twin = s.twin := rfl
@[simp] theorem State.putByte_leaving (a v : Nat) : (s.putByte a v).leaving = s.leaving := rfl
@[simp] theorem State.putByte_sto (a v : Nat) : (s.putByte a v).sto = s.sto := rfl
@[simp] theorem State.putByte_fb (a v : Nat) : (s.putByte a v).fb = s.fb := rfl
@[simp] theorem State.putByte_pw (a v : Nat) : (s.putByte a v).pw = s.pw := rfl
@[simp] theorem State.putByte_core (a v : Nat) : (s.putByte a v).core = s.core := rfl
@[simp] theorem State.putByte_net (a v : Nat) : (s.putByte a v).net = s.net := rfl
@[simp] theorem State.putByte_time (a v : Nat) : (s.putByte a v).time = s.time := rfl
@[simp] theorem State.putByte_acq (a v : Nat) : (s.putByte a v).acq = s.acq := rfl
@[simp] theorem State.putByte_can (a v : Nat) : (s.putByte a v).can = s.can := rfl
@[simp] theorem State.putByte_fio (a v : Nat) : (s.putByte a v).fio = s.fio := rfl
@[simp] theorem State.putByte_boot (a v : Nat) : (s.putByte a v).boot = s.boot := rfl
@[simp] theorem State.putByte_get (a v : Nat) (g : Fld) : (s.putByte a v).get g = s.get g := rfl

@[simp] theorem State.drawn_pending : (s.drawn).pending = s.pending := rfl
@[simp] theorem State.drawn_regs : (s.drawn).regs = s.regs := rfl
@[simp] theorem State.drawn_mem : (s.drawn).mem = s.mem := rfl
@[simp] theorem State.drawn_staged : (s.drawn).staged = s.staged := rfl
@[simp] theorem State.drawn_arc : (s.drawn).arc = s.arc := rfl
@[simp] theorem State.drawn_faults : (s.drawn).faults = s.faults := rfl
@[simp] theorem State.drawn_ax : (s.drawn).ax = s.ax := rfl
@[simp] theorem State.drawn_pwm : (s.drawn).pwm = s.pwm := rfl
@[simp] theorem State.drawn_bus : (s.drawn).bus = s.bus := rfl
@[simp] theorem State.drawn_sup : (s.drawn).sup = s.sup := rfl
@[simp] theorem State.drawn_prof : (s.drawn).prof = s.prof := rfl
@[simp] theorem State.drawn_grp : (s.drawn).grp = s.grp := rfl
@[simp] theorem State.drawn_clock : (s.drawn).clock = s.clock := rfl
@[simp] theorem State.drawn_host : (s.drawn).host = s.host := rfl
@[simp] theorem State.drawn_outbox : (s.drawn).outbox = s.outbox := rfl
@[simp] theorem State.drawn_sense : (s.drawn).sense = s.sense := rfl
@[simp] theorem State.drawn_startq : (s.drawn).startq = s.startq := rfl
@[simp] theorem State.drawn_sched : (s.drawn).sched = s.sched := rfl
@[simp] theorem State.drawn_twin : (s.drawn).twin = s.twin := rfl
@[simp] theorem State.drawn_leaving : (s.drawn).leaving = s.leaving := rfl
@[simp] theorem State.drawn_sto : (s.drawn).sto = s.sto := rfl
@[simp] theorem State.drawn_fb : (s.drawn).fb = s.fb := rfl
@[simp] theorem State.drawn_pw : (s.drawn).pw = s.pw := rfl
@[simp] theorem State.drawn_core : (s.drawn).core = s.core := rfl
@[simp] theorem State.drawn_net : (s.drawn).net = s.net := rfl
@[simp] theorem State.drawn_time : (s.drawn).time = s.time := rfl
@[simp] theorem State.drawn_acq : (s.drawn).acq = s.acq := rfl
@[simp] theorem State.drawn_can : (s.drawn).can = s.can := rfl
@[simp] theorem State.drawn_fio : (s.drawn).fio = s.fio := rfl
@[simp] theorem State.drawn_boot : (s.drawn).boot = s.boot := rfl
@[simp] theorem State.drawn_get (g : Fld) : (s.drawn).get g = s.get g := rfl
@[simp] theorem State.drawn_byte (x : Nat) : (s.drawn).byte x = s.byte x := rfl

@[simp] theorem State.modAx_pending (n : Slice) (f : AxisDyn → AxisDyn) : (s.modAx n f).pending = s.pending := rfl
@[simp] theorem State.modAx_draws (n : Slice) (f : AxisDyn → AxisDyn) : (s.modAx n f).draws = s.draws := rfl
@[simp] theorem State.modAx_regs (n : Slice) (f : AxisDyn → AxisDyn) : (s.modAx n f).regs = s.regs := rfl
@[simp] theorem State.modAx_mem (n : Slice) (f : AxisDyn → AxisDyn) : (s.modAx n f).mem = s.mem := rfl
@[simp] theorem State.modAx_staged (n : Slice) (f : AxisDyn → AxisDyn) : (s.modAx n f).staged = s.staged := rfl
@[simp] theorem State.modAx_arc (n : Slice) (f : AxisDyn → AxisDyn) : (s.modAx n f).arc = s.arc := rfl
@[simp] theorem State.modAx_faults (n : Slice) (f : AxisDyn → AxisDyn) : (s.modAx n f).faults = s.faults := rfl
@[simp] theorem State.modAx_pwm (n : Slice) (f : AxisDyn → AxisDyn) : (s.modAx n f).pwm = s.pwm := rfl
@[simp] theorem State.modAx_bus (n : Slice) (f : AxisDyn → AxisDyn) : (s.modAx n f).bus = s.bus := rfl
@[simp] theorem State.modAx_sup (n : Slice) (f : AxisDyn → AxisDyn) : (s.modAx n f).sup = s.sup := rfl
@[simp] theorem State.modAx_prof (n : Slice) (f : AxisDyn → AxisDyn) : (s.modAx n f).prof = s.prof := rfl
@[simp] theorem State.modAx_grp (n : Slice) (f : AxisDyn → AxisDyn) : (s.modAx n f).grp = s.grp := rfl
@[simp] theorem State.modAx_clock (n : Slice) (f : AxisDyn → AxisDyn) : (s.modAx n f).clock = s.clock := rfl
@[simp] theorem State.modAx_host (n : Slice) (f : AxisDyn → AxisDyn) : (s.modAx n f).host = s.host := rfl
@[simp] theorem State.modAx_outbox (n : Slice) (f : AxisDyn → AxisDyn) : (s.modAx n f).outbox = s.outbox := rfl
@[simp] theorem State.modAx_sense (n : Slice) (f : AxisDyn → AxisDyn) : (s.modAx n f).sense = s.sense := rfl
@[simp] theorem State.modAx_startq (n : Slice) (f : AxisDyn → AxisDyn) : (s.modAx n f).startq = s.startq := rfl
@[simp] theorem State.modAx_sched (n : Slice) (f : AxisDyn → AxisDyn) : (s.modAx n f).sched = s.sched := rfl
@[simp] theorem State.modAx_twin (n : Slice) (f : AxisDyn → AxisDyn) : (s.modAx n f).twin = s.twin := rfl
@[simp] theorem State.modAx_leaving (n : Slice) (f : AxisDyn → AxisDyn) : (s.modAx n f).leaving = s.leaving := rfl
@[simp] theorem State.modAx_sto (n : Slice) (f : AxisDyn → AxisDyn) : (s.modAx n f).sto = s.sto := rfl
@[simp] theorem State.modAx_fb (n : Slice) (f : AxisDyn → AxisDyn) : (s.modAx n f).fb = s.fb := rfl
@[simp] theorem State.modAx_pw (n : Slice) (f : AxisDyn → AxisDyn) : (s.modAx n f).pw = s.pw := rfl
@[simp] theorem State.modAx_core (n : Slice) (f : AxisDyn → AxisDyn) : (s.modAx n f).core = s.core := rfl
@[simp] theorem State.modAx_net (n : Slice) (f : AxisDyn → AxisDyn) : (s.modAx n f).net = s.net := rfl
@[simp] theorem State.modAx_time (n : Slice) (f : AxisDyn → AxisDyn) : (s.modAx n f).time = s.time := rfl
@[simp] theorem State.modAx_acq (n : Slice) (f : AxisDyn → AxisDyn) : (s.modAx n f).acq = s.acq := rfl
@[simp] theorem State.modAx_can (n : Slice) (f : AxisDyn → AxisDyn) : (s.modAx n f).can = s.can := rfl
@[simp] theorem State.modAx_fio (n : Slice) (f : AxisDyn → AxisDyn) : (s.modAx n f).fio = s.fio := rfl
@[simp] theorem State.modAx_boot (n : Slice) (f : AxisDyn → AxisDyn) : (s.modAx n f).boot = s.boot := rfl
@[simp] theorem State.modAx_get (n : Slice) (f : AxisDyn → AxisDyn) (g : Fld) : (s.modAx n f).get g = s.get g := rfl
@[simp] theorem State.modAx_byte (n : Slice) (f : AxisDyn → AxisDyn) (x : Nat) : (s.modAx n f).byte x = s.byte x := rfl

@[simp] theorem State.modPwm_pending (n : Slice) (f : PwmDyn → PwmDyn) : (s.modPwm n f).pending = s.pending := rfl
@[simp] theorem State.modPwm_draws (n : Slice) (f : PwmDyn → PwmDyn) : (s.modPwm n f).draws = s.draws := rfl
@[simp] theorem State.modPwm_regs (n : Slice) (f : PwmDyn → PwmDyn) : (s.modPwm n f).regs = s.regs := rfl
@[simp] theorem State.modPwm_mem (n : Slice) (f : PwmDyn → PwmDyn) : (s.modPwm n f).mem = s.mem := rfl
@[simp] theorem State.modPwm_staged (n : Slice) (f : PwmDyn → PwmDyn) : (s.modPwm n f).staged = s.staged := rfl
@[simp] theorem State.modPwm_arc (n : Slice) (f : PwmDyn → PwmDyn) : (s.modPwm n f).arc = s.arc := rfl
@[simp] theorem State.modPwm_faults (n : Slice) (f : PwmDyn → PwmDyn) : (s.modPwm n f).faults = s.faults := rfl
@[simp] theorem State.modPwm_ax (n : Slice) (f : PwmDyn → PwmDyn) : (s.modPwm n f).ax = s.ax := rfl
@[simp] theorem State.modPwm_bus (n : Slice) (f : PwmDyn → PwmDyn) : (s.modPwm n f).bus = s.bus := rfl
@[simp] theorem State.modPwm_sup (n : Slice) (f : PwmDyn → PwmDyn) : (s.modPwm n f).sup = s.sup := rfl
@[simp] theorem State.modPwm_prof (n : Slice) (f : PwmDyn → PwmDyn) : (s.modPwm n f).prof = s.prof := rfl
@[simp] theorem State.modPwm_grp (n : Slice) (f : PwmDyn → PwmDyn) : (s.modPwm n f).grp = s.grp := rfl
@[simp] theorem State.modPwm_clock (n : Slice) (f : PwmDyn → PwmDyn) : (s.modPwm n f).clock = s.clock := rfl
@[simp] theorem State.modPwm_host (n : Slice) (f : PwmDyn → PwmDyn) : (s.modPwm n f).host = s.host := rfl
@[simp] theorem State.modPwm_outbox (n : Slice) (f : PwmDyn → PwmDyn) : (s.modPwm n f).outbox = s.outbox := rfl
@[simp] theorem State.modPwm_sense (n : Slice) (f : PwmDyn → PwmDyn) : (s.modPwm n f).sense = s.sense := rfl
@[simp] theorem State.modPwm_startq (n : Slice) (f : PwmDyn → PwmDyn) : (s.modPwm n f).startq = s.startq := rfl
@[simp] theorem State.modPwm_sched (n : Slice) (f : PwmDyn → PwmDyn) : (s.modPwm n f).sched = s.sched := rfl
@[simp] theorem State.modPwm_twin (n : Slice) (f : PwmDyn → PwmDyn) : (s.modPwm n f).twin = s.twin := rfl
@[simp] theorem State.modPwm_leaving (n : Slice) (f : PwmDyn → PwmDyn) : (s.modPwm n f).leaving = s.leaving := rfl
@[simp] theorem State.modPwm_sto (n : Slice) (f : PwmDyn → PwmDyn) : (s.modPwm n f).sto = s.sto := rfl
@[simp] theorem State.modPwm_fb (n : Slice) (f : PwmDyn → PwmDyn) : (s.modPwm n f).fb = s.fb := rfl
@[simp] theorem State.modPwm_pw (n : Slice) (f : PwmDyn → PwmDyn) : (s.modPwm n f).pw = s.pw := rfl
@[simp] theorem State.modPwm_core (n : Slice) (f : PwmDyn → PwmDyn) : (s.modPwm n f).core = s.core := rfl
@[simp] theorem State.modPwm_net (n : Slice) (f : PwmDyn → PwmDyn) : (s.modPwm n f).net = s.net := rfl
@[simp] theorem State.modPwm_time (n : Slice) (f : PwmDyn → PwmDyn) : (s.modPwm n f).time = s.time := rfl
@[simp] theorem State.modPwm_acq (n : Slice) (f : PwmDyn → PwmDyn) : (s.modPwm n f).acq = s.acq := rfl
@[simp] theorem State.modPwm_can (n : Slice) (f : PwmDyn → PwmDyn) : (s.modPwm n f).can = s.can := rfl
@[simp] theorem State.modPwm_fio (n : Slice) (f : PwmDyn → PwmDyn) : (s.modPwm n f).fio = s.fio := rfl
@[simp] theorem State.modPwm_boot (n : Slice) (f : PwmDyn → PwmDyn) : (s.modPwm n f).boot = s.boot := rfl
@[simp] theorem State.modPwm_get (n : Slice) (f : PwmDyn → PwmDyn) (g : Fld) : (s.modPwm n f).get g = s.get g := rfl
@[simp] theorem State.modPwm_byte (n : Slice) (f : PwmDyn → PwmDyn) (x : Nat) : (s.modPwm n f).byte x = s.byte x := rfl

@[simp] theorem State.modSup_pending (n : Slice) (f : SupDyn → SupDyn) : (s.modSup n f).pending = s.pending := rfl
@[simp] theorem State.modSup_draws (n : Slice) (f : SupDyn → SupDyn) : (s.modSup n f).draws = s.draws := rfl
@[simp] theorem State.modSup_regs (n : Slice) (f : SupDyn → SupDyn) : (s.modSup n f).regs = s.regs := rfl
@[simp] theorem State.modSup_mem (n : Slice) (f : SupDyn → SupDyn) : (s.modSup n f).mem = s.mem := rfl
@[simp] theorem State.modSup_staged (n : Slice) (f : SupDyn → SupDyn) : (s.modSup n f).staged = s.staged := rfl
@[simp] theorem State.modSup_arc (n : Slice) (f : SupDyn → SupDyn) : (s.modSup n f).arc = s.arc := rfl
@[simp] theorem State.modSup_faults (n : Slice) (f : SupDyn → SupDyn) : (s.modSup n f).faults = s.faults := rfl
@[simp] theorem State.modSup_ax (n : Slice) (f : SupDyn → SupDyn) : (s.modSup n f).ax = s.ax := rfl
@[simp] theorem State.modSup_pwm (n : Slice) (f : SupDyn → SupDyn) : (s.modSup n f).pwm = s.pwm := rfl
@[simp] theorem State.modSup_bus (n : Slice) (f : SupDyn → SupDyn) : (s.modSup n f).bus = s.bus := rfl
@[simp] theorem State.modSup_prof (n : Slice) (f : SupDyn → SupDyn) : (s.modSup n f).prof = s.prof := rfl
@[simp] theorem State.modSup_grp (n : Slice) (f : SupDyn → SupDyn) : (s.modSup n f).grp = s.grp := rfl
@[simp] theorem State.modSup_clock (n : Slice) (f : SupDyn → SupDyn) : (s.modSup n f).clock = s.clock := rfl
@[simp] theorem State.modSup_host (n : Slice) (f : SupDyn → SupDyn) : (s.modSup n f).host = s.host := rfl
@[simp] theorem State.modSup_outbox (n : Slice) (f : SupDyn → SupDyn) : (s.modSup n f).outbox = s.outbox := rfl
@[simp] theorem State.modSup_sense (n : Slice) (f : SupDyn → SupDyn) : (s.modSup n f).sense = s.sense := rfl
@[simp] theorem State.modSup_startq (n : Slice) (f : SupDyn → SupDyn) : (s.modSup n f).startq = s.startq := rfl
@[simp] theorem State.modSup_sched (n : Slice) (f : SupDyn → SupDyn) : (s.modSup n f).sched = s.sched := rfl
@[simp] theorem State.modSup_twin (n : Slice) (f : SupDyn → SupDyn) : (s.modSup n f).twin = s.twin := rfl
@[simp] theorem State.modSup_leaving (n : Slice) (f : SupDyn → SupDyn) : (s.modSup n f).leaving = s.leaving := rfl
@[simp] theorem State.modSup_sto (n : Slice) (f : SupDyn → SupDyn) : (s.modSup n f).sto = s.sto := rfl
@[simp] theorem State.modSup_fb (n : Slice) (f : SupDyn → SupDyn) : (s.modSup n f).fb = s.fb := rfl
@[simp] theorem State.modSup_pw (n : Slice) (f : SupDyn → SupDyn) : (s.modSup n f).pw = s.pw := rfl
@[simp] theorem State.modSup_core (n : Slice) (f : SupDyn → SupDyn) : (s.modSup n f).core = s.core := rfl
@[simp] theorem State.modSup_net (n : Slice) (f : SupDyn → SupDyn) : (s.modSup n f).net = s.net := rfl
@[simp] theorem State.modSup_time (n : Slice) (f : SupDyn → SupDyn) : (s.modSup n f).time = s.time := rfl
@[simp] theorem State.modSup_acq (n : Slice) (f : SupDyn → SupDyn) : (s.modSup n f).acq = s.acq := rfl
@[simp] theorem State.modSup_can (n : Slice) (f : SupDyn → SupDyn) : (s.modSup n f).can = s.can := rfl
@[simp] theorem State.modSup_fio (n : Slice) (f : SupDyn → SupDyn) : (s.modSup n f).fio = s.fio := rfl
@[simp] theorem State.modSup_boot (n : Slice) (f : SupDyn → SupDyn) : (s.modSup n f).boot = s.boot := rfl
@[simp] theorem State.modSup_get (n : Slice) (f : SupDyn → SupDyn) (g : Fld) : (s.modSup n f).get g = s.get g := rfl
@[simp] theorem State.modSup_byte (n : Slice) (f : SupDyn → SupDyn) (x : Nat) : (s.modSup n f).byte x = s.byte x := rfl

@[simp] theorem State.modProf_pending (n : Slice) (f : ProfDyn → ProfDyn) : (s.modProf n f).pending = s.pending := rfl
@[simp] theorem State.modProf_draws (n : Slice) (f : ProfDyn → ProfDyn) : (s.modProf n f).draws = s.draws := rfl
@[simp] theorem State.modProf_regs (n : Slice) (f : ProfDyn → ProfDyn) : (s.modProf n f).regs = s.regs := rfl
@[simp] theorem State.modProf_mem (n : Slice) (f : ProfDyn → ProfDyn) : (s.modProf n f).mem = s.mem := rfl
@[simp] theorem State.modProf_staged (n : Slice) (f : ProfDyn → ProfDyn) : (s.modProf n f).staged = s.staged := rfl
@[simp] theorem State.modProf_arc (n : Slice) (f : ProfDyn → ProfDyn) : (s.modProf n f).arc = s.arc := rfl
@[simp] theorem State.modProf_faults (n : Slice) (f : ProfDyn → ProfDyn) : (s.modProf n f).faults = s.faults := rfl
@[simp] theorem State.modProf_ax (n : Slice) (f : ProfDyn → ProfDyn) : (s.modProf n f).ax = s.ax := rfl
@[simp] theorem State.modProf_pwm (n : Slice) (f : ProfDyn → ProfDyn) : (s.modProf n f).pwm = s.pwm := rfl
@[simp] theorem State.modProf_bus (n : Slice) (f : ProfDyn → ProfDyn) : (s.modProf n f).bus = s.bus := rfl
@[simp] theorem State.modProf_sup (n : Slice) (f : ProfDyn → ProfDyn) : (s.modProf n f).sup = s.sup := rfl
@[simp] theorem State.modProf_grp (n : Slice) (f : ProfDyn → ProfDyn) : (s.modProf n f).grp = s.grp := rfl
@[simp] theorem State.modProf_clock (n : Slice) (f : ProfDyn → ProfDyn) : (s.modProf n f).clock = s.clock := rfl
@[simp] theorem State.modProf_host (n : Slice) (f : ProfDyn → ProfDyn) : (s.modProf n f).host = s.host := rfl
@[simp] theorem State.modProf_outbox (n : Slice) (f : ProfDyn → ProfDyn) : (s.modProf n f).outbox = s.outbox := rfl
@[simp] theorem State.modProf_sense (n : Slice) (f : ProfDyn → ProfDyn) : (s.modProf n f).sense = s.sense := rfl
@[simp] theorem State.modProf_startq (n : Slice) (f : ProfDyn → ProfDyn) : (s.modProf n f).startq = s.startq := rfl
@[simp] theorem State.modProf_sched (n : Slice) (f : ProfDyn → ProfDyn) : (s.modProf n f).sched = s.sched := rfl
@[simp] theorem State.modProf_twin (n : Slice) (f : ProfDyn → ProfDyn) : (s.modProf n f).twin = s.twin := rfl
@[simp] theorem State.modProf_leaving (n : Slice) (f : ProfDyn → ProfDyn) : (s.modProf n f).leaving = s.leaving := rfl
@[simp] theorem State.modProf_sto (n : Slice) (f : ProfDyn → ProfDyn) : (s.modProf n f).sto = s.sto := rfl
@[simp] theorem State.modProf_fb (n : Slice) (f : ProfDyn → ProfDyn) : (s.modProf n f).fb = s.fb := rfl
@[simp] theorem State.modProf_pw (n : Slice) (f : ProfDyn → ProfDyn) : (s.modProf n f).pw = s.pw := rfl
@[simp] theorem State.modProf_core (n : Slice) (f : ProfDyn → ProfDyn) : (s.modProf n f).core = s.core := rfl
@[simp] theorem State.modProf_net (n : Slice) (f : ProfDyn → ProfDyn) : (s.modProf n f).net = s.net := rfl
@[simp] theorem State.modProf_time (n : Slice) (f : ProfDyn → ProfDyn) : (s.modProf n f).time = s.time := rfl
@[simp] theorem State.modProf_acq (n : Slice) (f : ProfDyn → ProfDyn) : (s.modProf n f).acq = s.acq := rfl
@[simp] theorem State.modProf_can (n : Slice) (f : ProfDyn → ProfDyn) : (s.modProf n f).can = s.can := rfl
@[simp] theorem State.modProf_fio (n : Slice) (f : ProfDyn → ProfDyn) : (s.modProf n f).fio = s.fio := rfl
@[simp] theorem State.modProf_boot (n : Slice) (f : ProfDyn → ProfDyn) : (s.modProf n f).boot = s.boot := rfl
@[simp] theorem State.modProf_get (n : Slice) (f : ProfDyn → ProfDyn) (g : Fld) : (s.modProf n f).get g = s.get g := rfl
@[simp] theorem State.modProf_byte (n : Slice) (f : ProfDyn → ProfDyn) (x : Nat) : (s.modProf n f).byte x = s.byte x := rfl

@[simp] theorem State.modGrp_pending (g : Fin 8) (f : GroupDyn → GroupDyn) : (s.modGrp g f).pending = s.pending := rfl
@[simp] theorem State.modGrp_draws (g : Fin 8) (f : GroupDyn → GroupDyn) : (s.modGrp g f).draws = s.draws := rfl
@[simp] theorem State.modGrp_regs (g : Fin 8) (f : GroupDyn → GroupDyn) : (s.modGrp g f).regs = s.regs := rfl
@[simp] theorem State.modGrp_mem (g : Fin 8) (f : GroupDyn → GroupDyn) : (s.modGrp g f).mem = s.mem := rfl
@[simp] theorem State.modGrp_staged (g : Fin 8) (f : GroupDyn → GroupDyn) : (s.modGrp g f).staged = s.staged := rfl
@[simp] theorem State.modGrp_arc (g : Fin 8) (f : GroupDyn → GroupDyn) : (s.modGrp g f).arc = s.arc := rfl
@[simp] theorem State.modGrp_faults (g : Fin 8) (f : GroupDyn → GroupDyn) : (s.modGrp g f).faults = s.faults := rfl
@[simp] theorem State.modGrp_ax (g : Fin 8) (f : GroupDyn → GroupDyn) : (s.modGrp g f).ax = s.ax := rfl
@[simp] theorem State.modGrp_pwm (g : Fin 8) (f : GroupDyn → GroupDyn) : (s.modGrp g f).pwm = s.pwm := rfl
@[simp] theorem State.modGrp_bus (g : Fin 8) (f : GroupDyn → GroupDyn) : (s.modGrp g f).bus = s.bus := rfl
@[simp] theorem State.modGrp_sup (g : Fin 8) (f : GroupDyn → GroupDyn) : (s.modGrp g f).sup = s.sup := rfl
@[simp] theorem State.modGrp_prof (g : Fin 8) (f : GroupDyn → GroupDyn) : (s.modGrp g f).prof = s.prof := rfl
@[simp] theorem State.modGrp_clock (g : Fin 8) (f : GroupDyn → GroupDyn) : (s.modGrp g f).clock = s.clock := rfl
@[simp] theorem State.modGrp_host (g : Fin 8) (f : GroupDyn → GroupDyn) : (s.modGrp g f).host = s.host := rfl
@[simp] theorem State.modGrp_outbox (g : Fin 8) (f : GroupDyn → GroupDyn) : (s.modGrp g f).outbox = s.outbox := rfl
@[simp] theorem State.modGrp_sense (g : Fin 8) (f : GroupDyn → GroupDyn) : (s.modGrp g f).sense = s.sense := rfl
@[simp] theorem State.modGrp_startq (g : Fin 8) (f : GroupDyn → GroupDyn) : (s.modGrp g f).startq = s.startq := rfl
@[simp] theorem State.modGrp_sched (g : Fin 8) (f : GroupDyn → GroupDyn) : (s.modGrp g f).sched = s.sched := rfl
@[simp] theorem State.modGrp_twin (g : Fin 8) (f : GroupDyn → GroupDyn) : (s.modGrp g f).twin = s.twin := rfl
@[simp] theorem State.modGrp_leaving (g : Fin 8) (f : GroupDyn → GroupDyn) : (s.modGrp g f).leaving = s.leaving := rfl
@[simp] theorem State.modGrp_sto (g : Fin 8) (f : GroupDyn → GroupDyn) : (s.modGrp g f).sto = s.sto := rfl
@[simp] theorem State.modGrp_fb (g : Fin 8) (f : GroupDyn → GroupDyn) : (s.modGrp g f).fb = s.fb := rfl
@[simp] theorem State.modGrp_pw (g : Fin 8) (f : GroupDyn → GroupDyn) : (s.modGrp g f).pw = s.pw := rfl
@[simp] theorem State.modGrp_core (g : Fin 8) (f : GroupDyn → GroupDyn) : (s.modGrp g f).core = s.core := rfl
@[simp] theorem State.modGrp_net (g : Fin 8) (f : GroupDyn → GroupDyn) : (s.modGrp g f).net = s.net := rfl
@[simp] theorem State.modGrp_time (g : Fin 8) (f : GroupDyn → GroupDyn) : (s.modGrp g f).time = s.time := rfl
@[simp] theorem State.modGrp_acq (g : Fin 8) (f : GroupDyn → GroupDyn) : (s.modGrp g f).acq = s.acq := rfl
@[simp] theorem State.modGrp_can (g : Fin 8) (f : GroupDyn → GroupDyn) : (s.modGrp g f).can = s.can := rfl
@[simp] theorem State.modGrp_fio (g : Fin 8) (f : GroupDyn → GroupDyn) : (s.modGrp g f).fio = s.fio := rfl
@[simp] theorem State.modGrp_boot (g : Fin 8) (f : GroupDyn → GroupDyn) : (s.modGrp g f).boot = s.boot := rfl
@[simp] theorem State.modGrp_get (k : Fin 8) (f : GroupDyn → GroupDyn) (g : Fld) : (s.modGrp k f).get g = s.get g := rfl
@[simp] theorem State.modGrp_byte (g : Fin 8) (f : GroupDyn → GroupDyn) (x : Nat) : (s.modGrp g f).byte x = s.byte x := rfl

@[simp] theorem State.modBus_pending (k : Fin 4) (f : BusDyn → BusDyn) : (s.modBus k f).pending = s.pending := rfl
@[simp] theorem State.modBus_draws (k : Fin 4) (f : BusDyn → BusDyn) : (s.modBus k f).draws = s.draws := rfl
@[simp] theorem State.modBus_regs (k : Fin 4) (f : BusDyn → BusDyn) : (s.modBus k f).regs = s.regs := rfl
@[simp] theorem State.modBus_mem (k : Fin 4) (f : BusDyn → BusDyn) : (s.modBus k f).mem = s.mem := rfl
@[simp] theorem State.modBus_staged (k : Fin 4) (f : BusDyn → BusDyn) : (s.modBus k f).staged = s.staged := rfl
@[simp] theorem State.modBus_arc (k : Fin 4) (f : BusDyn → BusDyn) : (s.modBus k f).arc = s.arc := rfl
@[simp] theorem State.modBus_faults (k : Fin 4) (f : BusDyn → BusDyn) : (s.modBus k f).faults = s.faults := rfl
@[simp] theorem State.modBus_ax (k : Fin 4) (f : BusDyn → BusDyn) : (s.modBus k f).ax = s.ax := rfl
@[simp] theorem State.modBus_pwm (k : Fin 4) (f : BusDyn → BusDyn) : (s.modBus k f).pwm = s.pwm := rfl
@[simp] theorem State.modBus_sup (k : Fin 4) (f : BusDyn → BusDyn) : (s.modBus k f).sup = s.sup := rfl
@[simp] theorem State.modBus_prof (k : Fin 4) (f : BusDyn → BusDyn) : (s.modBus k f).prof = s.prof := rfl
@[simp] theorem State.modBus_grp (k : Fin 4) (f : BusDyn → BusDyn) : (s.modBus k f).grp = s.grp := rfl
@[simp] theorem State.modBus_clock (k : Fin 4) (f : BusDyn → BusDyn) : (s.modBus k f).clock = s.clock := rfl
@[simp] theorem State.modBus_host (k : Fin 4) (f : BusDyn → BusDyn) : (s.modBus k f).host = s.host := rfl
@[simp] theorem State.modBus_outbox (k : Fin 4) (f : BusDyn → BusDyn) : (s.modBus k f).outbox = s.outbox := rfl
@[simp] theorem State.modBus_sense (k : Fin 4) (f : BusDyn → BusDyn) : (s.modBus k f).sense = s.sense := rfl
@[simp] theorem State.modBus_startq (k : Fin 4) (f : BusDyn → BusDyn) : (s.modBus k f).startq = s.startq := rfl
@[simp] theorem State.modBus_sched (k : Fin 4) (f : BusDyn → BusDyn) : (s.modBus k f).sched = s.sched := rfl
@[simp] theorem State.modBus_twin (k : Fin 4) (f : BusDyn → BusDyn) : (s.modBus k f).twin = s.twin := rfl
@[simp] theorem State.modBus_leaving (k : Fin 4) (f : BusDyn → BusDyn) : (s.modBus k f).leaving = s.leaving := rfl
@[simp] theorem State.modBus_sto (k : Fin 4) (f : BusDyn → BusDyn) : (s.modBus k f).sto = s.sto := rfl
@[simp] theorem State.modBus_fb (k : Fin 4) (f : BusDyn → BusDyn) : (s.modBus k f).fb = s.fb := rfl
@[simp] theorem State.modBus_pw (k : Fin 4) (f : BusDyn → BusDyn) : (s.modBus k f).pw = s.pw := rfl
@[simp] theorem State.modBus_core (k : Fin 4) (f : BusDyn → BusDyn) : (s.modBus k f).core = s.core := rfl
@[simp] theorem State.modBus_net (k : Fin 4) (f : BusDyn → BusDyn) : (s.modBus k f).net = s.net := rfl
@[simp] theorem State.modBus_time (k : Fin 4) (f : BusDyn → BusDyn) : (s.modBus k f).time = s.time := rfl
@[simp] theorem State.modBus_acq (k : Fin 4) (f : BusDyn → BusDyn) : (s.modBus k f).acq = s.acq := rfl
@[simp] theorem State.modBus_can (k : Fin 4) (f : BusDyn → BusDyn) : (s.modBus k f).can = s.can := rfl
@[simp] theorem State.modBus_fio (k : Fin 4) (f : BusDyn → BusDyn) : (s.modBus k f).fio = s.fio := rfl
@[simp] theorem State.modBus_boot (k : Fin 4) (f : BusDyn → BusDyn) : (s.modBus k f).boot = s.boot := rfl
@[simp] theorem State.modBus_get (k : Fin 4) (f : BusDyn → BusDyn) (g : Fld) : (s.modBus k f).get g = s.get g := rfl
@[simp] theorem State.modBus_byte (k : Fin 4) (f : BusDyn → BusDyn) (x : Nat) : (s.modBus k f).byte x = s.byte x := rfl

@[simp] theorem State.modFb_pending (n : Slice) (f : FbDyn → FbDyn) : (s.modFb n f).pending = s.pending := rfl
@[simp] theorem State.modFb_draws (n : Slice) (f : FbDyn → FbDyn) : (s.modFb n f).draws = s.draws := rfl
@[simp] theorem State.modFb_regs (n : Slice) (f : FbDyn → FbDyn) : (s.modFb n f).regs = s.regs := rfl
@[simp] theorem State.modFb_mem (n : Slice) (f : FbDyn → FbDyn) : (s.modFb n f).mem = s.mem := rfl
@[simp] theorem State.modFb_staged (n : Slice) (f : FbDyn → FbDyn) : (s.modFb n f).staged = s.staged := rfl
@[simp] theorem State.modFb_arc (n : Slice) (f : FbDyn → FbDyn) : (s.modFb n f).arc = s.arc := rfl
@[simp] theorem State.modFb_faults (n : Slice) (f : FbDyn → FbDyn) : (s.modFb n f).faults = s.faults := rfl
@[simp] theorem State.modFb_ax (n : Slice) (f : FbDyn → FbDyn) : (s.modFb n f).ax = s.ax := rfl
@[simp] theorem State.modFb_pwm (n : Slice) (f : FbDyn → FbDyn) : (s.modFb n f).pwm = s.pwm := rfl
@[simp] theorem State.modFb_bus (n : Slice) (f : FbDyn → FbDyn) : (s.modFb n f).bus = s.bus := rfl
@[simp] theorem State.modFb_sup (n : Slice) (f : FbDyn → FbDyn) : (s.modFb n f).sup = s.sup := rfl
@[simp] theorem State.modFb_prof (n : Slice) (f : FbDyn → FbDyn) : (s.modFb n f).prof = s.prof := rfl
@[simp] theorem State.modFb_grp (n : Slice) (f : FbDyn → FbDyn) : (s.modFb n f).grp = s.grp := rfl
@[simp] theorem State.modFb_clock (n : Slice) (f : FbDyn → FbDyn) : (s.modFb n f).clock = s.clock := rfl
@[simp] theorem State.modFb_host (n : Slice) (f : FbDyn → FbDyn) : (s.modFb n f).host = s.host := rfl
@[simp] theorem State.modFb_outbox (n : Slice) (f : FbDyn → FbDyn) : (s.modFb n f).outbox = s.outbox := rfl
@[simp] theorem State.modFb_sense (n : Slice) (f : FbDyn → FbDyn) : (s.modFb n f).sense = s.sense := rfl
@[simp] theorem State.modFb_startq (n : Slice) (f : FbDyn → FbDyn) : (s.modFb n f).startq = s.startq := rfl
@[simp] theorem State.modFb_sched (n : Slice) (f : FbDyn → FbDyn) : (s.modFb n f).sched = s.sched := rfl
@[simp] theorem State.modFb_twin (n : Slice) (f : FbDyn → FbDyn) : (s.modFb n f).twin = s.twin := rfl
@[simp] theorem State.modFb_leaving (n : Slice) (f : FbDyn → FbDyn) : (s.modFb n f).leaving = s.leaving := rfl
@[simp] theorem State.modFb_sto (n : Slice) (f : FbDyn → FbDyn) : (s.modFb n f).sto = s.sto := rfl
@[simp] theorem State.modFb_pw (n : Slice) (f : FbDyn → FbDyn) : (s.modFb n f).pw = s.pw := rfl
@[simp] theorem State.modFb_core (n : Slice) (f : FbDyn → FbDyn) : (s.modFb n f).core = s.core := rfl
@[simp] theorem State.modFb_net (n : Slice) (f : FbDyn → FbDyn) : (s.modFb n f).net = s.net := rfl
@[simp] theorem State.modFb_time (n : Slice) (f : FbDyn → FbDyn) : (s.modFb n f).time = s.time := rfl
@[simp] theorem State.modFb_acq (n : Slice) (f : FbDyn → FbDyn) : (s.modFb n f).acq = s.acq := rfl
@[simp] theorem State.modFb_can (n : Slice) (f : FbDyn → FbDyn) : (s.modFb n f).can = s.can := rfl
@[simp] theorem State.modFb_fio (n : Slice) (f : FbDyn → FbDyn) : (s.modFb n f).fio = s.fio := rfl
@[simp] theorem State.modFb_boot (n : Slice) (f : FbDyn → FbDyn) : (s.modFb n f).boot = s.boot := rfl
@[simp] theorem State.modFb_get (n : Slice) (f : FbDyn → FbDyn) (g : Fld) : (s.modFb n f).get g = s.get g := rfl
@[simp] theorem State.modFb_byte (n : Slice) (f : FbDyn → FbDyn) (x : Nat) : (s.modFb n f).byte x = s.byte x := rfl

@[simp] theorem State.modSense_pending (n : Slice) (f : SenseDyn → SenseDyn) : (s.modSense n f).pending = s.pending := rfl
@[simp] theorem State.modSense_draws (n : Slice) (f : SenseDyn → SenseDyn) : (s.modSense n f).draws = s.draws := rfl
@[simp] theorem State.modSense_regs (n : Slice) (f : SenseDyn → SenseDyn) : (s.modSense n f).regs = s.regs := rfl
@[simp] theorem State.modSense_mem (n : Slice) (f : SenseDyn → SenseDyn) : (s.modSense n f).mem = s.mem := rfl
@[simp] theorem State.modSense_staged (n : Slice) (f : SenseDyn → SenseDyn) : (s.modSense n f).staged = s.staged := rfl
@[simp] theorem State.modSense_arc (n : Slice) (f : SenseDyn → SenseDyn) : (s.modSense n f).arc = s.arc := rfl
@[simp] theorem State.modSense_faults (n : Slice) (f : SenseDyn → SenseDyn) : (s.modSense n f).faults = s.faults := rfl
@[simp] theorem State.modSense_ax (n : Slice) (f : SenseDyn → SenseDyn) : (s.modSense n f).ax = s.ax := rfl
@[simp] theorem State.modSense_pwm (n : Slice) (f : SenseDyn → SenseDyn) : (s.modSense n f).pwm = s.pwm := rfl
@[simp] theorem State.modSense_bus (n : Slice) (f : SenseDyn → SenseDyn) : (s.modSense n f).bus = s.bus := rfl
@[simp] theorem State.modSense_sup (n : Slice) (f : SenseDyn → SenseDyn) : (s.modSense n f).sup = s.sup := rfl
@[simp] theorem State.modSense_prof (n : Slice) (f : SenseDyn → SenseDyn) : (s.modSense n f).prof = s.prof := rfl
@[simp] theorem State.modSense_grp (n : Slice) (f : SenseDyn → SenseDyn) : (s.modSense n f).grp = s.grp := rfl
@[simp] theorem State.modSense_clock (n : Slice) (f : SenseDyn → SenseDyn) : (s.modSense n f).clock = s.clock := rfl
@[simp] theorem State.modSense_host (n : Slice) (f : SenseDyn → SenseDyn) : (s.modSense n f).host = s.host := rfl
@[simp] theorem State.modSense_outbox (n : Slice) (f : SenseDyn → SenseDyn) : (s.modSense n f).outbox = s.outbox := rfl
@[simp] theorem State.modSense_startq (n : Slice) (f : SenseDyn → SenseDyn) : (s.modSense n f).startq = s.startq := rfl
@[simp] theorem State.modSense_sched (n : Slice) (f : SenseDyn → SenseDyn) : (s.modSense n f).sched = s.sched := rfl
@[simp] theorem State.modSense_twin (n : Slice) (f : SenseDyn → SenseDyn) : (s.modSense n f).twin = s.twin := rfl
@[simp] theorem State.modSense_leaving (n : Slice) (f : SenseDyn → SenseDyn) : (s.modSense n f).leaving = s.leaving := rfl
@[simp] theorem State.modSense_sto (n : Slice) (f : SenseDyn → SenseDyn) : (s.modSense n f).sto = s.sto := rfl
@[simp] theorem State.modSense_fb (n : Slice) (f : SenseDyn → SenseDyn) : (s.modSense n f).fb = s.fb := rfl
@[simp] theorem State.modSense_pw (n : Slice) (f : SenseDyn → SenseDyn) : (s.modSense n f).pw = s.pw := rfl
@[simp] theorem State.modSense_core (n : Slice) (f : SenseDyn → SenseDyn) : (s.modSense n f).core = s.core := rfl
@[simp] theorem State.modSense_net (n : Slice) (f : SenseDyn → SenseDyn) : (s.modSense n f).net = s.net := rfl
@[simp] theorem State.modSense_time (n : Slice) (f : SenseDyn → SenseDyn) : (s.modSense n f).time = s.time := rfl
@[simp] theorem State.modSense_acq (n : Slice) (f : SenseDyn → SenseDyn) : (s.modSense n f).acq = s.acq := rfl
@[simp] theorem State.modSense_can (n : Slice) (f : SenseDyn → SenseDyn) : (s.modSense n f).can = s.can := rfl
@[simp] theorem State.modSense_fio (n : Slice) (f : SenseDyn → SenseDyn) : (s.modSense n f).fio = s.fio := rfl
@[simp] theorem State.modSense_boot (n : Slice) (f : SenseDyn → SenseDyn) : (s.modSense n f).boot = s.boot := rfl
@[simp] theorem State.modSense_get (n : Slice) (f : SenseDyn → SenseDyn) (g : Fld) : (s.modSense n f).get g = s.get g := rfl
@[simp] theorem State.modSense_byte (n : Slice) (f : SenseDyn → SenseDyn) (x : Nat) : (s.modSense n f).byte x = s.byte x := rfl

@[simp] theorem State.modStart_pending (n : Slice) (f : StartDyn → StartDyn) : (s.modStart n f).pending = s.pending := rfl
@[simp] theorem State.modStart_draws (n : Slice) (f : StartDyn → StartDyn) : (s.modStart n f).draws = s.draws := rfl
@[simp] theorem State.modStart_regs (n : Slice) (f : StartDyn → StartDyn) : (s.modStart n f).regs = s.regs := rfl
@[simp] theorem State.modStart_mem (n : Slice) (f : StartDyn → StartDyn) : (s.modStart n f).mem = s.mem := rfl
@[simp] theorem State.modStart_staged (n : Slice) (f : StartDyn → StartDyn) : (s.modStart n f).staged = s.staged := rfl
@[simp] theorem State.modStart_arc (n : Slice) (f : StartDyn → StartDyn) : (s.modStart n f).arc = s.arc := rfl
@[simp] theorem State.modStart_faults (n : Slice) (f : StartDyn → StartDyn) : (s.modStart n f).faults = s.faults := rfl
@[simp] theorem State.modStart_ax (n : Slice) (f : StartDyn → StartDyn) : (s.modStart n f).ax = s.ax := rfl
@[simp] theorem State.modStart_pwm (n : Slice) (f : StartDyn → StartDyn) : (s.modStart n f).pwm = s.pwm := rfl
@[simp] theorem State.modStart_bus (n : Slice) (f : StartDyn → StartDyn) : (s.modStart n f).bus = s.bus := rfl
@[simp] theorem State.modStart_sup (n : Slice) (f : StartDyn → StartDyn) : (s.modStart n f).sup = s.sup := rfl
@[simp] theorem State.modStart_prof (n : Slice) (f : StartDyn → StartDyn) : (s.modStart n f).prof = s.prof := rfl
@[simp] theorem State.modStart_grp (n : Slice) (f : StartDyn → StartDyn) : (s.modStart n f).grp = s.grp := rfl
@[simp] theorem State.modStart_clock (n : Slice) (f : StartDyn → StartDyn) : (s.modStart n f).clock = s.clock := rfl
@[simp] theorem State.modStart_host (n : Slice) (f : StartDyn → StartDyn) : (s.modStart n f).host = s.host := rfl
@[simp] theorem State.modStart_outbox (n : Slice) (f : StartDyn → StartDyn) : (s.modStart n f).outbox = s.outbox := rfl
@[simp] theorem State.modStart_sense (n : Slice) (f : StartDyn → StartDyn) : (s.modStart n f).sense = s.sense := rfl
@[simp] theorem State.modStart_sched (n : Slice) (f : StartDyn → StartDyn) : (s.modStart n f).sched = s.sched := rfl
@[simp] theorem State.modStart_twin (n : Slice) (f : StartDyn → StartDyn) : (s.modStart n f).twin = s.twin := rfl
@[simp] theorem State.modStart_leaving (n : Slice) (f : StartDyn → StartDyn) : (s.modStart n f).leaving = s.leaving := rfl
@[simp] theorem State.modStart_sto (n : Slice) (f : StartDyn → StartDyn) : (s.modStart n f).sto = s.sto := rfl
@[simp] theorem State.modStart_fb (n : Slice) (f : StartDyn → StartDyn) : (s.modStart n f).fb = s.fb := rfl
@[simp] theorem State.modStart_pw (n : Slice) (f : StartDyn → StartDyn) : (s.modStart n f).pw = s.pw := rfl
@[simp] theorem State.modStart_core (n : Slice) (f : StartDyn → StartDyn) : (s.modStart n f).core = s.core := rfl
@[simp] theorem State.modStart_net (n : Slice) (f : StartDyn → StartDyn) : (s.modStart n f).net = s.net := rfl
@[simp] theorem State.modStart_time (n : Slice) (f : StartDyn → StartDyn) : (s.modStart n f).time = s.time := rfl
@[simp] theorem State.modStart_acq (n : Slice) (f : StartDyn → StartDyn) : (s.modStart n f).acq = s.acq := rfl
@[simp] theorem State.modStart_can (n : Slice) (f : StartDyn → StartDyn) : (s.modStart n f).can = s.can := rfl
@[simp] theorem State.modStart_fio (n : Slice) (f : StartDyn → StartDyn) : (s.modStart n f).fio = s.fio := rfl
@[simp] theorem State.modStart_boot (n : Slice) (f : StartDyn → StartDyn) : (s.modStart n f).boot = s.boot := rfl
@[simp] theorem State.modStart_get (n : Slice) (f : StartDyn → StartDyn) (g : Fld) : (s.modStart n f).get g = s.get g := rfl
@[simp] theorem State.modStart_byte (n : Slice) (f : StartDyn → StartDyn) (x : Nat) : (s.modStart n f).byte x = s.byte x := rfl

@[simp] theorem State.modCore_pending (k : Core) (f : CoreDyn → CoreDyn) : (s.modCore k f).pending = s.pending := rfl
@[simp] theorem State.modCore_draws (k : Core) (f : CoreDyn → CoreDyn) : (s.modCore k f).draws = s.draws := rfl
@[simp] theorem State.modCore_regs (k : Core) (f : CoreDyn → CoreDyn) : (s.modCore k f).regs = s.regs := rfl
@[simp] theorem State.modCore_mem (k : Core) (f : CoreDyn → CoreDyn) : (s.modCore k f).mem = s.mem := rfl
@[simp] theorem State.modCore_staged (k : Core) (f : CoreDyn → CoreDyn) : (s.modCore k f).staged = s.staged := rfl
@[simp] theorem State.modCore_arc (k : Core) (f : CoreDyn → CoreDyn) : (s.modCore k f).arc = s.arc := rfl
@[simp] theorem State.modCore_faults (k : Core) (f : CoreDyn → CoreDyn) : (s.modCore k f).faults = s.faults := rfl
@[simp] theorem State.modCore_ax (k : Core) (f : CoreDyn → CoreDyn) : (s.modCore k f).ax = s.ax := rfl
@[simp] theorem State.modCore_pwm (k : Core) (f : CoreDyn → CoreDyn) : (s.modCore k f).pwm = s.pwm := rfl
@[simp] theorem State.modCore_bus (k : Core) (f : CoreDyn → CoreDyn) : (s.modCore k f).bus = s.bus := rfl
@[simp] theorem State.modCore_sup (k : Core) (f : CoreDyn → CoreDyn) : (s.modCore k f).sup = s.sup := rfl
@[simp] theorem State.modCore_prof (k : Core) (f : CoreDyn → CoreDyn) : (s.modCore k f).prof = s.prof := rfl
@[simp] theorem State.modCore_grp (k : Core) (f : CoreDyn → CoreDyn) : (s.modCore k f).grp = s.grp := rfl
@[simp] theorem State.modCore_clock (k : Core) (f : CoreDyn → CoreDyn) : (s.modCore k f).clock = s.clock := rfl
@[simp] theorem State.modCore_host (k : Core) (f : CoreDyn → CoreDyn) : (s.modCore k f).host = s.host := rfl
@[simp] theorem State.modCore_outbox (k : Core) (f : CoreDyn → CoreDyn) : (s.modCore k f).outbox = s.outbox := rfl
@[simp] theorem State.modCore_sense (k : Core) (f : CoreDyn → CoreDyn) : (s.modCore k f).sense = s.sense := rfl
@[simp] theorem State.modCore_startq (k : Core) (f : CoreDyn → CoreDyn) : (s.modCore k f).startq = s.startq := rfl
@[simp] theorem State.modCore_sched (k : Core) (f : CoreDyn → CoreDyn) : (s.modCore k f).sched = s.sched := rfl
@[simp] theorem State.modCore_twin (k : Core) (f : CoreDyn → CoreDyn) : (s.modCore k f).twin = s.twin := rfl
@[simp] theorem State.modCore_leaving (k : Core) (f : CoreDyn → CoreDyn) : (s.modCore k f).leaving = s.leaving := rfl
@[simp] theorem State.modCore_sto (k : Core) (f : CoreDyn → CoreDyn) : (s.modCore k f).sto = s.sto := rfl
@[simp] theorem State.modCore_fb (k : Core) (f : CoreDyn → CoreDyn) : (s.modCore k f).fb = s.fb := rfl
@[simp] theorem State.modCore_pw (k : Core) (f : CoreDyn → CoreDyn) : (s.modCore k f).pw = s.pw := rfl
@[simp] theorem State.modCore_net (k : Core) (f : CoreDyn → CoreDyn) : (s.modCore k f).net = s.net := rfl
@[simp] theorem State.modCore_time (k : Core) (f : CoreDyn → CoreDyn) : (s.modCore k f).time = s.time := rfl
@[simp] theorem State.modCore_acq (k : Core) (f : CoreDyn → CoreDyn) : (s.modCore k f).acq = s.acq := rfl
@[simp] theorem State.modCore_can (k : Core) (f : CoreDyn → CoreDyn) : (s.modCore k f).can = s.can := rfl
@[simp] theorem State.modCore_fio (k : Core) (f : CoreDyn → CoreDyn) : (s.modCore k f).fio = s.fio := rfl
@[simp] theorem State.modCore_boot (k : Core) (f : CoreDyn → CoreDyn) : (s.modCore k f).boot = s.boot := rfl
@[simp] theorem State.modCore_get (k : Core) (f : CoreDyn → CoreDyn) (g : Fld) : (s.modCore k f).get g = s.get g := rfl
@[simp] theorem State.modCore_byte (k : Core) (f : CoreDyn → CoreDyn) (x : Nat) : (s.modCore k f).byte x = s.byte x := rfl

@[simp] theorem State.modCan_pending (c : Fin 2) (f : CanDyn → CanDyn) : (s.modCan c f).pending = s.pending := rfl
@[simp] theorem State.modCan_draws (c : Fin 2) (f : CanDyn → CanDyn) : (s.modCan c f).draws = s.draws := rfl
@[simp] theorem State.modCan_regs (c : Fin 2) (f : CanDyn → CanDyn) : (s.modCan c f).regs = s.regs := rfl
@[simp] theorem State.modCan_mem (c : Fin 2) (f : CanDyn → CanDyn) : (s.modCan c f).mem = s.mem := rfl
@[simp] theorem State.modCan_staged (c : Fin 2) (f : CanDyn → CanDyn) : (s.modCan c f).staged = s.staged := rfl
@[simp] theorem State.modCan_arc (c : Fin 2) (f : CanDyn → CanDyn) : (s.modCan c f).arc = s.arc := rfl
@[simp] theorem State.modCan_faults (c : Fin 2) (f : CanDyn → CanDyn) : (s.modCan c f).faults = s.faults := rfl
@[simp] theorem State.modCan_ax (c : Fin 2) (f : CanDyn → CanDyn) : (s.modCan c f).ax = s.ax := rfl
@[simp] theorem State.modCan_pwm (c : Fin 2) (f : CanDyn → CanDyn) : (s.modCan c f).pwm = s.pwm := rfl
@[simp] theorem State.modCan_bus (c : Fin 2) (f : CanDyn → CanDyn) : (s.modCan c f).bus = s.bus := rfl
@[simp] theorem State.modCan_sup (c : Fin 2) (f : CanDyn → CanDyn) : (s.modCan c f).sup = s.sup := rfl
@[simp] theorem State.modCan_prof (c : Fin 2) (f : CanDyn → CanDyn) : (s.modCan c f).prof = s.prof := rfl
@[simp] theorem State.modCan_grp (c : Fin 2) (f : CanDyn → CanDyn) : (s.modCan c f).grp = s.grp := rfl
@[simp] theorem State.modCan_clock (c : Fin 2) (f : CanDyn → CanDyn) : (s.modCan c f).clock = s.clock := rfl
@[simp] theorem State.modCan_host (c : Fin 2) (f : CanDyn → CanDyn) : (s.modCan c f).host = s.host := rfl
@[simp] theorem State.modCan_outbox (c : Fin 2) (f : CanDyn → CanDyn) : (s.modCan c f).outbox = s.outbox := rfl
@[simp] theorem State.modCan_sense (c : Fin 2) (f : CanDyn → CanDyn) : (s.modCan c f).sense = s.sense := rfl
@[simp] theorem State.modCan_startq (c : Fin 2) (f : CanDyn → CanDyn) : (s.modCan c f).startq = s.startq := rfl
@[simp] theorem State.modCan_sched (c : Fin 2) (f : CanDyn → CanDyn) : (s.modCan c f).sched = s.sched := rfl
@[simp] theorem State.modCan_twin (c : Fin 2) (f : CanDyn → CanDyn) : (s.modCan c f).twin = s.twin := rfl
@[simp] theorem State.modCan_leaving (c : Fin 2) (f : CanDyn → CanDyn) : (s.modCan c f).leaving = s.leaving := rfl
@[simp] theorem State.modCan_sto (c : Fin 2) (f : CanDyn → CanDyn) : (s.modCan c f).sto = s.sto := rfl
@[simp] theorem State.modCan_fb (c : Fin 2) (f : CanDyn → CanDyn) : (s.modCan c f).fb = s.fb := rfl
@[simp] theorem State.modCan_pw (c : Fin 2) (f : CanDyn → CanDyn) : (s.modCan c f).pw = s.pw := rfl
@[simp] theorem State.modCan_core (c : Fin 2) (f : CanDyn → CanDyn) : (s.modCan c f).core = s.core := rfl
@[simp] theorem State.modCan_net (c : Fin 2) (f : CanDyn → CanDyn) : (s.modCan c f).net = s.net := rfl
@[simp] theorem State.modCan_time (c : Fin 2) (f : CanDyn → CanDyn) : (s.modCan c f).time = s.time := rfl
@[simp] theorem State.modCan_acq (c : Fin 2) (f : CanDyn → CanDyn) : (s.modCan c f).acq = s.acq := rfl
@[simp] theorem State.modCan_fio (c : Fin 2) (f : CanDyn → CanDyn) : (s.modCan c f).fio = s.fio := rfl
@[simp] theorem State.modCan_boot (c : Fin 2) (f : CanDyn → CanDyn) : (s.modCan c f).boot = s.boot := rfl
@[simp] theorem State.modCan_get (c : Fin 2) (f : CanDyn → CanDyn) (g : Fld) : (s.modCan c f).get g = s.get g := rfl
@[simp] theorem State.modCan_byte (c : Fin 2) (f : CanDyn → CanDyn) (x : Nat) : (s.modCan c f).byte x = s.byte x := rfl

@[simp] theorem State.modFio_pending (f : FioDyn → FioDyn) : (s.modFio f).pending = s.pending := rfl
@[simp] theorem State.modFio_draws (f : FioDyn → FioDyn) : (s.modFio f).draws = s.draws := rfl
@[simp] theorem State.modFio_regs (f : FioDyn → FioDyn) : (s.modFio f).regs = s.regs := rfl
@[simp] theorem State.modFio_mem (f : FioDyn → FioDyn) : (s.modFio f).mem = s.mem := rfl
@[simp] theorem State.modFio_staged (f : FioDyn → FioDyn) : (s.modFio f).staged = s.staged := rfl
@[simp] theorem State.modFio_arc (f : FioDyn → FioDyn) : (s.modFio f).arc = s.arc := rfl
@[simp] theorem State.modFio_faults (f : FioDyn → FioDyn) : (s.modFio f).faults = s.faults := rfl
@[simp] theorem State.modFio_ax (f : FioDyn → FioDyn) : (s.modFio f).ax = s.ax := rfl
@[simp] theorem State.modFio_pwm (f : FioDyn → FioDyn) : (s.modFio f).pwm = s.pwm := rfl
@[simp] theorem State.modFio_bus (f : FioDyn → FioDyn) : (s.modFio f).bus = s.bus := rfl
@[simp] theorem State.modFio_sup (f : FioDyn → FioDyn) : (s.modFio f).sup = s.sup := rfl
@[simp] theorem State.modFio_prof (f : FioDyn → FioDyn) : (s.modFio f).prof = s.prof := rfl
@[simp] theorem State.modFio_grp (f : FioDyn → FioDyn) : (s.modFio f).grp = s.grp := rfl
@[simp] theorem State.modFio_clock (f : FioDyn → FioDyn) : (s.modFio f).clock = s.clock := rfl
@[simp] theorem State.modFio_host (f : FioDyn → FioDyn) : (s.modFio f).host = s.host := rfl
@[simp] theorem State.modFio_outbox (f : FioDyn → FioDyn) : (s.modFio f).outbox = s.outbox := rfl
@[simp] theorem State.modFio_sense (f : FioDyn → FioDyn) : (s.modFio f).sense = s.sense := rfl
@[simp] theorem State.modFio_startq (f : FioDyn → FioDyn) : (s.modFio f).startq = s.startq := rfl
@[simp] theorem State.modFio_sched (f : FioDyn → FioDyn) : (s.modFio f).sched = s.sched := rfl
@[simp] theorem State.modFio_twin (f : FioDyn → FioDyn) : (s.modFio f).twin = s.twin := rfl
@[simp] theorem State.modFio_leaving (f : FioDyn → FioDyn) : (s.modFio f).leaving = s.leaving := rfl
@[simp] theorem State.modFio_sto (f : FioDyn → FioDyn) : (s.modFio f).sto = s.sto := rfl
@[simp] theorem State.modFio_fb (f : FioDyn → FioDyn) : (s.modFio f).fb = s.fb := rfl
@[simp] theorem State.modFio_pw (f : FioDyn → FioDyn) : (s.modFio f).pw = s.pw := rfl
@[simp] theorem State.modFio_core (f : FioDyn → FioDyn) : (s.modFio f).core = s.core := rfl
@[simp] theorem State.modFio_net (f : FioDyn → FioDyn) : (s.modFio f).net = s.net := rfl
@[simp] theorem State.modFio_time (f : FioDyn → FioDyn) : (s.modFio f).time = s.time := rfl
@[simp] theorem State.modFio_acq (f : FioDyn → FioDyn) : (s.modFio f).acq = s.acq := rfl
@[simp] theorem State.modFio_can (f : FioDyn → FioDyn) : (s.modFio f).can = s.can := rfl
@[simp] theorem State.modFio_boot (f : FioDyn → FioDyn) : (s.modFio f).boot = s.boot := rfl
@[simp] theorem State.modFio_get (f : FioDyn → FioDyn) (g : Fld) : (s.modFio f).get g = s.get g := rfl
@[simp] theorem State.modFio_byte (f : FioDyn → FioDyn) (x : Nat) : (s.modFio f).byte x = s.byte x := rfl

@[simp] theorem State.modArc_pending (f : ArcDyn → ArcDyn) : (s.modArc f).pending = s.pending := rfl
@[simp] theorem State.modArc_draws (f : ArcDyn → ArcDyn) : (s.modArc f).draws = s.draws := rfl
@[simp] theorem State.modArc_regs (f : ArcDyn → ArcDyn) : (s.modArc f).regs = s.regs := rfl
@[simp] theorem State.modArc_mem (f : ArcDyn → ArcDyn) : (s.modArc f).mem = s.mem := rfl
@[simp] theorem State.modArc_staged (f : ArcDyn → ArcDyn) : (s.modArc f).staged = s.staged := rfl
@[simp] theorem State.modArc_faults (f : ArcDyn → ArcDyn) : (s.modArc f).faults = s.faults := rfl
@[simp] theorem State.modArc_ax (f : ArcDyn → ArcDyn) : (s.modArc f).ax = s.ax := rfl
@[simp] theorem State.modArc_pwm (f : ArcDyn → ArcDyn) : (s.modArc f).pwm = s.pwm := rfl
@[simp] theorem State.modArc_bus (f : ArcDyn → ArcDyn) : (s.modArc f).bus = s.bus := rfl
@[simp] theorem State.modArc_sup (f : ArcDyn → ArcDyn) : (s.modArc f).sup = s.sup := rfl
@[simp] theorem State.modArc_prof (f : ArcDyn → ArcDyn) : (s.modArc f).prof = s.prof := rfl
@[simp] theorem State.modArc_grp (f : ArcDyn → ArcDyn) : (s.modArc f).grp = s.grp := rfl
@[simp] theorem State.modArc_clock (f : ArcDyn → ArcDyn) : (s.modArc f).clock = s.clock := rfl
@[simp] theorem State.modArc_host (f : ArcDyn → ArcDyn) : (s.modArc f).host = s.host := rfl
@[simp] theorem State.modArc_outbox (f : ArcDyn → ArcDyn) : (s.modArc f).outbox = s.outbox := rfl
@[simp] theorem State.modArc_sense (f : ArcDyn → ArcDyn) : (s.modArc f).sense = s.sense := rfl
@[simp] theorem State.modArc_startq (f : ArcDyn → ArcDyn) : (s.modArc f).startq = s.startq := rfl
@[simp] theorem State.modArc_sched (f : ArcDyn → ArcDyn) : (s.modArc f).sched = s.sched := rfl
@[simp] theorem State.modArc_twin (f : ArcDyn → ArcDyn) : (s.modArc f).twin = s.twin := rfl
@[simp] theorem State.modArc_leaving (f : ArcDyn → ArcDyn) : (s.modArc f).leaving = s.leaving := rfl
@[simp] theorem State.modArc_sto (f : ArcDyn → ArcDyn) : (s.modArc f).sto = s.sto := rfl
@[simp] theorem State.modArc_fb (f : ArcDyn → ArcDyn) : (s.modArc f).fb = s.fb := rfl
@[simp] theorem State.modArc_pw (f : ArcDyn → ArcDyn) : (s.modArc f).pw = s.pw := rfl
@[simp] theorem State.modArc_core (f : ArcDyn → ArcDyn) : (s.modArc f).core = s.core := rfl
@[simp] theorem State.modArc_net (f : ArcDyn → ArcDyn) : (s.modArc f).net = s.net := rfl
@[simp] theorem State.modArc_time (f : ArcDyn → ArcDyn) : (s.modArc f).time = s.time := rfl
@[simp] theorem State.modArc_acq (f : ArcDyn → ArcDyn) : (s.modArc f).acq = s.acq := rfl
@[simp] theorem State.modArc_can (f : ArcDyn → ArcDyn) : (s.modArc f).can = s.can := rfl
@[simp] theorem State.modArc_fio (f : ArcDyn → ArcDyn) : (s.modArc f).fio = s.fio := rfl
@[simp] theorem State.modArc_boot (f : ArcDyn → ArcDyn) : (s.modArc f).boot = s.boot := rfl
@[simp] theorem State.modArc_get (f : ArcDyn → ArcDyn) (g : Fld) : (s.modArc f).get g = s.get g := rfl
@[simp] theorem State.modArc_byte (f : ArcDyn → ArcDyn) (x : Nat) : (s.modArc f).byte x = s.byte x := rfl

@[simp] theorem State.modTwin_pending (f : TwinDyn → TwinDyn) : (s.modTwin f).pending = s.pending := rfl
@[simp] theorem State.modTwin_draws (f : TwinDyn → TwinDyn) : (s.modTwin f).draws = s.draws := rfl
@[simp] theorem State.modTwin_regs (f : TwinDyn → TwinDyn) : (s.modTwin f).regs = s.regs := rfl
@[simp] theorem State.modTwin_mem (f : TwinDyn → TwinDyn) : (s.modTwin f).mem = s.mem := rfl
@[simp] theorem State.modTwin_staged (f : TwinDyn → TwinDyn) : (s.modTwin f).staged = s.staged := rfl
@[simp] theorem State.modTwin_arc (f : TwinDyn → TwinDyn) : (s.modTwin f).arc = s.arc := rfl
@[simp] theorem State.modTwin_faults (f : TwinDyn → TwinDyn) : (s.modTwin f).faults = s.faults := rfl
@[simp] theorem State.modTwin_ax (f : TwinDyn → TwinDyn) : (s.modTwin f).ax = s.ax := rfl
@[simp] theorem State.modTwin_pwm (f : TwinDyn → TwinDyn) : (s.modTwin f).pwm = s.pwm := rfl
@[simp] theorem State.modTwin_bus (f : TwinDyn → TwinDyn) : (s.modTwin f).bus = s.bus := rfl
@[simp] theorem State.modTwin_sup (f : TwinDyn → TwinDyn) : (s.modTwin f).sup = s.sup := rfl
@[simp] theorem State.modTwin_prof (f : TwinDyn → TwinDyn) : (s.modTwin f).prof = s.prof := rfl
@[simp] theorem State.modTwin_grp (f : TwinDyn → TwinDyn) : (s.modTwin f).grp = s.grp := rfl
@[simp] theorem State.modTwin_clock (f : TwinDyn → TwinDyn) : (s.modTwin f).clock = s.clock := rfl
@[simp] theorem State.modTwin_host (f : TwinDyn → TwinDyn) : (s.modTwin f).host = s.host := rfl
@[simp] theorem State.modTwin_outbox (f : TwinDyn → TwinDyn) : (s.modTwin f).outbox = s.outbox := rfl
@[simp] theorem State.modTwin_sense (f : TwinDyn → TwinDyn) : (s.modTwin f).sense = s.sense := rfl
@[simp] theorem State.modTwin_startq (f : TwinDyn → TwinDyn) : (s.modTwin f).startq = s.startq := rfl
@[simp] theorem State.modTwin_sched (f : TwinDyn → TwinDyn) : (s.modTwin f).sched = s.sched := rfl
@[simp] theorem State.modTwin_leaving (f : TwinDyn → TwinDyn) : (s.modTwin f).leaving = s.leaving := rfl
@[simp] theorem State.modTwin_sto (f : TwinDyn → TwinDyn) : (s.modTwin f).sto = s.sto := rfl
@[simp] theorem State.modTwin_fb (f : TwinDyn → TwinDyn) : (s.modTwin f).fb = s.fb := rfl
@[simp] theorem State.modTwin_pw (f : TwinDyn → TwinDyn) : (s.modTwin f).pw = s.pw := rfl
@[simp] theorem State.modTwin_core (f : TwinDyn → TwinDyn) : (s.modTwin f).core = s.core := rfl
@[simp] theorem State.modTwin_net (f : TwinDyn → TwinDyn) : (s.modTwin f).net = s.net := rfl
@[simp] theorem State.modTwin_time (f : TwinDyn → TwinDyn) : (s.modTwin f).time = s.time := rfl
@[simp] theorem State.modTwin_acq (f : TwinDyn → TwinDyn) : (s.modTwin f).acq = s.acq := rfl
@[simp] theorem State.modTwin_can (f : TwinDyn → TwinDyn) : (s.modTwin f).can = s.can := rfl
@[simp] theorem State.modTwin_fio (f : TwinDyn → TwinDyn) : (s.modTwin f).fio = s.fio := rfl
@[simp] theorem State.modTwin_boot (f : TwinDyn → TwinDyn) : (s.modTwin f).boot = s.boot := rfl
@[simp] theorem State.modTwin_get (f : TwinDyn → TwinDyn) (g : Fld) : (s.modTwin f).get g = s.get g := rfl
@[simp] theorem State.modTwin_byte (f : TwinDyn → TwinDyn) (x : Nat) : (s.modTwin f).byte x = s.byte x := rfl

@[simp] theorem State.modPw_pending (f : PwrDyn → PwrDyn) : (s.modPw f).pending = s.pending := rfl
@[simp] theorem State.modPw_draws (f : PwrDyn → PwrDyn) : (s.modPw f).draws = s.draws := rfl
@[simp] theorem State.modPw_regs (f : PwrDyn → PwrDyn) : (s.modPw f).regs = s.regs := rfl
@[simp] theorem State.modPw_mem (f : PwrDyn → PwrDyn) : (s.modPw f).mem = s.mem := rfl
@[simp] theorem State.modPw_staged (f : PwrDyn → PwrDyn) : (s.modPw f).staged = s.staged := rfl
@[simp] theorem State.modPw_arc (f : PwrDyn → PwrDyn) : (s.modPw f).arc = s.arc := rfl
@[simp] theorem State.modPw_faults (f : PwrDyn → PwrDyn) : (s.modPw f).faults = s.faults := rfl
@[simp] theorem State.modPw_ax (f : PwrDyn → PwrDyn) : (s.modPw f).ax = s.ax := rfl
@[simp] theorem State.modPw_pwm (f : PwrDyn → PwrDyn) : (s.modPw f).pwm = s.pwm := rfl
@[simp] theorem State.modPw_bus (f : PwrDyn → PwrDyn) : (s.modPw f).bus = s.bus := rfl
@[simp] theorem State.modPw_sup (f : PwrDyn → PwrDyn) : (s.modPw f).sup = s.sup := rfl
@[simp] theorem State.modPw_prof (f : PwrDyn → PwrDyn) : (s.modPw f).prof = s.prof := rfl
@[simp] theorem State.modPw_grp (f : PwrDyn → PwrDyn) : (s.modPw f).grp = s.grp := rfl
@[simp] theorem State.modPw_clock (f : PwrDyn → PwrDyn) : (s.modPw f).clock = s.clock := rfl
@[simp] theorem State.modPw_host (f : PwrDyn → PwrDyn) : (s.modPw f).host = s.host := rfl
@[simp] theorem State.modPw_outbox (f : PwrDyn → PwrDyn) : (s.modPw f).outbox = s.outbox := rfl
@[simp] theorem State.modPw_sense (f : PwrDyn → PwrDyn) : (s.modPw f).sense = s.sense := rfl
@[simp] theorem State.modPw_startq (f : PwrDyn → PwrDyn) : (s.modPw f).startq = s.startq := rfl
@[simp] theorem State.modPw_sched (f : PwrDyn → PwrDyn) : (s.modPw f).sched = s.sched := rfl
@[simp] theorem State.modPw_twin (f : PwrDyn → PwrDyn) : (s.modPw f).twin = s.twin := rfl
@[simp] theorem State.modPw_leaving (f : PwrDyn → PwrDyn) : (s.modPw f).leaving = s.leaving := rfl
@[simp] theorem State.modPw_sto (f : PwrDyn → PwrDyn) : (s.modPw f).sto = s.sto := rfl
@[simp] theorem State.modPw_fb (f : PwrDyn → PwrDyn) : (s.modPw f).fb = s.fb := rfl
@[simp] theorem State.modPw_core (f : PwrDyn → PwrDyn) : (s.modPw f).core = s.core := rfl
@[simp] theorem State.modPw_net (f : PwrDyn → PwrDyn) : (s.modPw f).net = s.net := rfl
@[simp] theorem State.modPw_time (f : PwrDyn → PwrDyn) : (s.modPw f).time = s.time := rfl
@[simp] theorem State.modPw_acq (f : PwrDyn → PwrDyn) : (s.modPw f).acq = s.acq := rfl
@[simp] theorem State.modPw_can (f : PwrDyn → PwrDyn) : (s.modPw f).can = s.can := rfl
@[simp] theorem State.modPw_fio (f : PwrDyn → PwrDyn) : (s.modPw f).fio = s.fio := rfl
@[simp] theorem State.modPw_boot (f : PwrDyn → PwrDyn) : (s.modPw f).boot = s.boot := rfl
@[simp] theorem State.modPw_get (f : PwrDyn → PwrDyn) (g : Fld) : (s.modPw f).get g = s.get g := rfl
@[simp] theorem State.modPw_byte (f : PwrDyn → PwrDyn) (x : Nat) : (s.modPw f).byte x = s.byte x := rfl

@[simp] theorem State.modAcq_pending (f : AcqDyn → AcqDyn) : (s.modAcq f).pending = s.pending := rfl
@[simp] theorem State.modAcq_draws (f : AcqDyn → AcqDyn) : (s.modAcq f).draws = s.draws := rfl
@[simp] theorem State.modAcq_regs (f : AcqDyn → AcqDyn) : (s.modAcq f).regs = s.regs := rfl
@[simp] theorem State.modAcq_mem (f : AcqDyn → AcqDyn) : (s.modAcq f).mem = s.mem := rfl
@[simp] theorem State.modAcq_staged (f : AcqDyn → AcqDyn) : (s.modAcq f).staged = s.staged := rfl
@[simp] theorem State.modAcq_arc (f : AcqDyn → AcqDyn) : (s.modAcq f).arc = s.arc := rfl
@[simp] theorem State.modAcq_faults (f : AcqDyn → AcqDyn) : (s.modAcq f).faults = s.faults := rfl
@[simp] theorem State.modAcq_ax (f : AcqDyn → AcqDyn) : (s.modAcq f).ax = s.ax := rfl
@[simp] theorem State.modAcq_pwm (f : AcqDyn → AcqDyn) : (s.modAcq f).pwm = s.pwm := rfl
@[simp] theorem State.modAcq_bus (f : AcqDyn → AcqDyn) : (s.modAcq f).bus = s.bus := rfl
@[simp] theorem State.modAcq_sup (f : AcqDyn → AcqDyn) : (s.modAcq f).sup = s.sup := rfl
@[simp] theorem State.modAcq_prof (f : AcqDyn → AcqDyn) : (s.modAcq f).prof = s.prof := rfl
@[simp] theorem State.modAcq_grp (f : AcqDyn → AcqDyn) : (s.modAcq f).grp = s.grp := rfl
@[simp] theorem State.modAcq_clock (f : AcqDyn → AcqDyn) : (s.modAcq f).clock = s.clock := rfl
@[simp] theorem State.modAcq_host (f : AcqDyn → AcqDyn) : (s.modAcq f).host = s.host := rfl
@[simp] theorem State.modAcq_outbox (f : AcqDyn → AcqDyn) : (s.modAcq f).outbox = s.outbox := rfl
@[simp] theorem State.modAcq_sense (f : AcqDyn → AcqDyn) : (s.modAcq f).sense = s.sense := rfl
@[simp] theorem State.modAcq_startq (f : AcqDyn → AcqDyn) : (s.modAcq f).startq = s.startq := rfl
@[simp] theorem State.modAcq_sched (f : AcqDyn → AcqDyn) : (s.modAcq f).sched = s.sched := rfl
@[simp] theorem State.modAcq_twin (f : AcqDyn → AcqDyn) : (s.modAcq f).twin = s.twin := rfl
@[simp] theorem State.modAcq_leaving (f : AcqDyn → AcqDyn) : (s.modAcq f).leaving = s.leaving := rfl
@[simp] theorem State.modAcq_sto (f : AcqDyn → AcqDyn) : (s.modAcq f).sto = s.sto := rfl
@[simp] theorem State.modAcq_fb (f : AcqDyn → AcqDyn) : (s.modAcq f).fb = s.fb := rfl
@[simp] theorem State.modAcq_pw (f : AcqDyn → AcqDyn) : (s.modAcq f).pw = s.pw := rfl
@[simp] theorem State.modAcq_core (f : AcqDyn → AcqDyn) : (s.modAcq f).core = s.core := rfl
@[simp] theorem State.modAcq_net (f : AcqDyn → AcqDyn) : (s.modAcq f).net = s.net := rfl
@[simp] theorem State.modAcq_time (f : AcqDyn → AcqDyn) : (s.modAcq f).time = s.time := rfl
@[simp] theorem State.modAcq_can (f : AcqDyn → AcqDyn) : (s.modAcq f).can = s.can := rfl
@[simp] theorem State.modAcq_fio (f : AcqDyn → AcqDyn) : (s.modAcq f).fio = s.fio := rfl
@[simp] theorem State.modAcq_boot (f : AcqDyn → AcqDyn) : (s.modAcq f).boot = s.boot := rfl
@[simp] theorem State.modAcq_get (f : AcqDyn → AcqDyn) (g : Fld) : (s.modAcq f).get g = s.get g := rfl
@[simp] theorem State.modAcq_byte (f : AcqDyn → AcqDyn) (x : Nat) : (s.modAcq f).byte x = s.byte x := rfl

@[simp] theorem State.modTime_pending (f : TimeDyn → TimeDyn) : (s.modTime f).pending = s.pending := rfl
@[simp] theorem State.modTime_draws (f : TimeDyn → TimeDyn) : (s.modTime f).draws = s.draws := rfl
@[simp] theorem State.modTime_regs (f : TimeDyn → TimeDyn) : (s.modTime f).regs = s.regs := rfl
@[simp] theorem State.modTime_mem (f : TimeDyn → TimeDyn) : (s.modTime f).mem = s.mem := rfl
@[simp] theorem State.modTime_staged (f : TimeDyn → TimeDyn) : (s.modTime f).staged = s.staged := rfl
@[simp] theorem State.modTime_arc (f : TimeDyn → TimeDyn) : (s.modTime f).arc = s.arc := rfl
@[simp] theorem State.modTime_faults (f : TimeDyn → TimeDyn) : (s.modTime f).faults = s.faults := rfl
@[simp] theorem State.modTime_ax (f : TimeDyn → TimeDyn) : (s.modTime f).ax = s.ax := rfl
@[simp] theorem State.modTime_pwm (f : TimeDyn → TimeDyn) : (s.modTime f).pwm = s.pwm := rfl
@[simp] theorem State.modTime_bus (f : TimeDyn → TimeDyn) : (s.modTime f).bus = s.bus := rfl
@[simp] theorem State.modTime_sup (f : TimeDyn → TimeDyn) : (s.modTime f).sup = s.sup := rfl
@[simp] theorem State.modTime_prof (f : TimeDyn → TimeDyn) : (s.modTime f).prof = s.prof := rfl
@[simp] theorem State.modTime_grp (f : TimeDyn → TimeDyn) : (s.modTime f).grp = s.grp := rfl
@[simp] theorem State.modTime_clock (f : TimeDyn → TimeDyn) : (s.modTime f).clock = s.clock := rfl
@[simp] theorem State.modTime_host (f : TimeDyn → TimeDyn) : (s.modTime f).host = s.host := rfl
@[simp] theorem State.modTime_outbox (f : TimeDyn → TimeDyn) : (s.modTime f).outbox = s.outbox := rfl
@[simp] theorem State.modTime_sense (f : TimeDyn → TimeDyn) : (s.modTime f).sense = s.sense := rfl
@[simp] theorem State.modTime_startq (f : TimeDyn → TimeDyn) : (s.modTime f).startq = s.startq := rfl
@[simp] theorem State.modTime_sched (f : TimeDyn → TimeDyn) : (s.modTime f).sched = s.sched := rfl
@[simp] theorem State.modTime_twin (f : TimeDyn → TimeDyn) : (s.modTime f).twin = s.twin := rfl
@[simp] theorem State.modTime_leaving (f : TimeDyn → TimeDyn) : (s.modTime f).leaving = s.leaving := rfl
@[simp] theorem State.modTime_sto (f : TimeDyn → TimeDyn) : (s.modTime f).sto = s.sto := rfl
@[simp] theorem State.modTime_fb (f : TimeDyn → TimeDyn) : (s.modTime f).fb = s.fb := rfl
@[simp] theorem State.modTime_pw (f : TimeDyn → TimeDyn) : (s.modTime f).pw = s.pw := rfl
@[simp] theorem State.modTime_core (f : TimeDyn → TimeDyn) : (s.modTime f).core = s.core := rfl
@[simp] theorem State.modTime_net (f : TimeDyn → TimeDyn) : (s.modTime f).net = s.net := rfl
@[simp] theorem State.modTime_acq (f : TimeDyn → TimeDyn) : (s.modTime f).acq = s.acq := rfl
@[simp] theorem State.modTime_can (f : TimeDyn → TimeDyn) : (s.modTime f).can = s.can := rfl
@[simp] theorem State.modTime_fio (f : TimeDyn → TimeDyn) : (s.modTime f).fio = s.fio := rfl
@[simp] theorem State.modTime_boot (f : TimeDyn → TimeDyn) : (s.modTime f).boot = s.boot := rfl
@[simp] theorem State.modTime_get (f : TimeDyn → TimeDyn) (g : Fld) : (s.modTime f).get g = s.get g := rfl
@[simp] theorem State.modTime_byte (f : TimeDyn → TimeDyn) (x : Nat) : (s.modTime f).byte x = s.byte x := rfl

@[simp] theorem State.modSched_pending (f : SchedDyn → SchedDyn) : (s.modSched f).pending = s.pending := rfl
@[simp] theorem State.modSched_draws (f : SchedDyn → SchedDyn) : (s.modSched f).draws = s.draws := rfl
@[simp] theorem State.modSched_regs (f : SchedDyn → SchedDyn) : (s.modSched f).regs = s.regs := rfl
@[simp] theorem State.modSched_mem (f : SchedDyn → SchedDyn) : (s.modSched f).mem = s.mem := rfl
@[simp] theorem State.modSched_staged (f : SchedDyn → SchedDyn) : (s.modSched f).staged = s.staged := rfl
@[simp] theorem State.modSched_arc (f : SchedDyn → SchedDyn) : (s.modSched f).arc = s.arc := rfl
@[simp] theorem State.modSched_faults (f : SchedDyn → SchedDyn) : (s.modSched f).faults = s.faults := rfl
@[simp] theorem State.modSched_ax (f : SchedDyn → SchedDyn) : (s.modSched f).ax = s.ax := rfl
@[simp] theorem State.modSched_pwm (f : SchedDyn → SchedDyn) : (s.modSched f).pwm = s.pwm := rfl
@[simp] theorem State.modSched_bus (f : SchedDyn → SchedDyn) : (s.modSched f).bus = s.bus := rfl
@[simp] theorem State.modSched_sup (f : SchedDyn → SchedDyn) : (s.modSched f).sup = s.sup := rfl
@[simp] theorem State.modSched_prof (f : SchedDyn → SchedDyn) : (s.modSched f).prof = s.prof := rfl
@[simp] theorem State.modSched_grp (f : SchedDyn → SchedDyn) : (s.modSched f).grp = s.grp := rfl
@[simp] theorem State.modSched_clock (f : SchedDyn → SchedDyn) : (s.modSched f).clock = s.clock := rfl
@[simp] theorem State.modSched_host (f : SchedDyn → SchedDyn) : (s.modSched f).host = s.host := rfl
@[simp] theorem State.modSched_outbox (f : SchedDyn → SchedDyn) : (s.modSched f).outbox = s.outbox := rfl
@[simp] theorem State.modSched_sense (f : SchedDyn → SchedDyn) : (s.modSched f).sense = s.sense := rfl
@[simp] theorem State.modSched_startq (f : SchedDyn → SchedDyn) : (s.modSched f).startq = s.startq := rfl
@[simp] theorem State.modSched_twin (f : SchedDyn → SchedDyn) : (s.modSched f).twin = s.twin := rfl
@[simp] theorem State.modSched_leaving (f : SchedDyn → SchedDyn) : (s.modSched f).leaving = s.leaving := rfl
@[simp] theorem State.modSched_sto (f : SchedDyn → SchedDyn) : (s.modSched f).sto = s.sto := rfl
@[simp] theorem State.modSched_fb (f : SchedDyn → SchedDyn) : (s.modSched f).fb = s.fb := rfl
@[simp] theorem State.modSched_pw (f : SchedDyn → SchedDyn) : (s.modSched f).pw = s.pw := rfl
@[simp] theorem State.modSched_core (f : SchedDyn → SchedDyn) : (s.modSched f).core = s.core := rfl
@[simp] theorem State.modSched_net (f : SchedDyn → SchedDyn) : (s.modSched f).net = s.net := rfl
@[simp] theorem State.modSched_time (f : SchedDyn → SchedDyn) : (s.modSched f).time = s.time := rfl
@[simp] theorem State.modSched_acq (f : SchedDyn → SchedDyn) : (s.modSched f).acq = s.acq := rfl
@[simp] theorem State.modSched_can (f : SchedDyn → SchedDyn) : (s.modSched f).can = s.can := rfl
@[simp] theorem State.modSched_fio (f : SchedDyn → SchedDyn) : (s.modSched f).fio = s.fio := rfl
@[simp] theorem State.modSched_boot (f : SchedDyn → SchedDyn) : (s.modSched f).boot = s.boot := rfl
@[simp] theorem State.modSched_get (f : SchedDyn → SchedDyn) (g : Fld) : (s.modSched f).get g = s.get g := rfl
@[simp] theorem State.modSched_byte (f : SchedDyn → SchedDyn) (x : Nat) : (s.modSched f).byte x = s.byte x := rfl

@[simp] theorem State.modBoot_pending (f : BootDyn → BootDyn) : (s.modBoot f).pending = s.pending := rfl
@[simp] theorem State.modBoot_draws (f : BootDyn → BootDyn) : (s.modBoot f).draws = s.draws := rfl
@[simp] theorem State.modBoot_regs (f : BootDyn → BootDyn) : (s.modBoot f).regs = s.regs := rfl
@[simp] theorem State.modBoot_mem (f : BootDyn → BootDyn) : (s.modBoot f).mem = s.mem := rfl
@[simp] theorem State.modBoot_staged (f : BootDyn → BootDyn) : (s.modBoot f).staged = s.staged := rfl
@[simp] theorem State.modBoot_arc (f : BootDyn → BootDyn) : (s.modBoot f).arc = s.arc := rfl
@[simp] theorem State.modBoot_faults (f : BootDyn → BootDyn) : (s.modBoot f).faults = s.faults := rfl
@[simp] theorem State.modBoot_ax (f : BootDyn → BootDyn) : (s.modBoot f).ax = s.ax := rfl
@[simp] theorem State.modBoot_pwm (f : BootDyn → BootDyn) : (s.modBoot f).pwm = s.pwm := rfl
@[simp] theorem State.modBoot_bus (f : BootDyn → BootDyn) : (s.modBoot f).bus = s.bus := rfl
@[simp] theorem State.modBoot_sup (f : BootDyn → BootDyn) : (s.modBoot f).sup = s.sup := rfl
@[simp] theorem State.modBoot_prof (f : BootDyn → BootDyn) : (s.modBoot f).prof = s.prof := rfl
@[simp] theorem State.modBoot_grp (f : BootDyn → BootDyn) : (s.modBoot f).grp = s.grp := rfl
@[simp] theorem State.modBoot_clock (f : BootDyn → BootDyn) : (s.modBoot f).clock = s.clock := rfl
@[simp] theorem State.modBoot_host (f : BootDyn → BootDyn) : (s.modBoot f).host = s.host := rfl
@[simp] theorem State.modBoot_outbox (f : BootDyn → BootDyn) : (s.modBoot f).outbox = s.outbox := rfl
@[simp] theorem State.modBoot_sense (f : BootDyn → BootDyn) : (s.modBoot f).sense = s.sense := rfl
@[simp] theorem State.modBoot_startq (f : BootDyn → BootDyn) : (s.modBoot f).startq = s.startq := rfl
@[simp] theorem State.modBoot_sched (f : BootDyn → BootDyn) : (s.modBoot f).sched = s.sched := rfl
@[simp] theorem State.modBoot_twin (f : BootDyn → BootDyn) : (s.modBoot f).twin = s.twin := rfl
@[simp] theorem State.modBoot_leaving (f : BootDyn → BootDyn) : (s.modBoot f).leaving = s.leaving := rfl
@[simp] theorem State.modBoot_sto (f : BootDyn → BootDyn) : (s.modBoot f).sto = s.sto := rfl
@[simp] theorem State.modBoot_fb (f : BootDyn → BootDyn) : (s.modBoot f).fb = s.fb := rfl
@[simp] theorem State.modBoot_pw (f : BootDyn → BootDyn) : (s.modBoot f).pw = s.pw := rfl
@[simp] theorem State.modBoot_core (f : BootDyn → BootDyn) : (s.modBoot f).core = s.core := rfl
@[simp] theorem State.modBoot_net (f : BootDyn → BootDyn) : (s.modBoot f).net = s.net := rfl
@[simp] theorem State.modBoot_time (f : BootDyn → BootDyn) : (s.modBoot f).time = s.time := rfl
@[simp] theorem State.modBoot_acq (f : BootDyn → BootDyn) : (s.modBoot f).acq = s.acq := rfl
@[simp] theorem State.modBoot_can (f : BootDyn → BootDyn) : (s.modBoot f).can = s.can := rfl
@[simp] theorem State.modBoot_fio (f : BootDyn → BootDyn) : (s.modBoot f).fio = s.fio := rfl
@[simp] theorem State.modBoot_get (f : BootDyn → BootDyn) (g : Fld) : (s.modBoot f).get g = s.get g := rfl
@[simp] theorem State.modBoot_byte (f : BootDyn → BootDyn) (x : Nat) : (s.modBoot f).byte x = s.byte x := rfl

@[simp] theorem State.modSession_pending (i : Nat) (f : Session → Session) : (s.modSession i f).pending = s.pending := rfl
@[simp] theorem State.modSession_draws (i : Nat) (f : Session → Session) : (s.modSession i f).draws = s.draws := rfl
@[simp] theorem State.modSession_regs (i : Nat) (f : Session → Session) : (s.modSession i f).regs = s.regs := rfl
@[simp] theorem State.modSession_mem (i : Nat) (f : Session → Session) : (s.modSession i f).mem = s.mem := rfl
@[simp] theorem State.modSession_staged (i : Nat) (f : Session → Session) : (s.modSession i f).staged = s.staged := rfl
@[simp] theorem State.modSession_arc (i : Nat) (f : Session → Session) : (s.modSession i f).arc = s.arc := rfl
@[simp] theorem State.modSession_faults (i : Nat) (f : Session → Session) : (s.modSession i f).faults = s.faults := rfl
@[simp] theorem State.modSession_ax (i : Nat) (f : Session → Session) : (s.modSession i f).ax = s.ax := rfl
@[simp] theorem State.modSession_pwm (i : Nat) (f : Session → Session) : (s.modSession i f).pwm = s.pwm := rfl
@[simp] theorem State.modSession_bus (i : Nat) (f : Session → Session) : (s.modSession i f).bus = s.bus := rfl
@[simp] theorem State.modSession_sup (i : Nat) (f : Session → Session) : (s.modSession i f).sup = s.sup := rfl
@[simp] theorem State.modSession_prof (i : Nat) (f : Session → Session) : (s.modSession i f).prof = s.prof := rfl
@[simp] theorem State.modSession_grp (i : Nat) (f : Session → Session) : (s.modSession i f).grp = s.grp := rfl
@[simp] theorem State.modSession_clock (i : Nat) (f : Session → Session) : (s.modSession i f).clock = s.clock := rfl
@[simp] theorem State.modSession_outbox (i : Nat) (f : Session → Session) : (s.modSession i f).outbox = s.outbox := rfl
@[simp] theorem State.modSession_sense (i : Nat) (f : Session → Session) : (s.modSession i f).sense = s.sense := rfl
@[simp] theorem State.modSession_startq (i : Nat) (f : Session → Session) : (s.modSession i f).startq = s.startq := rfl
@[simp] theorem State.modSession_sched (i : Nat) (f : Session → Session) : (s.modSession i f).sched = s.sched := rfl
@[simp] theorem State.modSession_twin (i : Nat) (f : Session → Session) : (s.modSession i f).twin = s.twin := rfl
@[simp] theorem State.modSession_leaving (i : Nat) (f : Session → Session) : (s.modSession i f).leaving = s.leaving := rfl
@[simp] theorem State.modSession_sto (i : Nat) (f : Session → Session) : (s.modSession i f).sto = s.sto := rfl
@[simp] theorem State.modSession_fb (i : Nat) (f : Session → Session) : (s.modSession i f).fb = s.fb := rfl
@[simp] theorem State.modSession_pw (i : Nat) (f : Session → Session) : (s.modSession i f).pw = s.pw := rfl
@[simp] theorem State.modSession_core (i : Nat) (f : Session → Session) : (s.modSession i f).core = s.core := rfl
@[simp] theorem State.modSession_net (i : Nat) (f : Session → Session) : (s.modSession i f).net = s.net := rfl
@[simp] theorem State.modSession_time (i : Nat) (f : Session → Session) : (s.modSession i f).time = s.time := rfl
@[simp] theorem State.modSession_acq (i : Nat) (f : Session → Session) : (s.modSession i f).acq = s.acq := rfl
@[simp] theorem State.modSession_can (i : Nat) (f : Session → Session) : (s.modSession i f).can = s.can := rfl
@[simp] theorem State.modSession_fio (i : Nat) (f : Session → Session) : (s.modSession i f).fio = s.fio := rfl
@[simp] theorem State.modSession_boot (i : Nat) (f : Session → Session) : (s.modSession i f).boot = s.boot := rfl
@[simp] theorem State.modSession_get (i : Nat) (f : Session → Session) (g : Fld) : (s.modSession i f).get g = s.get g := rfl
@[simp] theorem State.modSession_byte (i : Nat) (f : Session → Session) (x : Nat) : (s.modSession i f).byte x = s.byte x := rfl

@[simp] theorem State.modPort_pending (p : Fin 3) (f : PortDyn → PortDyn) : (s.modPort p f).pending = s.pending := rfl
@[simp] theorem State.modPort_draws (p : Fin 3) (f : PortDyn → PortDyn) : (s.modPort p f).draws = s.draws := rfl
@[simp] theorem State.modPort_regs (p : Fin 3) (f : PortDyn → PortDyn) : (s.modPort p f).regs = s.regs := rfl
@[simp] theorem State.modPort_mem (p : Fin 3) (f : PortDyn → PortDyn) : (s.modPort p f).mem = s.mem := rfl
@[simp] theorem State.modPort_staged (p : Fin 3) (f : PortDyn → PortDyn) : (s.modPort p f).staged = s.staged := rfl
@[simp] theorem State.modPort_arc (p : Fin 3) (f : PortDyn → PortDyn) : (s.modPort p f).arc = s.arc := rfl
@[simp] theorem State.modPort_faults (p : Fin 3) (f : PortDyn → PortDyn) : (s.modPort p f).faults = s.faults := rfl
@[simp] theorem State.modPort_ax (p : Fin 3) (f : PortDyn → PortDyn) : (s.modPort p f).ax = s.ax := rfl
@[simp] theorem State.modPort_pwm (p : Fin 3) (f : PortDyn → PortDyn) : (s.modPort p f).pwm = s.pwm := rfl
@[simp] theorem State.modPort_bus (p : Fin 3) (f : PortDyn → PortDyn) : (s.modPort p f).bus = s.bus := rfl
@[simp] theorem State.modPort_sup (p : Fin 3) (f : PortDyn → PortDyn) : (s.modPort p f).sup = s.sup := rfl
@[simp] theorem State.modPort_prof (p : Fin 3) (f : PortDyn → PortDyn) : (s.modPort p f).prof = s.prof := rfl
@[simp] theorem State.modPort_grp (p : Fin 3) (f : PortDyn → PortDyn) : (s.modPort p f).grp = s.grp := rfl
@[simp] theorem State.modPort_clock (p : Fin 3) (f : PortDyn → PortDyn) : (s.modPort p f).clock = s.clock := rfl
@[simp] theorem State.modPort_host (p : Fin 3) (f : PortDyn → PortDyn) : (s.modPort p f).host = s.host := rfl
@[simp] theorem State.modPort_outbox (p : Fin 3) (f : PortDyn → PortDyn) : (s.modPort p f).outbox = s.outbox := rfl
@[simp] theorem State.modPort_sense (p : Fin 3) (f : PortDyn → PortDyn) : (s.modPort p f).sense = s.sense := rfl
@[simp] theorem State.modPort_startq (p : Fin 3) (f : PortDyn → PortDyn) : (s.modPort p f).startq = s.startq := rfl
@[simp] theorem State.modPort_sched (p : Fin 3) (f : PortDyn → PortDyn) : (s.modPort p f).sched = s.sched := rfl
@[simp] theorem State.modPort_twin (p : Fin 3) (f : PortDyn → PortDyn) : (s.modPort p f).twin = s.twin := rfl
@[simp] theorem State.modPort_leaving (p : Fin 3) (f : PortDyn → PortDyn) : (s.modPort p f).leaving = s.leaving := rfl
@[simp] theorem State.modPort_sto (p : Fin 3) (f : PortDyn → PortDyn) : (s.modPort p f).sto = s.sto := rfl
@[simp] theorem State.modPort_fb (p : Fin 3) (f : PortDyn → PortDyn) : (s.modPort p f).fb = s.fb := rfl
@[simp] theorem State.modPort_pw (p : Fin 3) (f : PortDyn → PortDyn) : (s.modPort p f).pw = s.pw := rfl
@[simp] theorem State.modPort_core (p : Fin 3) (f : PortDyn → PortDyn) : (s.modPort p f).core = s.core := rfl
@[simp] theorem State.modPort_time (p : Fin 3) (f : PortDyn → PortDyn) : (s.modPort p f).time = s.time := rfl
@[simp] theorem State.modPort_acq (p : Fin 3) (f : PortDyn → PortDyn) : (s.modPort p f).acq = s.acq := rfl
@[simp] theorem State.modPort_can (p : Fin 3) (f : PortDyn → PortDyn) : (s.modPort p f).can = s.can := rfl
@[simp] theorem State.modPort_fio (p : Fin 3) (f : PortDyn → PortDyn) : (s.modPort p f).fio = s.fio := rfl
@[simp] theorem State.modPort_boot (p : Fin 3) (f : PortDyn → PortDyn) : (s.modPort p f).boot = s.boot := rfl
@[simp] theorem State.modPort_get (p : Fin 3) (f : PortDyn → PortDyn) (g : Fld) : (s.modPort p f).get g = s.get g := rfl
@[simp] theorem State.modPort_byte (p : Fin 3) (f : PortDyn → PortDyn) (x : Nat) : (s.modPort p f).byte x = s.byte x := rfl

@[simp] theorem State.send_pending (p q : Nat) (m : OwnMsg) : (s.send p q m).pending = s.pending := rfl
@[simp] theorem State.send_draws (p q : Nat) (m : OwnMsg) : (s.send p q m).draws = s.draws := rfl
@[simp] theorem State.send_regs (p q : Nat) (m : OwnMsg) : (s.send p q m).regs = s.regs := rfl
@[simp] theorem State.send_mem (p q : Nat) (m : OwnMsg) : (s.send p q m).mem = s.mem := rfl
@[simp] theorem State.send_staged (p q : Nat) (m : OwnMsg) : (s.send p q m).staged = s.staged := rfl
@[simp] theorem State.send_arc (p q : Nat) (m : OwnMsg) : (s.send p q m).arc = s.arc := rfl
@[simp] theorem State.send_faults (p q : Nat) (m : OwnMsg) : (s.send p q m).faults = s.faults := rfl
@[simp] theorem State.send_ax (p q : Nat) (m : OwnMsg) : (s.send p q m).ax = s.ax := rfl
@[simp] theorem State.send_pwm (p q : Nat) (m : OwnMsg) : (s.send p q m).pwm = s.pwm := rfl
@[simp] theorem State.send_bus (p q : Nat) (m : OwnMsg) : (s.send p q m).bus = s.bus := rfl
@[simp] theorem State.send_sup (p q : Nat) (m : OwnMsg) : (s.send p q m).sup = s.sup := rfl
@[simp] theorem State.send_prof (p q : Nat) (m : OwnMsg) : (s.send p q m).prof = s.prof := rfl
@[simp] theorem State.send_grp (p q : Nat) (m : OwnMsg) : (s.send p q m).grp = s.grp := rfl
@[simp] theorem State.send_clock (p q : Nat) (m : OwnMsg) : (s.send p q m).clock = s.clock := rfl
@[simp] theorem State.send_host (p q : Nat) (m : OwnMsg) : (s.send p q m).host = s.host := rfl
@[simp] theorem State.send_sense (p q : Nat) (m : OwnMsg) : (s.send p q m).sense = s.sense := rfl
@[simp] theorem State.send_startq (p q : Nat) (m : OwnMsg) : (s.send p q m).startq = s.startq := rfl
@[simp] theorem State.send_sched (p q : Nat) (m : OwnMsg) : (s.send p q m).sched = s.sched := rfl
@[simp] theorem State.send_twin (p q : Nat) (m : OwnMsg) : (s.send p q m).twin = s.twin := rfl
@[simp] theorem State.send_leaving (p q : Nat) (m : OwnMsg) : (s.send p q m).leaving = s.leaving := rfl
@[simp] theorem State.send_sto (p q : Nat) (m : OwnMsg) : (s.send p q m).sto = s.sto := rfl
@[simp] theorem State.send_fb (p q : Nat) (m : OwnMsg) : (s.send p q m).fb = s.fb := rfl
@[simp] theorem State.send_pw (p q : Nat) (m : OwnMsg) : (s.send p q m).pw = s.pw := rfl
@[simp] theorem State.send_core (p q : Nat) (m : OwnMsg) : (s.send p q m).core = s.core := rfl
@[simp] theorem State.send_net (p q : Nat) (m : OwnMsg) : (s.send p q m).net = s.net := rfl
@[simp] theorem State.send_time (p q : Nat) (m : OwnMsg) : (s.send p q m).time = s.time := rfl
@[simp] theorem State.send_acq (p q : Nat) (m : OwnMsg) : (s.send p q m).acq = s.acq := rfl
@[simp] theorem State.send_can (p q : Nat) (m : OwnMsg) : (s.send p q m).can = s.can := rfl
@[simp] theorem State.send_fio (p q : Nat) (m : OwnMsg) : (s.send p q m).fio = s.fio := rfl
@[simp] theorem State.send_boot (p q : Nat) (m : OwnMsg) : (s.send p q m).boot = s.boot := rfl
@[simp] theorem State.send_get (p q : Nat) (m : OwnMsg) (g : Fld) : (s.send p q m).get g = s.get g := rfl
@[simp] theorem State.send_byte (p q : Nat) (m : OwnMsg) (x : Nat) : (s.send p q m).byte x = s.byte x := rfl

@[simp] theorem State.note_pending (k : Core) (x : CoreNote) : (s.note k x).pending = s.pending := rfl
@[simp] theorem State.note_draws (k : Core) (x : CoreNote) : (s.note k x).draws = s.draws := rfl
@[simp] theorem State.note_regs (k : Core) (x : CoreNote) : (s.note k x).regs = s.regs := rfl
@[simp] theorem State.note_mem (k : Core) (x : CoreNote) : (s.note k x).mem = s.mem := rfl
@[simp] theorem State.note_staged (k : Core) (x : CoreNote) : (s.note k x).staged = s.staged := rfl
@[simp] theorem State.note_arc (k : Core) (x : CoreNote) : (s.note k x).arc = s.arc := rfl
@[simp] theorem State.note_faults (k : Core) (x : CoreNote) : (s.note k x).faults = s.faults := rfl
@[simp] theorem State.note_ax (k : Core) (x : CoreNote) : (s.note k x).ax = s.ax := rfl
@[simp] theorem State.note_pwm (k : Core) (x : CoreNote) : (s.note k x).pwm = s.pwm := rfl
@[simp] theorem State.note_bus (k : Core) (x : CoreNote) : (s.note k x).bus = s.bus := rfl
@[simp] theorem State.note_sup (k : Core) (x : CoreNote) : (s.note k x).sup = s.sup := rfl
@[simp] theorem State.note_prof (k : Core) (x : CoreNote) : (s.note k x).prof = s.prof := rfl
@[simp] theorem State.note_grp (k : Core) (x : CoreNote) : (s.note k x).grp = s.grp := rfl
@[simp] theorem State.note_clock (k : Core) (x : CoreNote) : (s.note k x).clock = s.clock := rfl
@[simp] theorem State.note_host (k : Core) (x : CoreNote) : (s.note k x).host = s.host := rfl
@[simp] theorem State.note_outbox (k : Core) (x : CoreNote) : (s.note k x).outbox = s.outbox := rfl
@[simp] theorem State.note_sense (k : Core) (x : CoreNote) : (s.note k x).sense = s.sense := rfl
@[simp] theorem State.note_startq (k : Core) (x : CoreNote) : (s.note k x).startq = s.startq := rfl
@[simp] theorem State.note_twin (k : Core) (x : CoreNote) : (s.note k x).twin = s.twin := rfl
@[simp] theorem State.note_leaving (k : Core) (x : CoreNote) : (s.note k x).leaving = s.leaving := rfl
@[simp] theorem State.note_sto (k : Core) (x : CoreNote) : (s.note k x).sto = s.sto := rfl
@[simp] theorem State.note_fb (k : Core) (x : CoreNote) : (s.note k x).fb = s.fb := rfl
@[simp] theorem State.note_pw (k : Core) (x : CoreNote) : (s.note k x).pw = s.pw := rfl
@[simp] theorem State.note_core (k : Core) (x : CoreNote) : (s.note k x).core = s.core := rfl
@[simp] theorem State.note_net (k : Core) (x : CoreNote) : (s.note k x).net = s.net := rfl
@[simp] theorem State.note_time (k : Core) (x : CoreNote) : (s.note k x).time = s.time := rfl
@[simp] theorem State.note_acq (k : Core) (x : CoreNote) : (s.note k x).acq = s.acq := rfl
@[simp] theorem State.note_can (k : Core) (x : CoreNote) : (s.note k x).can = s.can := rfl
@[simp] theorem State.note_fio (k : Core) (x : CoreNote) : (s.note k x).fio = s.fio := rfl
@[simp] theorem State.note_boot (k : Core) (x : CoreNote) : (s.note k x).boot = s.boot := rfl
@[simp] theorem State.note_get (k : Core) (x : CoreNote) (g : Fld) : (s.note k x).get g = s.get g := rfl
@[simp] theorem State.note_byte (k : Core) (y : CoreNote) (x : Nat) : (s.note k y).byte x = s.byte x := rfl

/-! The element that an update changes, and the others. -/

@[simp] theorem State.modAx_same (n : Slice) (f : AxisDyn → AxisDyn) : (s.modAx n f).ax[n] = f s.ax[n] := by simp [State.modAx]
theorem State.modAx_other (n m : Slice) (h : m ≠ n) (f : AxisDyn → AxisDyn) : (s.modAx n f).ax[m] = s.ax[m] := by
  have : n.val ≠ m.val := fun e => h (Fin.ext e.symm)
  simp [State.modAx, this]
@[simp] theorem State.modPwm_same (n : Slice) (f : PwmDyn → PwmDyn) : (s.modPwm n f).pwm[n] = f s.pwm[n] := by simp [State.modPwm]
theorem State.modPwm_other (n m : Slice) (h : m ≠ n) (f : PwmDyn → PwmDyn) : (s.modPwm n f).pwm[m] = s.pwm[m] := by
  have : n.val ≠ m.val := fun e => h (Fin.ext e.symm)
  simp [State.modPwm, this]
@[simp] theorem State.modSup_same (n : Slice) (f : SupDyn → SupDyn) : (s.modSup n f).sup[n] = f s.sup[n] := by simp [State.modSup]
theorem State.modSup_other (n m : Slice) (h : m ≠ n) (f : SupDyn → SupDyn) : (s.modSup n f).sup[m] = s.sup[m] := by
  have : n.val ≠ m.val := fun e => h (Fin.ext e.symm)
  simp [State.modSup, this]
@[simp] theorem State.modProf_same (n : Slice) (f : ProfDyn → ProfDyn) : (s.modProf n f).prof[n] = f s.prof[n] := by simp [State.modProf]
theorem State.modProf_other (n m : Slice) (h : m ≠ n) (f : ProfDyn → ProfDyn) : (s.modProf n f).prof[m] = s.prof[m] := by
  have : n.val ≠ m.val := fun e => h (Fin.ext e.symm)
  simp [State.modProf, this]
@[simp] theorem State.modGrp_same (n : Fin 8) (f : GroupDyn → GroupDyn) : (s.modGrp n f).grp[n] = f s.grp[n] := by simp [State.modGrp]
theorem State.modGrp_other (n m : Fin 8) (h : m ≠ n) (f : GroupDyn → GroupDyn) : (s.modGrp n f).grp[m] = s.grp[m] := by
  have : n.val ≠ m.val := fun e => h (Fin.ext e.symm)
  simp [State.modGrp, this]
@[simp] theorem State.modBus_same (n : Fin 4) (f : BusDyn → BusDyn) : (s.modBus n f).bus[n] = f s.bus[n] := by simp [State.modBus]
theorem State.modBus_other (n m : Fin 4) (h : m ≠ n) (f : BusDyn → BusDyn) : (s.modBus n f).bus[m] = s.bus[m] := by
  have : n.val ≠ m.val := fun e => h (Fin.ext e.symm)
  simp [State.modBus, this]
@[simp] theorem State.modFb_same (n : Slice) (f : FbDyn → FbDyn) : (s.modFb n f).fb[n] = f s.fb[n] := by simp [State.modFb]
theorem State.modFb_other (n m : Slice) (h : m ≠ n) (f : FbDyn → FbDyn) : (s.modFb n f).fb[m] = s.fb[m] := by
  have : n.val ≠ m.val := fun e => h (Fin.ext e.symm)
  simp [State.modFb, this]
@[simp] theorem State.modSense_same (n : Slice) (f : SenseDyn → SenseDyn) : (s.modSense n f).sense[n] = f s.sense[n] := by simp [State.modSense]
theorem State.modSense_other (n m : Slice) (h : m ≠ n) (f : SenseDyn → SenseDyn) : (s.modSense n f).sense[m] = s.sense[m] := by
  have : n.val ≠ m.val := fun e => h (Fin.ext e.symm)
  simp [State.modSense, this]
@[simp] theorem State.modStart_same (n : Slice) (f : StartDyn → StartDyn) : (s.modStart n f).startq[n] = f s.startq[n] := by simp [State.modStart]
theorem State.modStart_other (n m : Slice) (h : m ≠ n) (f : StartDyn → StartDyn) : (s.modStart n f).startq[m] = s.startq[m] := by
  have : n.val ≠ m.val := fun e => h (Fin.ext e.symm)
  simp [State.modStart, this]
@[simp] theorem State.modCore_same (n : Core) (f : CoreDyn → CoreDyn) : (s.modCore n f).core[n] = f s.core[n] := by simp [State.modCore]
theorem State.modCore_other (n m : Core) (h : m ≠ n) (f : CoreDyn → CoreDyn) : (s.modCore n f).core[m] = s.core[m] := by
  have : n.val ≠ m.val := fun e => h (Fin.ext e.symm)
  simp [State.modCore, this]
@[simp] theorem State.modCan_same (n : Fin 2) (f : CanDyn → CanDyn) : (s.modCan n f).can[n] = f s.can[n] := by simp [State.modCan]
theorem State.modCan_other (n m : Fin 2) (h : m ≠ n) (f : CanDyn → CanDyn) : (s.modCan n f).can[m] = s.can[m] := by
  have : n.val ≠ m.val := fun e => h (Fin.ext e.symm)
  simp [State.modCan, this]

end Sys2Proof.Machine
end

