-- ==== Sys2Proof/Tests/Slice0.lean ====
section
/-!
SUPPORT. Tests/Slice0.lean: terms that WellFormed refuses, a few single steps, and for every statement with hypotheses a state and
operands that meet each of its clauses.
-/

set_option maxRecDepth 20000
set_option linter.unusedVariables false

namespace Sys2Proof.Tests
open Sys2Proof Sys2Proof.Machine Sys2Proof.Claims

/-- Reset with some register fields set. -/
def st (l : List (Fld × Nat)) : State := l.foldl (fun s x => s.set x.1 x.2) State.reset
/-- Sample operands of the commands. -/
def fr : CanFrame := ⟨0, false, false, false, false, false, 0, [], 0⟩
def fs : FaultSpec := ⟨0x0E05, 0, 0, 0, 255, 0, false, false⟩
def mx : MirrorAxis := ⟨0, 2, 2, 0, 0, 0, 0, 0, 0, 0, true, false, false, 0, 0, 0, true, none, GearDyn.reset, 0, 0, []⟩
def mf : MirrorFrame := ⟨true, .clean, 1, false, 1, false, false, false, false, true, 5, 0, 0, 8, 2, [mx], []⟩
def hq : HpReq := ⟨0, 5, false, 1, 7, .absent⟩
def fm : Frame := ⟨0, 2, 0x88B5, false, 0, 0, 64, true, false, .other, 0, 0⟩
def ses : Session := { Session.reset with isOpen := true, expect := 7 }
def srec : SyncRec := ⟨0, 0, 9, 0, 0, 0, 0, true⟩
def arec : AnnounceRec := ⟨0, 0, 9, 0, 0, 0, 0, 0, 0, 0, 0⟩
def drec : DelayRec := ⟨0, 0, .delayResp, 9, 0, 0, 0, 0, 0⟩
def qf : QFrame := ⟨none, 64, false, .own (.portMove 0)⟩
def sg : Seg := ⟨5, false, false, 0, 0, 0, 1, 0, 0, 0, [], []⟩
def hm : HomeDyn := ⟨4, 1, 0, none, 0, none⟩
def iobs : IntakeObs := ⟨true, .clean, true, true, 25, true, true, true, true, 0⟩
def eobs : EnableObs := ⟨⟨0, 0, 0⟩, ⟨0, 0, 0⟩, ⟨true, true, true⟩, 0, true⟩
def sobs : StartObs := ⟨0, false, 0, 0, 0, 0, 0⟩
def sfr : SerialFrame := ⟨0, 0, 0, 0, 0, false, false, 0⟩
/-- Sample pip instruction fields. -/
def rf : RForm := ⟨0, 0, false, false, 0, 0, 0, false, false, false, 0⟩
def imf : IForm := ⟨0, 0, false, false, 0, 0, 0⟩
def mof : MForm := ⟨0, 0, 0, 0, 0, 0, false, 0⟩
def bf : BForm := ⟨0, 0, 0, 0, 0⟩
/-- Core 0, fetched without an error. -/
def px : PipAt := ⟨0, .clean, false⟩


/-! Well-formedness: for each check of WellFormed.lean a term that it refuses. -/

theorem test_wf_refuses_access :
    List.all
    [Instr.registerWrite .host .b8 (2 ^ 32) 0, .registerWrite .host .b4 0 (2 ^ 32), .registerWrite .host .b8 0 (2 ^ 64),
     .registerWrite .host .b16 0 (2 ^ 128), .sliceLinkFlit .sliceA true 0 true (.fault (2 ^ 16) 0 0 0 0),
     .sliceLinkFlit .sliceA true 0 true (.fault 0 6 0 0 0), .sliceLinkFlit .sliceA true 0 true (.fault 0 0 7 0 0),
     .sliceLinkFlit .sliceA true 0 true (.fault 0 0 0 256 0), .sliceLinkFlit .sliceA true 0 true (.fault 0 0 0 0 (2 ^ 32)),
     .fabricAccess .host true .b8 (2 ^ 32) 0 .clean, .fabricAccess .host true .b4 0 (2 ^ 32) .clean, .strapChange 16 0, .strapChange 0 2,
     .tapBypass 256, .program 0 (2 ^ 23) 1, .program 0 0 (2 ^ 16)]
    (fun i => !i.wf) = true := by decide

theorem test_wf_refuses_pip :
    List.all
    [Instr.mov px { rf with cond := 16 }, .mov px { rf with rm := 4 }, .mov px { rf with dst := 64 }, .mov px { rf with sa := 64 },
     .mov px { rf with sb := 64 }, .mov px { rf with sh := 128 }, .movi px { imf with cond := 16 }, .movi px { imf with rm := 4 },
     .movi px { imf with dst := 64 }, .movi px { imf with sa := 64 }, .movi px { imf with imm := 2 ^ 32 }, .st px { mof with cond := 16 },
     .st px { mof with rm := 4 }, .st px { mof with dt := 64 }, .st px { mof with areg := 8 }, .st px { mof with amode := 8 },
     .st px { mof with oreg := 8 }, .st px { mof with disp := 2 ^ 30 }, .br px { bf with cond := 16 }, .br px { bf with creg := 64 },
     .br px { bf with len := 64 }, .br px { bf with icount := 64 }, .br px { bf with offset := 2 ^ 32 }, .illegalInstruction px (2 ^ 64)]
    (fun i => !i.wf) = true := by decide

theorem test_wf_refuses_drive :
    List.all
    [Instr.chopperOn 0 (2 ^ 16), .chopperOff 0 (2 ^ 16), .chopperCheck 0 0 (2 ^ 16), .regenEntry 0 (2 ^ 16), .regenRelease 0 (2 ^ 16),
     .activeShortEntry 0 (2 ^ 16), .activeShortRelease 0 (2 ^ 16), .busAbsEntry 0 (2 ^ 16), .busAbsRelease 0 (2 ^ 16),
     .serialFrameComplete 0 { sfr with position := 2 ^ 64 }, .serialFrameComplete 0 { sfr with crc := 2 ^ 16 },
     .serialFrameComplete 0 { sfr with parity := 2 }, .svcmd1Write 0 (2 ^ 16), .append 0 (2 ^ 16), .fioClr (2 ^ 24), .wdkick (2 ^ 64),
     .housekeepingSample [⟨20, 0, 0⟩], .housekeepingSample [⟨0, 2 ^ 12, 0⟩], .faultRecord [{ fs with code := 2 ^ 16 }],
     .faultRecord [{ fs with sev := 6 }], .faultRecord [{ fs with skind := 7 }], .faultRecord [{ fs with sindex := 256 }],
     .faultRecord [{ fs with origin := 256 }], .faultRecord [{ fs with detail := 2 ^ 32 }], .fltClear 8 0, .fltClear 0 256]
    (fun i => !i.wf) = true := by decide

theorem test_wf_refuses_network :
    List.all
    [Instr.pauseReceived 0 ⟨true, 256, []⟩, .pauseReceived 0 ⟨true, 0, List.replicate 9 0⟩, .pauseReceived 0 ⟨true, 0, [2 ^ 16]⟩, .linkUp 0 8 true,
     .learnAgeout (2 ^ 48), .frameReceived 0 { fm with dst := 2 ^ 48 }, .frameReceived 0 { fm with src := 2 ^ 48 },
     .frameReceived 0 { fm with etherType := 2 ^ 16 }, .frameReceived 0 { fm with vid := 2 ^ 12 }, .frameReceived 0 { fm with pcp := 8 },
     .frameReceived 0 { fm with length := 2 ^ 16 }, .arpRequest 0 { fm with dst := 2 ^ 48 } 0, .arpRequest 0 fm (2 ^ 32),
     .announceReceived { arec with priority1 := 256 }, .announceReceived { arec with clockClass := 256 },
     .announceReceived { arec with accuracy := 256 }, .announceReceived { arec with variance := 2 ^ 16 },
     .announceReceived { arec with priority2 := 256 }, .announceReceived { arec with gmId := 2 ^ 64 },
     .announceReceived { arec with stepsRemoved := 2 ^ 16 }, .ptpSetsec (2 ^ 48), .canTtWindow 0 64, .txreq 0 (2 ^ 64), .txabt 0 (2 ^ 64),
     .txdone 0 (2 ^ 64), .rxfull 0 0 (2 ^ 64), .canFrameReceived 0 { fr with id := 2 ^ 29 }, .canFrameReceived 0 { fr with dlc := 16 },
     .canFrameReceived 0 { fr with data := List.replicate 65 0 }, .canFrameReceived 0 { fr with data := [256] },
     .mirrorFrameReceived { mf with axes := List.replicate 17 mx }, .mirrorFrameReceived { mf with groups := List.replicate 9 ⟨0, 0, 0, 0, 0, 0⟩ },
     .mirrorFrameReceived { mf with rank := 2 }, .mirrorFrameReceived { mf with epoch := 2 ^ 32 }]
    (fun i => !i.wf) = true := by decide

theorem test_wf_refuses_host :
    List.all
    [Instr.hpOpen { hq with src := 2 ^ 48 } true, .hpOpen { hq with session := 2 ^ 16 } true, .hpOpen { hq with seq := 2 ^ 32 } true, .hpClose { hq with src := 2 ^ 48 }, .hpNop { hq with src := 2 ^ 48 },
     .hpRead { hq with src := 2 ^ 48 } 0 1, .hpRead hq (2 ^ 32) 1, .hpRead hq 0 (2 ^ 16), .hpWrite { hq with src := 2 ^ 48 } 0 [], .hpWrite hq (2 ^ 32) [], .hpWrite hq 0 [2 ^ 64],
     .hpWritem { hq with src := 2 ^ 48 } 0 [], .hpWritem hq (2 ^ 32) [], .hpWritem hq 0 [⟨2 ^ 64, 0⟩], .hpWritem hq 0 [⟨0, 2 ^ 64⟩], .setpt { hq with src := 2 ^ 48 } [] true,
     .setpt hq [[]] true, .setpt hq [List.replicate 8 (2 ^ 64)] true, .segment { hq with src := 2 ^ 48 } 0 [], .segment hq 0 [[]],
     .segment hq 0 [List.replicate 32 (2 ^ 64)], .repcfg { hq with src := 2 ^ 48 } 0 0 [], .repcfg hq (2 ^ 16) 0 [], .repcfg hq 0 (2 ^ 32) [],
     .repcfg hq 0 0 [2 ^ 32], .evack { hq with src := 2 ^ 48 } 0, .evack hq (2 ^ 32), .hpUnknownType { hq with src := 2 ^ 48 } 0, .hpUnknownType hq 256, .noticeRetry (2 ^ 16) 0,
     .noticeRetry 0 (2 ^ 32), .sessionTimeout (2 ^ 16)]
    (fun i => !i.wf) = true := by decide



theorem test_wf_accepts :
    [Instr.registerWrite .host .b8 0 0, .mov ⟨0, .clean, false⟩ rf, .st ⟨0, .clean, false⟩ mof, .frameReceived 0 fm, .hpOpen hq true,
     .mirrorFrameReceived mf, .faultRecord [fs]].all Instr.wf = true := by decide

/-! Single steps against values of the spec or of the standards it cites. -/

/-- What holds of the state in which a command leaves the module. -/
def leaves (i : Instr) (s : State) (p : State → Bool) : Bool := match exec i s with | .next t => p t | _ => false

/-- R78: the check value of CRC-32C. -/
theorem test_crc32c : crc32c [49, 50, 51, 52, 53, 54, 55, 56, 57] = 0xE3069283 := by decide

/-- FIPS 180-4: SHA-256 of "abc". -/
theorem test_sha256 : sha256 [97, 98, 99] = beBytes 32 0xBA7816BF8F01CFEA414140DE5DAE2223B00361A396177A9CB410FF61F20015AD := by
  decide +kernel

/-- No clock runs at reset: a step without a command changes nothing. -/
theorem test_idle : step State.reset = .next State.reset := rfl

/-- A core that runs at the start of its local memory. -/
def coreAt (c : CoreDyn) : State :=
  { st [(R.LC_STAT_STATE 0, 1)] with core := Vector.replicate 8 { c with run := some ⟨1, 0, 0, false⟩, pc := 0x400000 } }

/-- R118: ADD with S clamps at the top of the range and sets SAT. -/
theorem test_add_saturates :
    leaves (.add ⟨0, .clean, false⟩ { rf with sat := true, dst := 2, sa := 0, sb := 0 })
      (coreAt { CoreDyn.reset with d := Vector.replicate 32 (0x7FFFFFFF00000000 : BitVec 64) })
      (fun t => t.core[(0 : Core)].d[2] == 0x7FFFFFFFFFFFFFFF && t.core[(0 : Core)].flags.sat && t.core[(0 : Core)].pc == 0x400008) = true := by
  decide

/-- R118: without S it wraps. -/
theorem test_add_wraps :
    leaves (.add ⟨0, .clean, false⟩ { rf with dst := 2, sa := 0, sb := 0 })
      (coreAt { CoreDyn.reset with d := Vector.replicate 32 (0x7FFFFFFF00000000 : BitVec 64) })
      (fun t => t.core[(0 : Core)].d[2] == 0xFFFFFFFE00000000 && !t.core[(0 : Core)].flags.sat) = true := by
  decide

/-! A sample image that passes every check of INTAKE, for the statements about it. -/

/-- Bytes of a flash slot from an offset on; 0xFF is left out. -/
def put : Nat → List Nat → List Host.Cell
  | _, [] => []
  | o, x :: l => if x = 255 then put (o + 1) l else (o, BitVec.ofNat 8 x) :: put (o + 1) l
/-- A little-endian value. -/
def le (n v : Nat) : List Nat := leBytes n v
/-- PART of the sample image (R76). -/
def part : List Nat := List.replicate 10 1 ++ [4] ++ List.replicate 36 0 ++ [6] ++ List.replicate 16 0
/-- HLIM of the sample image: every hard-limit register under its full mask (R74). -/
def hlims : List Nat := hlRegs.flatMap fun x => le 4 x.1 ++ le 12 0 ++ le 8 x.2
/-- An entry of the section table (R71). -/
def sect (t o n a c : Nat) : List Nat := le 4 t ++ le 4 o ++ le 4 n ++ le 4 a ++ le 16 c
/-- GRANT of the sample image (R77). -/
def grant : List Nat := [0, 1, 0, 0] ++ le 4 0x10000000 ++ le 4 0x1007FFFF ++ le 4 0
/-- A flash slot with the header of Table IMG.2 and five sections: `w` is COMMIT, `c` the CRC of HLIM, `d` the digest, `k` the header CRC. -/
def image (h w : List Nat) (c d k : Nat) : List Host.Cell :=
  put 0 (le 8 0x3130474D49565841 ++ le 4 1 ++ le 4 5 ++ le 8 1 ++ le 4 (0x600 + h.length) ++ le 4 R.SYS_ID_REV.rst) ++
  put 0x40 (le 32 d) ++ put 0xC0 (le 4 k) ++ put 0xF8 w ++
  put 0x100 (sect 1 0x200 64 0 269932037 ++ sect 4 0x300 8 0x600000 0x8C28B28A ++ sect 5 0x400 8 0x400000 0x8C28B28A ++
    sect 7 0x500 16 0 999974048 ++ sect 2 0x600 h.length 0 c) ++
  put 0x200 part ++ put 0x300 (le 8 0) ++ put 0x400 (le 8 0) ++ put 0x500 grant ++ put 0x600 h
/-- The sample image, its check values filled in. -/
def img (w : List Nat) : List Host.Cell :=
  image hlims w 2391272431 40094732938127294036887947184990145147983865515259136974788894299931061746444 2444971036
/-- Register fields whose reset value is not permitted, given one that is (R473). -/
def cregs : List (Fld × Nat) :=
  [(R.SCH_LIM_RUNMAX, 1), (R.FIO_WD_WDT, 1), (R.FIO_TIM_RETRY, 10), (R.FIO_TIM_OPT_PER, 100), (R.FIO_TIM_OPT_W, 100),
   (R.PTP_CMP2_PERNS 0, 6250)] ++
  (upto 14).flatMap fun k => [(R.THM_ZONE_TREL k, 1), (R.THM_ZONE_TREQ k, 2), (R.THM_ZONE_TCRIT k, 3), (R.THM_ZONE_TSHUT k, 4)]
/-- A graph of one pip, fed by source 0 (R142 to R148). -/
def graph : List Host.Cell :=
  [(0x600003, 1), (0x600006, 1), (0x60000A, 0x40)] ++ (upto 8).flatMap (fun k => [(0x600020 + 2 * k, 0xFF), (0x600021 + 2 * k, 0x3F)]) ++
  [(0x660000, 1), (0x660405, 4)]

/-! Its check values, computed by the kernel. -/

/-- The kernel evaluates by name: `force` makes it compute a number before it goes on. -/
def force {α : Type} (n : Nat) (f : Nat → α) : α := match n with | 0 => f 0 | k + 1 => f (k + 1)
theorem force_eq {α : Type} (n : Nat) (f : Nat → α) : force n f = f n := by cases n <;> rfl
/-- The same for every number of a list. -/
def forceAll {α : Type} : List Nat → (List Nat → α) → α
  | [], f => f []
  | x :: t, f => force x fun x => forceAll t fun t => f (x :: t)
theorem forceAll_eq {α : Type} (l : List Nat) (f : List Nat → α) : forceAll l f = f l := by
  induction l generalizing f with
  | nil => rfl
  | cons x t ih => simp [forceAll, force_eq, ih]
/-- CRC-32C with the register computed at each byte. -/
def crcFast : List Nat → Nat → Nat
  | [], c => c
  | x :: t, c => force (crcByte c x) fun c => crcFast t c
theorem crcFast_eq (l : List Nat) (c : Nat) : l.foldl crcByte c = crcFast l c := by
  induction l generalizing c with
  | nil => rfl
  | cons x t ih => simp [crcFast, force_eq, ih]
/-- The blocks of SHA-2 with the state computed at each block. -/
def blocksFast (c : ShaKind) : Nat → List Nat → List Nat → List Nat
  | 0, h, _ => h
  | n + 1, h, l => forceAll (l.take 16) fun b => forceAll (shaBlock c h b) fun h => blocksFast c n h (l.drop 16)
theorem blocksFast_eq (c : ShaKind) (n : Nat) (h l : List Nat) : shaBlocks c n h l = blocksFast c n h l := by
  induction n generalizing h l with
  | zero => rfl
  | succ n ih => simp [shaBlocks, blocksFast, forceAll_eq, ih]
/-- A length counted with the count computed at each element. -/
def lenFast {α : Type} : List α → Nat → Nat
  | [], n => n
  | _ :: t, n => force (n + 1) fun n => lenFast t n
theorem lenFast_add {α : Type} (l : List α) (n : Nat) : lenFast l n = l.length + n := by
  induction l generalizing n with
  | nil => simp [lenFast]
  | cons x t ih => simp [lenFast, force_eq, ih]; omega
theorem lenFast_eq {α : Type} (l : List α) : l.length = lenFast l 0 := by simp [lenFast_add]
/-- The section table of the sample image, in the order of its offsets. -/
def imgSects : List Sect :=
  [⟨1, 0x200, 64, 0, 269932037⟩, ⟨4, 0x300, 8, 0x600000, 2351477386⟩, ⟨5, 0x400, 8, 0x400000, 2351477386⟩,
   ⟨7, 0x500, 16, 0, 999974048⟩, ⟨2, 0x600, 3792, 0, 2391272431⟩]
theorem img_slot : slotCode (img (le 8 commitWord)) false = 0 := by decide +kernel
theorem img_slot_any : slotCode (img []) true = 0 := by decide +kernel
theorem img_sects : sectSort (sectsOf (img [])) = imgSects := by decide +kernel
theorem img_crc : ∀ x ∈ imgSects, x.code (img []) = 0 := by
  simp only [Sect.code, crc32c, crcFast_eq]
  decide +kernel
theorem img_digest : imgDigest (img []) = flashSpan (img []) 0x40 32 := by
  unfold imgDigest sha256 shaSum
  simp only [blocksFast_eq, lenFast_eq]
  decide +kernel
theorem passSects_sound (m : List Host.Cell) (l : List Sect) (h : ∀ x ∈ l, x.code m = 0) : passSects m l = (l, 0) := by
  induction l with
  | nil => rfl
  | cons x t ih => simp [passSects, h x (by simp), ih fun y hy => h y (by simp [hy])]
theorem passOne_sound (m : List Host.Cell) (l : List Sect) (h : sectSort (sectsOf m) = l) (k : ∀ x ∈ l, x.code m = 0)
    (c : countsOk l = true) (d : imgDigest m = flashSpan m 0x40 32) : (passOne m).2 = 0 := by
  simp [passOne, h, passSects_sound m l k, c, d]
theorem img_pass : (passOne (img [])).2 = 0 := passOne_sound _ _ img_sects img_crc (by decide) img_digest
theorem img_two : (passTwo (img []) true).1 = 0 := by decide +kernel
theorem img_gen : (imgHeader (img [])).gen = 1 := by decide +kernel
theorem verify_sound (s : State) (m : List Host.Cell) (a : slotCode m true = 0) (b : (passOne m).2 = 0) (c : (passTwo m true).1 = 0)
    (d : (imgHeader m).gen = 1) (h : s.keyed = false) (g : s.get R.IMG_RGEN_GEN = 0) : s.verifyCode m = 0 := by
  simp [State.verifyCode, a, b, c, d, State.signCode, h, g]
theorem img_verify (s : State) (h : s.keyed = false) (g : s.get R.IMG_RGEN_GEN = 0) : s.verifyCode (img []) = 0 :=
  verify_sound s _ img_slot_any img_pass img_two img_gen h g
theorem img_wf : Flash.wf (img []) = true ∧ flashRd (img []) 248 8 = 2 ^ 64 - 1 := by decide +kernel
theorem img_header : headerCode (img (le 8 commitWord)) false = 0 := by decide +kernel

/-! A witness for every statement with hypotheses: each clause is met by the state and operands shown. -/

theorem witness_StepRunsFrontCommand :
    ∃ (s : State), s.pending = [] :=
  ⟨{ st [] with pending := [] }, by decide⟩

theorem witness_InvariantKept :
    ∃ (s : State) (t : State), Machine.Inv s ∧ step s = Host.Outcome.next t :=
  ⟨{ st [] with pending := [.rindStart] }, _, by constructor <;> decide, by constructor <;> decide⟩

theorem witness_ResetValues :
    (∃ (f : Fld), f.rst < 2 ^ f.w) ∧
    (∃ (x : Session), x ∈ State.reset.host.sessions) :=
  ⟨⟨R.SYS_STATE_STATE, by decide⟩,
   ⟨Session.reset, by decide⟩⟩

theorem witness_RegisterFile :
    ∃ (f : Fld) (g : Fld), g.key ≠ f.key :=
  ⟨R.SYS_STATE_STATE, R.FLT_CFG_FNSEV, by decide⟩

theorem witness_RegisterWrites :
    (∃ (v : Nat) (s : State), s.initOn Init.imageReader = true ∧ s.dev = 0 ∧ s.staged = [] ∧ 1 ≤ v % 8 ∧ v % 8 ≤ 5) ∧
    (∃ (v : Nat) (s : State), s.initOn Init.imageReader = true ∧ s.dev = 0 ∧ (v % 8 = 0 ∨ 5 < v % 8)) ∧
    (∃ (v : Nat) (s : State), s.initOn Init.host = true ∧ s.dev ≠ 0 ∧ s.dev ≠ 5 ∧ s.boot.recovery = false ∧ s.mayReach Init.host true
      262144 8 = true ∧ v % 8 ≠ s.get R.FLT_CFG_FNSEV) ∧
    (∃ (k : Core) (n : Slice) (v : Nat) (s : State), s.initOn (Init.core k) = true ∧ s.dev ≠ 0 ∧ s.ax[n].used = true ∧ s.oddInPair n =
      false ∧ s.mayReach (Init.core k) true (1054720 + ↑n * 16384) 8 = true ∧ s.axOn (s.lead n) = true ∧ v % 8 ≠ s.get (R.SLC_MODE_MODE
      ↑n)) ∧
    (∃ (s : State), s.initOn Init.imageReader = true ∧ s.dev = 0) ∧
    (∃ (k : Core) (n : Slice) (v : Nat) (s : State), s.initOn (Init.core k) = true ∧ s.dev ≠ 0 ∧ s.schedRuns = true ∧ s.ax[n].used =
      true ∧ s.mayReach (Init.core k) true (1054824 + ↑n * 16384) 8 = true ∧ v / 2 ^ 49 % 2 ^ 7 = 0) :=
  ⟨⟨1, { st [(R.PWR_STAT_DOM_ON, 255), (R.SYS_STATE_STATE, 0)] with staged := [] }, by decide, by decide, by decide, by decide,
     by decide⟩,
   ⟨6, st [(R.PWR_STAT_DOM_ON, 255), (R.SYS_STATE_STATE, 0)], by decide, by decide, by decide⟩,
   ⟨6,
     { st [(R.PWR_STAT_DOM_ON, 255), (R.SYS_STATE_STATE, 1), (R.NET_PSTAT_LINK 0, 1)] with boot.recovery := false, arc.grants := [⟨8, true, 0x40000, 0x4FFFF⟩] },
     by decide, by decide, by decide, by decide, by decide, by decide⟩,
   ⟨0, 0, 1,
     { st [(R.PWR_STAT_DOM_ON, 255), (R.SYS_STATE_STATE, 1), (R.SLC_AXST_AXST 0, 2)] with arc.grants := [⟨0, true, 0x100000, 0x1007FF⟩, ⟨0, true, 0x101800, 0x101FFF⟩], ax := Vector.replicate 16 { AxisDyn.reset with used := true } },
     by decide, by decide, by decide, by decide, by decide, by decide, by decide⟩,
   ⟨st [(R.PWR_STAT_DOM_ON, 255), (R.SYS_STATE_STATE, 0)], by decide, by decide⟩,
   ⟨0, 0, 1,
     { st [(R.PWR_STAT_DOM_ON, 255), (R.SYS_STATE_STATE, 1), (R.SCH_STAT_STATE, 1)] with arc.grants := [⟨0, true, 0x100000, 0x1007FF⟩, ⟨0, true, 0x101800, 0x101FFF⟩], ax := Vector.replicate 16 { AxisDyn.reset with used := true } },
     by decide, by decide, by decide, by decide, by decide, by decide⟩⟩

theorem witness_FabricAccesses :
    (∃ (who : Init) (a : Nat) (s : State), s.initOn who = true ∧ 268435456 ≤ a ∧ a < 293601280 ∧ a % 8 = 0 ∧ s.mayReach who false a 8 =
      true) ∧
    (∃ (who : Init) (a : Nat) (s : State), s.initOn who = true ∧ 268435456 ≤ a ∧ a < 293601280 ∧ a % 8 = 0 ∧ s.mayWrite who a = true ∧
      s.haltHost who = false ∧ s.schedRuns = true) ∧
    (∃ (who : Init) (w : Bool) (a : Nat) (s : State), s.initOn who = true ∧ (∀ (k : Core), who ≠ Init.core k) ∧ 268435456 ≤ a ∧ a <
      293601280 ∧ a % 8 = 0 ∧ s.boot.recovery = false ∧ s.mayReach who w a 8 = false) ∧
    (∃ (who : Init) (a : Nat) (s : State), s.initOn who = true ∧ (∀ (k : Core), who ≠ Init.core k) ∧ 268435456 ≤ a ∧ a < 293601280 ∧ a %
      8 = 0 ∧ s.mayReach who false a 8 = true) ∧
    (∃ (s : State), s.domOn 0 = true ∧ s.pw.sleep = 0) :=
  ⟨⟨.network, 0x10000000,
     { st [(R.SYS_STATE_STATE, 1), (R.PWR_STAT_DOM_ON, 255), (R.SCH_STAT_STATE, 1)] with arc.banks := [1], pw.sleep := 0 }, by decide,
     by decide, by decide, by decide, by decide⟩,
   ⟨.network, 0x10000000,
     { st [(R.SYS_STATE_STATE, 1), (R.PWR_STAT_DOM_ON, 255), (R.SCH_STAT_STATE, 1)] with arc.banks := [1], pw.sleep := 0 }, by decide,
     by decide, by decide, by decide, by decide, by decide, by decide⟩,
   ⟨.network, false, 0x10000000,
     { st [(R.SYS_STATE_STATE, 1), (R.PWR_STAT_DOM_ON, 255), (R.SCH_STAT_STATE, 1)] with arc.banks := [0], pw.sleep := 0, boot.recovery := false },
     by decide, (fun _ h => nomatch h), by decide, by decide, by decide, by decide, by decide⟩,
   ⟨.network, 0x10000000,
     { st [(R.SYS_STATE_STATE, 1), (R.PWR_STAT_DOM_ON, 255), (R.SCH_STAT_STATE, 1)] with arc.banks := [1], pw.sleep := 0 }, by decide,
     (fun _ h => nomatch h), by decide, by decide, by decide, by decide⟩,
   ⟨{ st [(R.SYS_STATE_STATE, 1), (R.PWR_STAT_DOM_ON, 255), (R.SCH_STAT_STATE, 1)] with arc.banks := [1], pw.sleep := 0 }, by decide,
     by decide⟩⟩

theorem witness_DieLinks :
    (∃ (l : Link) (c : Bool) (seq : Nat) (s : State), l ≠ Link.field ∧ (s.link l).up = true ∧ (seq % 256 = if c = true then (s.link
      l).expC else (s.link l).expD)) ∧
    (∃ (l : Link) (seq : Nat) (s : State), l ≠ Link.field ∧ (s.link l).up = true ∧ seq % 256 = (s.link l).expC) ∧
    (∃ (l : Link) (c : Bool) (s : State), (s.link l).up = true ∧ ((if c = true then (s.link l).failC else (s.link l).failD) = false)) ∧
    (∃ (l : Link) (c : Bool) (seq : Nat) (s : State), (s.link l).up = true ∧ ((if c = true then (s.link l).failC else (s.link l).failD)
      = true) ∧ (l = Link.field ∨ seq % 256 = if c = true then (s.link l).expC else (s.link l).expD)) ∧
    (∃ (l : Link) (s : State), (s.link l).up = false ∧ (s.dev ≠ 0 ∨ 2 ≤ s.boot.step) ∧ s.domOn 0 = true) ∧
    (∃ (d : Fin 2) (s : State), s.wdExpired ↑d = false ∧ s.domOn (6 + ↑d) = true ∧ s.dev ≠ 0) :=
  ⟨⟨.sliceA, false, 0, { st [(R.SYS_STATE_STATE, 1), (R.PWR_STAT_DOM_ON, 255)] with arc.linkA.up := true }, by decide, by decide,
     by decide⟩,
   ⟨.sliceA, 0, { st [(R.SYS_STATE_STATE, 1), (R.PWR_STAT_DOM_ON, 255)] with arc.linkA.up := true }, by decide, by decide, by decide⟩,
   ⟨.sliceA, false, { st [(R.SYS_STATE_STATE, 1), (R.PWR_STAT_DOM_ON, 255)] with arc.linkA.up := true }, by decide, by decide⟩,
   ⟨.sliceA, false, 0, { st [(R.SYS_STATE_STATE, 1), (R.PWR_STAT_DOM_ON, 255)] with arc.linkA.up := true, arc.linkA.failD := true },
     by decide, by decide, by decide⟩,
   ⟨.sliceA, { st [(R.SYS_STATE_STATE, 1), (R.PWR_STAT_DOM_ON, 255)] with arc.linkA.up := false }, by decide, by decide, by decide⟩,
   ⟨0, { st [(R.SYS_STATE_STATE, 1), (R.PWR_STAT_DOM_ON, 255)] with arc.linkA.up := true }, by decide, by decide, by decide⟩⟩

theorem witness_PipMoves :
    (∃ (x : PipAt) (f : RForm) (s : State), isDst f.dst = true ∧ isSrc f.sa = true ∧ PipMeets s x f.cond [f.dst, f.sa, f.sb]) ∧
    (∃ (x : PipAt) (f : IForm) (s : State), isDst f.dst = true ∧ PipMeets s x f.cond [f.dst, f.sa]) ∧
    (∃ (x : PipAt) (f : RForm) (s : State) (d : Fin 32) (a : Fin 32), f.dst = ↑d ∧ f.sa = ↑a ∧ PipMeets s x f.cond [f.dst, f.sa, f.sb]) ∧
    (∃ (x : Int) (n : Nat), 2 * ↑(x - rnd 1 x n * 2 ^ n).natAbs = 2 ^ n) ∧
    (∃ (x : Int) (n : Nat), 2 * ↑(x - rnd 3 x n * 2 ^ n).natAbs = 2 ^ n) :=
  ⟨⟨⟨0, .clean, false⟩, rf,
     { st [(R.LC_STAT_STATE 0, 1)] with core := Vector.replicate 8 { CoreDyn.reset with run := some ⟨1, 0, 0, false⟩, pc := 0x400000 } },
     by decide, by decide, by constructor <;> decide⟩,
   ⟨⟨0, .clean, false⟩, imf,
     { st [(R.LC_STAT_STATE 0, 1)] with core := Vector.replicate 8 { CoreDyn.reset with run := some ⟨1, 0, 0, false⟩, pc := 0x400000 } },
     by decide, by constructor <;> decide⟩,
   ⟨⟨0, .clean, false⟩, rf,
     { st [(R.LC_STAT_STATE 0, 1)] with core := Vector.replicate 8 { CoreDyn.reset with run := some ⟨1, 0, 0, false⟩, pc := 0x400000 } },
     0, 0, by decide, by decide, by constructor <;> decide⟩,
   ⟨1, 1, by decide⟩,
   ⟨1, 1, by decide⟩⟩

theorem witness_PipSums :
    (∃ (x : PipAt) (f : RForm) (s : State), isDst f.dst = true ∧ isSrc f.sa = true ∧ isSrc f.sb = true ∧ PipMeets s x f.cond [f.dst,
      f.sa, f.sb]) ∧
    (∃ (x : PipAt) (f : IForm) (s : State), isDst f.dst = true ∧ isSrc f.sa = true ∧ PipMeets s x f.cond [f.dst, f.sa]) ∧
    (∃ (x : PipAt) (f : RForm) (s : State) (d : Fin 32) (a : Fin 32), f.dst = ↑d ∧ f.sa = ↑a ∧ PipMeets s x f.cond [f.dst, f.sa, f.sb]) ∧
    (∃ (x : PipAt) (f : RForm) (s : State), f.dst = 63 ∧ isSrc f.sa = true ∧ isSrc f.sb = true ∧ PipMeets s x f.cond [f.dst, f.sa,
      f.sb]) ∧
    (∃ (x : PipAt) (f : IForm) (s : State), f.dst = 63 ∧ isSrc f.sa = true ∧ PipMeets s x f.cond [f.dst, f.sa]) :=
  ⟨⟨⟨0, .clean, false⟩, rf,
     { st [(R.LC_STAT_STATE 0, 1)] with core := Vector.replicate 8 { CoreDyn.reset with run := some ⟨1, 0, 0, false⟩, pc := 0x400000 } },
     by decide, by decide, by decide, by constructor <;> decide⟩,
   ⟨⟨0, .clean, false⟩, imf,
     { st [(R.LC_STAT_STATE 0, 1)] with core := Vector.replicate 8 { CoreDyn.reset with run := some ⟨1, 0, 0, false⟩, pc := 0x400000 } },
     by decide, by decide, by constructor <;> decide⟩,
   ⟨⟨0, .clean, false⟩, rf,
     { st [(R.LC_STAT_STATE 0, 1)] with core := Vector.replicate 8 { CoreDyn.reset with run := some ⟨1, 0, 0, false⟩, pc := 0x400000 } },
     0, 0, by decide, by decide, by constructor <;> decide⟩,
   ⟨⟨0, .clean, false⟩, { rf with dst := 63 },
     { st [(R.LC_STAT_STATE 0, 1)] with core := Vector.replicate 8 { CoreDyn.reset with run := some ⟨1, 0, 0, false⟩, pc := 0x400000 } },
     by decide, by decide, by decide, by constructor <;> decide⟩,
   ⟨⟨0, .clean, false⟩, { imf with dst := 63 },
     { st [(R.LC_STAT_STATE 0, 1)] with core := Vector.replicate 8 { CoreDyn.reset with run := some ⟨1, 0, 0, false⟩, pc := 0x400000 } },
     by decide, by decide, by constructor <;> decide⟩⟩

theorem witness_PipLogic :
    (∃ (x : PipAt) (f : RForm) (s : State) (d : Fin 32) (a : Fin 32) (b : Fin 32), f.dst = ↑d ∧ f.sa = ↑a ∧ f.sb = ↑b ∧ PipMeets s x
      f.cond [f.dst, f.sa, f.sb]) ∧
    (∃ (x : PipAt) (f : RForm) (s : State) (d : Fin 32) (a : Fin 32), f.dst = ↑d ∧ f.sa = ↑a ∧ PipMeets s x f.cond [f.dst, f.sa, f.sb]) ∧
    (∃ (x : PipAt) (f : RForm) (s : State) (d : Fin 32) (a : Fin 32) (n : Nat), f.dst = ↑d ∧ f.sa = ↑a ∧ (f.sb = 63 ∧ n = f.sh % 128 ∨ ∃
      (b : Fin 32), f.sb = ↑b ∧ n = BitVec.toNat s.core[x.core].d[b] % 128) ∧ PipMeets s x f.cond [f.dst, f.sa, f.sb]) :=
  ⟨⟨⟨0, .clean, false⟩, rf,
     { st [(R.LC_STAT_STATE 0, 1)] with core := Vector.replicate 8 { CoreDyn.reset with run := some ⟨1, 0, 0, false⟩, pc := 0x400000 } },
     0, 0, 0, by decide, by decide, by decide, by constructor <;> decide⟩,
   ⟨⟨0, .clean, false⟩, rf,
     { st [(R.LC_STAT_STATE 0, 1)] with core := Vector.replicate 8 { CoreDyn.reset with run := some ⟨1, 0, 0, false⟩, pc := 0x400000 } },
     0, 0, by decide, by decide, by constructor <;> decide⟩,
   ⟨⟨0, .clean, false⟩, rf,
     { st [(R.LC_STAT_STATE 0, 1)] with core := Vector.replicate 8 { CoreDyn.reset with run := some ⟨1, 0, 0, false⟩, pc := 0x400000 } },
     0, 0, 0, by decide, by decide, by decide, by constructor <;> decide⟩⟩

theorem witness_PipLanes :
    (∃ (x : PipAt) (f : RForm) (s : State) (d : Fin 32) (a : Fin 32) (b : Fin 32), f.dst = ↑d ∧ f.sa = ↑a ∧ f.sb = ↑b ∧ PipMeets s x
      f.cond [f.dst, f.sa, f.sb]) ∧
    (∃ (x : PipAt) (f : RForm) (s : State) (d : Fin 32) (a : Fin 32), f.dst = ↑d ∧ f.sa = ↑a ∧ PipMeets s x f.cond [f.dst, f.sa, f.sb]) :=
  ⟨⟨⟨0, .clean, false⟩, rf,
     { st [(R.LC_STAT_STATE 0, 1)] with core := Vector.replicate 8 { CoreDyn.reset with run := some ⟨1, 0, 0, false⟩, pc := 0x400000 } },
     0, 0, 0, by decide, by decide, by decide, by constructor <;> decide⟩,
   ⟨⟨0, .clean, false⟩, rf,
     { st [(R.LC_STAT_STATE 0, 1)] with core := Vector.replicate 8 { CoreDyn.reset with run := some ⟨1, 0, 0, false⟩, pc := 0x400000 } },
     0, 0, by decide, by decide, by constructor <;> decide⟩⟩

theorem witness_PipBounded :
    (∃ (x : PipAt) (f : RForm) (s : State) (d : Fin 32) (a : Fin 32), f.dst = ↑d ∧ f.sa = ↑a ∧ PipMeets s x f.cond [f.dst, f.sa, f.sb]) ∧
    (∃ (x : PipAt) (f : RForm) (s : State) (d : Fin 32) (a : Fin 32) (b : Fin 32), f.dst = ↑d ∧ f.sa = ↑a ∧ f.sb = ↑b ∧ PipMeets s x
      f.cond [f.dst, f.sa, f.sb] ∧ (half s.core[x.core].d[a] false).toInt * (half s.core[x.core].d[a] false).toInt + (half
      s.core[x.core].d[a] true).toInt * (half s.core[x.core].d[a] true).toInt ≤ ab (half s.core[x.core].d[b] false).toInt * ab (half
      s.core[x.core].d[b] false).toInt) ∧
    (∃ (x : PipAt) (f : RForm) (s : State) (d : Fin 32) (a : Fin 32) (b : Fin 32), f.dst = ↑d ∧ f.sa = ↑a ∧ f.sb = ↑b ∧ PipMeets s x
      f.cond [f.dst, f.sa, f.sb] ∧ ab (half s.core[x.core].d[b] false).toInt * ab (half s.core[x.core].d[b] false).toInt < (half
      s.core[x.core].d[a] false).toInt * (half s.core[x.core].d[a] false).toInt + (half s.core[x.core].d[a] true).toInt * (half
      s.core[x.core].d[a] true).toInt) :=
  ⟨⟨⟨0, .clean, false⟩, rf,
     { st [(R.LC_STAT_STATE 0, 1)] with core := Vector.replicate 8 { CoreDyn.reset with run := some ⟨1, 0, 0, false⟩, pc := 0x400000 } },
     0, 0, by decide, by decide, by constructor <;> decide⟩,
   ⟨⟨0, .clean, false⟩, rf,
     { st [(R.LC_STAT_STATE 0, 1)] with core := Vector.replicate 8 { CoreDyn.reset with run := some ⟨1, 0, 0, false⟩, pc := 0x400000 } },
     0, 0, 0, by decide, by decide, by decide, by constructor <;> decide, by decide⟩,
   ⟨⟨0, .clean, false⟩, { rf with sa := 1 },
     { st [(R.LC_STAT_STATE 0, 1)] with core := Vector.replicate 8 { CoreDyn.reset with run := some ⟨1, 0, 0, false⟩, pc := 0x400000, d := (Vector.replicate 32 0).set 1 1 } },
     0, 1, 0, by decide, by decide, by decide, by constructor <;> decide, by decide⟩⟩

theorem witness_PipAccumulate :
    (∃ (x : PipAt) (f : RForm) (s : State) (a : Fin 32) (b : Fin 32) (i : Fin 4), f.dst = 48 + ↑i ∧ f.sa = ↑a ∧ f.sb = ↑b ∧ PipMeets s x
      f.cond [f.dst, f.sa, f.sb]) ∧
    (∃ (x : PipAt) (f : RForm) (s : State) (a : Fin 32) (b : Fin 32), ↑a < 31 ∧ f.dst = 63 ∧ f.sa = ↑a ∧ f.sb = ↑b ∧ PipMeets s x f.cond
      [f.dst, f.sa, f.sb, f.sa + 1]) ∧
    (∃ (x : PipAt) (f : RForm) (s : State) (a : Fin 32) (i : Fin 4), f.dst = 48 + ↑i ∧ f.sa = ↑a ∧ f.sh ≤ 32 ∧ PipMeets s x f.cond
      [f.dst, f.sa, f.sb]) ∧
    (∃ (x : PipAt) (f : RForm) (s : State), PipMeets s x f.cond [f.dst, f.sa, f.sb]) ∧
    (∃ (x : PipAt) (f : RForm) (s : State) (d : Fin 32) (i : Fin 4), f.dst = ↑d ∧ f.sa = 48 + ↑i ∧ f.sh ≤ 95 ∧ PipMeets s x f.cond
      [f.dst, f.sa, f.sb]) :=
  ⟨⟨⟨0, .clean, false⟩, { rf with dst := 48 },
     { st [(R.LC_STAT_STATE 0, 1)] with core := Vector.replicate 8 { CoreDyn.reset with run := some ⟨1, 0, 0, false⟩, pc := 0x400000 } },
     0, 0, 0, by decide, by decide, by decide, by constructor <;> decide⟩,
   ⟨⟨0, .clean, false⟩, { rf with dst := 63 },
     { st [(R.LC_STAT_STATE 0, 1)] with core := Vector.replicate 8 { CoreDyn.reset with run := some ⟨1, 0, 0, false⟩, pc := 0x400000 } },
     0, 0, by decide, by decide, by decide, by decide, by constructor <;> decide⟩,
   ⟨⟨0, .clean, false⟩, { rf with dst := 48 },
     { st [(R.LC_STAT_STATE 0, 1)] with core := Vector.replicate 8 { CoreDyn.reset with run := some ⟨1, 0, 0, false⟩, pc := 0x400000 } },
     0, 0, by decide, by decide, by decide, by constructor <;> decide⟩,
   ⟨⟨0, .clean, false⟩, rf,
     { st [(R.LC_STAT_STATE 0, 1)] with core := Vector.replicate 8 { CoreDyn.reset with run := some ⟨1, 0, 0, false⟩, pc := 0x400000 } },
     by constructor <;> decide⟩,
   ⟨⟨0, .clean, false⟩, { rf with sa := 48 },
     { st [(R.LC_STAT_STATE 0, 1)] with core := Vector.replicate 8 { CoreDyn.reset with run := some ⟨1, 0, 0, false⟩, pc := 0x400000 } },
     0, 0, by decide, by decide, by decide, by constructor <;> decide⟩⟩

theorem witness_PipStages :
    (∃ (x : PipAt) (f : RForm) (s : State) (n : Fin 32) (a : Fin 32), f.dst = ↑n ∧ f.sa = ↑a ∧ 1 ≤ f.sh ∧ f.sh ≤ 8 ∧ ↑n + f.sh ≤ 32 ∧
      (↑a < ↑n ∨ ↑n + f.sh ≤ ↑a) ∧ PipMeets s x f.cond ([f.dst, f.sa, f.sb] ++ stageRegs f.dst f.sh) ∧ (BitVec.setWidth 16
      s.core[x.core].d[a]).toInt ≥ -128 ∧ (BitVec.setWidth 16 s.core[x.core].d[a]).toInt ≤ 127) ∧
    (∃ (x : PipAt) (f : RForm) (s : State) (n : Fin 32) (a : Fin 32) (b : Fin 32), f.dst = ↑n ∧ f.sa = ↑a ∧ f.sb = ↑b ∧ 1 ≤ f.sh ∧ f.sh
      ≤ 8 ∧ ↑n + f.sh ≤ 32 ∧ (↑a < ↑n ∨ ↑n + f.sh ≤ ↑a) ∧ PipMeets s x f.cond ([f.dst, f.sa, f.sb] ++ stageRegs f.dst f.sh) ∧
      (BitVec.setWidth 16 s.core[x.core].d[a]).toInt ≥ -128 ∧ (BitVec.setWidth 16 s.core[x.core].d[a]).toInt ≤ 127 ∧ (BitVec.setWidth 16
      s.core[x.core].d[b]).toInt ≥ -128 ∧ (BitVec.setWidth 16 s.core[x.core].d[b]).toInt ≤ 127) ∧
    (∃ (x : PipAt) (f : RForm) (s : State) (d : Fin 32) (a : Fin 32), ↑d < 31 ∧ f.dst = ↑d ∧ f.sa = ↑a ∧ a ≠ d ∧ ↑a ≠ ↑d + 1 ∧ PipMeets
      s x f.cond [f.dst, f.sa, f.sb, f.dst + 1]) :=
  ⟨⟨⟨0, .clean, false⟩, { rf with sh := 1, dst := 1 },
     { st [(R.LC_STAT_STATE 0, 1)] with core := Vector.replicate 8 { CoreDyn.reset with run := some ⟨1, 0, 0, false⟩, pc := 0x400000 } },
     1, 0, by decide, by decide, by decide, by decide, by decide, by decide, by constructor <;> decide, by decide, by decide⟩,
   ⟨⟨0, .clean, false⟩, { rf with sh := 1, dst := 1 },
     { st [(R.LC_STAT_STATE 0, 1)] with core := Vector.replicate 8 { CoreDyn.reset with run := some ⟨1, 0, 0, false⟩, pc := 0x400000 } },
     1, 0, 0, by decide, by decide, by decide, by decide, by decide, by decide, by decide, by constructor <;> decide, by decide,
     by decide, by decide, by decide⟩,
   ⟨⟨0, .clean, false⟩, { rf with sa := 2 },
     { st [(R.LC_STAT_STATE 0, 1)] with core := Vector.replicate 8 { CoreDyn.reset with run := some ⟨1, 0, 0, false⟩, pc := 0x400000 } },
     0, 2, by decide, by decide, by decide, by decide, by decide, by constructor <;> decide⟩⟩

theorem witness_PipLoads :
    (∃ (x : PipAt) (f : MForm) (e : EccSeen) (s : State), isDst f.dt = true ∧ MemMeets s x f [f.dt] 8 e ∧ s.readCode (Init.core x.core)
      (s.core[x.core].effAddr f) 8 = 0) ∧
    (∃ (x : PipAt) (f : MForm) (e : EccSeen) (s : State), isD f.dt = true ∧ MemMeets s x f [f.dt] 4 e ∧ s.readCode (Init.core x.core)
      (s.core[x.core].effAddr f) 4 = 0) ∧
    (∃ (x : PipAt) (f : MForm) (e : EccSeen) (s : State), f.dt < 31 ∧ MemMeets s x f [f.dt, f.dt + 1] 16 e ∧ s.readCode (Init.core
      x.core) (s.core[x.core].effAddr f) 16 = 0) ∧
    (∃ (x : PipAt) (f : MForm) (e : EccSeen) (s : State) (b : Fin 32), f.dt = ↑b ∧ f.amode ≤ 2 ∧ MemMeets s x f [f.dt] 16 e ∧ inLocal
      (↑x.core) (s.core[x.core].effAddr f) 16 = true) ∧
    (∃ (k : Core) (s : State) (l : LoadDyn) (r : List LoadDyn), s.core[k].loads = l :: r) :=
  ⟨⟨⟨0, .clean, false⟩, mof, .clean,
     { st [(R.LC_STAT_STATE 0, 1)] with core := Vector.replicate 8 { CoreDyn.reset with run := some ⟨1, 0, 0, false⟩, pc := 0x400000, a := Vector.replicate 8 0x400000 } },
     by decide, by repeat' (first | decide | exact ⟨_, rfl⟩ | constructor), by decide⟩,
   ⟨⟨0, .clean, false⟩, mof, .clean,
     { st [(R.LC_STAT_STATE 0, 1)] with core := Vector.replicate 8 { CoreDyn.reset with run := some ⟨1, 0, 0, false⟩, pc := 0x400000, a := Vector.replicate 8 0x400000 } },
     by decide, by repeat' (first | decide | exact ⟨_, rfl⟩ | constructor), by decide⟩,
   ⟨⟨0, .clean, false⟩, mof, .clean,
     { st [(R.LC_STAT_STATE 0, 1)] with core := Vector.replicate 8 { CoreDyn.reset with run := some ⟨1, 0, 0, false⟩, pc := 0x400000, a := Vector.replicate 8 0x400000 } },
     by decide, by repeat' (first | decide | exact ⟨_, rfl⟩ | constructor), by decide⟩,
   ⟨⟨0, .clean, false⟩, mof, .clean,
     { st [(R.LC_STAT_STATE 0, 1)] with core := Vector.replicate 8 { CoreDyn.reset with run := some ⟨1, 0, 0, false⟩, pc := 0x400000, a := Vector.replicate 8 0x400000 } },
     0, by decide, by decide, by repeat' (first | decide | exact ⟨_, rfl⟩ | constructor), by decide⟩,
   ⟨0,
     { st [(R.LC_STAT_STATE 0, 1)] with core := Vector.replicate 8 { CoreDyn.reset with run := some ⟨1, 0, 0, false⟩, pc := 0x400000, loads := [⟨[], none⟩] } },
     ⟨[], none⟩, [], by decide⟩⟩

theorem witness_PipStores :
    (∃ (x : PipAt) (f : MForm) (s : State), isSrc f.dt = true ∧ MemMeets s x f [f.dt] 8 EccSeen.clean ∧ s.coreMayStore x.core
      (s.core[x.core].effAddr f) 8 = true) ∧
    (∃ (x : PipAt) (f : MForm) (s : State) (d : Fin 32), f.dt = ↑d ∧ MemMeets s x f [f.dt] 4 EccSeen.clean ∧ s.coreMayStore x.core
      (s.core[x.core].effAddr f) 4 = true) ∧
    (∃ (x : PipAt) (f : MForm) (s : State) (d : Fin 32), ↑d < 31 ∧ f.dt = ↑d ∧ MemMeets s x f [f.dt, f.dt + 1] 16 EccSeen.clean ∧
      s.coreMayStore x.core (s.core[x.core].effAddr f) 16 = true) ∧
    (∃ (k : Core) (s : State) (w : StoreDyn) (r : List StoreDyn), s.core[k].stores = w :: r ∧
      (match placeOf w.addr with | Place.block base size => False | x => True) ∧ s.core[k].wait = CoreWait.none) :=
  ⟨⟨⟨0, .clean, false⟩, mof,
     { st [(R.LC_STAT_STATE 0, 1)] with core := Vector.replicate 8 { CoreDyn.reset with run := some ⟨1, 0, 0, false⟩, pc := 0x400000, a := Vector.replicate 8 0x400000 } },
     by decide, by repeat' (first | decide | exact ⟨_, rfl⟩ | constructor), by decide⟩,
   ⟨⟨0, .clean, false⟩, mof,
     { st [(R.LC_STAT_STATE 0, 1)] with core := Vector.replicate 8 { CoreDyn.reset with run := some ⟨1, 0, 0, false⟩, pc := 0x400000, a := Vector.replicate 8 0x400000 } },
     0, by decide, by repeat' (first | decide | exact ⟨_, rfl⟩ | constructor), by decide⟩,
   ⟨⟨0, .clean, false⟩, mof,
     { st [(R.LC_STAT_STATE 0, 1)] with core := Vector.replicate 8 { CoreDyn.reset with run := some ⟨1, 0, 0, false⟩, pc := 0x400000, a := Vector.replicate 8 0x400000 } },
     0, by decide, by decide, by repeat' (first | decide | exact ⟨_, rfl⟩ | constructor), by decide⟩,
   ⟨0,
     { st [(R.LC_STAT_STATE 0, 1)] with core := Vector.replicate 8 { CoreDyn.reset with run := some ⟨1, 0, 0, false⟩, pc := 0x400000, stores := [⟨0x10000000, 8, 1⟩], wait := CoreWait.none } },
     ⟨0x10000000, 8, 1⟩, [], by decide, by constructor <;> decide, by decide⟩⟩

theorem witness_PipFlow :
    (∃ (x : PipAt) (f : BForm) (s : State), f.creg = 0 ∧ PipMeets s x f.cond [] ∧ (∀ (l : Machine.Level), l ∈ s.core[x.core].levels →
      l.last ≠ s.core[x.core].pc)) ∧
    (∃ (x : PipAt) (f : BForm) (s : State), f.creg = 0 ∧ PipMeets s x f.cond [39] ∧ (∀ (l : Machine.Level), l ∈ s.core[x.core].levels →
      l.last ≠ s.core[x.core].pc)) ∧
    (∃ (x : PipAt) (f : RForm) (s : State), f.sa < 40 ∧ PipMeets s x f.cond [f.dst, f.sa, f.sb] ∧ (∀ (l : Machine.Level), l ∈
      s.core[x.core].levels → l.last ≠ s.core[x.core].pc)) ∧
    (∃ (x : PipAt) (f : BForm) (s : State) (n : Nat), PipMeets s x f.cond [f.creg] ∧ s.core[x.core].levels = [] ∧ (f.creg = 63 ∧ n =
      f.icount ∨ ∃ (b : Fin 32), f.creg = ↑b ∧ n = BitVec.toNat s.core[x.core].d[b] % 2 ^ 32)) ∧
    (∃ (x : PipAt) (f : RForm) (s : State), PipMeets s x f.cond [f.dst, f.sa, f.sb]) ∧
    (∃ (x : PipAt) (f : RForm) (s : State), PipMeets s x f.cond [f.dst, f.sa, f.sb] ∧ s.core[x.core].stores = []) ∧
    (∃ (x : PipAt) (f : RForm) (s : State), PipMeets s x f.cond [f.dst, f.sa, f.sb] ∧ x.ecc = EccSeen.clean ∧ s.dev ≠ 4) :=
  ⟨⟨⟨0, .clean, false⟩, bf,
     { st [(R.LC_STAT_STATE 0, 1)] with core := Vector.replicate 8 { CoreDyn.reset with run := some ⟨1, 0, 0, false⟩, pc := 0x400000 } },
     by decide, by constructor <;> decide, by decide⟩,
   ⟨⟨0, .clean, false⟩, bf,
     { st [(R.LC_STAT_STATE 0, 1)] with core := Vector.replicate 8 { CoreDyn.reset with run := some ⟨1, 0, 0, false⟩, pc := 0x400000 } },
     by decide, by constructor <;> decide, by decide⟩,
   ⟨⟨0, .clean, false⟩, rf,
     { st [(R.LC_STAT_STATE 0, 1)] with core := Vector.replicate 8 { CoreDyn.reset with run := some ⟨1, 0, 0, false⟩, pc := 0x400000 } },
     by decide, by constructor <;> decide, by decide⟩,
   ⟨⟨0, .clean, false⟩, { bf with creg := 63 },
     { st [(R.LC_STAT_STATE 0, 1)] with core := Vector.replicate 8 { CoreDyn.reset with run := some ⟨1, 0, 0, false⟩, pc := 0x400000 } },
     0, by constructor <;> decide, by decide, by decide⟩,
   ⟨⟨0, .clean, false⟩, rf,
     { st [(R.LC_STAT_STATE 0, 1)] with core := Vector.replicate 8 { CoreDyn.reset with run := some ⟨1, 0, 0, false⟩, pc := 0x400000 } },
     by constructor <;> decide⟩,
   ⟨⟨0, .clean, false⟩, rf,
     { st [(R.LC_STAT_STATE 0, 1)] with core := Vector.replicate 8 { CoreDyn.reset with run := some ⟨1, 0, 0, false⟩, pc := 0x400000 } },
     by constructor <;> decide, by decide⟩,
   ⟨⟨0, .clean, false⟩, rf,
     { st [(R.LC_STAT_STATE 0, 1), (R.SYS_STATE_STATE, 2)] with core := Vector.replicate 8 { CoreDyn.reset with run := some ⟨1, 0, 0, false⟩, pc := 0x400000 } },
     by constructor <;> decide, by decide, by decide⟩⟩

theorem witness_PipEnds :
    (∃ (x : PipAt) (f : RForm) (s : State), PipMeets s x f.cond [f.dst, f.sa, f.sb] ∧ (∀ (l : Machine.Level), l ∈ s.core[x.core].levels
      → l.last ≠ s.core[x.core].pc) ∧ s.core[x.core].stores = [] ∧ (s.outEdge (s.pipOf x.core) (f.sh % 8)).isSome = true) ∧
    (∃ (x : PipAt) (f : RForm) (s : State), PipMeets s x f.cond [f.dst, f.sa, f.sb] ∧ (∀ (l : Machine.Level), l ∈ s.core[x.core].levels
      → l.last ≠ s.core[x.core].pc) ∧ s.core[x.core].stores = [] ∧ s.core[x.core].flags.sat = false) ∧
    (∃ (x : PipAt) (s : State), s.coreReady x.core = true ∧ inLocal (↑x.core) s.core[x.core].pc 8 = true ∧ s.core[x.core].pc % 8 = 0 ∧
      x.ecc ≠ EccSeen.double ∧ s.pipOf x.core < 4096 ∧ s.core[x.core].pc < 2 ^ 32) :=
  ⟨⟨⟨0, .clean, false⟩, rf,
     { st [(R.LC_STAT_STATE 0, 1)] with core := Vector.replicate 8 { CoreDyn.reset with run := some ⟨1, 0, 0, false⟩, pc := 0x400000 } },
     by constructor <;> decide, by decide, by decide, by decide⟩,
   ⟨⟨0, .clean, false⟩, rf,
     { st [(R.LC_STAT_STATE 0, 1)] with core := Vector.replicate 8 { CoreDyn.reset with run := some ⟨1, 0, 0, false⟩, pc := 0x400000 } },
     by constructor <;> decide, by decide, by decide, by decide⟩,
   ⟨⟨0, .clean, false⟩,
     { st [(R.LC_STAT_STATE 0, 1)] with core := Vector.replicate 8 { CoreDyn.reset with run := some ⟨1, 0, 0, false⟩, pc := 0x400000 } },
     by decide, by decide, by decide, by decide, by decide, by decide⟩⟩

theorem witness_CoreDebug :
    (∃ (s : State), s.fullService = true) ∧
    (∃ (k : Core) (s : State), s.fullService = true ∧ s.get (R.LC_DBG_HALTED ↑k) = 1) ∧
    (∃ (k : Core) (s : State), s.dev = 4 ∧ s.get (R.LC_STAT_STATE ↑k) ≤ 1 ∧ s.core[k].wait = CoreWait.none ∧ s.get (R.LC_DBG_HALT ↑k) =
      1 ∧ (∀ (n : Slice), s.bitOf (R.SLC_PWMCFG_FRZMASK ↑n) ↑k = false) ∧ s.core[k].pc < 2 ^ 32) ∧
    (∃ (k : Core) (s : State), s.get (R.LC_STAT_STATE ↑k) ≠ 3) :=
  ⟨⟨st [(R.SYS_STATE_STATE, 4), (R.SYS_CFG_SVCMODE, 2), (R.LC_STAT_STATE 0, 1)], by decide⟩,
   ⟨0, st [(R.SYS_STATE_STATE, 4), (R.SYS_CFG_SVCMODE, 2), (R.LC_STAT_STATE 0, 1), (R.LC_DBG_HALTED 0, 1)], by decide, by decide⟩,
   ⟨0,
     { st [(R.SYS_STATE_STATE, 4), (R.SYS_CFG_SVCMODE, 2), (R.LC_STAT_STATE 0, 1), (R.LC_DBG_HALT 0, 1)] with core := Vector.replicate 8 { CoreDyn.reset with wait := CoreWait.none } },
     by decide, by decide, by decide, by decide, by decide, by decide⟩,
   ⟨0, st [(R.SYS_STATE_STATE, 4), (R.SYS_CFG_SVCMODE, 2), (R.LC_STAT_STATE 0, 1)], by decide⟩⟩

theorem witness_RindAndPresence :
    (∃ (s : State), s.boot.rind = false) ∧
    (∃ (s : State), s.boot.rind = true ∧ s.boot.seq = 0 ∧ s.boot.waitRetry = false ∧ s.boot.failed = false ∧ s.pw.sleep = 0 ∧ s.leaving
      = false ∧ s.boot.pfailed = false) ∧
    (∃ (s : State), s.boot.rind = true ∧ s.on R.PWR_STAT_PRESENT = true ∧ s.leaving = false) ∧
    (∃ (s : State), s.boot.rind = true ∧ s.leaving = false) ∧
    (∃ (s : State), s.leaving = true ∧ s.boot.departed = false ∧ s.domOn 3 = true) ∧
    (∃ (s : State), s.leaving = true) :=
  ⟨⟨{ st [] with boot.rind := false }, by decide⟩,
   ⟨{ st [] with boot.rind := true, boot.seq := 0, boot.waitRetry := false, boot.failed := false, pw.sleep := 0, leaving := false, boot.pfailed := false },
     by decide, by decide, by decide, by decide, by decide, by decide, by decide⟩,
   ⟨{ st [(R.PWR_STAT_PRESENT, 1)] with boot.rind := true, leaving := false }, by decide, by decide, by decide⟩,
   ⟨{ st [] with boot.rind := true, leaving := false }, by decide, by decide⟩,
   ⟨{ st [(R.PWR_STAT_DOM_ON, 255)] with leaving := true, boot.departed := false }, by decide, by decide, by decide⟩,
   ⟨{ st [] with leaving := true }, by decide⟩⟩

theorem witness_Feeds :
    (∃ (f : Fin 2) (s : State), s.boot.rind = true ∧ (s.feed f).isOpen = false) ∧
    (∃ (f : Fin 2) (s : State), (s.feed f).valid = true ∧ (s.feed (1 - f)).stable = true ∧ s.domOn 0 = true) ∧
    (∃ (f : Fin 2) (s : State), (s.feed f).valid = true ∧ s.domOn 0 = true) :=
  ⟨⟨0,
     { st [(R.PWR_STAT_DOM_ON, 255)] with boot.rind := true, boot.feedA := ⟨true, true, false, false⟩, boot.feedB := ⟨true, true, false, false⟩ },
     by decide, by decide⟩,
   ⟨0,
     { st [(R.PWR_STAT_DOM_ON, 255)] with boot.rind := true, boot.feedA := ⟨true, true, false, false⟩, boot.feedB := ⟨true, true, false, false⟩ },
     by decide, by decide, by decide⟩,
   ⟨0,
     { st [(R.PWR_STAT_DOM_ON, 255)] with boot.rind := true, boot.feedA := ⟨true, true, false, false⟩, boot.feedB := ⟨true, true, false, false⟩ },
     by decide, by decide⟩⟩

theorem witness_PowerSequencer :
    (∃ (s : State), 1 ≤ s.boot.seq ∧ s.boot.seq ≤ 7 ∧ s.boot.ready = true ∧ s.leaving = false) ∧
    (∃ (d : Fin 8) (s : State), s.boot.seq = ↑d + 1 ∧ s.boot.ready = false ∧ s.leaving = false ∧ ↑d < 7) ∧
    (∃ (s : State), s.boot.seq = 8 ∧ s.boot.ready = false ∧ s.leaving = false ∧ s.boot.resetLow = false) ∧
    (∃ (s : State), 1 ≤ s.boot.seq ∧ s.boot.seq ≤ 8 ∧ s.boot.ready = false ∧ s.leaving = false) ∧
    (∃ (s : State), s.boot.waitRetry = true ∧ s.inserted = true) :=
  ⟨⟨{ st [] with boot.seq := 1, boot.ready := true, leaving := false }, by decide, by decide, by decide, by decide⟩,
   ⟨0, { st [] with boot.seq := 0 + 1, boot.ready := false, leaving := false }, by decide, by decide, by decide, by decide⟩,
   ⟨{ st [] with boot.seq := 8, boot.ready := false, leaving := false, boot.resetLow := false }, by decide, by decide, by decide,
     by decide⟩,
   ⟨{ st [] with boot.seq := 1, boot.ready := false, leaving := false }, by decide, by decide, by decide, by decide⟩,
   ⟨{ st [(R.PWR_STAT_PRESENT, 1)] with boot.seq := 1, boot.ready := true, boot.waitRetry := true, boot.feedA := ⟨true, true, false, false⟩ },
     by decide, by decide⟩⟩

theorem witness_ResetAndStraps :
    (∃ (s : State), s.boot.rind = true) ∧
    (∃ (s : State), s.boot.resetLow = true ∧ s.boot.seq = 9 ∧ s.leaving = false) ∧
    (∃ (a : Nat) (r : Nat) (s : State), s.boot.seq = 9 ∧ s.get R.SYS_STRAP_ADDR_LIVE = s.get R.SYS_STRAP_ADDR ∧ s.get
      R.SYS_STRAP_RANK_LIVE = s.get R.SYS_STRAP_RANK ∧ (a % 16 ≠ s.get R.SYS_STRAP_ADDR ∨ r % 2 ≠ s.get R.SYS_STRAP_RANK)) ∧
    (∃ (c : Instr) (k : Nat) (s : State), (c, k) ∈ [(Instr.tapExtest, 0), (Instr.tapHighz, 4), (Instr.tapClamp, 5)] ∧ (s.dev = 4 ∧ s.get
      R.SYS_CFG_SVCMODE = 2)) ∧
    (∃ (c : Instr) (k : Nat) (s : State), (c, k) ∈ [(Instr.tapExtest, 0), (Instr.tapHighz, 4), (Instr.tapClamp, 5)] ∧ (¬(s.dev = 4 ∧
      s.get R.SYS_CFG_SVCMODE = 2)) ∧ s.domOn 0 = true) ∧
    (∃ (k : Nat), (¬k % 256 ∈ [0, 1, 2, 4, 5])) :=
  ⟨⟨{ st [(R.PWR_STAT_DOM_ON, 255)] with boot.seq := 9, boot.rind := true }, by decide⟩,
   ⟨{ st [(R.PWR_STAT_DOM_ON, 255)] with boot.seq := 9, boot.resetLow := true, leaving := false }, by decide, by decide, by decide⟩,
   ⟨1, 0,
     { st [(R.PWR_STAT_DOM_ON, 255), (R.SYS_STRAP_ADDR_LIVE, 0), (R.SYS_STRAP_RANK_LIVE, 0), (R.SYS_STRAP_RANK, 0), (R.SYS_STRAP_ADDR, 0)] with boot.seq := 9 },
     by decide, by decide, by decide, by decide⟩,
   ⟨.tapExtest, 0, { st [(R.PWR_STAT_DOM_ON, 255), (R.SYS_STATE_STATE, 4), (R.SYS_CFG_SVCMODE, 2)] with boot.seq := 9 }, by decide,
     by decide⟩,
   ⟨.tapExtest, 0, { st [(R.PWR_STAT_DOM_ON, 255)] with boot.seq := 9 }, by decide, by decide, by decide⟩,
   ⟨9, by decide⟩⟩

theorem witness_IntakeSteps :
    (∃ (o : IntakeObs) (s : State), AtStep s 1 ∧ o.ecc = EccSeen.clean ∧ o.linksOk = true) ∧
    (∃ (o : IntakeObs) (s : State), AtStep s 2 ∧ o.ecc = EccSeen.clean) ∧
    (∃ (o : IntakeObs) (s : State), AtStep s 3 ∧ o.ecc = EccSeen.clean ∧ o.sfdp = true ∧ o.bfpt = true ∧ 24 ≤ o.densityLog2 ∧
      o.densityLog2 < 256) ∧
    (∃ (o : IntakeObs) (s : State), AtStep s 4 ∧ o.ecc = EccSeen.clean ∧ o.readOk = true ∧ (slotCode s.boot.slotA false = 0 ∨ slotCode
      s.boot.slotB false = 0)) ∧
    (∃ (o : IntakeObs) (s : State), AtStep s 4 ∧ o.ecc = EccSeen.clean ∧ o.readOk = true ∧ slotCode s.boot.slotA false ≠ 0 ∧ slotCode
      s.boot.slotB false ≠ 0) ∧
    (∃ (o : IntakeObs) (s : State), AtStep s 5 ∧ o.ecc = EccSeen.clean ∧ o.readOk = true ∧ (passOne (s.flash s.boot.slot)).snd = 0) ∧
    (∃ (o : IntakeObs) (s : State), AtStep s 6 ∧ o.ecc = EccSeen.clean ∧ s.signCode (s.flash s.boot.slot) = 0) ∧
    (∃ (o : IntakeObs) (s : State), AtStep s 7 ∧ o.ecc = EccSeen.clean ∧ o.readOk = true ∧ (passTwo (s.flash s.boot.slot)
      o.rereadOk).fst = 0) ∧
    (∃ (o : IntakeObs) (s : State), AtStep s 8 ∧ o.ecc = EccSeen.clean ∧ s.consistent (s.flash s.boot.slot) = true) ∧
    (∃ (o : IntakeObs) (s : State), AtStep s 9 ∧ o.ecc = EccSeen.clean ∧ o.hlAck = true) ∧
    (∃ (o : IntakeObs) (k : Nat) (s : State), AtStep s k ∧ k ≠ 0 ∧ o.ecc = EccSeen.double) :=
  ⟨⟨iobs, { st [(R.SYS_STATE_STATE, 0)] with boot.step := 1 }, by unfold AtStep; decide, by decide, by decide⟩,
   ⟨iobs, { st [(R.SYS_STATE_STATE, 0)] with boot.step := 2 }, by unfold AtStep; decide, by decide⟩,
   ⟨iobs, { st [(R.SYS_STATE_STATE, 0)] with boot.step := 3 }, by unfold AtStep; decide, by decide, by decide, by decide, by decide,
     by decide⟩,
   ⟨iobs, { st [(R.SYS_STATE_STATE, 0)] with boot.step := 4, boot.slotA := img (le 8 commitWord) }, by unfold AtStep; decide, by decide,
     by decide, .inl img_slot⟩,
   ⟨iobs, { st [(R.SYS_STATE_STATE, 0)] with boot.step := 4 }, by unfold AtStep; decide, by decide, by decide, by decide, by decide⟩,
   ⟨iobs, { st [(R.SYS_STATE_STATE, 0)] with boot.step := 5, boot.slotA := img [] }, by unfold AtStep; decide, by decide, by decide,
     img_pass⟩,
   ⟨iobs, { st [(R.SYS_STATE_STATE, 0)] with boot.step := 6 }, by unfold AtStep; decide, by decide, by decide⟩,
   ⟨iobs, { st [(R.SYS_STATE_STATE, 0)] with boot.step := 7, boot.slotA := img [] }, by unfold AtStep; decide, by decide, by decide,
     img_two⟩,
   ⟨iobs, { st cregs with boot.step := 8, boot.slotA := img [], arc.banks := part.take 48, mem := graph }, by unfold AtStep; decide,
     by decide, by decide +kernel⟩,
   ⟨iobs, { st [(R.SYS_STATE_STATE, 0)] with boot.step := 9 }, by unfold AtStep; decide, by decide, by decide⟩,
   ⟨{ iobs with ecc := .double }, 1, { st [(R.SYS_STATE_STATE, 0)] with boot.step := 1 }, by unfold AtStep; decide, by decide,
     by decide⟩⟩

theorem witness_IntakeTimeLimit :
    ∃ (k : Nat) (s : State), AtStep s k ∧ k ≠ 0 :=
  ⟨3, { st [(R.SYS_STATE_STATE, 0)] with boot.step := 3 }, by unfold AtStep; decide, by decide⟩

theorem witness_IntakeEnds :
    (∃ (k : Nat) (s : State), AtStep s k ∧ k ∈ [3, 4, 5, 7] ∧ s.get R.IMG_UPD_STATE ≠ 1) ∧
    (∃ (s : State), UpdRuns s 3) ∧
    (∃ (k : Nat) (s : State), AtStep s k ∧ k ≠ 0 ∧ s.boot.flOn = true) ∧
    (∃ (n : Slice) (r : List Slice) (s : State), s.boot.starting = true ∧ s.boot.slicesLeft = n :: r ∧ s.leaving = false ∧
      s.boot.resetLow = false) ∧
    (∃ (s : State), s.leaving = false ∧ s.boot.resetLow = false ∧ s.fio.waiting = 0 ∧ s.boot.starting = true ∧ s.boot.slicesLeft = [] ∧
      s.boot.groupsDone < 6) ∧
    (∃ (g : Nat) (s : State), s.leaving = false ∧ s.boot.resetLow = false ∧ g < 6 ∧ bit s.fio.waiting g = 1 ∧ (∀ (j : Nat), j < g → bit
      s.fio.waiting j = 0)) :=
  ⟨⟨3, { st [(R.SYS_STATE_STATE, 0)] with boot.step := 3, boot.flOn := true }, by unfold AtStep; decide, by decide, by decide⟩,
   ⟨{ st [(R.SYS_STATE_STATE, 4), (R.IMG_UPD_STATE, 1)] with boot.step := 3, boot.flOn := true, boot.updCmd := 3 },
     by unfold UpdRuns; decide⟩,
   ⟨3, { st [(R.SYS_STATE_STATE, 0)] with boot.step := 3, boot.flOn := true }, by unfold AtStep; decide, by decide, by decide⟩,
   ⟨0, [],
     { st [(R.SYS_STATE_STATE, 0)] with boot.step := 3, boot.flOn := true, boot.starting := true, boot.slicesLeft := 0 :: ([]), leaving := false, boot.resetLow := false },
     by decide, by decide, by decide, by decide⟩,
   ⟨{ st [(R.SYS_STATE_STATE, 0)] with boot.step := 3, boot.flOn := true, leaving := false, boot.resetLow := false, fio.waiting := 0, boot.starting := true, boot.slicesLeft := [] },
     by decide, by decide, by decide, by decide, by decide, by decide⟩,
   ⟨0,
     { st [(R.SYS_STATE_STATE, 0)] with boot.step := 3, boot.flOn := true, leaving := false, boot.resetLow := false, fio.waiting := 1 },
     by decide, by decide, by decide, by decide, (fun _ h => nomatch h)⟩⟩

theorem witness_ImageUpdate :
    (∃ (k : Fin 2) (s : State), UpdReady s ∧ s.updCode 1 (↑k) 0 0 = 0) ∧
    (∃ (k : Fin 2) (o : Nat) (n : Nat) (s : State), UpdReady s ∧ s.updCode 2 (↑k) o n = 0) ∧
    (∃ (k : Fin 2) (s : State), UpdReady s ∧ s.updCode 3 (↑k) 0 0 = 0) ∧
    (∃ (s : State), UpdReady s ∧ s.updCode 5 0 0 0 = 0) ∧
    (∃ (s : State), UpdReady s ∧ s.updCode 7 0 0 0 = 0) ∧
    (∃ (c : Instr) (k : Fin 2) (s : State), c ∈ [Instr.erase k, Instr.program k 0 1, Instr.verify k] ∧ UpdReady s ∧ s.boot.recovery =
      false ∧ s.boot.flOn = true ∧ s.get R.IMG_STAT_SLOT = ↑k) ∧
    (∃ (c : Instr) (k : Fin 2) (s : State), c ∈ [Instr.erase k, Instr.program k 0 1, Instr.verify k, Instr.retire, Instr.keyfuse,
      Instr.abort] ∧ s.updOpen = false) ∧
    (∃ (s : State), s.updOpen = true ∧ s.leaving = false ∧ s.boot.resetLow = false ∧ s.boot.recovery = false ∧ s.get R.IMG_UPD_STATE =
      1) ∧
    (∃ (s : State), UpdRuns s 1) ∧
    (∃ (s : State), UpdRuns s 2 ∧ Flash.wf (s.flash s.boot.updSlot) = true ∧ isErased (s.flash s.boot.updSlot) s.boot.updOff
      (s.boot.updPages * 256) = true) ∧
    (∃ (s : State), UpdRuns s 3 ∧ s.verifyCode (s.flash s.boot.updSlot) = 0 ∧ Flash.wf (s.flash s.boot.updSlot) = true ∧ flashRd
      (s.flash s.boot.updSlot) 248 8 = 2 ^ 64 - 1) ∧
    (∃ (s : State), UpdRuns s 5 ∧ Flash.wf (s.flash (s.get R.IMG_STAT_SLOT)) = true) ∧
    (∃ (s : State), UpdRuns s 7) :=
  ⟨⟨1, { st [(R.SYS_STATE_STATE, 4), (R.SYS_CFG_SVCMODE, 2)] with boot.flOn := true }, by unfold UpdReady; decide, by decide⟩,
   ⟨1, 0, 1, { st [(R.SYS_STATE_STATE, 4), (R.SYS_CFG_SVCMODE, 2)] with boot.flOn := true }, by unfold UpdReady; decide, by decide⟩,
   ⟨1, { st [(R.SYS_STATE_STATE, 4), (R.SYS_CFG_SVCMODE, 2)] with boot.flOn := true, boot.slotB := [(248, 0)] },
     by unfold UpdReady; decide, by decide⟩,
   ⟨{ st [(R.SYS_STATE_STATE, 4), (R.SYS_CFG_SVCMODE, 2)] with boot.flOn := true, boot.slotB := img (le 8 commitWord) },
     by unfold UpdReady; decide, img_header⟩,
   ⟨{ st [(R.SYS_STATE_STATE, 4), (R.SYS_CFG_SVCMODE, 2)] with boot.flOn := true, boot.feedA := ⟨true, true, false, false⟩, boot.feedB := ⟨true, true, false, false⟩ },
     by unfold UpdReady; decide, by decide⟩,
   ⟨.erase 0, 0,
     { st [(R.SYS_STATE_STATE, 4), (R.SYS_CFG_SVCMODE, 2), (R.IMG_STAT_SLOT, 0)] with boot.flOn := true, boot.recovery := false },
     by decide, by unfold UpdReady; decide, by decide, by decide, by decide⟩,
   ⟨.abort, 0, { st [(R.SYS_STATE_STATE, 1), (R.SYS_CFG_SVCMODE, 2)] with boot.flOn := true }, by decide, by decide⟩,
   ⟨{ st [(R.SYS_STATE_STATE, 4), (R.SYS_CFG_SVCMODE, 2), (R.IMG_UPD_STATE, 1)] with boot.flOn := true, leaving := false, boot.resetLow := false, boot.recovery := false },
     by decide, by decide, by decide, by decide, by decide⟩,
   ⟨{ st [(R.SYS_STATE_STATE, 4), (R.SYS_CFG_SVCMODE, 2), (R.IMG_UPD_STATE, 1)] with boot.flOn := true, boot.updCmd := 1 },
     by unfold UpdRuns; decide⟩,
   ⟨{ st [(R.SYS_STATE_STATE, 4), (R.SYS_CFG_SVCMODE, 2), (R.IMG_UPD_STATE, 1)] with boot.flOn := true, boot.updCmd := 2 },
     by unfold UpdRuns; decide, by decide, by decide⟩,
   ⟨{ st [(R.SYS_STATE_STATE, 4), (R.SYS_CFG_SVCMODE, 2), (R.IMG_UPD_STATE, 1)] with boot.flOn := true, boot.updCmd := 3, boot.slotA := img [] },
     by unfold UpdRuns; decide, img_verify _ (by decide) (by decide), img_wf.1, img_wf.2⟩,
   ⟨{ st [(R.SYS_STATE_STATE, 4), (R.SYS_CFG_SVCMODE, 2), (R.IMG_UPD_STATE, 1)] with boot.flOn := true, boot.updCmd := 5 },
     by unfold UpdRuns; decide, by decide⟩,
   ⟨{ st [(R.SYS_STATE_STATE, 4), (R.SYS_CFG_SVCMODE, 2), (R.IMG_UPD_STATE, 1)] with boot.flOn := true, boot.updCmd := 7 },
     by unfold UpdRuns; decide⟩⟩

theorem witness_DeviceCommands :
    (∃ (s : State), s.dev = 1 ∧ s.cmdsOn = true ∧ s.on R.TWN_CFG_EN = false) ∧
    (∃ (s : State), s.dev = 1 ∧ s.runCode = 0 ∧ s.on R.TWN_CFG_EN = true ∧ s.rclm = false) ∧
    (∃ (s : State), s.dev = 1 ∧ s.runCode = 0 ∧ s.on R.TWN_CFG_EN = true ∧ s.rclm = true) ∧
    (∃ (s : State), s.dev = 2 ∧ s.cmdsOn = true ∧ s.axesOff = true) ∧
    (∃ (s : State), s.serviceCode = 0) ∧
    (∃ (s : State), s.leaveServiceCode = 0) ∧
    (∃ (s : State), s.restartCode = 0) ∧
    (∃ (c : Instr) (code : Nat) (s : State), (c, code) ∈ [(Instr.sysRun, s.runCode), (Instr.sysHold, s.holdCode), (Instr.sysService,
      s.serviceCode), (Instr.leaveService, s.leaveServiceCode), (Instr.restart, s.restartCode)] ∧ code ≠ 0) :=
  ⟨⟨st [(R.SYS_STATE_STATE, 1), (R.TWN_CFG_EN, 0)], by decide, by decide, by decide⟩,
   ⟨st [(R.SYS_STATE_STATE, 1), (R.TWN_CFG_EN, 1), (R.TWN_STAT_HOLD_IN, 1)], by decide, by decide, by decide, by decide⟩,
   ⟨{ st [(R.SYS_STATE_STATE, 1), (R.TWN_CFG_EN, 1), (R.TWN_STAT_HOLD_IN, 0), (R.SYS_STRAP_RANK, 1)] with clock.up := 2 ^ 80 },
     by decide, by decide, by decide, by decide⟩,
   ⟨st [(R.SYS_STATE_STATE, 2)], by decide, by decide, by decide⟩,
   ⟨st [(R.SYS_STATE_STATE, 1), (R.SYS_CFG_SVCMODE, 1)], by decide⟩,
   ⟨st [(R.SYS_STATE_STATE, 4)], by decide⟩,
   ⟨st [(R.SYS_STATE_STATE, 1)], by decide⟩,
   ⟨.sysRun, 1, st [], by decide, by decide⟩⟩

theorem witness_AxisCommands :
    (∃ (n : Slice) (s : State), s.enableCheck n = 0) ∧
    (∃ (n : Slice) (s : State), s.enableCheck n ≠ 0) ∧
    (∃ (n : Slice) (c : Instr) (k : StopKind) (s : State), (c, k) ∈ [(Instr.stop n, StopKind.stop), (Instr.quickStop n, StopKind.quick)]
      ∧ s.axst n = 2) ∧
    (∃ (n : Slice) (s : State), s.axst n = 3) ∧
    (∃ (n : Slice) (c : Instr) (s : State), c ∈ [Instr.stop n, Instr.quickStop n, Instr.disable n] ∧ s.axst n = 1) ∧
    (∃ (n : Slice) (s : State), (s.axst n = 2 ∨ s.axst n = 3)) ∧
    (∃ (n : Slice) (s : State), s.clearAxisCode ↑n = 0) ∧
    (∃ (n : Slice) (s : State), s.clearAxisCode ↑n ≠ 0) :=
  ⟨⟨0,
     { st [(R.SYS_STATE_STATE, 2), (R.SYS_STATE_TORQUE_OFF, 0)] with ax := Vector.replicate 16 { AxisDyn.reset with used := true, started := true } },
     by decide⟩,
   ⟨0,
     { st [(R.SYS_STATE_STATE, 0), (R.SYS_STATE_TORQUE_OFF, 0)] with ax := Vector.replicate 16 { AxisDyn.reset with used := true, started := true } },
     by decide⟩,
   ⟨0, .stop 0, .stop,
     { st [(R.SYS_STATE_STATE, 2), (R.SYS_STATE_TORQUE_OFF, 0), (R.SLC_AXST_AXST 0, 2)] with ax := Vector.replicate 16 { AxisDyn.reset with used := true, started := true } },
     by decide, by decide⟩,
   ⟨0,
     { st [(R.SYS_STATE_STATE, 2), (R.SYS_STATE_TORQUE_OFF, 0), (R.SLC_AXST_AXST 0, 3)] with ax := Vector.replicate 16 { AxisDyn.reset with used := true, started := true } },
     by decide⟩,
   ⟨0, .stop 0,
     { st [(R.SYS_STATE_STATE, 2), (R.SYS_STATE_TORQUE_OFF, 0), (R.SLC_AXST_AXST 0, 1)] with ax := Vector.replicate 16 { AxisDyn.reset with used := true, started := true } },
     by decide, by decide⟩,
   ⟨0,
     { st [(R.SYS_STATE_STATE, 2), (R.SYS_STATE_TORQUE_OFF, 0), (R.SLC_AXST_AXST 0, 2)] with ax := Vector.replicate 16 { AxisDyn.reset with used := true, started := true } },
     by decide⟩,
   ⟨0,
     { st [(R.SYS_STATE_STATE, 2), (R.SYS_STATE_TORQUE_OFF, 0)] with ax := Vector.replicate 16 { AxisDyn.reset with used := true, started := true } },
     by decide⟩,
   ⟨0,
     { st [(R.SYS_STATE_STATE, 2), (R.SYS_STATE_TORQUE_OFF, 0)] with ax := Vector.replicate 16 { AxisDyn.reset with used := false, started := true } },
     by decide⟩⟩

theorem witness_EnableSteps :
    (∃ (n : Slice) (o : EnableObs) (s : State), s.lead n = n ∧ s.axst n = 1 ∧ s.get (R.SLC_AXST_PHASE ↑n) = 1 ∧ (∀ (k : Fin 3),
      o.spread.leg k ≤ 64 ∧ (o.mean.leg k).natAbs ≤ s.get (R.SLC_ISCFG_OFFLIM ↑n) ∧ (o.mean.leg k).natAbs < 2 ^ 15)) ∧
    (∃ (n : Slice) (s : State), s.lead n = n ∧ s.axst n = 1 ∧ s.get (R.SLC_AXST_PHASE ↑n) = 2 ∧ s.get (R.SLC_COMM_ASRC ↑n) ≠ 1 ∧ (∀ (m :
      Slice), m ∈ s.prechargers n → s.ax[m].precharged = true)) ∧
    (∃ (n : Slice) (o : EnableObs) (s : State), s.lead n = n ∧ s.axst n = 1 ∧ s.get (R.SLC_AXST_PHASE ↑n) = 3 ∧ s.axmode n = 2 ∧ s.get
      (R.SLC_COMM_ASRC ↑n) ≠ 1 ∧ s.on (R.SLC_FBSTAT_FBVALID ↑n) = true ∧ s.pairFunc n ≠ 4 ∧ o.angleOk = true) ∧
    (∃ (n : Slice) (s : State), s.lead n = n ∧ s.axst n = 1 ∧ s.get (R.SLC_AXST_PHASE ↑n) = 5 ∧ s.ax[n].closing = true) ∧
    (∃ (n : Slice) (s : State), s.prechargeWaits n = true ∧ (∀ (m : Slice), m < n → s.prechargeWaits m = false)) ∧
    (∃ (n : Slice) (s : State), s.pwm[n].precharge = some 0) ∧
    (∃ (n : Slice) (s : State), s.pwm[n].precharge = some 1) ∧
    (∃ (n : Slice) (s : State), s.pwm[n].precharge = some 2) :=
  ⟨⟨0, eobs,
     { st [(R.SLC_AXST_AXST 0, 1), (R.SLC_AXST_PHASE 0, 1)] with ax := Vector.replicate 16 { AxisDyn.reset with used := true, started := true, precharged := true } },
     by decide, by decide, by decide, by decide⟩,
   ⟨0,
     { st [(R.SLC_AXST_AXST 0, 1), (R.SLC_AXST_PHASE 0, 2)] with ax := Vector.replicate 16 { AxisDyn.reset with used := true, started := true, precharged := true } },
     by decide, by decide, by decide, by decide, by decide⟩,
   ⟨0, eobs,
     { st [(R.SLC_AXST_AXST 0, 1), (R.SLC_AXST_PHASE 0, 3), (R.SLC_MODE_MODE 0, 2), (R.SLC_FBSTAT_FBVALID 0, 1)] with ax := Vector.replicate 16 { AxisDyn.reset with used := true, started := true, precharged := true } },
     by decide, by decide, by decide, by decide, by decide, by decide, by decide, by decide⟩,
   ⟨0,
     { st [(R.SLC_AXST_AXST 0, 1), (R.SLC_AXST_PHASE 0, 5)] with ax := Vector.replicate 16 { AxisDyn.reset with used := true, started := true, precharged := true, closing := true } },
     by decide, by decide, by decide, by decide⟩,
   ⟨0,
     { st [(R.SLC_AXST_AXST 0, 1), (R.SLC_AXST_PHASE 0, 2)] with ax := Vector.replicate 16 { AxisDyn.reset with used := true, started := true, precharged := false } },
     by decide, by decide⟩,
   ⟨0,
     { st [(R.SLC_AXST_AXST 0, 1), (R.SLC_AXST_PHASE 0, 2)] with ax := Vector.replicate 16 { AxisDyn.reset with used := true, started := true, precharged := true }, pwm := Vector.replicate 16 { PwmDyn.reset with precharge := some 0 } },
     by decide⟩,
   ⟨0,
     { st [(R.SLC_AXST_AXST 0, 1), (R.SLC_AXST_PHASE 0, 2)] with ax := Vector.replicate 16 { AxisDyn.reset with used := true, started := true, precharged := true }, pwm := Vector.replicate 16 { PwmDyn.reset with precharge := some 1 } },
     by decide⟩,
   ⟨0,
     { st [(R.SLC_AXST_AXST 0, 1), (R.SLC_AXST_PHASE 0, 2)] with ax := Vector.replicate 16 { AxisDyn.reset with used := true, started := true, precharged := true }, pwm := Vector.replicate 16 { PwmDyn.reset with precharge := some 2 } },
     by decide⟩⟩

theorem witness_SchedulerTicks :
    (∃ (s : State), QuietTick s ∧ s.sched.queue = []) ∧
    (∃ (s : State) (q : QueueDyn) (k : Core), QuietTick s ∧ s.sched.queue = [q] ∧ s.choose (nextTick s) [] q = some ↑k ∧ q.pip < 4096) ∧
    (∃ (s : State) (b : BusyDyn) (k : Core), s.domOn 0 = true ∧ s.get R.SCH_STAT_STATE = 0 ∧ s.sched.notes = [(↑k, CoreNote.done)] ∧
      s.sched.busy = [b] ∧ b.core = ↑k ∧ s.sched.deadlines = []) ∧
    (∃ (p : Nat) (q : QueueDyn) (s : State), (List.find? (fun (x : QueueDyn) => x.pip == p) s.sched.delayed = some q)) ∧
    (∃ (p : Nat) (d : DeadlineDyn) (s : State), (List.find? (fun (x : DeadlineDyn) => x.pip == p && !x.missed) s.sched.deadlines = some
      d) ∧ s.dev ≠ 5) ∧
    (∃ (k : Core) (r : RunDyn) (s : State), s.core[k].run = some r ∧ r.counted = false ∧ bitsOf (s.pipWord r.pip 3) 0 24 ≠ 0) ∧
    (∃ (k : Core) (r : RunDyn) (s : State), s.core[k].run = some r ∧ r.pip < 4096) :=
  ⟨⟨{ st [(R.PWR_STAT_DOM_ON, 255), (R.SCH_STAT_STATE, 1), (R.SYS_STATE_STATE, 2)] with sched.queue := [] }, by constructor <;> decide,
     by decide⟩,
   ⟨{ st [(R.PWR_STAT_DOM_ON, 255), (R.SCH_STAT_STATE, 1), (R.SYS_STATE_STATE, 2), (R.SCH_STAT_IDLE, 255), (R.LC_STAT_STATE 0, 0)] with sched.queue := [(⟨1, 0, 0⟩)], mem := [(0x600043, 1)] },
     ⟨1, 0, 0⟩, 0, by constructor <;> decide, by decide, by decide, by decide⟩,
   ⟨{ st [(R.PWR_STAT_DOM_ON, 255), (R.SCH_STAT_STATE, 0), (R.SYS_STATE_STATE, 2)] with sched.notes := [(0, CoreNote.done)], sched.busy := [(⟨0, 1, 0⟩)], sched.deadlines := [] },
     ⟨0, 1, 0⟩, 0, by decide, by decide, by decide, by decide, by decide, by decide⟩,
   ⟨0, ⟨0, 0, 0⟩, { st [(R.PWR_STAT_DOM_ON, 255), (R.SCH_STAT_STATE, 1), (R.SYS_STATE_STATE, 2)] with sched.delayed := [⟨0, 0, 0⟩] },
     by decide⟩,
   ⟨0, ⟨0, 0, false⟩,
     { st [(R.PWR_STAT_DOM_ON, 255), (R.SCH_STAT_STATE, 1), (R.SYS_STATE_STATE, 2)] with sched.deadlines := [⟨0, 0, false⟩] },
     by decide, by decide⟩,
   ⟨0, ⟨1, 0, 0, false⟩,
     { st [(R.PWR_STAT_DOM_ON, 255), (R.SCH_STAT_STATE, 1), (R.SYS_STATE_STATE, 2)] with mem := [(0x600058, 1)], core := Vector.replicate 8 { CoreDyn.reset with run := some (⟨1, 0, 0, false⟩) } },
     by decide, by decide, by decide⟩,
   ⟨0, ⟨1, 0, 0, false⟩,
     { st [(R.PWR_STAT_DOM_ON, 255), (R.SCH_STAT_STATE, 1), (R.SYS_STATE_STATE, 2)] with core := Vector.replicate 8 { CoreDyn.reset with run := some (⟨1, 0, 0, false⟩) } },
     by decide, by decide⟩⟩

theorem witness_CurrentSamples :
    (∃ (n : Slice) (s : State), s.pwm[n].running = true ∧ s.on (R.SLC_PWMSTAT_FROZEN ↑n) = false ∧ s.pwm[n].place = 0 ∧ s.pairFunc n =
      0) ∧
    (∃ (n : Slice) (c : Tri Int) (s : State), s.pairFunc n = 0 ∧ s.sense[n].waiting = true ∧ s.sense[n].legOk =
      { u := true, v := true, w := true } ∧ inRange c.u ∧ inRange c.v ∧ inRange c.w) ∧
    (∃ (n : Slice) (c : Tri Int) (s : State), s.pairFunc n = 0 ∧ s.sense[n].waiting = true ∧ s.sense[n].legOk =
      { u := true, v := true, w := false } ∧ inRange c.u ∧ inRange c.v ∧ inRange c.w) ∧
    (∃ (n : Slice) (c : Tri Int) (s : State), s.pairFunc n = 0 ∧ s.sense[n].waiting = true ∧ s.sense[n].legOk =
      { u := false, v := false, w := true } ∧ inRange c.u ∧ inRange c.v ∧ inRange c.w) ∧
    (∃ (n : Slice) (s : State), s.pwm[n].running = true ∧ s.on (R.SLC_PWMSTAT_FROZEN ↑n) = false) :=
  ⟨⟨0, { st [(R.SLC_PWMSTAT_FROZEN 0, 0)] with pwm := Vector.replicate 16 { PwmDyn.reset with running := true, place := 0 } },
     by decide, by decide, by decide, by decide⟩,
   ⟨0, ⟨0, 0, 0⟩,
     { st [] with pwm := Vector.replicate 16 { PwmDyn.reset with running := true }, sense := Vector.replicate 16 { SenseDyn.reset with waiting := true, legOk := { u := true, v := true, w := true } } },
     by decide, by decide, by decide, by unfold inRange; decide, by unfold inRange; decide, by unfold inRange; decide⟩,
   ⟨0, ⟨0, 0, 0⟩,
     { st [] with pwm := Vector.replicate 16 { PwmDyn.reset with running := true }, sense := Vector.replicate 16 { SenseDyn.reset with waiting := true, legOk := { u := true, v := true, w := false } } },
     by decide, by decide, by decide, by unfold inRange; decide, by unfold inRange; decide, by unfold inRange; decide⟩,
   ⟨0, ⟨0, 0, 0⟩,
     { st [] with pwm := Vector.replicate 16 { PwmDyn.reset with running := true }, sense := Vector.replicate 16 { SenseDyn.reset with waiting := true, legOk := { u := false, v := false, w := true } } },
     by decide, by decide, by decide, by unfold inRange; decide, by unfold inRange; decide, by unfold inRange; decide⟩,
   ⟨0, { st [(R.SLC_PWMSTAT_FROZEN 0, 0)] with pwm := Vector.replicate 16 { PwmDyn.reset with running := true } }, by decide, by decide⟩⟩

theorem witness_OvercurrentTrips :
    (∃ (n : Slice) (leg : Fin 3) (s : State), s.domOn (6 + dieOf n) = true ∧ s.bitOf (R.SLC_OCSTAT_TRIP ↑n) ↑leg = false) ∧
    (∃ (n : Slice) (leg : Fin 3) (s : State), s.bitOf (R.SLC_OCSTAT_TRIP ↑n) ↑leg = true) ∧
    (∃ (n : Slice) (s : State), 1000 ≤ s.busMeas n ∧ s.on (R.SLC_OCSTAT_SWFAULT ↑n) = false ∧ s.drive n ≠ Drive.low) :=
  ⟨⟨0, 0,
     { st [(R.SYS_STATE_STATE, 2), (R.BUS_STAT_VDRV_OK_A, 1), (R.SLC_AXST_AXST 0, 2), (R.BUS_MEAS_V0, 4000), (R.PWR_STAT_DOM_ON, 255), (R.SYS_STATE_TORQUE_OFF, 0), (R.SLC_OCSTAT_TRIP 0, 0)] with sto.cmd1 := false, ax := Vector.replicate 16 { AxisDyn.reset with started := true, used := true } },
     by decide, by decide⟩,
   ⟨0, 0,
     { st [(R.SYS_STATE_STATE, 2), (R.BUS_STAT_VDRV_OK_A, 1), (R.SLC_AXST_AXST 0, 2), (R.BUS_MEAS_V0, 4000), (R.PWR_STAT_DOM_ON, 255), (R.SYS_STATE_TORQUE_OFF, 0), (R.SLC_OCSTAT_TRIP 0, 1)] with sto.cmd1 := false, ax := Vector.replicate 16 { AxisDyn.reset with started := true, used := true } },
     by decide⟩,
   ⟨0,
     { st [(R.SYS_STATE_STATE, 2), (R.BUS_STAT_VDRV_OK_A, 1), (R.SLC_AXST_AXST 0, 2), (R.BUS_MEAS_V0, 4000), (R.PWR_STAT_DOM_ON, 255), (R.SYS_STATE_TORQUE_OFF, 0), (R.SLC_OCSTAT_SWFAULT 0, 0)] with sto.cmd1 := false, ax := Vector.replicate 16 { AxisDyn.reset with started := true, used := true } },
     by decide, by decide, by decide⟩⟩

theorem witness_StartSequencer :
    (∃ (n : Slice) (o : StartObs) (s : State), s.oddInPair n = false ∧ s.pwm[n].running = true ∧ s.slPhase n = 0 ∧ s.sensorless n = true
      ∧ s.axst n = 2 ∧ o.command ≠ 0) ∧
    (∃ (n : Slice) (o : StartObs) (s : State), s.slPhase n = 1 ∧ 3 * (95 * s.busMeas n * 10) ^ 2 < (200 * o.amplitude) ^ 2) ∧
    (∃ (n : Slice) (o : StartObs) (s : State), s.slPhase n = 1 ∧ (¬3 * (95 * s.busMeas n * 10) ^ 2 < (200 * o.amplitude) ^ 2) ∧ (↑(if
      o.amplitude < 500 ∨ o.crossings < 2 then 0 else o.speed).natAbs < ↑(s.get (R.SLC_SLCFG1_W_CATCH ↑n)))) ∧
    (∃ (n : Slice) (o : StartObs) (s : State), s.slPhase n = 1 ∧ (¬3 * (95 * s.busMeas n * 10) ^ 2 < (200 * o.amplitude) ^ 2) ∧ (↑(s.get
      (R.SLC_SLCFG1_W_CATCH ↑n)) ≤ ↑(if o.amplitude < 500 ∨ o.crossings < 2 then 0 else o.speed).natAbs) ∧ (↑(s.get
      (R.SLC_SLCFG1_W_CATCH ↑n)) ≤ (if o.amplitude < 500 ∨ o.crossings < 2 then 0 else o.speed) * s.startq[n].dir)) ∧
    (∃ (n : Slice) (o : StartObs) (s : State), s.slPhase n = 1 ∧ (¬3 * (95 * s.busMeas n * 10) ^ 2 < (200 * o.amplitude) ^ 2) ∧ (↑(s.get
      (R.SLC_SLCFG1_W_CATCH ↑n)) ≤ ↑(if o.amplitude < 500 ∨ o.crossings < 2 then 0 else o.speed).natAbs) ∧ ((if o.amplitude < 500 ∨
      o.crossings < 2 then 0 else o.speed) * s.startq[n].dir < ↑(s.get (R.SLC_SLCFG1_W_CATCH ↑n)))) ∧
    (∃ (n : Slice) (s : State), s.slPhase n = 2) ∧
    (∃ (n : Slice) (s : State), s.slPhase n = 3 ∧ 16 ≤ s.startq[n].syncCycles ∧ s.obsLock n = true) ∧
    (∃ (n : Slice) (s : State), s.slPhase n = 3 ∧ 16 ≤ s.startq[n].syncCycles ∧ s.obsLock n = false ∧ s.get (R.SLC_SLSTAT_RETRY ↑n) <
      s.get (R.SLC_SLCFG0_RETRIES ↑n)) ∧
    (∃ (n : Slice) (s : State), s.slPhase n = 4 ∧ s.axst n ≠ 1) ∧
    (∃ (n : Slice) (s : State), s.slPhase n = 5 ∧ s.atHandover n = true ∧ 64 ≤ s.startq[n].lockRun) ∧
    (∃ (n : Slice) (s : State), s.slPhase n = 5 ∧ s.atHandover n = true ∧ s.obsLock n = false ∧ s.get (R.SLC_SLSTAT_RETRY ↑n) < s.get
      (R.SLC_SLCFG0_RETRIES ↑n)) ∧
    (∃ (n : Slice) (s : State), s.slPhase n = 5 ∧ s.atHandover n = true ∧ s.obsLock n = false ∧ s.get (R.SLC_SLCFG0_RETRIES ↑n) ≤ s.get
      (R.SLC_SLSTAT_RETRY ↑n)) ∧
    (∃ (n : Slice) (s : State), s.slPhase n = 6 ∧ s.obsLock n = true) ∧
    (∃ (n : Slice) (s : State), s.slPhase n = 7 ∧ 8 ≤ s.startq[n].lowRun) ∧
    (∃ (n : Slice) (s : State), s.slPhase n = 7 ∧ s.get (R.SLC_SLCFG2_N_LOSS ↑n) ≤ s.startq[n].noLock ∧ s.get (R.SLC_SLCFG1_W_LOW ↑n) ≤
      (s.getS (R.SLC_SLOBS_OMEGA_EST ↑n)).natAbs) ∧
    (∃ (n : Slice) (s : State), s.slPhase n = 8) ∧
    (∃ (n : Slice) (s : State), s.get (R.SLC_SLOBS_SEQ ↑n) = s.startq[n].obsSeq) :=
  ⟨⟨0, { sobs with command := 1 },
     { st [(R.SLC_SLSTAT_PHASE 0, 0), (R.SLC_AXST_AXST 0, 2), (R.SLC_COMM_ASRC 0, 3)] with pwm := Vector.replicate 16 { PwmDyn.reset with running := true } },
     by decide, by decide, by decide, by decide, by decide, by decide⟩,
   ⟨0, { sobs with amplitude := 1 }, st [(R.SLC_SLSTAT_PHASE 0, 1)], by decide, by decide⟩,
   ⟨0, sobs, st [(R.SLC_SLSTAT_PHASE 0, 1), (R.SLC_SLCFG1_W_CATCH 0, 1)], by decide, by decide, by decide⟩,
   ⟨0, sobs, st [(R.SLC_SLSTAT_PHASE 0, 1), (R.SLC_SLCFG1_W_CATCH 0, 0)], by decide, by decide, by decide, by decide⟩,
   ⟨0, { sobs with amplitude := 500, crossings := 2, speed := -5 },
     { st [(R.SLC_SLSTAT_PHASE 0, 1), (R.SLC_SLCFG1_W_CATCH 0, 1), (R.BUS_MEAS_V0, 4000)] with startq := Vector.replicate 16 { StartDyn.reset with dir := 1 } },
     by decide, by decide, by decide, by decide⟩,
   ⟨0, st [(R.SLC_SLSTAT_PHASE 0, 2)], by decide⟩,
   ⟨0,
     { st [(R.SLC_SLSTAT_PHASE 0, 3), (R.SLC_SLOBS_LOCK 0, 1)] with startq := Vector.replicate 16 { StartDyn.reset with syncCycles := 16 } },
     by decide, by decide, by decide⟩,
   ⟨0,
     { st [(R.SLC_SLSTAT_PHASE 0, 3), (R.SLC_SLCFG0_RETRIES 0, 1)] with startq := Vector.replicate 16 { StartDyn.reset with syncCycles := 16 } },
     by decide, by decide, by decide, by decide⟩,
   ⟨0, st [(R.SLC_SLSTAT_PHASE 0, 4)], by decide, by decide⟩,
   ⟨0,
     { st [(R.SLC_SLSTAT_PHASE 0, 5), (R.SLC_SLCFG1_W_HO 0, 0)] with startq := Vector.replicate 16 { StartDyn.reset with lockRun := 64 } },
     by decide, by decide, by decide⟩,
   ⟨0, st [(R.SLC_SLSTAT_PHASE 0, 5), (R.SLC_SLCFG0_RETRIES 0, 1), (R.SLC_SLCFG1_W_HO 0, 0)], by decide, by decide, by decide,
     by decide⟩,
   ⟨0, st [(R.SLC_SLSTAT_PHASE 0, 5), (R.SLC_SLCFG0_RETRIES 0, 0), (R.SLC_SLCFG1_W_HO 0, 0)], by decide, by decide, by decide,
     by decide⟩,
   ⟨0, st [(R.SLC_SLSTAT_PHASE 0, 6), (R.SLC_SLOBS_LOCK 0, 1)], by decide, by decide⟩,
   ⟨0, { st [(R.SLC_SLSTAT_PHASE 0, 7)] with startq := Vector.replicate 16 { StartDyn.reset with lowRun := 8 } }, by decide, by decide⟩,
   ⟨0, st [(R.SLC_SLSTAT_PHASE 0, 7), (R.SLC_SLCFG2_N_LOSS 0, 0), (R.SLC_SLCFG1_W_LOW 0, 0)], by decide, by decide, by decide⟩,
   ⟨0, st [(R.SLC_SLSTAT_PHASE 0, 8)], by decide⟩,
   ⟨0, st [], by decide⟩⟩

theorem witness_ShadowWords :
    (∃ (n : Slice) (s : State), s.shadowOpen n = true) ∧
    (∃ (n : Slice) (s : State), s.shadowOpen n = true) ∧
    (∃ (n : Slice) (w : Nat) (v : Nat) (s : State), s.shadowOpen n = true ∧ s.pairFunc n = 0 ∧ s.pwm[n].stage = [(w, v)]) :=
  ⟨⟨0, { st [] with pwm := Vector.replicate 16 { PwmDyn.reset with running := true } }, by decide⟩,
   ⟨0, { st [] with pwm := Vector.replicate 16 { PwmDyn.reset with running := true } }, by decide⟩,
   ⟨0, 0, 0, { st [] with pwm := Vector.replicate 16 { PwmDyn.reset with running := true, stage := [(0, 0)] } }, by decide, by decide,
     by decide⟩⟩

theorem witness_CarrierBoundaries :
    (∃ (n : Slice) (trim : Int) (s : State), s.pwm[n].running = true ∧ s.on (R.SLC_PWMSTAT_FROZEN ↑n) = false ∧ s.pairFunc n = 0 ∧
      s.staged = [] ∧ s.pwm[n].claimHold = false ∧ s.get (R.SLC_SLSTAT_PHASE ↑n) ≠ 2 ∧ s.pwm[n].shadows = [] ∧ s.get (R.SLC_PWMCFG_CTYPE
      ↑n) = 0 ∧ s.on (R.SLC_PWMCFG_CARRY ↑n) = false ∧ s.ceilClamps n = { u := 0, v := 0, w := 0 } ∧ 1 ≤ s.hl (R.SLC_PWMLIM_TMIN ↑n) ∧
      (↑(s.get (R.SLC_PWMCFG_CPER ↑n)) + max (-32) (min 32 trim)).toNat ≤ 2 ^ 20 ∧ s.pwm[n].leg.u ≤ (↑(s.get (R.SLC_PWMCFG_CPER ↑n)) +
      max (-32) (min 32 trim)).toNat ∧ s.pwm[n].leg.v ≤ (↑(s.get (R.SLC_PWMCFG_CPER ↑n)) + max (-32) (min 32 trim)).toNat ∧
      s.pwm[n].leg.w ≤ (↑(s.get (R.SLC_PWMCFG_CPER ↑n)) + max (-32) (min 32 trim)).toNat ∧ s.pwm[n].lowAge.u < s.hl (R.SLC_PWMLIM_REFMAX
      ↑n) * 128000 ∧ s.pwm[n].lowAge.v < s.hl (R.SLC_PWMLIM_REFMAX ↑n) * 128000 ∧ s.pwm[n].lowAge.w < s.hl (R.SLC_PWMLIM_REFMAX ↑n) *
      128000 ∧ vceilActs (↑(s.get (R.SLC_PWMCFG_CPER ↑n)) + max (-32) (min 32 trim)).toNat (s.hl (R.SLC_PWMLIM_VCEIL ↑n)) (max
      s.pwm[n].leg.u (max s.pwm[n].leg.v s.pwm[n].leg.w)) (min s.pwm[n].leg.u (min s.pwm[n].leg.v s.pwm[n].leg.w)) = false) ∧
    (∃ (n : Slice) (x : Shadow) (s : State), s.pwm[n].running = true ∧ s.on (R.SLC_PWMSTAT_FROZEN ↑n) = false ∧ s.pairFunc n = 0 ∧
      s.staged = [] ∧ s.pwm[n].shadows = [x] ∧ x.word = 0) :=
  ⟨⟨0, 0,
     { st [(R.SYS_STATE_STATE, 2), (R.SLC_PWMCFG_CPER 0, 10000), (R.SLC_PWMSTAT_FROZEN 0, 0), (R.SLC_PWMCFG_CTYPE 0, 0), (R.SLC_PWMCFG_CARRY 0, 0)] with arc.hlCopy := [((R.SLC_PWMLIM_TMIN 0).key, 1), ((R.SLC_PWMLIM_REFMAX 0).key, 1), ((R.SLC_PWMLIM_VCEIL 0).key, 65535)], staged := [], pwm := Vector.replicate 16 { PwmDyn.reset with running := true, claimHold := false, shadows := [] } },
     by decide, by decide, by decide, by decide, by decide, by decide, by decide, by decide, by decide, by decide, by decide, by decide,
     by decide, by decide, by decide, by decide, by decide, by decide, by decide⟩,
   ⟨0, ⟨0, 5, 1, 0, 0, false, false⟩,
     { st [(R.SYS_STATE_STATE, 2), (R.SLC_PWMCFG_CPER 0, 10000), (R.SLC_PWMSTAT_FROZEN 0, 0)] with arc.hlCopy := [((R.SLC_PWMLIM_TMIN 0).key, 1), ((R.SLC_PWMLIM_REFMAX 0).key, 1), ((R.SLC_PWMLIM_VCEIL 0).key, 65535)], staged := [], pwm := Vector.replicate 16 { PwmDyn.reset with running := true, shadows := [(⟨0, 5, 1, 0, 0, false, false⟩)] } },
     by decide, by decide, by decide, by decide, by decide, by decide⟩⟩

theorem witness_GateSupplies :
    (∃ (n : Slice) (s : State), (s.axst (s.lead n) = 2 ∨ s.axst (s.lead n) = 3)) ∧
    (∃ (n : Slice) (s : State), s.on (R.SLC_PWMSTAT_FROZEN ↑n) = true ∧ s.hl (R.SLC_PWMLIM_HG_EN ↑n) ≠ 0) ∧
    (∃ (n : Slice) (s : State), s.on (R.SLC_PWMSTAT_FROZEN ↑n) = true ∧ (∀ (c : Core), s.bitOf (R.SLC_PWMCFG_FRZMASK ↑n) ↑c = true →
      s.on (R.LC_DBG_HALTED ↑c) = false)) :=
  ⟨⟨0, { st [(R.SLC_AXST_AXST 0, 2)] with arc.hlCopy := [((R.SLC_PWMLIM_HG_EN 0).key, 1)] }, by decide⟩,
   ⟨0, { st [(R.SLC_AXST_AXST 0, 2), (R.SLC_PWMSTAT_FROZEN 0, 1)] with arc.hlCopy := [((R.SLC_PWMLIM_HG_EN 0).key, 1)] }, by decide,
     by decide⟩,
   ⟨0, { st [(R.SLC_AXST_AXST 0, 2), (R.SLC_PWMSTAT_FROZEN 0, 1)] with arc.hlCopy := [((R.SLC_PWMLIM_HG_EN 0).key, 1)] }, by decide,
     by decide⟩⟩

theorem witness_BusLadder :
    (∃ (k : Fin 4) (v : Nat) (s : State), BusAbove s k v (s.hl (R.BUS_VLIM_VCH_ON ↑k)) ∧ s.hl (R.BUS_CLIM_CHEN ↑k) ≠ 0 ∧ s.bitOf
      R.BUS_STAT_CHON ↑k = false ∧ s.leaving = false) ∧
    (∃ (k : Fin 4) (v : Nat) (s : State), s.bitOf R.BUS_STAT_CHON ↑k = true ∧ v < s.hl (R.BUS_VLIM_VCH_OFF ↑k) ∧ v < 65536) ∧
    (∃ (k : Fin 4) (v : Nat) (s : State), s.bitOf R.BUS_STAT_CHON ↑k = true ∧ s.bus[k].checked = false ∧ v < 65536) ∧
    (∃ (k : Fin 4) (v : Nat) (s : State), BusAbove s k v (s.hl (R.BUS_VLIM_VREGEN ↑k)) ∧ s.bitOf R.BUS_STAT_REGEN ↑k = false) ∧
    (∃ (k : Fin 4) (v : Nat) (s : State), v < s.hl (R.BUS_VLIM_VCH_ON ↑k) ∧ v < 65536) ∧
    (∃ (k : Fin 4) (v : Nat) (s : State), BusAbove s k v (s.hl (R.BUS_VLIM_VSHORT ↑k)) ∧ s.bitOf R.BUS_STAT_SHORT ↑k = false) ∧
    (∃ (k : Fin 4) (v : Nat) (s : State), v < s.hl (R.BUS_VLIM_VCH_OFF ↑k) ∧ v < 65536) ∧
    (∃ (k : Fin 4) (v : Nat) (s : State), BusAbove s k v (s.hl (R.BUS_CLIM_VABS ↑k)) ∧ s.bitOf R.BUS_STAT_ABS ↑k = false) :=
  ⟨⟨0, 100,
     { st [(R.BUS_STAT_CHON, 0)] with arc.hlCopy := [((R.BUS_CLIM_EN 0).key, 1), ((R.BUS_CLIM_CHEN 0).key, 1)], leaving := false },
     by unfold BusAbove; decide, by decide, by decide, by decide⟩,
   ⟨0, 100, { st [(R.BUS_STAT_CHON, 1)] with arc.hlCopy := [((R.BUS_VLIM_VCH_OFF 0).key, 500)] }, by decide, by decide, by decide⟩,
   ⟨0, 100,
     { st [(R.BUS_STAT_CHON, 1)] with arc.hlCopy := [((R.BUS_CLIM_EN 0).key, 1), ((R.BUS_CLIM_CHEN 0).key, 1)], bus := Vector.replicate 4 { BusDyn.reset with checked := false } },
     by decide, by decide, by decide⟩,
   ⟨0, 100, { st [(R.BUS_STAT_REGEN, 0)] with arc.hlCopy := [((R.BUS_CLIM_EN 0).key, 1), ((R.BUS_CLIM_CHEN 0).key, 1)] },
     by unfold BusAbove; decide, by decide⟩,
   ⟨0, 100, { st [] with arc.hlCopy := [((R.BUS_VLIM_VCH_ON 0).key, 500)] }, by decide, by decide⟩,
   ⟨0, 100, { st [(R.BUS_STAT_SHORT, 0)] with arc.hlCopy := [((R.BUS_CLIM_EN 0).key, 1), ((R.BUS_CLIM_CHEN 0).key, 1)] },
     by unfold BusAbove; decide, by decide⟩,
   ⟨0, 100, { st [] with arc.hlCopy := [((R.BUS_VLIM_VCH_OFF 0).key, 500)] }, by decide, by decide⟩,
   ⟨0, 100, { st [(R.BUS_STAT_ABS, 0)] with arc.hlCopy := [((R.BUS_CLIM_EN 0).key, 1), ((R.BUS_CLIM_CHEN 0).key, 1)] },
     by unfold BusAbove; decide, by decide⟩⟩

theorem witness_FeedbackCounts :
    (∃ (n : Slice) (up : Bool) (a : Bool) (b : Bool) (s : State), PortIn s n 1 ∧ s.on (R.SLC_FBCFG_HYST ↑n) = false ∧ EdgeTo s n up a b) ∧
    (∃ (n : Slice) (a : Bool) (b : Bool) (s : State), (PortIn s n 1 ∨ PortIn s n 2) ∧ a ≠ s.fb[n].lineA ∧ b ≠ s.fb[n].lineB) ∧
    (∃ (n : Slice) (s : State), PortIn s n 1 ∧ (∀ (k : Nat), s.get (latSrc (↑n) k) ≠ 1) ∧ s.homeWantsIndex (s.lead n) = false ∧ s.get
      (R.SLC_FBCFG_IDXMODE ↑n) = 2 ∧ s.on (R.SLC_FBSTAT_ARMED ↑n) = true) ∧
    (∃ (n : Slice) (s : State), PortIn s n 1 ∧ s.get (latSrc (↑n) 0) = 1 ∧ s.get (latSrc (↑n) 1) ≠ 1 ∧ s.homeWantsIndex (s.lead n) =
      false ∧ s.get (R.SLC_FBCFG_IDXMODE ↑n) = 0 ∧ s.on (R.SLC_FBSTAT_LATV0 ↑n) = false ∧ s.prof[n].probe = false) ∧
    (∃ (n : Slice) (h : Fin 8) (s : State), PortIn s n 0 ∧ s.on (R.SLC_FBCFG_HALLEN ↑n) = true ∧ s.fb[n].lastSector < 6 ∧ s.hallSector n
      ↑h = (s.fb[n].lastSector + 1) % 6) ∧
    (∃ (n : Slice) (h : Fin 8) (s : State), PortIn s n 0 ∧ s.on (R.SLC_FBCFG_HALLEN ↑n) = true ∧ s.fb[n].lastSector < 6 ∧ s.hallSector n
      ↑h ≠ s.fb[n].lastSector ∧ s.hallSector n ↑h ≠ (s.fb[n].lastSector + 1) % 6 ∧ s.fb[n].lastSector ≠ (s.hallSector n ↑h + 1) % 6) ∧
    (∃ (n : Slice) (m : Nat) (s : State), PortIn s n m ∧ m ≠ 0) :=
  ⟨⟨0, true, true, false,
     { st [(R.SLC_FBCFG_FBMODE 0, 1), (R.SLC_FBCFG_HYST 0, 0)] with ax := Vector.replicate 16 { AxisDyn.reset with started := true, used := true } },
     by unfold PortIn; decide, by decide, by unfold EdgeTo; decide⟩,
   ⟨0, true, true,
     { st [(R.SLC_FBCFG_FBMODE 0, 1)] with ax := Vector.replicate 16 { AxisDyn.reset with started := true, used := true } },
     by unfold PortIn; decide, by decide, by decide⟩,
   ⟨0,
     { st [(R.SLC_FBCFG_FBMODE 0, 1), (R.SLC_FBCFG_IDXMODE 0, 2), (R.SLC_FBSTAT_ARMED 0, 1)] with ax := Vector.replicate 16 { AxisDyn.reset with started := true, used := true } },
     by unfold PortIn; decide, (fun k => by unfold latSrc; split <;> decide), by decide, by decide, by decide⟩,
   ⟨0,
     { st [(R.SLC_FBCFG_FBMODE 0, 1), (R.SLC_FBCFG_IDXMODE 0, 0), (R.SLC_FBSTAT_LATV0 0, 0), (R.SLC_LATCFG_SRC0 0, 1)] with ax := Vector.replicate 16 { AxisDyn.reset with started := true, used := true }, prof := Vector.replicate 16 { ProfDyn.reset with probe := false } },
     by unfold PortIn; decide, by decide, by decide, by decide, by decide, by decide, by decide⟩,
   ⟨0, 1,
     { st [(R.SLC_FBCFG_FBMODE 0, 0), (R.SLC_FBCFG_HALLEN 0, 1), (R.SLC_FBLIM_HALLMAP 0, 1)] with ax := Vector.replicate 16 { AxisDyn.reset with started := true, used := true }, fb := Vector.replicate 16 { FbDyn.reset with lastSector := 0 } },
     by unfold PortIn; decide, by decide, by decide, by decide⟩,
   ⟨0, 1,
     { st [(R.SLC_FBCFG_FBMODE 0, 0), (R.SLC_FBCFG_HALLEN 0, 1), (R.SLC_FBLIM_HALLMAP 0, 3)] with ax := Vector.replicate 16 { AxisDyn.reset with started := true, used := true }, fb := Vector.replicate 16 { FbDyn.reset with lastSector := 0 } },
     by unfold PortIn; decide, by decide, by decide, by decide, by decide, by decide⟩,
   ⟨0, 1, { st [(R.SLC_FBCFG_FBMODE 0, 1)] with ax := Vector.replicate 16 { AxisDyn.reset with started := true, used := true } },
     by unfold PortIn; decide, by decide⟩⟩

theorem witness_FeedbackCaptures :
    (∃ (n : Slice) (a : Int) (b : Int) (s : State), PortIn s n 2 ∧ AmpIn (s.scCorrect n a b).fst (s.scCorrect n a b).snd ∧
      s.fb[n].convSeen = false) ∧
    (∃ (n : Slice) (a : Int) (b : Int) (s : State), PortIn s n 2 ∧ (¬AmpIn (s.scCorrect n a b).fst (s.scCorrect n a b).snd)) ∧
    (∃ (n : Slice) (oa : Int) (ob : Int) (g : Nat) (ph : Int) (s : State), PortIn s n 2 ∧ s.on (R.SLC_FBCFG_CORR_EN ↑n) = true ∧ s.on
      (R.SLC_FBCFG_CFRZ ↑n) = false ∧ ab oa ≤ 10000 ∧ ab ob ≤ 10000 ∧ 13107 ≤ g ∧ g ≤ 20480 ∧ ab ph ≤ 10000) ∧
    (∃ (n : Slice) (o : CaptureObs) (s : State), PortIn s n 1 ∧ NoRunEnds s n ∧ s.on (R.SLC_PWMSTAT_FROZEN ↑n) = false ∧ o.wire = false
      ∧ s.fb[n].bad = false ∧ s.fb[n].lastOk = true) ∧
    (∃ (n : Slice) (s : State), PortIn s n 1 ∧ NoRunEnds s n ∧ s.on (R.SLC_PWMSTAT_FROZEN ↑n) = false ∧ s.fb[n].bad = true) ∧
    (∃ (n : Slice) (s : State), (PortIn s n 3 ∨ PortIn s n 4) ∧ s.on (R.SLC_PWMSTAT_FROZEN ↑n) = false ∧ s.dev ≠ 3) ∧
    (∃ (n : Slice) (r : SerialFrame) (s : State), PortIn s n 3 ∧ NoRunEnds s n ∧ s.fb[n].frame = true ∧ s.fb[n].ext = none ∧ r.late =
      false ∧ r.lineLow = false ∧ s.frameCheckFails n r = false ∧ s.get (R.SLC_FBSER_ERRB ↑n) = 0 ∧ s.get (R.SLC_FBSER_JUMPLIM ↑n) = 0) ∧
    (∃ (n : Slice) (r : SerialFrame) (s : State), PortIn s n 3 ∧ NoRunEnds s n ∧ s.fb[n].frame = true ∧ r.late = true) ∧
    (∃ (n : Slice) (s : State), s.ax[n].started = true ∧ s.fb[n].ev5 = 1) ∧
    (∃ (n : Slice) (s : State), s.ax[n].started = true ∧ (s.fb[n].ev5 = 1 ∨ s.fb[n].ev5 = 2)) ∧
    (∃ (n : Slice) (s : State), s.fb[n].ev5 = 3) ∧
    (∃ (n : Slice) (s : State), s.ax[n].started = true ∧ (s.on (R.SLC_FBCFG_EV5EN ↑n) = false ∨ s.on (R.SLC_FBSTAT_EVON ↑n) = true)) ∧
    (∃ (n : Slice) (s : State), s.axst n = 1 ∧ s.get (R.SLC_AXST_PHASE ↑n) = 3 ∧ s.on (R.SLC_FBSTAT_FBVALID ↑n) = false) :=
  ⟨⟨0, 50000, 0,
     { st [(R.SLC_FBCFG_FBMODE 0, 2)] with ax := Vector.replicate 16 { AxisDyn.reset with started := true, used := true }, fb := Vector.replicate 16 { FbDyn.reset with convSeen := false } },
     by unfold PortIn; decide, by unfold AmpIn; decide, by decide⟩,
   ⟨0, 0, 0, { st [(R.SLC_FBCFG_FBMODE 0, 2)] with ax := Vector.replicate 16 { AxisDyn.reset with started := true, used := true } },
     by unfold PortIn; decide, by unfold AmpIn; decide⟩,
   ⟨0, 0, 0, 16384, 0,
     { st [(R.SLC_FBCFG_FBMODE 0, 2), (R.SLC_FBCFG_CORR_EN 0, 1), (R.SLC_FBCFG_CFRZ 0, 0)] with ax := Vector.replicate 16 { AxisDyn.reset with started := true, used := true } },
     by unfold PortIn; decide, by decide, by decide, by decide, by decide, by decide, by decide, by decide⟩,
   ⟨0, ⟨false, 0⟩,
     { st [(R.SLC_FBCFG_FBMODE 0, 1), (R.SLC_PWMSTAT_FROZEN 0, 0), (R.SLC_FBLIM_FBERR_N 0, 3)] with ax := Vector.replicate 16 { AxisDyn.reset with started := true, used := true }, fb := Vector.replicate 16 { FbDyn.reset with bad := false, lastOk := true } },
     by unfold PortIn; decide, by unfold NoRunEnds; decide, by decide, by decide, by decide, by decide⟩,
   ⟨0,
     { st [(R.SLC_FBCFG_FBMODE 0, 1), (R.SLC_PWMSTAT_FROZEN 0, 0), (R.SLC_FBLIM_FBERR_N 0, 3)] with ax := Vector.replicate 16 { AxisDyn.reset with started := true, used := true }, fb := Vector.replicate 16 { FbDyn.reset with bad := true } },
     by unfold PortIn; decide, by unfold NoRunEnds; decide, by decide, by decide⟩,
   ⟨0,
     { st [(R.SLC_FBCFG_FBMODE 0, 3), (R.SLC_PWMSTAT_FROZEN 0, 0), (R.SYS_STATE_STATE, 2)] with ax := Vector.replicate 16 { AxisDyn.reset with started := true, used := true } },
     by unfold PortIn; decide, by decide, by decide⟩,
   ⟨0, sfr,
     { st [(R.SLC_FBCFG_FBMODE 0, 3), (R.SLC_FBSER_ERRB 0, 0), (R.SLC_FBSER_JUMPLIM 0, 0), (R.SLC_FBSER_CRCLEN 0, 0), (R.SLC_FBLIM_FBERR_N 0, 3)] with ax := Vector.replicate 16 { AxisDyn.reset with started := true, used := true }, fb := Vector.replicate 16 { FbDyn.reset with frame := true, ext := none } },
     by unfold PortIn; decide, by unfold NoRunEnds; decide, by decide, by decide, by decide, by decide, by decide, by decide, by decide⟩,
   ⟨0, { sfr with late := true },
     { st [(R.SLC_FBCFG_FBMODE 0, 3), (R.SLC_FBLIM_FBERR_N 0, 3)] with ax := Vector.replicate 16 { AxisDyn.reset with started := true, used := true }, fb := Vector.replicate 16 { FbDyn.reset with frame := true } },
     by unfold PortIn; decide, by unfold NoRunEnds; decide, by decide, by decide⟩,
   ⟨0,
     { st [(R.SLC_FBCFG_FBMODE 0, 3)] with ax := Vector.replicate 16 { AxisDyn.reset with started := true, used := true }, fb := Vector.replicate 16 { FbDyn.reset with ev5 := 1 } },
     by decide, by decide⟩,
   ⟨0,
     { st [(R.SLC_FBCFG_FBMODE 0, 3)] with ax := Vector.replicate 16 { AxisDyn.reset with started := true, used := true }, fb := Vector.replicate 16 { FbDyn.reset with ev5 := 1 } },
     by decide, by decide⟩,
   ⟨0,
     { st [(R.SLC_FBCFG_FBMODE 0, 3)] with ax := Vector.replicate 16 { AxisDyn.reset with started := true, used := true }, fb := Vector.replicate 16 { FbDyn.reset with ev5 := 3 } },
     by decide⟩,
   ⟨0, { st [(R.SLC_FBCFG_FBMODE 0, 3)] with ax := Vector.replicate 16 { AxisDyn.reset with started := true, used := true } },
     by decide, by decide⟩,
   ⟨0,
     { st [(R.SLC_FBCFG_FBMODE 0, 3), (R.SLC_AXST_AXST 0, 1), (R.SLC_AXST_PHASE 0, 3), (R.SLC_FBSTAT_FBVALID 0, 0)] with ax := Vector.replicate 16 { AxisDyn.reset with started := true, used := true } },
     by decide, by decide, by decide⟩⟩

theorem witness_ServoAndSupervision :
    (∃ (n : Slice) (s : State), PlainBoundary s n ∧ s.axst n = 1 ∧ s.ax[n].closing = true ∧ s.prof[n].plan = none ∧ s.sup[n].ramp =
      none) ∧
    (∃ (n : Slice) (pl : Plan) (s : State), PlainBoundary s n ∧ s.axst n = 2 ∧ s.prof[n].plan = some pl ∧ s.sup[n].ramp = none ∧
      pl.over_ (pl.k + 1) = false) ∧
    (∃ (n : Slice) (q : Nat) (c : Capture) (s : State), s.supRuns n = true ∧ s.sup[n].cap = some c ∧ c.seq = q % 65536 ∧
      s.sup[n].written = false) ∧
    (∃ (n : Slice) (q : Nat) (c : Capture) (s : State), s.supRuns n = true ∧ s.sup[n].cap = some c ∧ c.seq ≠ q % 65536) ∧
    (∃ (n : Slice) (c : Capture) (pc : Int) (s : State), Judged s n c pc) ∧
    (∃ (n : Slice) (s : State), s.supRuns n = true ∧ s.on (R.SLC_PWMSTAT_FROZEN ↑n) = false ∧ s.get (R.SLC_SVCTL_SVSTALE ↑n) ≤
      s.sup[n].stale) ∧
    (∃ (n : Slice) (s : State), s.axst n = 3 ∧ s.hasFb n = true) ∧
    (∃ (n : Slice) (s : State), s.supRuns n = true ∧ s.on (R.SLC_PWMSTAT_FROZEN ↑n) = true ∧ s.hl (R.SLC_SVTRAV2_TRAV_EN ↑n) = 0) :=
  ⟨⟨0,
     { st [(R.SLC_MODE_MODE 0, 2), (R.SLC_AXST_AXST 0, 1), (R.SLC_FBCFG_FBMODE 0, 1), (R.THM_SLC_VSCALE 0, 65536)] with ax := Vector.replicate 16 { AxisDyn.reset with used := true, started := true, closing := true }, prof := Vector.replicate 16 { ProfDyn.reset with plan := none }, sup := Vector.replicate 16 { SupDyn.reset with ramp := none } },
     by constructor <;> decide, by decide, by decide, by decide, by decide⟩,
   ⟨0, ⟨0, 0, [], some (0, 2), 0, 0⟩,
     { st [(R.SLC_MODE_MODE 0, 2), (R.SLC_AXST_AXST 0, 2), (R.SLC_FBCFG_FBMODE 0, 1), (R.THM_SLC_VSCALE 0, 65536)] with ax := Vector.replicate 16 { AxisDyn.reset with used := true, started := true }, prof := Vector.replicate 16 { ProfDyn.reset with plan := some (⟨0, 0, [], some (0, 2), 0, 0⟩) }, sup := Vector.replicate 16 { SupDyn.reset with ramp := none } },
     by constructor <;> decide, by decide, by decide, by decide, by decide⟩,
   ⟨0, 0, ⟨0, true, 0, 0⟩,
     { st [(R.SLC_MODE_MODE 0, 2), (R.SLC_AXST_AXST 0, 2), (R.SLC_FBCFG_FBMODE 0, 1), (R.THM_SLC_VSCALE 0, 65536)] with ax := Vector.replicate 16 { AxisDyn.reset with used := true, started := true }, sup := Vector.replicate 16 { SupDyn.reset with cap := some (⟨0, true, 0, 0⟩), written := false } },
     by decide, by decide, by decide, by decide⟩,
   ⟨0, 1, ⟨0, true, 0, 0⟩,
     { st [(R.SLC_MODE_MODE 0, 2), (R.SLC_AXST_AXST 0, 2), (R.SLC_FBCFG_FBMODE 0, 1), (R.THM_SLC_VSCALE 0, 65536)] with ax := Vector.replicate 16 { AxisDyn.reset with used := true, started := true }, sup := Vector.replicate 16 { SupDyn.reset with cap := some (⟨0, true, 0, 0⟩) } },
     by decide, by decide, by decide⟩,
   ⟨0, ⟨0, true, 0, 0⟩, 0,
     { st [(R.SLC_MODE_MODE 0, 2), (R.SLC_AXST_AXST 0, 2), (R.SLC_FBCFG_FBMODE 0, 1), (R.THM_SLC_VSCALE 0, 65536)] with ax := Vector.replicate 16 { AxisDyn.reset with used := true, started := true }, sup := Vector.replicate 16 { SupDyn.reset with paired := some (⟨0, true, 0, 0⟩, 0) } },
     by constructor <;> decide⟩,
   ⟨0,
     { st [(R.SLC_MODE_MODE 0, 2), (R.SLC_AXST_AXST 0, 2), (R.SLC_FBCFG_FBMODE 0, 1), (R.THM_SLC_VSCALE 0, 65536), (R.SLC_PWMSTAT_FROZEN 0, 0)] with ax := Vector.replicate 16 { AxisDyn.reset with used := true, started := true }, sup := Vector.replicate 16 { SupDyn.reset with stale := 16 } },
     by decide, by decide, by decide⟩,
   ⟨0,
     { st [(R.SLC_MODE_MODE 0, 2), (R.SLC_AXST_AXST 0, 3), (R.SLC_FBCFG_FBMODE 0, 1), (R.THM_SLC_VSCALE 0, 65536)] with ax := Vector.replicate 16 { AxisDyn.reset with used := true, started := true } },
     by decide, by decide⟩,
   ⟨0,
     { st [(R.SLC_MODE_MODE 0, 2), (R.SLC_AXST_AXST 0, 2), (R.SLC_FBCFG_FBMODE 0, 1), (R.THM_SLC_VSCALE 0, 65536), (R.SLC_PWMSTAT_FROZEN 0, 1)] with ax := Vector.replicate 16 { AxisDyn.reset with used := true, started := true } },
     by decide, by decide, by decide⟩⟩

theorem witness_MotionCommands :
    (∃ (n : Slice) (s : State), s.staged = [] ∧ s.moveCheck n true = none ∧ s.outOfRange n (s.getS (R.SLC_PRTGT_TGT ↑n)) = false) ∧
    (∃ (n : Slice) (s : State), s.staged = [] ∧ s.moveCheck n true = none ∧ s.outOfRange n (s.getS (R.SLC_PRTGT_TGT ↑n)) = true) ∧
    (∃ (n : Slice) (s : State), s.staged = [] ∧ s.moveCheck n false = none ∧ s.outOfRange n (wrapPos (s.prof[n].target + s.getS
      (R.SLC_PRTGT_TGT ↑n))) = false) ∧
    (∃ (n : Slice) (s : State), s.staged = [] ∧ s.moveCheck n false = none) ∧
    (∃ (n : Slice) (c : Nat) (s : State), s.staged = [] ∧ s.moveCheck n true = some c) ∧
    (∃ (n : Slice) (c : Nat) (s : State), s.staged = [] ∧ s.moveCheck n false = some c) ∧
    (∃ (n : Slice) (c : Capture) (s : State), HomeReady s n ∧ s.get (R.SLC_HMCFG_METHOD ↑n) = 4 ∧ s.pairFunc n = 0 ∧ s.sup[n].cap = some
      c) ∧
    (∃ (n : Slice) (s : State), HomeReady s n ∧ s.get (R.SLC_HMCFG_METHOD ↑n) = 0 ∧ s.hasIndex n = true) ∧
    (∃ (n : Slice) (s : State), s.axmode n = 2 ∧ s.axst n = 2 ∧ s.get (R.SLC_PRSTAT_PSTATE ↑n) ≠ 0) ∧
    (∃ (n : Slice) (h : HomeDyn) (s : State), s.axmode n = 2 ∧ s.axst n = 2 ∧ s.prof[n].home = some h ∧ h.method ≠ 3) ∧
    (∃ (n : Slice) (h : HomeDyn) (s : State), s.prof[n].home = some h ∧ h.method = 3 ∧ h.phase = 1 ∧ h.pref = none) ∧
    (∃ (n : Slice) (s : State), s.axmode n = 5 ∧ s.axOn n = true ∧ s.prof[n].moved = false) ∧
    (∃ (n : Slice) (s : State), s.axmode n = 5 ∧ s.axOn n = true ∧ s.get (R.SLC_STCFG_STALL_N ↑n) ≤ s.prof[n].stallRun ∧ s.prof[n].home
      = none) :=
  ⟨⟨0,
     { st [(R.SLC_MODE_MODE 0, 2), (R.SLC_AXST_AXST 0, 2), (R.SLC_PRPAR_MANT 0 0, 1), (R.SLC_PRPAR_MANT 0 1, 1), (R.SLC_PRPAR_MANT 0 2, 1), (R.SLC_PRPAR_MANT 0 4, 1), (R.SLC_PRPAR_MANT 0 5, 1), (R.SLC_PRPAR_MANT 0 6, 1), (R.SLC_HMDIST_HDIST 0, 1)] with staged := [], ax := Vector.replicate 16 { AxisDyn.reset with used := true } },
     by decide, by decide, by decide⟩,
   ⟨0,
     { st [(R.SLC_MODE_MODE 0, 2), (R.SLC_AXST_AXST 0, 2), (R.SLC_PRPAR_MANT 0 0, 1), (R.SLC_PRPAR_MANT 0 1, 1), (R.SLC_PRPAR_MANT 0 2, 1), (R.SLC_PRPAR_MANT 0 4, 1), (R.SLC_PRPAR_MANT 0 5, 1), (R.SLC_PRPAR_MANT 0 6, 1), (R.SLC_HMDIST_HDIST 0, 1), (R.SLC_FBSTAT_POSLOST 0, 0), (R.SLC_PRTGT_TGT 0, 5)] with staged := [], arc.hlCopy := [((R.SLC_SVTRAV2_TRAV_EN 0).key, 1)], ax := Vector.replicate 16 { AxisDyn.reset with used := true } },
     by decide, by decide, by decide⟩,
   ⟨0,
     { st [(R.SLC_MODE_MODE 0, 2), (R.SLC_AXST_AXST 0, 2), (R.SLC_PRPAR_MANT 0 0, 1), (R.SLC_PRPAR_MANT 0 1, 1), (R.SLC_PRPAR_MANT 0 2, 1), (R.SLC_PRPAR_MANT 0 4, 1), (R.SLC_PRPAR_MANT 0 5, 1), (R.SLC_PRPAR_MANT 0 6, 1), (R.SLC_HMDIST_HDIST 0, 1)] with staged := [], ax := Vector.replicate 16 { AxisDyn.reset with used := true } },
     by decide, by decide, by decide⟩,
   ⟨0,
     { st [(R.SLC_MODE_MODE 0, 2), (R.SLC_AXST_AXST 0, 2), (R.SLC_PRPAR_MANT 0 0, 1), (R.SLC_PRPAR_MANT 0 1, 1), (R.SLC_PRPAR_MANT 0 2, 1), (R.SLC_PRPAR_MANT 0 4, 1), (R.SLC_PRPAR_MANT 0 5, 1), (R.SLC_PRPAR_MANT 0 6, 1), (R.SLC_HMDIST_HDIST 0, 1)] with staged := [], ax := Vector.replicate 16 { AxisDyn.reset with used := true } },
     by decide, by decide⟩,
   ⟨0, 1,
     { st [(R.SLC_MODE_MODE 0, 0), (R.SLC_AXST_AXST 0, 2), (R.SLC_PRPAR_MANT 0 0, 1), (R.SLC_PRPAR_MANT 0 1, 1), (R.SLC_PRPAR_MANT 0 2, 1), (R.SLC_PRPAR_MANT 0 4, 1), (R.SLC_PRPAR_MANT 0 5, 1), (R.SLC_PRPAR_MANT 0 6, 1), (R.SLC_HMDIST_HDIST 0, 1)] with staged := [], ax := Vector.replicate 16 { AxisDyn.reset with used := true } },
     by decide, by decide⟩,
   ⟨0, 1,
     { st [(R.SLC_MODE_MODE 0, 0), (R.SLC_AXST_AXST 0, 2), (R.SLC_PRPAR_MANT 0 0, 1), (R.SLC_PRPAR_MANT 0 1, 1), (R.SLC_PRPAR_MANT 0 2, 1), (R.SLC_PRPAR_MANT 0 4, 1), (R.SLC_PRPAR_MANT 0 5, 1), (R.SLC_PRPAR_MANT 0 6, 1), (R.SLC_HMDIST_HDIST 0, 1)] with staged := [], ax := Vector.replicate 16 { AxisDyn.reset with used := true } },
     by decide, by decide⟩,
   ⟨0, ⟨0, true, 0, 0⟩,
     { st [(R.SLC_MODE_MODE 0, 2), (R.SLC_AXST_AXST 0, 2), (R.SLC_PRPAR_MANT 0 0, 1), (R.SLC_PRPAR_MANT 0 1, 1), (R.SLC_PRPAR_MANT 0 2, 1), (R.SLC_PRPAR_MANT 0 4, 1), (R.SLC_PRPAR_MANT 0 5, 1), (R.SLC_PRPAR_MANT 0 6, 1), (R.SLC_HMDIST_HDIST 0, 1), (R.SLC_HMCFG_METHOD 0, 4)] with ax := Vector.replicate 16 { AxisDyn.reset with used := true }, sup := Vector.replicate 16 { SupDyn.reset with cap := some ⟨0, true, 0, 0⟩ } },
     by constructor <;> decide, by decide, by decide, by decide⟩,
   ⟨0,
     { st [(R.SLC_MODE_MODE 0, 2), (R.SLC_AXST_AXST 0, 2), (R.SLC_PRPAR_MANT 0 0, 1), (R.SLC_PRPAR_MANT 0 1, 1), (R.SLC_PRPAR_MANT 0 2, 1), (R.SLC_PRPAR_MANT 0 4, 1), (R.SLC_PRPAR_MANT 0 5, 1), (R.SLC_PRPAR_MANT 0 6, 1), (R.SLC_HMDIST_HDIST 0, 1), (R.SLC_HMCFG_METHOD 0, 0), (R.SLC_FBCFG_FBMODE 0, 1)] with ax := Vector.replicate 16 { AxisDyn.reset with used := true } },
     by constructor <;> decide, by decide, by decide⟩,
   ⟨0,
     { st [(R.SLC_MODE_MODE 0, 2), (R.SLC_AXST_AXST 0, 2), (R.SLC_PRPAR_MANT 0 0, 1), (R.SLC_PRPAR_MANT 0 1, 1), (R.SLC_PRPAR_MANT 0 2, 1), (R.SLC_PRPAR_MANT 0 4, 1), (R.SLC_PRPAR_MANT 0 5, 1), (R.SLC_PRPAR_MANT 0 6, 1), (R.SLC_HMDIST_HDIST 0, 1), (R.SLC_PRSTAT_PSTATE 0, 1)] with ax := Vector.replicate 16 { AxisDyn.reset with used := true } },
     by decide, by decide, by decide⟩,
   ⟨0, hm,
     { st [(R.SLC_MODE_MODE 0, 2), (R.SLC_AXST_AXST 0, 2), (R.SLC_PRPAR_MANT 0 0, 1), (R.SLC_PRPAR_MANT 0 1, 1), (R.SLC_PRPAR_MANT 0 2, 1), (R.SLC_PRPAR_MANT 0 4, 1), (R.SLC_PRPAR_MANT 0 5, 1), (R.SLC_PRPAR_MANT 0 6, 1), (R.SLC_HMDIST_HDIST 0, 1)] with ax := Vector.replicate 16 { AxisDyn.reset with used := true }, prof := Vector.replicate 16 { ProfDyn.reset with home := some hm } },
     by decide, by decide, by decide, by decide⟩,
   ⟨0, { hm with method := 3 },
     { st [(R.SLC_MODE_MODE 0, 2), (R.SLC_AXST_AXST 0, 2), (R.SLC_PRPAR_MANT 0 0, 1), (R.SLC_PRPAR_MANT 0 1, 1), (R.SLC_PRPAR_MANT 0 2, 1), (R.SLC_PRPAR_MANT 0 4, 1), (R.SLC_PRPAR_MANT 0 5, 1), (R.SLC_PRPAR_MANT 0 6, 1), (R.SLC_HMDIST_HDIST 0, 1)] with ax := Vector.replicate 16 { AxisDyn.reset with used := true }, prof := Vector.replicate 16 { ProfDyn.reset with home := some { hm with method := 3 } } },
     by decide, by decide, by decide, by decide⟩,
   ⟨0,
     { st [(R.SLC_MODE_MODE 0, 5), (R.SLC_AXST_AXST 0, 2), (R.SLC_PRPAR_MANT 0 0, 1), (R.SLC_PRPAR_MANT 0 1, 1), (R.SLC_PRPAR_MANT 0 2, 1), (R.SLC_PRPAR_MANT 0 4, 1), (R.SLC_PRPAR_MANT 0 5, 1), (R.SLC_PRPAR_MANT 0 6, 1), (R.SLC_HMDIST_HDIST 0, 1)] with ax := Vector.replicate 16 { AxisDyn.reset with used := true }, prof := Vector.replicate 16 { ProfDyn.reset with moved := false } },
     by decide, by decide, by decide⟩,
   ⟨0,
     { st [(R.SLC_MODE_MODE 0, 5), (R.SLC_AXST_AXST 0, 2), (R.SLC_PRPAR_MANT 0 0, 1), (R.SLC_PRPAR_MANT 0 1, 1), (R.SLC_PRPAR_MANT 0 2, 1), (R.SLC_PRPAR_MANT 0 4, 1), (R.SLC_PRPAR_MANT 0 5, 1), (R.SLC_PRPAR_MANT 0 6, 1), (R.SLC_HMDIST_HDIST 0, 1)] with ax := Vector.replicate 16 { AxisDyn.reset with used := true }, prof := Vector.replicate 16 { ProfDyn.reset with home := none, stallRun := 8 } },
     by decide, by decide, by decide, by decide⟩⟩

theorem witness_PathGroups :
    (∃ (g : Fin 8) (s : State), GoReady s g) ∧
    (∃ (g : Fin 8) (s : State), s.gstate ↑g ≠ 0) ∧
    (∃ (g : Fin 8) (s : State), s.gstate ↑g = 0 ∧ s.allEnabled ↑g = true ∧ s.grp[g].queue = []) ∧
    (∃ (g : Fin 8) (s : State), (s.gstate ↑g = 2 ∨ s.gstate ↑g = 4)) ∧
    (∃ (g : Fin 8) (s : State), s.gstate ↑g = 3 ∧ s.allEnabled ↑g = true) ∧
    (∃ (g : Fin 8) (s : State), s.gstate ↑g = 1) ∧
    (∃ (g : Fin 8) (s : State), (s.gstate ↑g = 0 ∨ s.gstate ↑g = 1)) ∧
    (∃ (g : Fin 8) (s : State), (s.gstate ↑g = 0 ∨ s.gstate ↑g = 1) ∧ s.gstate ↑g = 0) ∧
    (∃ (g : Fin 8) (s : State), s.gstate ↑g ≠ 4 ∧ s.segCheck g (s.slotAddr (↑g) (s.get (R.GRP_STAT_HEAD ↑g) + s.grp[g].queue.length))
      (s.readSeg (s.slotAddr (↑g) (s.get (R.GRP_STAT_HEAD ↑g) + s.grp[g].queue.length)) (s.members ↑g).length) (s.queueEnd g) = none) ∧
    (∃ (g : Fin 8) (s : State) (c : Nat), s.gstate ↑g ≠ 4 ∧ s.segCheck g (s.slotAddr (↑g) (s.get (R.GRP_STAT_HEAD ↑g) +
      s.grp[g].queue.length)) (s.readSeg (s.slotAddr (↑g) (s.get (R.GRP_STAT_HEAD ↑g) + s.grp[g].queue.length)) (s.members ↑g).length)
      (s.queueEnd g) = some c) :=
  ⟨⟨0,
     { st [(R.SLC_MODE_GROUP 0, 0), (R.SLC_FBSTAT_POSLOST 0, 0), (R.SLC_MODE_MODE 0, 3), (R.SLC_AXST_AXST 0, 2), (R.GRP_STAT_STATE 0, 0), (R.GRP_CFG_QBASE 0, 0x10000000)] with ax := Vector.replicate 16 { AxisDyn.reset with used := true }, grp := Vector.replicate 8 { GroupDyn.reset with queue := [sg] } },
     by constructor <;> decide⟩,
   ⟨0,
     { st [(R.SLC_MODE_GROUP 0, 0), (R.SLC_FBSTAT_POSLOST 0, 0), (R.SLC_MODE_MODE 0, 3), (R.SLC_AXST_AXST 0, 2), (R.GRP_STAT_STATE 0, 1), (R.GRP_CFG_QBASE 0, 0x10000000)] with ax := Vector.replicate 16 { AxisDyn.reset with used := true }, grp := Vector.replicate 8 { GroupDyn.reset with queue := [sg] } },
     by decide⟩,
   ⟨0,
     { st [(R.SLC_MODE_GROUP 0, 0), (R.SLC_FBSTAT_POSLOST 0, 0), (R.SLC_MODE_MODE 0, 3), (R.SLC_AXST_AXST 0, 2), (R.GRP_STAT_STATE 0, 0), (R.GRP_CFG_QBASE 0, 0x10000000)] with ax := Vector.replicate 16 { AxisDyn.reset with used := true }, grp := Vector.replicate 8 { GroupDyn.reset with queue := [] } },
     by decide, by decide, by decide⟩,
   ⟨0,
     { st [(R.SLC_MODE_GROUP 0, 0), (R.SLC_FBSTAT_POSLOST 0, 0), (R.SLC_MODE_MODE 0, 3), (R.SLC_AXST_AXST 0, 2), (R.GRP_STAT_STATE 0, 2), (R.GRP_CFG_QBASE 0, 0x10000000)] with ax := Vector.replicate 16 { AxisDyn.reset with used := true }, grp := Vector.replicate 8 { GroupDyn.reset with queue := [sg] } },
     by decide⟩,
   ⟨0,
     { st [(R.SLC_MODE_GROUP 0, 0), (R.SLC_FBSTAT_POSLOST 0, 0), (R.SLC_MODE_MODE 0, 3), (R.SLC_AXST_AXST 0, 2), (R.GRP_STAT_STATE 0, 3), (R.GRP_CFG_QBASE 0, 0x10000000)] with ax := Vector.replicate 16 { AxisDyn.reset with used := true }, grp := Vector.replicate 8 { GroupDyn.reset with queue := [sg] } },
     by decide, by decide⟩,
   ⟨0,
     { st [(R.SLC_MODE_GROUP 0, 0), (R.SLC_FBSTAT_POSLOST 0, 0), (R.SLC_MODE_MODE 0, 3), (R.SLC_AXST_AXST 0, 2), (R.GRP_STAT_STATE 0, 1), (R.GRP_CFG_QBASE 0, 0x10000000)] with ax := Vector.replicate 16 { AxisDyn.reset with used := true }, grp := Vector.replicate 8 { GroupDyn.reset with queue := [sg] } },
     by decide⟩,
   ⟨0,
     { st [(R.SLC_MODE_GROUP 0, 0), (R.SLC_FBSTAT_POSLOST 0, 0), (R.SLC_MODE_MODE 0, 3), (R.SLC_AXST_AXST 0, 2), (R.GRP_STAT_STATE 0, 0), (R.GRP_CFG_QBASE 0, 0x10000000)] with ax := Vector.replicate 16 { AxisDyn.reset with used := true }, grp := Vector.replicate 8 { GroupDyn.reset with queue := [sg] } },
     by decide⟩,
   ⟨0,
     { st [(R.SLC_MODE_GROUP 0, 0), (R.SLC_FBSTAT_POSLOST 0, 0), (R.SLC_MODE_MODE 0, 3), (R.SLC_AXST_AXST 0, 2), (R.GRP_STAT_STATE 0, 0), (R.GRP_CFG_QBASE 0, 0x10000000)] with ax := Vector.replicate 16 { AxisDyn.reset with used := true }, grp := Vector.replicate 8 { GroupDyn.reset with queue := [sg] } },
     by decide, by decide⟩,
   ⟨0,
     { st [(R.SLC_MODE_GROUP 0, 0), (R.SLC_FBSTAT_POSLOST 0, 0), (R.SLC_MODE_MODE 0, 3), (R.SLC_AXST_AXST 0, 2), (R.GRP_STAT_STATE 0, 0), (R.GRP_CFG_QBASE 0, 0x10000000)] with mem := [(0x10000100, 5), (0x10000104, 1)], ax := Vector.replicate 16 { AxisDyn.reset with used := true }, grp := Vector.replicate 8 { GroupDyn.reset with queue := [sg] } },
     by decide, by decide⟩,
   ⟨0,
     { st [(R.SLC_MODE_GROUP 0, 0), (R.SLC_FBSTAT_POSLOST 0, 0), (R.SLC_MODE_MODE 0, 3), (R.SLC_AXST_AXST 0, 2), (R.GRP_STAT_STATE 0, 0), (R.GRP_CFG_QBASE 0, 0x10000000)] with ax := Vector.replicate 16 { AxisDyn.reset with used := true }, grp := Vector.replicate 8 { GroupDyn.reset with queue := [sg] } },
     0x10, by decide, by decide⟩⟩

theorem witness_FramesAndLinks :
    (∃ (p : Fin 3) (f : Frame) (s : State), PlainPort s p ∧ GoodFrame s p f ∧ s.on R.NET_CFG_LEARN = true ∧ s.learned f.src = none ∧
      s.net.learn.length < 1024 ∧ f.kind = FrameKind.hostProtocol ∧ f.etherType ≠ 34824 ∧ f.dst = s.get R.NET_MAC_MAC ∧ f.dst / 2 ^ 40 %
      2 = 0 ∧ s.net.ports[2].queues.length = 4 ∧ s.fits 2 (s.queueOf (s.prioOf p f)) f.length = true) ∧
    (∃ (p : Fin 3) (f : Frame) (s : State), PlainPort s p ∧ (f.fcsOk = false ∨ f.codeError = true ∨ f.length < 64)) ∧
    (∃ (p : Fin 3) (f : Frame) (s : State), PlainPort s p ∧ f.fcsOk = true ∧ f.codeError = false ∧ 64 ≤ f.length ∧ s.get
      (R.NET_PCFG_MAXFRM ↑p) < f.length) ∧
    (∃ (p : Fin 3) (f : Frame) (s : State), PlainPort s p ∧ f.fcsOk = true ∧ f.codeError = false ∧ 64 ≤ f.length ∧ f.length ≤ s.get
      (R.NET_PCFG_MAXFRM ↑p) ∧ s.ingressLimit p < s.net.ports[p].used none + cellsOf f.length) ∧
    (∃ (p : Fin 3) (f : Frame) (s : State), PlainPort s p ∧ s.get R.NET_HPCFG0_IPV4 ≠ 0 ∧ f.kind = FrameKind.arp) ∧
    (∃ (s : State), s.get R.NET_CFG_AGE ≠ 0) ∧
    (∃ (p : Fin 2) (s : State), s.netRuns = true ∧ s.on (R.NET_PSTAT_LINK ↑p) = false ∧ s.boot.recovery = false ∧ s.get (R.NET_PCFG_MODE
      ↑p) ≠ 0) ∧
    (∃ (p : Fin 2) (s : State), s.on (R.NET_PSTAT_LINK ↑p) = true ∧ NetQuiet s ∧ s.time.master = none) ∧
    (∃ (s : State), CanMove s (s.get R.NET_CFG_PREF) ∧ s.on R.NET_CFG_REVERT = true ∧ s.get R.NET_FOSTAT_ACTIVE ≠ s.get R.NET_CFG_PREF ∧
      s.role = 1) ∧
    (∃ (s : State), CanMove s (1 - s.get R.NET_FOSTAT_ACTIVE) ∧ s.role = 1) ∧
    (∃ (s : State), (¬CanMove s (1 - s.get R.NET_FOSTAT_ACTIVE))) :=
  ⟨⟨0, { fm with kind := .hostProtocol }, st [(R.PWR_STAT_DOM_ON, 255), (R.SYS_STATE_STATE, 1), (R.NET_PSTAT_LINK 0, 1),
     (R.NET_CFG_LEARN, 1), (R.NET_FOSTAT_CELLS, 64), (R.NET_HPCFG0_IPV4, 1)],
     by repeat' (first | decide | exact ⟨_, rfl⟩ | constructor), by unfold GoodFrame; decide, by decide, by decide, by decide,
     by decide, by decide, by decide, by decide, by decide, by decide⟩,
   ⟨0, { fm with length := 63 }, st [(R.PWR_STAT_DOM_ON, 255), (R.SYS_STATE_STATE, 1), (R.NET_PSTAT_LINK 0, 1), (R.NET_CFG_LEARN, 1),
     (R.NET_FOSTAT_CELLS, 64), (R.NET_HPCFG0_IPV4, 1)], by repeat' (first | decide | exact ⟨_, rfl⟩ | constructor), by decide⟩,
   ⟨0, { fm with length := 9999 }, st [(R.PWR_STAT_DOM_ON, 255), (R.SYS_STATE_STATE, 1), (R.NET_PSTAT_LINK 0, 1), (R.NET_CFG_LEARN, 1),
     (R.NET_FOSTAT_CELLS, 64), (R.NET_HPCFG0_IPV4, 1)], by repeat' (first | decide | exact ⟨_, rfl⟩ | constructor), by decide,
     by decide, by decide, by decide⟩,
   ⟨0, fm, st [(R.PWR_STAT_DOM_ON, 255), (R.SYS_STATE_STATE, 1), (R.NET_PSTAT_LINK 0, 1), (R.NET_CFG_LEARN, 1), (R.NET_FOSTAT_CELLS, 0),
     (R.NET_HPCFG0_IPV4, 1)], by repeat' (first | decide | exact ⟨_, rfl⟩ | constructor), by decide, by decide, by decide, by decide,
     by decide⟩,
   ⟨0, { fm with kind := .arp }, st [(R.PWR_STAT_DOM_ON, 255), (R.SYS_STATE_STATE, 1), (R.NET_PSTAT_LINK 0, 1), (R.NET_CFG_LEARN, 1),
     (R.NET_FOSTAT_CELLS, 64), (R.NET_HPCFG0_IPV4, 1)], by repeat' (first | decide | exact ⟨_, rfl⟩ | constructor), by decide,
     by decide⟩,
   ⟨st [(R.PWR_STAT_DOM_ON, 255), (R.SYS_STATE_STATE, 1), (R.NET_PSTAT_LINK 0, 1), (R.NET_CFG_LEARN, 1), (R.NET_FOSTAT_CELLS, 64),
     (R.NET_HPCFG0_IPV4, 1), (R.NET_CFG_AGE, 1)], by decide⟩,
   ⟨0,
     { st [(R.PWR_STAT_DOM_ON, 255), (R.SYS_STATE_STATE, 1), (R.NET_PSTAT_LINK 0, 0), (R.NET_CFG_LEARN, 1), (R.NET_FOSTAT_CELLS, 64), (R.NET_HPCFG0_IPV4, 1), (R.NET_PCFG_MODE 0, 1)] with boot.recovery := false },
     by decide, by decide, by decide, by decide⟩,
   ⟨0,
     { st [(R.PWR_STAT_DOM_ON, 255), (R.SYS_STATE_STATE, 1), (R.NET_PSTAT_LINK 0, 1), (R.NET_CFG_LEARN, 1), (R.NET_FOSTAT_CELLS, 64), (R.NET_HPCFG0_IPV4, 1)] with time.master := none },
     by decide, by unfold NetQuiet; decide, by decide⟩,
   ⟨st [(R.PWR_STAT_DOM_ON, 255), (R.SYS_STATE_STATE, 1), (R.NET_PSTAT_LINK 0, 1), (R.NET_CFG_LEARN, 1), (R.NET_FOSTAT_CELLS, 64),
     (R.NET_HPCFG0_IPV4, 1), (R.NET_CFG_REVERT, 1), (R.NET_CFG_PMODE, 1), (R.NET_FOSTAT_ACTIVE, 1), (R.PTP_CFG_ROLE, 1)],
     by unfold CanMove; decide, by decide, by decide, by decide⟩,
   ⟨st [(R.PWR_STAT_DOM_ON, 255), (R.SYS_STATE_STATE, 1), (R.NET_PSTAT_LINK 0, 1), (R.NET_CFG_LEARN, 1), (R.NET_FOSTAT_CELLS, 64),
     (R.NET_HPCFG0_IPV4, 1), (R.NET_CFG_PMODE, 1), (R.NET_FOSTAT_ACTIVE, 1), (R.PTP_CFG_ROLE, 1)], by unfold CanMove; decide, by decide⟩,
   ⟨st [(R.PWR_STAT_DOM_ON, 255), (R.SYS_STATE_STATE, 1), (R.NET_PSTAT_LINK 0, 1), (R.NET_CFG_LEARN, 1), (R.NET_FOSTAT_CELLS, 64),
     (R.NET_HPCFG0_IPV4, 1)], by unfold CanMove; decide⟩⟩

theorem witness_FramesSent :
    (∃ (p : Fin 3) (m : OwnMsg) (l : List OwnMsg) (s : State), s.portUp p = true ∧ NetQuiet s ∧ s.net.ports[p].sending = none ∧
      s.net.ports[p].launch = [] ∧ s.net.ports[p].control = m :: l) ∧
    (∃ (p : Fin 3) (q : Nat) (f : QFrame) (s : State), s.portUp p = true ∧ NetQuiet s ∧ s.net.ports[p].sending = none ∧
      s.net.ports[p].launch = [] ∧ s.net.ports[p].control = [] ∧ s.nextQueue p = some (q, f) ∧ s.on R.PTP_CFG_PROF = false ∧ (s.on
      R.PTP_CFG_TCEN = false ∨ f.held = none)) ∧
    (∃ (p : Fin 3) (q : Nat) (f : QFrame) (s : State) (g : Frame) (i : Nat) (k : Nat), s.portUp p = true ∧ NetQuiet s ∧
      s.net.ports[p].sending = none ∧ s.net.ports[p].launch = [] ∧ s.net.ports[p].control = [] ∧ s.nextQueue p = some (q, f) ∧ s.on
      R.PTP_CFG_PROF = false ∧ s.on R.PTP_CFG_TCEN = true ∧ s.on R.PTP_CFG_P2P = false ∧ f.held = some (i, k) ∧ f.body = FrameBody.fwd g
      ∧ g.kind = FrameKind.ptpSync) ∧
    (∃ (p : Fin 3) (f : QFrame) (m : OwnMsg) (s : State), p ≠ 2 ∧ NetQuiet s ∧ s.net.ports[p].sending = some f ∧ f.held = none ∧ f.body
      = FrameBody.own m ∧ (∀ (pfc : Bool) (e : Nat) (q : List Nat), m ≠ OwnMsg.pause pfc e q)) ∧
    (∃ (p : Fin 2) (s : State), s.portUp (extPort p) = true ∧ s.get (R.NET_PCFG_FC ↑p) = 1 ∧ s.on (R.NET_PSTAT_XOFF ↑p) = true) ∧
    (∃ (p : Fin 2) (r : PauseRec) (s : State), s.portUp (extPort p) = true ∧ r.pfc = false) ∧
    (∃ (p : Fin 2) (d : LaunchDyn) (l : List LaunchDyn) (s : State), s.portUp (extPort p) = true ∧ s.net.ports[extPort p].launch = d ::
      l ∧ d.time ≤ s.clock.now ∧ s.clock.now ≤ d.time + 1000 * nsUnit ∧ s.held (extPort p) 2 = false ∧ s.net.ports[extPort p].sending =
      none) ∧
    (∃ (p : Fin 2) (d : LaunchDyn) (l : List LaunchDyn) (s : State), s.portUp (extPort p) = true ∧ s.net.ports[extPort p].launch = d ::
      l ∧ d.time ≤ s.clock.now ∧ d.time + 1000 * nsUnit < s.clock.now ∧ d.dropLate = true ∧ d.counted = false) :=
  ⟨⟨0, .portMove 0, [],
     { st [(R.PWR_STAT_DOM_ON, 255), (R.SYS_STATE_STATE, 1), (R.NET_PSTAT_LINK 0, 1)] with net.ports := Vector.replicate 3 { PortDyn.reset with control := [.portMove 0] } },
     by decide, by unfold NetQuiet; decide, by decide, by decide, by decide⟩,
   ⟨0, 0, qf,
     { st [(R.PWR_STAT_DOM_ON, 255), (R.SYS_STATE_STATE, 1), (R.NET_PSTAT_LINK 0, 1), (R.PTP_CFG_PROF, 0)] with net.ports := Vector.replicate 3 { PortDyn.reset with queues := [[qf], [], [], []] } },
     by decide, by unfold NetQuiet; decide, by decide, by decide, by decide, by decide, by decide, by decide⟩,
   ⟨0, 0, { qf with held := some (0, 0), body := .fwd { fm with kind := .ptpSync } },
     { st [(R.PWR_STAT_DOM_ON, 255), (R.SYS_STATE_STATE, 1), (R.NET_PSTAT_LINK 0, 1), (R.PTP_CFG_PROF, 0), (R.PTP_CFG_TCEN, 1), (R.PTP_CFG_P2P, 0)] with net.ports := Vector.replicate 3 { PortDyn.reset with queues := [[{ qf with held := some (0, 0), body := .fwd { fm with kind := .ptpSync } }], [], [], []] } },
     { fm with kind := .ptpSync }, 0, 0, by decide, by unfold NetQuiet; decide, by decide, by decide, by decide, by decide, by decide,
     by decide, by decide, by decide, by decide, by decide⟩,
   ⟨0, qf, .portMove 0,
     { st [(R.PWR_STAT_DOM_ON, 255), (R.SYS_STATE_STATE, 1), (R.NET_PSTAT_LINK 0, 1)] with net.ports := Vector.replicate 3 { PortDyn.reset with sending := some qf } },
     by decide, by unfold NetQuiet; decide, by decide, by decide, by decide, (fun _ _ _ h => nomatch h)⟩,
   ⟨0,
     { st [(R.PWR_STAT_DOM_ON, 255), (R.SYS_STATE_STATE, 1), (R.NET_PSTAT_LINK 0, 1), (R.NET_PCFG_FC 0, 1), (R.NET_PSTAT_XOFF 0, 1)] with net.ports := Vector.replicate 3 { PortDyn.reset with queues := [[qf], [], [], []] } },
     by decide, by decide, by decide⟩,
   ⟨0, ⟨false, 0, []⟩,
     { st [(R.PWR_STAT_DOM_ON, 255), (R.SYS_STATE_STATE, 1), (R.NET_PSTAT_LINK 0, 1)] with net.ports := Vector.replicate 3 { PortDyn.reset with queues := [[qf], [], [], []] } },
     by decide, by decide⟩,
   ⟨0, ⟨0, .portMove 0, true, false⟩, [],
     { st [(R.PWR_STAT_DOM_ON, 255), (R.SYS_STATE_STATE, 1), (R.NET_PSTAT_LINK 0, 1)] with net.ports := Vector.replicate 3 { PortDyn.reset with launch := [⟨0, .portMove 0, true, false⟩] } },
     by decide, by decide, by decide, by decide, by decide, by decide⟩,
   ⟨0, ⟨0, .portMove 0, true, false⟩, [],
     { st [(R.PWR_STAT_DOM_ON, 255), (R.SYS_STATE_STATE, 1), (R.NET_PSTAT_LINK 0, 1)] with net.ports := Vector.replicate 3 { PortDyn.reset with launch := [⟨0, .portMove 0, true, false⟩] }, clock.now := 2 ^ 64 },
     by decide, by decide, by decide, by decide, by decide, by decide⟩⟩

theorem witness_PtpMessages :
    (∃ (r : SyncRec) (s : State), SyncTaken s r ∧ s.on R.PTP_STAT_HOLD = true ∧ s.time.qual + 1 < s.get R.PTP_SERVO_QUALN) ∧
    (∃ (r : SyncRec) (s : State), SyncTaken s r ∧ s.on R.PTP_STAT_HOLD = false ∧ s.on R.PTP_STAT_LOCK = false ∧ ab (offsetOfSync s r) ≤
      ↑(s.get R.PTP_SERVO_STEPTH * 100 * 65536) ∧ ab (offsetOfSync s r) ≤ ↑(s.get R.PTP_SERVO_LOCKTH * 65536) ∧ s.get R.PTP_SERVO_LOCKN
      ≤ s.time.lockRun + 1 ∧ s.get R.PTP_STAT_RATEMAX < 2 ^ 31) ∧
    (∃ (r : AnnounceRec) (s : State), s.ptpRuns = true ∧ s.role = 0 ∧ r.domain = s.get R.PTP_CFG_DOMAIN ∧ s.on (R.NET_PSTAT_LINK
      ↑r.port) = true ∧ r.stepsRemoved < 255 ∧ s.time.heard = [] ∧ s.time.master = none ∧ s.get R.NET_CFG_PMODE = 0 ∧ s.on
      R.PTP_STAT_HOLD = true) ∧
    (∃ (r : DelayRec) (s : State), s.ptpRuns = true ∧ r.domain = s.get R.PTP_CFG_DOMAIN ∧ s.on (R.NET_PSTAT_LINK ↑r.port) = true ∧
      s.peerDelay = false ∧ r.kind = DelayKind.delayResp ∧ s.isMaster = false ∧ s.time.master = some r.source ∧ s.time.delay.length = 2) ∧
    (∃ (r : DelayRec) (s : State), s.ptpRuns = true ∧ r.domain = s.get R.PTP_CFG_DOMAIN ∧ s.on (R.NET_PSTAT_LINK ↑r.port) = true ∧
      s.peerDelay = false ∧ r.kind = DelayKind.delayReq ∧ s.isMaster = true ∧ s.ptpPort r.port = true) ∧
    (∃ (p : Fin 2) (s : State), s.ptpRuns = true ∧ s.on (R.NET_PSTAT_LINK ↑p) = true ∧ s.isMaster = true ∧ s.ptpPort p = true ∧ s.on
      R.PTP_CFG_PROF = false) ∧
    (∃ (p : Fin 2) (s : State), s.ptpRuns = true ∧ s.on (R.NET_PSTAT_LINK ↑p) = true ∧ s.isMaster = false ∧ s.peerDelay = false ∧
      s.time.master ≠ none ∧ s.get R.PTP_STAT_RXPORT = ↑p) ∧
    (∃ (s : State), s.ptpRuns = true ∧ s.isMaster = false ∧ s.time.master ≠ none ∧ s.on R.PTP_STAT_HOLD = true) ∧
    (∃ (s : State), s.ptpRuns = true ∧ s.isMaster = false ∧ s.time.master ≠ none ∧ s.on R.PTP_STAT_HOLD = false ∧ s.schedRuns = true ∧
      s.get R.PTP_STAT_RATEMAX < 2 ^ 31) ∧
    (∃ (r : AnnounceRec) (s : State), s.ptpRuns = true ∧ s.role = 0 ∧ s.time.master = some r.source ∧ s.time.heard = [r] ∧ ↑r.port =
      s.get R.PTP_STAT_RXPORT ∧ s.on R.PTP_STAT_HOLD = true) ∧
    (∃ (s : State), s.on R.PTP_STAT_HOLD = true ∧ s.time.drifted = false) :=
  ⟨⟨srec,
     { st [(R.PWR_STAT_DOM_ON, 255), (R.SYS_STATE_STATE, 1), (R.NET_PSTAT_LINK 0, 1), (R.PTP_CFG_ROLE, 0), (R.PTP_SERVO_QUALN, 5), (R.PTP_SERVO_STEPTH, 5), (R.PTP_SERVO_LOCKTH, 5), (R.PTP_STAT_HOLD, 1)] with clock.running := true, time.master := some 9 },
     by constructor <;> decide, by decide, by decide⟩,
   ⟨srec,
     { st [(R.PWR_STAT_DOM_ON, 255), (R.SYS_STATE_STATE, 1), (R.NET_PSTAT_LINK 0, 1), (R.PTP_CFG_ROLE, 0), (R.PTP_SERVO_QUALN, 5), (R.PTP_SERVO_STEPTH, 5), (R.PTP_SERVO_LOCKTH, 5), (R.PTP_STAT_HOLD, 0), (R.PTP_STAT_LOCK, 0), (R.PTP_SERVO_LOCKN, 1)] with clock.running := true, time.master := some 9 },
     by constructor <;> decide, by decide, by decide, by decide, by decide, by decide, by decide⟩,
   ⟨arec,
     { st [(R.PWR_STAT_DOM_ON, 255), (R.SYS_STATE_STATE, 1), (R.NET_PSTAT_LINK 0, 1), (R.PTP_CFG_ROLE, 0), (R.PTP_SERVO_QUALN, 5), (R.PTP_SERVO_STEPTH, 5), (R.PTP_SERVO_LOCKTH, 5), (R.NET_PSTAT_LINK ↑arec.port, 1), (R.NET_CFG_PMODE, 0), (R.PTP_STAT_HOLD, 1)] with clock.running := true, time.master := none, time.heard := [] },
     by decide, by decide, by decide, by decide, by decide, by decide, by decide, by decide, by decide⟩,
   ⟨drec,
     { st [(R.PWR_STAT_DOM_ON, 255), (R.SYS_STATE_STATE, 1), (R.NET_PSTAT_LINK 0, 1), (R.PTP_CFG_ROLE, 0), (R.PTP_SERVO_QUALN, 5), (R.PTP_SERVO_STEPTH, 5), (R.PTP_SERVO_LOCKTH, 5), (R.NET_PSTAT_LINK ↑drec.port, 1)] with clock.running := true, time.master := some drec.source },
     by decide, by decide, by decide, by decide, by decide, by decide, by decide, by decide⟩,
   ⟨{ drec with kind := .delayReq },
     { st [(R.PWR_STAT_DOM_ON, 255), (R.SYS_STATE_STATE, 1), (R.NET_PSTAT_LINK 0, 1), (R.PTP_CFG_ROLE, 1), (R.PTP_SERVO_QUALN, 5), (R.PTP_SERVO_STEPTH, 5), (R.PTP_SERVO_LOCKTH, 5)] with clock.running := true, time.master := some 9 },
     by decide, by decide, by decide, by decide, by decide, by decide, by decide⟩,
   ⟨0,
     { st [(R.PWR_STAT_DOM_ON, 255), (R.SYS_STATE_STATE, 1), (R.NET_PSTAT_LINK 0, 1), (R.PTP_CFG_ROLE, 1), (R.PTP_SERVO_QUALN, 5), (R.PTP_SERVO_STEPTH, 5), (R.PTP_SERVO_LOCKTH, 5), (R.PTP_CFG_PROF, 0)] with clock.running := true, time.master := some 9 },
     by decide, by decide, by decide, by decide, by decide⟩,
   ⟨0,
     { st [(R.PWR_STAT_DOM_ON, 255), (R.SYS_STATE_STATE, 1), (R.NET_PSTAT_LINK 0, 1), (R.PTP_CFG_ROLE, 0), (R.PTP_SERVO_QUALN, 5), (R.PTP_SERVO_STEPTH, 5), (R.PTP_SERVO_LOCKTH, 5), (R.PTP_STAT_RXPORT, 0)] with clock.running := true, time.master := some 9 },
     by decide, by decide, by decide, by decide, by decide, by decide⟩,
   ⟨{ st [(R.PWR_STAT_DOM_ON, 255), (R.SYS_STATE_STATE, 1), (R.NET_PSTAT_LINK 0, 1), (R.PTP_CFG_ROLE, 0), (R.PTP_SERVO_QUALN, 5), (R.PTP_SERVO_STEPTH, 5), (R.PTP_SERVO_LOCKTH, 5), (R.PTP_STAT_HOLD, 1)] with clock.running := true, time.master := some 9 },
     by decide, by decide, by decide, by decide⟩,
   ⟨{ st [(R.PWR_STAT_DOM_ON, 255), (R.SYS_STATE_STATE, 1), (R.NET_PSTAT_LINK 0, 1), (R.PTP_CFG_ROLE, 0), (R.PTP_SERVO_QUALN, 5), (R.PTP_SERVO_STEPTH, 5), (R.PTP_SERVO_LOCKTH, 5), (R.PTP_STAT_HOLD, 0), (R.SCH_STAT_STATE, 1)] with clock.running := true, time.master := some 9 },
     by decide, by decide, by decide, by decide, by decide, by decide⟩,
   ⟨arec,
     { st [(R.PWR_STAT_DOM_ON, 255), (R.SYS_STATE_STATE, 1), (R.NET_PSTAT_LINK 0, 1), (R.PTP_CFG_ROLE, 0), (R.PTP_SERVO_QUALN, 5), (R.PTP_SERVO_STEPTH, 5), (R.PTP_SERVO_LOCKTH, 5), (R.PTP_STAT_HOLD, 1)] with clock.running := true, time.master := some arec.source, time.heard := [arec] },
     by decide, by decide, by decide, by decide, by decide, by decide⟩,
   ⟨{ st [(R.PWR_STAT_DOM_ON, 255), (R.SYS_STATE_STATE, 1), (R.NET_PSTAT_LINK 0, 1), (R.PTP_CFG_ROLE, 0), (R.PTP_SERVO_QUALN, 5), (R.PTP_SERVO_STEPTH, 5), (R.PTP_SERVO_LOCKTH, 5), (R.PTP_STAT_HOLD, 1)] with clock.running := true, time.master := some 9, time.drifted := false },
     by decide, by decide⟩⟩

theorem witness_LocalClock :
    (∃ (s : State), NoCmp s ∧ s.stepAllowed = true) ∧
    (∃ (s : State), s.stepAllowed = false) ∧
    (∃ (s : State), s.stepAllowed = true) ∧
    (∃ (s : State), s.clock.running = true ∧ s.staged = []) ∧
    (∃ (v : Nat) (s : State), s.clock.running = true ∧ NoCmp s ∧ v < 2 ^ 48 ∧ s.staged =
      [{ fld := R.PTP_SETSEC_SEC, val := v, own := Own.second, idx := 0 }]) ∧
    (∃ (s : State), s.clock.running = true) ∧
    (∃ (s : State), s.clock.running = true ∧ (s.isMaster = false ∨ s.on R.PTP_SRC_PPSDISC = false)) ∧
    (∃ (s : State), s.time.cleared = false) ∧
    (∃ (s : State), s.clock.running = true ∧ (s.isMaster = false ∨ s.on R.PTP_SRC_REFSEL = false)) ∧
    (∃ (s : State), s.clock.running = true ∧ s.isMaster = true ∧ s.on R.PTP_SRC_REFSEL = true ∧ s.on R.PTP_SRC_PPSDISC = true ∧ s.get
      R.PTP_STAT_RATEMAX < 2 ^ 31) ∧
    (∃ (k : Fin 16) (s : State), s.clock.running = true ∧ s.on (R.PTP_CMP3_EN ↑k) = true ∧ s.cmpSpent ↑k = false ∧ s.time.spent.length =
      16 ∧ (∀ (x : Session), x ∈ s.host.sessions → x.report = none ∧ x.nextReport = none) ∧ s.cmpTime ↑k + s.cmpPer ↑k < clockWrap) ∧
    (∃ (n : Slice) (s : State), nthD s.time.burst (↑n) 0 ≠ 0 ∧ s.ax[n].started = true) :=
  ⟨⟨{ st [(R.PTP_CFG_ROLE, 1)] with clock.running := true }, by unfold NoCmp; decide, by decide⟩,
   ⟨{ st [(R.PTP_CFG_ROLE, 0)] with clock.running := true }, by decide⟩,
   ⟨{ st [(R.PTP_CFG_ROLE, 1)] with clock.running := true }, by decide⟩,
   ⟨{ st [(R.PTP_CFG_ROLE, 1)] with clock.running := true, staged := [] }, by decide, by decide⟩,
   ⟨0,
     { st [(R.PTP_CFG_ROLE, 1)] with clock.running := true, staged := [{ fld := R.PTP_SETSEC_SEC, val := 0, own := Own.second, idx := 0 }] },
     by decide, by unfold NoCmp; decide, by decide, by decide⟩,
   ⟨{ st [(R.PTP_CFG_ROLE, 1)] with clock.running := true }, by decide⟩,
   ⟨{ st [(R.PTP_CFG_ROLE, 1), (R.PTP_SRC_PPSDISC, 0)] with clock.running := true }, by decide, by decide⟩,
   ⟨{ st [(R.PTP_CFG_ROLE, 1)] with clock.running := true, time.cleared := false }, by decide⟩,
   ⟨{ st [(R.PTP_CFG_ROLE, 1)] with clock.running := true }, by decide, by decide⟩,
   ⟨{ st [(R.PTP_CFG_ROLE, 1), (R.PTP_SRC_REFSEL, 1), (R.PTP_SRC_PPSDISC, 1)] with clock.running := true }, by decide, by decide,
     by decide, by decide, by decide⟩,
   ⟨0, { st [(R.PTP_CFG_ROLE, 1), (R.PTP_CMP3_EN 0, 1)] with clock.running := true }, by decide, by decide, by decide, by decide,
     by decide, by decide⟩,
   ⟨0,
     { st [(R.PTP_CFG_ROLE, 1)] with clock.running := true, time.burst := [1], ax := Vector.replicate 16 { AxisDyn.reset with started := true } },
     by decide, by decide⟩⟩

theorem witness_HostSessions :
    (∃ (q : HpReq) (s : State) (i : Nat), HostReady s q ∧ s.freeSession = some i) ∧
    (∃ (q : HpReq) (s : State), HostReady s q ∧ s.freeSession = none) ∧
    (∃ (q : HpReq) (s : State), InTurn s q) ∧
    (∃ (i : Nat) (s : State), i ≠ 0 ∧ (s.session i).isOpen = true ∧ s.host.sessions.length = 5) ∧
    (∃ (c : Instr) (type : Nat) (q : HpReq) (addr : Nat) (k : Nat) (cmp : Nat) (ofs : Nat) (ws : List Nat) (as : List Nat) (ms : List
      MaskWrite) (g : Fin 8) (gs : List (List Nat)) (s : State), HostReady s q ∧ s.sessOpen q.session = true ∧ q.seq % 2 ^ 32 ≠
      (s.session q.session).expect ∧ (c, type) ∈ [(Instr.hpNop q, 3), (Instr.hpRead q addr k, 16), (Instr.hpWrite q addr ws, 17),
      (Instr.hpWritem q addr ms, 18), (Instr.segment q g gs, 33), (Instr.repcfg q cmp ofs as, 34)] ∧ (List.find? (fun (r : Nat × Nat ×
      Nat × List Nat) => r.fst == q.seq % 2 ^ 32) (s.session q.session).kept = none)) ∧
    (∃ (c : Instr) (type : Nat) (q : HpReq) (addr : Nat) (k : Nat) (cmp : Nat) (ofs : Nat) (ws : List Nat) (as : List Nat) (ms : List
      MaskWrite) (g : Fin 8) (gs : List (List Nat)) (s : State) (n : Nat) (ty : Nat) (code : Nat) (body : List Nat), HostReady s q ∧
      s.sessOpen q.session = true ∧ q.seq % 2 ^ 32 ≠ (s.session q.session).expect ∧ (c, type) ∈ [(Instr.hpNop q, 3), (Instr.hpRead q
      addr k, 16), (Instr.hpWrite q addr ws, 17), (Instr.hpWritem q addr ms, 18), (Instr.segment q g gs, 33), (Instr.repcfg q cmp ofs
      as, 34)] ∧ (List.find? (fun (r : Nat × Nat × Nat × List Nat) => r.fst == q.seq % 2 ^ 32) (s.session q.session).kept = some (n, ty,
      code, body))) ∧
    (∃ (q : HpReq) (s : State), HostReady s q ∧ s.sessOpen q.session = true) :=
  ⟨⟨hq,
     { st [(R.PWR_STAT_DOM_ON, 255), (R.SYS_STATE_STATE, 1), (R.NET_PSTAT_LINK 0, 1)] with host.sessions := [Session.reset, ses, Session.reset, Session.reset, Session.reset] },
     2, by constructor <;> decide, by decide⟩,
   ⟨hq, { st [(R.PWR_STAT_DOM_ON, 255), (R.SYS_STATE_STATE, 1), (R.NET_PSTAT_LINK 0, 1)] with host.sessions := List.replicate 5 ses },
     by constructor <;> decide, by decide⟩,
   ⟨hq,
     { st [(R.PWR_STAT_DOM_ON, 255), (R.SYS_STATE_STATE, 1), (R.NET_PSTAT_LINK 0, 1)] with host.sessions := [Session.reset, ses, Session.reset, Session.reset, Session.reset] },
     by unfold InTurn; repeat' (first | decide | exact ⟨_, rfl⟩ | constructor)⟩,
   ⟨1,
     { st [(R.PWR_STAT_DOM_ON, 255), (R.SYS_STATE_STATE, 1), (R.NET_PSTAT_LINK 0, 1)] with host.sessions := [Session.reset, ses, Session.reset, Session.reset, Session.reset] },
     by decide, by decide, by decide⟩,
   ⟨.hpNop { hq with seq := 9 }, 3, { hq with seq := 9 }, 0, 0, 0, 0, [], [], [], 0, [],
     { st [(R.PWR_STAT_DOM_ON, 255), (R.SYS_STATE_STATE, 1), (R.NET_PSTAT_LINK 0, 1)] with host.sessions := [Session.reset, ses, Session.reset, Session.reset, Session.reset] },
     by constructor <;> decide, by decide, by decide, by decide, by decide⟩,
   ⟨.hpNop { hq with seq := 6 }, 3, { hq with seq := 6 }, 0, 0, 0, 0, [], [], [], 0, [],
     { st [(R.PWR_STAT_DOM_ON, 255), (R.SYS_STATE_STATE, 1), (R.NET_PSTAT_LINK 0, 1)] with host.sessions := [Session.reset, { ses with kept := [(6, 3, 0, [])] }, Session.reset, Session.reset, Session.reset] },
     6, 3, 0, [], by constructor <;> decide, by decide, by decide, by decide, by decide⟩,
   ⟨hq,
     { st [(R.PWR_STAT_DOM_ON, 255), (R.SYS_STATE_STATE, 1), (R.NET_PSTAT_LINK 0, 1)] with host.sessions := [Session.reset, ses, Session.reset, Session.reset, Session.reset] },
     by constructor <;> decide, by decide⟩⟩

theorem witness_HostRequests :
    (∃ (q : HpReq) (addr : Nat) (s : State), InTurn s q ∧ s.shapeCode q addr 1 512 8 8 = 0 ∧ s.hostReadCode addr = 0) ∧
    (∃ (q : HpReq) (addr : Nat) (s : State), InTurn s q ∧ s.shapeCode q addr 1 512 8 8 = 0 ∧ s.hostReadCode addr ≠ 0) ∧
    (∃ (q : HpReq) (addr : Nat) (v : Nat) (s : State), InTurn s q ∧ s.shapeCode q addr 1 512 16 2 = 0 ∧ WordTaken s q addr v allBits) ∧
    (∃ (q : HpReq) (addr : Nat) (v : Nat) (m : Nat) (s : State), InTurn s q ∧ s.shapeCode q addr 1 256 24 2 = 0 ∧ WordTaken s q addr v
      m) ∧
    (∃ (q : HpReq) (e : List Nat) (s : State), HostReady s q ∧ s.sessOpen q.session = true ∧ ElemTaken s e) ∧
    (∃ (q : HpReq) (g : Fin 8) (segs : List (List Nat)) (u : State) (s : State), InTurn s q ∧ segs ≠ [] ∧ segs.length ≤ 35 ∧
      s.hostLength q.session (8 + 256 * segs.length) ≤ s.get (R.NET_PCFG_MAXFRM ↑q.port) ∧ s.get (R.GRP_STAT_COUNT ↑g) + segs.length ≤
      1024 ∧ s.writeWords Init.host q.session (s.segWords (↑g) (s.get (R.GRP_STAT_HEAD ↑g) + s.get (R.GRP_STAT_COUNT ↑g)) segs) = (u,
      none)) ∧
    (∃ (q : HpReq) (cmp : Nat) (ofs : Nat) (as : List Nat) (s : State), InTurn s q ∧ s.reportCode cmp ofs as = 0) ∧
    (∃ (q : HpReq) (s : State), HostReady s q ∧ s.sessOpen q.session = true) ∧
    (∃ (i : Nat) (k : Nat) (n : Notice) (s : State), (s.session i).isOpen = true ∧ s.netRuns = true ∧ s.pw.sleep = 0 ∧
      s.host.sessions.length = 5 ∧ (List.find? (fun (m : Notice) => m.seq == k) (s.session i).notices = some n) ∧ n.resends < s.get
      R.NET_HPCFG1_NRET) ∧
    (∃ (i : Nat) (k : Nat) (n : Notice) (s : State), (s.session i).isOpen = true ∧ s.netRuns = true ∧ s.pw.sleep = 0 ∧
      s.host.sessions.length = 5 ∧ (List.find? (fun (m : Notice) => m.seq == k) (s.session i).notices = some n) ∧ s.get
      R.NET_HPCFG1_NRET ≤ n.resends) :=
  ⟨⟨hq, 0,
     { st [(R.PWR_STAT_DOM_ON, 255), (R.SYS_STATE_STATE, 1), (R.NET_PSTAT_LINK 0, 1)] with host.sessions := [Session.reset, ses, Session.reset, Session.reset, Session.reset], arc.banks := [2], arc.grants := [⟨8, true, 0x10000000, 0x1007FFFF⟩] },
     by unfold InTurn; repeat' (first | decide | exact ⟨_, rfl⟩ | constructor), by decide, by decide⟩,
   ⟨hq, 0x10080000,
     { st [(R.PWR_STAT_DOM_ON, 255), (R.SYS_STATE_STATE, 1), (R.NET_PSTAT_LINK 0, 1)] with host.sessions := [Session.reset, ses, Session.reset, Session.reset, Session.reset], arc.banks := [2], arc.grants := [⟨8, true, 0x10000000, 0x1007FFFF⟩] },
     by unfold InTurn; repeat' (first | decide | exact ⟨_, rfl⟩ | constructor), by decide, by decide⟩,
   ⟨hq, 0x10000000, 0,
     { st [(R.PWR_STAT_DOM_ON, 255), (R.SYS_STATE_STATE, 1), (R.NET_PSTAT_LINK 0, 1), (R.SCH_STAT_STATE, 1)] with host.sessions := [Session.reset, ses, Session.reset, Session.reset, Session.reset], arc.banks := [2], arc.grants := [⟨8, true, 0x10000000, 0x1007FFFF⟩] },
     by unfold InTurn; repeat' (first | decide | exact ⟨_, rfl⟩ | constructor), by decide,
     by unfold WordTaken; repeat' (first | decide | exact ⟨_, rfl⟩ | constructor)⟩,
   ⟨hq, 0x10000000, 0, 0,
     { st [(R.PWR_STAT_DOM_ON, 255), (R.SYS_STATE_STATE, 1), (R.NET_PSTAT_LINK 0, 1), (R.SCH_STAT_STATE, 1)] with host.sessions := [Session.reset, ses, Session.reset, Session.reset, Session.reset], arc.banks := [2], arc.grants := [⟨8, true, 0x10000000, 0x1007FFFF⟩] },
     by unfold InTurn; repeat' (first | decide | exact ⟨_, rfl⟩ | constructor), by decide,
     by unfold WordTaken; repeat' (first | decide | exact ⟨_, rfl⟩ | constructor)⟩,
   ⟨hq, [0, 0, 1],
     { st [(R.PWR_STAT_DOM_ON, 255), (R.SYS_STATE_STATE, 1), (R.NET_PSTAT_LINK 0, 1)] with host.sessions := [Session.reset, ses, Session.reset, Session.reset, Session.reset], arc.banks := [2], arc.grants := [⟨8, true, 0x10000000, 0x1007FFFF⟩], mem := [(0x660000, 5)] },
     by constructor <;> decide, by decide,
     ⟨by decide, fun l h => (nomatch (show (none : Option Nat) = some l from h)), by decide, by decide⟩⟩,
   ⟨hq, 0, [[]],
     (({ st [(R.PWR_STAT_DOM_ON, 255), (R.SYS_STATE_STATE, 1), (R.NET_PSTAT_LINK 0, 1), (R.GRP_CFG_QBASE 0, 0x10000000)] with host.sessions := [Session.reset, ses, Session.reset, Session.reset, Session.reset], arc.banks := [2], arc.grants := [⟨8, true, 0x10000000, 0x1007FFFF⟩] }).writeWords
     .host 1
     (({ st [(R.PWR_STAT_DOM_ON, 255), (R.SYS_STATE_STATE, 1), (R.NET_PSTAT_LINK 0, 1), (R.GRP_CFG_QBASE 0, 0x10000000)] with host.sessions := [Session.reset, ses, Session.reset, Session.reset, Session.reset], arc.banks := [2], arc.grants := [⟨8, true, 0x10000000, 0x1007FFFF⟩] }).segWords
     0 0 [[]])).1,
     { st [(R.PWR_STAT_DOM_ON, 255), (R.SYS_STATE_STATE, 1), (R.NET_PSTAT_LINK 0, 1), (R.GRP_CFG_QBASE 0, 0x10000000)] with host.sessions := [Session.reset, ses, Session.reset, Session.reset, Session.reset], arc.banks := [2], arc.grants := [⟨8, true, 0x10000000, 0x1007FFFF⟩] },
     by unfold InTurn; repeat' (first | decide | exact ⟨_, rfl⟩ | constructor), by decide, by decide, by decide, by decide, by decide⟩,
   ⟨hq, 0, 5000, [],
     { st [(R.PWR_STAT_DOM_ON, 255), (R.SYS_STATE_STATE, 1), (R.NET_PSTAT_LINK 0, 1)] with host.sessions := [Session.reset, ses, Session.reset, Session.reset, Session.reset], arc.banks := [2], arc.grants := [⟨8, true, 0x10000000, 0x1007FFFF⟩] },
     by unfold InTurn; repeat' (first | decide | exact ⟨_, rfl⟩ | constructor), by decide⟩,
   ⟨hq,
     { st [(R.PWR_STAT_DOM_ON, 255), (R.SYS_STATE_STATE, 1), (R.NET_PSTAT_LINK 0, 1)] with host.sessions := [Session.reset, ses, Session.reset, Session.reset, Session.reset], arc.banks := [2], arc.grants := [⟨8, true, 0x10000000, 0x1007FFFF⟩] },
     by constructor <;> decide, by decide⟩,
   ⟨1, 0, ⟨0, 0, 0, [], 0⟩,
     { st [(R.PWR_STAT_DOM_ON, 255), (R.SYS_STATE_STATE, 1), (R.NET_PSTAT_LINK 0, 1), (R.NET_HPCFG1_NRET, 1)] with host.sessions := [Session.reset, { ses with notices := [⟨0, 0, 0, [], 0⟩] }, Session.reset, Session.reset, Session.reset], arc.banks := [2], arc.grants := [⟨8, true, 0x10000000, 0x1007FFFF⟩], pw.sleep := 0 },
     by decide, by decide, by decide, by decide, by decide, by decide⟩,
   ⟨1, 0, ⟨0, 0, 0, [], 1⟩,
     { st [(R.PWR_STAT_DOM_ON, 255), (R.SYS_STATE_STATE, 1), (R.NET_PSTAT_LINK 0, 1), (R.NET_HPCFG1_NRET, 1)] with host.sessions := [Session.reset, { ses with notices := [⟨0, 0, 0, [], 1⟩] }, Session.reset, Session.reset, Session.reset], arc.banks := [2], arc.grants := [⟨8, true, 0x10000000, 0x1007FFFF⟩], pw.sleep := 0 },
     by decide, by decide, by decide, by decide, by decide, by decide⟩⟩

theorem witness_Acquisition :
    (∃ (c : Fin 4) (s : State), s.acqRuns = true ∧ s.get (R.ACQ_CLK_KIND ↑c) ≠ 0 ∧ s.acq.clocks.length = 4 ∧ ((s.acqClock ↑c).events +
      1) % (s.get (R.ACQ_CLK_DIV ↑c) + 1) ≠ 0) ∧
    (∃ (c : Fin 4) (x : Stamp) (s : State), RowDue s c ∧ (s.get (R.ACQ_CLK_KIND ↑c) = 3 ∨ ∀ (l : Nat), (s.acqClock ↑c).last = some l → l
      + 6000 * 65536 ≤ x) ∧ 32 + 4 * ((openWords s ↑c).length + 2 * (s.rowWords ↑c).length) ≤ s.get R.ACQ_CFG_BLKMAX ∧ openRows s ↑c <
      65534) ∧
    (∃ (c : Fin 4) (x : Stamp) (l : Nat) (s : State), RowDue s c ∧ s.get (R.ACQ_CLK_KIND ↑c) ≠ 3 ∧ (s.acqClock ↑c).last = some l ∧ x < l
      + 6000 * 65536) ∧
    (∃ (c : Fin 4) (b : BlockDyn) (s : State), (s.acqClock ↑c).block = some b ∧ s.acq.clocks.length = 4 ∧ s.acqSession = none ∧
      (s.dataRecord (↑c) b).length ≤ s.acqRing.snd) ∧
    (∃ (s : State), s.on R.ACQ_TSTAT_ACTIVE = true ∧ s.get (R.ACQ_TS_TIMER (s.get R.ACQ_TSTAT_STATE)) ≠ 0 ∧ s.get (R.ACQ_TS_TIMER (s.get
      R.ACQ_TSTAT_STATE)) ≤ s.acq.trig.rows) ∧
    (∃ (s : State), s.on R.ACQ_TSTAT_ACTIVE = false ∧ s.acqRuns = true ∧ s.get (R.ACQ_CLK_KIND (s.get R.ACQ_CFG_TCLK)) ≠ 0) ∧
    (∃ (s : State), s.on R.ACQ_TSTAT_ACTIVE = true) ∧
    (∃ (s : State), s.domOn 3 = true ∧ s.dev ∈ [1, 2, 3, 4] ∧ s.on R.ACQ_CFG_EN = true ∧ s.on R.ACQ_CTL_RUN = false) ∧
    (∃ (s : State), s.on R.ACQ_CTL_RUN = true ∧ s.acqSession = none ∧ s.acq.clocks.length = 4) :=
  ⟨⟨0, st [(R.PWR_STAT_DOM_ON, 255), (R.SYS_STATE_STATE, 1), (R.ACQ_CTL_RUN, 1), (R.ACQ_CFG_TCLK, 1), (R.ACQ_CLK_KIND 0, 1),
     (R.ACQ_CLK_DIV 0, 1)], by decide, by decide, by decide, by decide⟩,
   ⟨0, 0, st [(R.PWR_STAT_DOM_ON, 255), (R.SYS_STATE_STATE, 1), (R.ACQ_CTL_RUN, 1), (R.ACQ_CFG_TCLK, 1), (R.ACQ_CLK_KIND 0, 3)],
     by constructor <;> decide, by decide, by decide, by decide⟩,
   ⟨0, 0, 0,
     { st [(R.PWR_STAT_DOM_ON, 255), (R.SYS_STATE_STATE, 1), (R.ACQ_CTL_RUN, 1), (R.ACQ_CFG_TCLK, 1), (R.ACQ_CLK_KIND 0, 1)] with acq.clocks := List.replicate 4 { AcqClock.reset with last := some 0 } },
     by constructor <;> decide, by decide, by decide, by decide⟩,
   ⟨0, ⟨0, 0, 1, [7]⟩,
     { st [(R.PWR_STAT_DOM_ON, 255), (R.SYS_STATE_STATE, 1), (R.ACQ_CTL_RUN, 1), (R.ACQ_CFG_TCLK, 1)] with acq.clocks := List.replicate 4 { AcqClock.reset with block := some ⟨0, 0, 1, [7]⟩ }, arc.banks := [2] },
     by decide, by decide, by decide, by decide⟩,
   ⟨{ st [(R.PWR_STAT_DOM_ON, 255), (R.SYS_STATE_STATE, 1), (R.ACQ_CTL_RUN, 1), (R.ACQ_CFG_TCLK, 1), (R.ACQ_TSTAT_ACTIVE, 1), (R.ACQ_TS_TIMER 0, 5)] with acq.trig.rows := 5 },
     by decide, by decide, by decide⟩,
   ⟨st [(R.PWR_STAT_DOM_ON, 255), (R.SYS_STATE_STATE, 1), (R.ACQ_CTL_RUN, 1), (R.ACQ_CFG_TCLK, 1), (R.ACQ_TSTAT_ACTIVE, 0),
     (R.ACQ_CLK_KIND 1, 1)], by decide, by decide, by decide⟩,
   ⟨st [(R.PWR_STAT_DOM_ON, 255), (R.SYS_STATE_STATE, 1), (R.ACQ_CTL_RUN, 1), (R.ACQ_CFG_TCLK, 1), (R.ACQ_TSTAT_ACTIVE, 1)], by decide⟩,
   ⟨st [(R.PWR_STAT_DOM_ON, 255), (R.SYS_STATE_STATE, 1), (R.ACQ_CTL_RUN, 0), (R.ACQ_CFG_TCLK, 1), (R.ACQ_CFG_EN, 1)], by decide,
     by decide, by decide, by decide⟩,
   ⟨st [(R.PWR_STAT_DOM_ON, 255), (R.SYS_STATE_STATE, 1), (R.ACQ_CTL_RUN, 1), (R.ACQ_CFG_TCLK, 1)], by decide, by decide, by decide⟩⟩

theorem witness_CanBus :
    (∃ (c : Fin 2) (f : CanFrame) (s : State), CanActive s c ∧ s.on (R.CAN_CFG_TTEN ↑c) = false ∧ s.canFilter c f = none) ∧
    (∃ (c : Fin 2) (f : CanFrame) (s : State) (k : Fin 32), CanActive s c ∧ s.on (R.CAN_CFG_TTEN ↑c) = false ∧ s.canFilter c f = some ↑k
      ∧ s.on (R.CAN_FLT_DEST ↑c ↑k) = true) ∧
    (∃ (c : Fin 2) (f : CanFrame) (s : State) (k : Fin 32), CanActive s c ∧ s.on (R.CAN_CFG_TTEN ↑c) = false ∧ s.canFilter c f = some ↑k
      ∧ s.on (R.CAN_FLT_DEST ↑c ↑k) = false ∧ s.bitOf (R.CAN_RXFULL_FULL (↑c) (s.get (R.CAN_RXPTR_RXWPTR ↑c) / 64)) (s.get
      (R.CAN_RXPTR_RXWPTR ↑c) % 64) = false) ∧
    (∃ (c : Fin 2) (f : CanFrame) (s : State) (k : Fin 32), CanActive s c ∧ s.on (R.CAN_CFG_TTEN ↑c) = false ∧ s.canFilter c f = some ↑k
      ∧ s.on (R.CAN_FLT_DEST ↑c ↑k) = false ∧ s.bitOf (R.CAN_RXFULL_FULL (↑c) (s.get (R.CAN_RXPTR_RXWPTR ↑c) / 64)) (s.get
      (R.CAN_RXPTR_RXWPTR ↑c) % 64) = true) ∧
    (∃ (c : Fin 2) (kind : CanErr) (mark : Bool) (s : State), CanActive s c ∧ (¬(kind = CanErr.stuff ∧ mark = true))) ∧
    (∃ (c : Fin 2) (kind : CanErr) (mark : Bool) (s : State), s.canOn c = true ∧ s.get (R.CAN_STAT_STATE ↑c) = 2 ∧ 248 ≤ s.get
      (R.CAN_STAT_TEC ↑c) ∧ (¬(kind = CanErr.stuff ∧ mark = true)) ∧ (¬(kind = CanErr.ack ∧ mark = false))) ∧
    (∃ (c : Fin 2) (s : State), s.get (R.CAN_STAT_STATE ↑c) = 2) ∧
    (∃ (c : Fin 2) (mark : Bool) (s : State), CanActive s c ∧ ((s.get (R.CAN_STAT_REC ↑c) + if mark = true then 9 else 1) < 128)) ∧
    (∃ (c : Fin 2) (s : State), s.canOn c = true ∧ s.get (R.CAN_STAT_STATE ↑c) = 3) ∧
    (∃ (c : Fin 2) (m : Nat) (s : State), s.domOn 5 = true ∧ s.txreqCode c m = 0) ∧
    (∃ (c : Fin 2) (m : Nat) (s : State), s.domOn 5 = true ∧ s.txreqCode c m = 3) ∧
    (∃ (c : Fin 2) (e : Fin 64) (s : State), s.domOn 5 = true ∧ s.txPending c ↑e = true ∧ s.can[c].sending ≠ some ↑e) ∧
    (∃ (c : Fin 2) (e : Fin 64) (s : State), s.domOn 5 = true ∧ s.txPending c ↑e = true ∧ s.can[c].sending = some ↑e) ∧
    (∃ (s : State), s.domOn 5 = true) ∧
    (∃ (s : State), s.domOn 5 = true) ∧
    (∃ (c : Fin 2) (e : Nat) (s : State), s.canSends c = true ∧ s.get (R.CAN_STAT_STATE ↑c) ≠ 0 ∧ s.can[c].sending = none ∧ s.on
      (R.CAN_CFG_TTEN ↑c) = false ∧ s.arbWinner (↑c) (s.offered c) = some e) ∧
    (∃ (c : Fin 2) (e : Fin 64) (s : State), CanActive s c ∧ s.can[c].sending = some ↑e ∧ s.can[c].window = none ∧
      s.can[c].attempts.length = 64 ∧ s.can[c].fails.length = 64) ∧
    (∃ (c : Fin 2) (e : Fin 64) (s : State), CanActive s c ∧ s.can[c].sending = some ↑e ∧ s.can[c].window = none ∧
      s.can[c].attempts.length = 64 ∧ s.can[c].fails.length = 64 ∧ s.can[c].aborted = false) ∧
    (∃ (c : Fin 2) (e : Fin 64) (s : State), CanActive s c ∧ s.can[c].sending = some ↑e ∧ s.can[c].window = none ∧
      s.can[c].attempts.length = 64 ∧ s.can[c].fails.length = 64 ∧ s.can[c].aborted = false ∧ (s.get (R.CAN_CFG_RETRYLIM ↑c) = 0 ∨ nthD
      s.can[c].fails (↑e) 0 + 1 ≤ s.get (R.CAN_CFG_RETRYLIM ↑c))) ∧
    (∃ (c : Fin 2) (e : Fin 64) (s : State), CanActive s c ∧ s.can[c].sending = some ↑e ∧ s.can[c].window = none ∧
      s.can[c].attempts.length = 64 ∧ s.can[c].fails.length = 64 ∧ s.can[c].aborted = false ∧ s.get (R.CAN_CFG_RETRYLIM ↑c) ≠ 0 ∧ s.get
      (R.CAN_CFG_RETRYLIM ↑c) < nthD s.can[c].fails (↑e) 0 + 1) ∧
    (∃ (c : Fin 2) (s : State), CanActive s c ∧ s.can[c].sending = some 64) ∧
    (∃ (c : Fin 2) (s : State), s.canSends c = true ∧ s.get (R.CAN_STAT_STATE ↑c) ≠ 0 ∧ s.on (R.CAN_CFG_TTEN ↑c) = true ∧ s.ttMaster c =
      true ∧ s.can[c].sending = none ∧ s.on (R.CAN_CFG_NETTIME ↑c) = false) ∧
    (∃ (c : Fin 2) (s : State) (ns : Nat), s.canSends c = true ∧ s.get (R.CAN_STAT_STATE ↑c) ≠ 0 ∧ s.on (R.CAN_CFG_TTEN ↑c) = true ∧
      s.ttMaster c = true ∧ s.can[c].sending = none ∧ s.on (R.CAN_CFG_NETTIME ↑c) = true ∧ s.can[c].refDue = some ns) ∧
    (∃ (c : Fin 2) (col : Nat) (s : State), s.canOn c = true ∧ s.on (R.CAN_CFG_TTEN ↑c) = true ∧ s.on (R.CAN_STAT_TTSYNC ↑c) = true ∧
      col ≤ s.get (R.CAN_TTCFG_NCOL ↑c)) ∧
    (∃ (c : Fin 2) (s : State), s.canOn c = true ∧ s.on (R.CAN_CFG_TTEN ↑c) = true ∧ s.ttMaster c = false ∧ s.on (R.CAN_STAT_TTSYNC ↑c)
      = true) ∧
    (∃ (s : State), s.domOn 5 = true) ∧
    (∃ (s : State), s.on (R.CAN_CFG_WAKEN 0) = true ∧ s.can[0].running = false) :=
  ⟨⟨0, fr,
     { st [(R.PWR_STAT_DOM_ON, 255), (R.CAN_CFG_EN 0, 1), (R.CAN_STAT_STATE 0, 1), (R.CAN_CFG_TTEN 0, 0)] with can := Vector.replicate 2 { CanDyn.reset with running := true } },
     by constructor <;> decide, by decide, by decide⟩,
   ⟨0, fr,
     { st [(R.PWR_STAT_DOM_ON, 255), (R.CAN_CFG_EN 0, 1), (R.CAN_STAT_STATE 0, 1), (R.CAN_CFG_TTEN 0, 0), (R.CAN_FLT_DEST 0 0, 1), (R.CAN_FLT_EN 0 0, 1)] with can := Vector.replicate 2 { CanDyn.reset with running := true } },
     0, by constructor <;> decide, by decide, by decide, by decide⟩,
   ⟨0, fr,
     { st [(R.PWR_STAT_DOM_ON, 255), (R.CAN_CFG_EN 0, 1), (R.CAN_STAT_STATE 0, 1), (R.CAN_CFG_TTEN 0, 0), (R.CAN_FLT_DEST 0 0, 0), (R.CAN_FLT_EN 0 0, 1)] with can := Vector.replicate 2 { CanDyn.reset with running := true } },
     0, by constructor <;> decide, by decide, by decide, by decide, by decide⟩,
   ⟨0, fr,
     { st [(R.PWR_STAT_DOM_ON, 255), (R.CAN_CFG_EN 0, 1), (R.CAN_STAT_STATE 0, 1), (R.CAN_CFG_TTEN 0, 0), (R.CAN_FLT_DEST 0 0, 0), (R.CAN_FLT_EN 0 0, 1), (R.CAN_RXFULL_FULL 0 0, 1)] with can := Vector.replicate 2 { CanDyn.reset with running := true } },
     0, by constructor <;> decide, by decide, by decide, by decide, by decide⟩,
   ⟨0, .bit, false,
     { st [(R.PWR_STAT_DOM_ON, 255), (R.CAN_CFG_EN 0, 1), (R.CAN_STAT_STATE 0, 1)] with can := Vector.replicate 2 { CanDyn.reset with running := true } },
     by constructor <;> decide, by decide⟩,
   ⟨0, .bit, false,
     { st [(R.PWR_STAT_DOM_ON, 255), (R.CAN_CFG_EN 0, 1), (R.CAN_STAT_STATE 0, 2), (R.CAN_STAT_TEC 0, 248)] with can := Vector.replicate 2 { CanDyn.reset with running := true } },
     by decide, by decide, by decide, by decide, by decide⟩,
   ⟨0,
     { st [(R.PWR_STAT_DOM_ON, 255), (R.CAN_CFG_EN 0, 1), (R.CAN_STAT_STATE 0, 2)] with can := Vector.replicate 2 { CanDyn.reset with running := true } },
     by decide⟩,
   ⟨0, false,
     { st [(R.PWR_STAT_DOM_ON, 255), (R.CAN_CFG_EN 0, 1), (R.CAN_STAT_STATE 0, 1)] with can := Vector.replicate 2 { CanDyn.reset with running := true } },
     by constructor <;> decide, by decide⟩,
   ⟨0,
     { st [(R.PWR_STAT_DOM_ON, 255), (R.CAN_CFG_EN 0, 1), (R.CAN_STAT_STATE 0, 3)] with can := Vector.replicate 2 { CanDyn.reset with running := true } },
     by decide, by decide⟩,
   ⟨0, 0,
     { st [(R.PWR_STAT_DOM_ON, 255), (R.CAN_CFG_EN 0, 1), (R.CAN_STAT_STATE 0, 1)] with can := Vector.replicate 2 { CanDyn.reset with running := true } },
     by decide, by decide⟩,
   ⟨0, 1,
     { st [(R.PWR_STAT_DOM_ON, 255), (R.CAN_CFG_EN 0, 1), (R.CAN_STAT_STATE 0, 1), (R.CAN_STAT_RESTR 0, 1)] with can := Vector.replicate 2 { CanDyn.reset with running := true } },
     by decide, by decide⟩,
   ⟨0, 0,
     { st [(R.PWR_STAT_DOM_ON, 255), (R.CAN_CFG_EN 0, 1), (R.CAN_STAT_STATE 0, 1), (R.CAN_TXPEND_PEND 0, 1)] with can := Vector.replicate 2 { CanDyn.reset with running := true } },
     by decide, by decide, by decide⟩,
   ⟨0, 0,
     { st [(R.PWR_STAT_DOM_ON, 255), (R.CAN_CFG_EN 0, 1), (R.CAN_STAT_STATE 0, 1), (R.CAN_TXPEND_PEND 0, 1)] with can := Vector.replicate 2 { CanDyn.reset with running := true, sending := some 0 } },
     by decide, by decide, by decide⟩,
   ⟨{ st [(R.PWR_STAT_DOM_ON, 255), (R.CAN_CFG_EN 0, 1), (R.CAN_STAT_STATE 0, 1)] with can := Vector.replicate 2 { CanDyn.reset with running := true } },
     by decide⟩,
   ⟨{ st [(R.PWR_STAT_DOM_ON, 255), (R.CAN_CFG_EN 0, 1), (R.CAN_STAT_STATE 0, 1)] with can := Vector.replicate 2 { CanDyn.reset with running := true } },
     by decide⟩,
   ⟨0, 0,
     { st [(R.PWR_STAT_DOM_ON, 255), (R.CAN_CFG_EN 0, 1), (R.CAN_STAT_STATE 0, 1), (R.CAN_CFG_TTEN 0, 0), (R.CAN_TXPEND_PEND 0, 1)] with can := Vector.replicate 2 { CanDyn.reset with running := true, sending := none } },
     by decide, by decide, by decide, by decide, by decide⟩,
   ⟨0, 0,
     { st [(R.PWR_STAT_DOM_ON, 255), (R.CAN_CFG_EN 0, 1), (R.CAN_STAT_STATE 0, 1)] with can := Vector.replicate 2 { CanDyn.reset with running := true, sending := some 0, window := none } },
     by constructor <;> decide, by decide, by decide, by decide, by decide⟩,
   ⟨0, 0,
     { st [(R.PWR_STAT_DOM_ON, 255), (R.CAN_CFG_EN 0, 1), (R.CAN_STAT_STATE 0, 1)] with can := Vector.replicate 2 { CanDyn.reset with running := true, sending := some 0, window := none, aborted := false } },
     by constructor <;> decide, by decide, by decide, by decide, by decide, by decide⟩,
   ⟨0, 0,
     { st [(R.PWR_STAT_DOM_ON, 255), (R.CAN_CFG_EN 0, 1), (R.CAN_STAT_STATE 0, 1)] with can := Vector.replicate 2 { CanDyn.reset with running := true, sending := some 0, window := none, aborted := false } },
     by constructor <;> decide, by decide, by decide, by decide, by decide, by decide, by decide⟩,
   ⟨0, 0,
     { st [(R.PWR_STAT_DOM_ON, 255), (R.CAN_CFG_EN 0, 1), (R.CAN_STAT_STATE 0, 1), (R.CAN_CFG_RETRYLIM 0, 1)] with can := Vector.replicate 2 { CanDyn.reset with running := true, sending := some 0, window := none, aborted := false, fails := List.replicate 64 2 } },
     by constructor <;> decide, by decide, by decide, by decide, by decide, by decide, by decide, by decide⟩,
   ⟨0,
     { st [(R.PWR_STAT_DOM_ON, 255), (R.CAN_CFG_EN 0, 1), (R.CAN_STAT_STATE 0, 1)] with can := Vector.replicate 2 { CanDyn.reset with running := true, sending := some 64 } },
     by constructor <;> decide, by decide⟩,
   ⟨0,
     { st [(R.PWR_STAT_DOM_ON, 255), (R.CAN_CFG_EN 0, 1), (R.CAN_STAT_STATE 0, 1), (R.CAN_CFG_TTEN 0, 1), (R.CAN_CFG_NETTIME 0, 0), (R.CAN_CFG_TTROLE 0, 1)] with can := Vector.replicate 2 { CanDyn.reset with running := true, sending := none } },
     by decide, by decide, by decide, by decide, by decide, by decide⟩,
   ⟨0,
     { st [(R.PWR_STAT_DOM_ON, 255), (R.CAN_CFG_EN 0, 1), (R.CAN_STAT_STATE 0, 1), (R.CAN_CFG_TTEN 0, 1), (R.CAN_CFG_NETTIME 0, 1), (R.CAN_CFG_TTROLE 0, 1)] with can := Vector.replicate 2 { CanDyn.reset with running := true, sending := none, refDue := some 0 } },
     0, by decide, by decide, by decide, by decide, by decide, by decide, by decide⟩,
   ⟨0, 0,
     { st [(R.PWR_STAT_DOM_ON, 255), (R.CAN_CFG_EN 0, 1), (R.CAN_STAT_STATE 0, 1), (R.CAN_CFG_TTEN 0, 1), (R.CAN_STAT_TTSYNC 0, 1)] with can := Vector.replicate 2 { CanDyn.reset with running := true } },
     by decide, by decide, by decide, by decide⟩,
   ⟨0,
     { st [(R.PWR_STAT_DOM_ON, 255), (R.CAN_CFG_EN 0, 1), (R.CAN_STAT_STATE 0, 1), (R.CAN_CFG_TTEN 0, 1), (R.CAN_STAT_TTSYNC 0, 1)] with can := Vector.replicate 2 { CanDyn.reset with running := true } },
     by decide, by decide, by decide, by decide⟩,
   ⟨{ st [(R.PWR_STAT_DOM_ON, 255), (R.CAN_CFG_EN 0, 1), (R.CAN_STAT_STATE 0, 1)] with can := Vector.replicate 2 { CanDyn.reset with running := true } },
     by decide⟩,
   ⟨{ st [(R.PWR_STAT_DOM_ON, 255), (R.CAN_CFG_EN 0, 1), (R.CAN_STAT_STATE 0, 1), (R.CAN_CFG_WAKEN 0, 1)] with can := Vector.replicate 2 { CanDyn.reset with running := false } },
     by decide, by decide⟩⟩

theorem witness_FieldIo :
    (∃ (k : Fin 24) (level : Bool) (s : State), s.domOn 5 = true ∧ (s.cutOff ↑k = false ∨ s.isOut ↑k = true) ∧ (¬edgeSelected s k
      level)) ∧
    (∃ (k : Fin 24) (level : Bool) (s : State), s.domOn 5 = true ∧ (s.cutOff ↑k = false ∨ s.isOut ↑k = true) ∧ edgeSelected s k level) ∧
    (∃ (k : Fin 24) (s : State), FieldUp s ∧ s.get (R.FIO_CFG_FUNC ↑k) = 1 ∧ s.on (R.FIO_CFG_OWEN ↑k) = true ∧ s.on (R.FIO_CHST_OPEN ↑k)
      = false) ∧
    (∃ (k : Fin 24) (s : State), FieldUp s ∧ s.isOut ↑k = true ∧ bit s.fio.groups (↑k / 4) ≠ 0 ∧ s.on (R.FIO_CHST_LATCHED ↑k) = false) ∧
    (∃ (k : Fin 24) (s : State), s.on (R.FIO_CHST_LATCHED ↑k) = true ∧ s.get (R.FIO_CHST_CAUSE ↑k) ∈ [1, 2, 5]) ∧
    (∃ (k : Fin 24) (s : State), s.on (R.FIO_CHST_LATCHED ↑k) = true ∧ s.get (R.FIO_CHST_CAUSE ↑k) ∈ [3, 4, 6]) ∧
    (∃ (s : State), s.domOn 5 = true) ∧
    (∃ (k : Fin 24) (s : State), 16 ≤ ↑k ∧ s.fioPin ↑k = Pin.high ∧ s.arc.linkF.up = true) ∧
    (∃ (k : Fin 16) (v : Nat) (w : Nat) (s : State), s.staged = [{ fld := R.FIO_PWM_PER ↑k, val := v, own := Own.pwmPeriod, idx := ↑k },
      { fld := R.FIO_PWM_DUTY ↑k, val := w, own := Own.pwmPeriod, idx := ↑k }]) ∧
    (∃ (sup : Fin 2) (s : State), FieldUp s ∧ s.on (supFields ↑sup).fst = false) ∧
    (∃ (s : State), FieldUp s) ∧
    (∃ (sup : Fin 2) (s : State), FieldUp s ∧ s.on (supFields ↑sup).snd.fst = false) ∧
    (∃ (sup : Fin 2) (s : State), FieldUp s ∧ s.on (supFields ↑sup).snd.fst = true) ∧
    (∃ (s : State), s.domOn 5 = true) ∧
    (∃ (s : State), s.domOn 5 = true) ∧
    (∃ (s : State), FieldUp s ∧ s.fio.wdRun = true ∧ s.on R.FIO_SUP_WDEXP = false) :=
  ⟨⟨0, false, { st [(R.FIO_SUP_CUTOFF_A, 0), (R.PWR_STAT_DOM_ON, 255)] with arc.linkF.up := true }, by decide, by decide,
     by unfold edgeSelected; decide⟩,
   ⟨0, true, { st [(R.FIO_SUP_CUTOFF_A, 0), (R.PWR_STAT_DOM_ON, 255), (R.FIO_CFG_FUNC 0, 1)] with arc.linkF.up := true }, by decide,
     by decide, by unfold edgeSelected; decide⟩,
   ⟨0,
     { st [(R.FIO_SUP_CUTOFF_A, 0), (R.PWR_STAT_DOM_ON, 255), (R.FIO_CFG_FUNC 0, 1), (R.FIO_CFG_OWEN 0, 1), (R.FIO_CHST_OPEN 0, 0)] with arc.linkF.up := true },
     by constructor <;> decide, by decide, by decide, by decide⟩,
   ⟨0,
     { st [(R.FIO_SUP_CUTOFF_A, 0), (R.PWR_STAT_DOM_ON, 255), (R.FIO_CHST_LATCHED 0, 0), (R.FIO_CFG_FUNC 0, 2)] with arc.linkF.up := true, fio.groups := 1 },
     by constructor <;> decide, by decide, by decide, by decide⟩,
   ⟨0,
     { st [(R.FIO_SUP_CUTOFF_A, 0), (R.PWR_STAT_DOM_ON, 255), (R.FIO_CHST_LATCHED 0, 1), (R.FIO_CHST_CAUSE 0, 1)] with arc.linkF.up := true },
     by decide, by decide⟩,
   ⟨0,
     { st [(R.FIO_SUP_CUTOFF_A, 0), (R.PWR_STAT_DOM_ON, 255), (R.FIO_CHST_LATCHED 0, 1), (R.FIO_CHST_CAUSE 0, 3)] with arc.linkF.up := true },
     by decide, by decide⟩,
   ⟨{ st [(R.FIO_SUP_CUTOFF_A, 0), (R.PWR_STAT_DOM_ON, 255)] with arc.linkF.up := true }, by decide⟩,
   ⟨16,
     { st [(R.FIO_SUP_CUTOFF_A, 0), (R.PWR_STAT_DOM_ON, 255), (R.SYS_STATE_STATE, 1), (R.FIO_CFG_FUNC 16, 2), (R.FIO_OUT_OUT, 0x10000), (R.FIO_SUP_CUTOFF_B, 0)] with arc.linkF.up := true, fio.groups := 16 },
     by decide, by decide, by decide⟩,
   ⟨0, 0, 0,
     { st [(R.FIO_SUP_CUTOFF_A, 0), (R.PWR_STAT_DOM_ON, 255)] with arc.linkF.up := true, staged := [{ fld := R.FIO_PWM_PER 0, val := 0, own := Own.pwmPeriod, idx := 0 }, { fld := R.FIO_PWM_DUTY 0, val := 0, own := Own.pwmPeriod, idx := 0 }] },
     by decide⟩,
   ⟨0, { st [(R.FIO_SUP_CUTOFF_A, 0), (R.PWR_STAT_DOM_ON, 255)] with arc.linkF.up := true }, by constructor <;> decide, by decide⟩,
   ⟨{ st [(R.FIO_SUP_CUTOFF_A, 0), (R.PWR_STAT_DOM_ON, 255)] with arc.linkF.up := true }, by constructor <;> decide⟩,
   ⟨0, { st [(R.FIO_SUP_CUTOFF_A, 0), (R.PWR_STAT_DOM_ON, 255)] with arc.linkF.up := true }, by constructor <;> decide, by decide⟩,
   ⟨0, { st [(R.FIO_SUP_CUTOFF_A, 1), (R.PWR_STAT_DOM_ON, 255)] with arc.linkF.up := true }, by constructor <;> decide, by decide⟩,
   ⟨{ st [(R.FIO_SUP_CUTOFF_A, 0), (R.PWR_STAT_DOM_ON, 255)] with arc.linkF.up := true }, by decide⟩,
   ⟨{ st [(R.FIO_SUP_CUTOFF_A, 0), (R.PWR_STAT_DOM_ON, 255)] with arc.linkF.up := true }, by decide⟩,
   ⟨{ st [(R.FIO_SUP_CUTOFF_A, 0), (R.PWR_STAT_DOM_ON, 255), (R.FIO_SUP_WDEXP, 0)] with arc.linkF.up := true, fio.wdRun := true },
     by constructor <;> decide, by decide, by decide⟩⟩

theorem witness_SafeTorqueOff :
    (∃ (us : Nat) (s : State), s.domOn 5 = true ∧ s.on R.SAF_STAT_REQ = false ∧ us < s.hl R.SAF_CFG_STOFLT) ∧
    (∃ (us : Nat) (s : State), s.domOn 5 = true ∧ s.on R.SAF_STAT_REQ = false ∧ s.hl R.SAF_CFG_STOFLT ≤ us) ∧
    (∃ (s : State), s.domOn 5 = true) ∧
    (∃ (s : State), s.on R.SAF_STAT_DIAG = false ∧ s.sto.step = 2) ∧
    (∃ (s : State), s.on R.SAF_STAT_DIAG = false ∧ s.sto.step = 3) ∧
    (∃ (s : State), s.sto.step = 4 ∧ (s.dieUsed 0 = true → s.on R.BUS_STAT_VDRV_OK_A = true) ∧ (s.dieUsed 1 = true → s.on
      R.BUS_STAT_VDRV_OK_B = true)) ∧
    (∃ (o : StoObs) (s : State), s.domOn 5 = true ∧ s.sto.cmd1 = false ∧ s.sto.cmd2 = false ∧ o.i1 = false ∧ o.i2 = false ∧ o.vgs1V =
      false) ∧
    (∃ (o : StoObs) (s : State), s.domOn 5 = true ∧ s.sto.cmd1 = false ∧ s.sto.cmd2 = false ∧ (o.i1 = true ∨ o.i2 = true ∨ o.vgs1V =
      true) ∧ s.on R.SAF_STAT_DIAG = false) ∧
    (∃ (s : State), s.domOn 5 = true ∧ s.on R.SAF_STAT_RELSEQ = false ∧ s.on R.SAF_STAT_REQ = false ∧ s.sto.cmd1 = true ∧ s.sto.cmd2 =
      true) ∧
    (∃ (s : State), s.domOn 5 = true ∧ s.on R.SAF_STAT_RELSEQ = false ∧ s.on R.SAF_STAT_REQ = false ∧ s.sto.cmd1 = true ∧ s.sto.cmd2 =
      true ∧ s.on R.SAF_STAT_DIAG = false) ∧
    (∃ (c : Instr) (cause : Nat) (s : State), s.domOn 5 = true ∧
      ((c, cause) ∈ [(Instr.stoInputDisagree, 1), (Instr.stoClockFailure, 4), (Instr.stoFbMismatch, 5)]) ∧ s.on R.SAF_STAT_DIAG = false) ∧
    (∃ (c : Instr) (cause : Nat) (s : State), s.domOn 5 = true ∧
      ((c, cause) ∈ [(Instr.stoInputDisagree, 1), (Instr.stoClockFailure, 4), (Instr.stoFbMismatch, 5)]) ∧ s.on R.SAF_STAT_DIAG = true) ∧
    (∃ (k : Fin 4) (s : State), s.domOn 5 = true ∧ s.bitOf R.BUS_STAT_ABS ↑k = true ∧ s.on R.BUS_STAT_BACKSTOP = false) ∧
    (∃ (s : State), s.on R.BUS_STAT_BACKSTOP = true ∧ s.on R.SAF_STAT_REQ = true) ∧
    (∃ (s : State), s.on R.BUS_STAT_BACKSTOP = true ∧ s.on R.SAF_STAT_REQ = false ∧ s.domOn 5 = true ∧ s.on R.SAF_STAT_DIAG = false ∧
      s.sto.step10 = true ∧ s.on R.SAF_STAT_RELSEQ = false ∧ s.sto.cmd1 = false ∧ s.sto.cmd2 = false) ∧
    (∃ (k : Fin 4) (s : State), s.busEn k = true ∧ s.busOnAny ↑k = true ∧ s.bus[k].uvRaised = false) :=
  ⟨⟨0, { st [(R.PWR_STAT_DOM_ON, 255), (R.SAF_STAT_REQ, 0)] with arc.hlCopy := [(R.SAF_CFG_STOFLT.key, 100)] }, by decide, by decide,
     by decide⟩,
   ⟨0, st [(R.PWR_STAT_DOM_ON, 255), (R.SAF_STAT_REQ, 0)], by decide, by decide, by decide⟩,
   ⟨st [(R.PWR_STAT_DOM_ON, 255)], by decide⟩,
   ⟨{ st [(R.SAF_STAT_DIAG, 0)] with sto.step := 2 }, by decide, by decide⟩,
   ⟨{ st [(R.SAF_STAT_DIAG, 0)] with sto.step := 3 }, by decide, by decide⟩,
   ⟨{ st [] with sto.step := 4 }, by decide, by decide, by decide⟩,
   ⟨⟨false, false, false, false, false⟩, { st [(R.PWR_STAT_DOM_ON, 255)] with sto.cmd1 := false, sto.cmd2 := false }, by decide,
     by decide, by decide, by decide, by decide, by decide⟩,
   ⟨⟨false, true, false, false, false⟩,
     { st [(R.PWR_STAT_DOM_ON, 255), (R.SAF_STAT_DIAG, 0)] with sto.cmd1 := false, sto.cmd2 := false }, by decide, by decide, by decide,
     by decide, by decide⟩,
   ⟨{ st [(R.PWR_STAT_DOM_ON, 255), (R.SAF_STAT_RELSEQ, 0), (R.SAF_STAT_REQ, 0)] with sto.cmd1 := true, sto.cmd2 := true }, by decide,
     by decide, by decide, by decide, by decide⟩,
   ⟨{ st [(R.PWR_STAT_DOM_ON, 255), (R.SAF_STAT_RELSEQ, 0), (R.SAF_STAT_REQ, 0), (R.SAF_STAT_DIAG, 0)] with sto.cmd1 := true, sto.cmd2 := true },
     by decide, by decide, by decide, by decide, by decide, by decide⟩,
   ⟨.stoInputDisagree, 1, st [(R.PWR_STAT_DOM_ON, 255), (R.SAF_STAT_DIAG, 0)], by decide, by decide, by decide⟩,
   ⟨.stoInputDisagree, 1, st [(R.PWR_STAT_DOM_ON, 255), (R.SAF_STAT_DIAG, 1)], by decide, by decide, by decide⟩,
   ⟨0, st [(R.PWR_STAT_DOM_ON, 255), (R.BUS_STAT_ABS, 1), (R.BUS_STAT_BACKSTOP, 0)], by decide, by decide, by decide⟩,
   ⟨st [(R.BUS_STAT_BACKSTOP, 1), (R.SAF_STAT_REQ, 1)], by decide, by decide⟩,
   ⟨{ st [(R.BUS_STAT_BACKSTOP, 1), (R.SAF_STAT_REQ, 0), (R.PWR_STAT_DOM_ON, 255), (R.SAF_STAT_DIAG, 0), (R.SAF_STAT_RELSEQ, 0)] with sto.step10 := true, sto.cmd1 := false, sto.cmd2 := false },
     by decide, by decide, by decide, by decide, by decide, by decide, by decide, by decide⟩,
   ⟨0,
     { st [(R.SLC_AXST_AXST 0, 2)] with arc.hlCopy := [((R.BUS_CLIM_EN 0).key, 1)], bus := Vector.replicate 4 { BusDyn.reset with uvRaised := false } },
     by decide, by decide, by decide⟩⟩

theorem witness_TwinMembers :
    (∃ (s : State), s.domOn 4 = true) ∧
    (∃ (s : State), s.on R.TWN_STAT_LINK = true) ∧
    (∃ (s : State), s.on R.TWN_CFG_EN = true ∧ s.dev ≠ 0 ∧ s.twin.sendDue = true) ∧
    (∃ (f : MirrorFrame) (s : State), TwinOn s ∧ (f.intact = false ∨ f.type ≠ 1)) ∧
    (∃ (f : MirrorFrame) (s : State), TwinOn s ∧ f.intact = true ∧ f.type = 1 ∧ f.ecc = EccSeen.double) ∧
    (∃ (f : MirrorFrame) (s : State), TwinOn s ∧ f.intact = true ∧ f.type = 1 ∧ f.ecc ≠ EccSeen.double ∧ s.get R.TWN_STAT_LSTATE ≠ 2 ∧
      f.epoch < 2 ^ 32) ∧
    (∃ (f : MirrorFrame) (r : MirrorAxis) (s : State), TwinOn s ∧ f.intact = true ∧ f.type = 1 ∧ f.ecc ≠ EccSeen.double ∧ s.get
      R.TWN_STAT_LSTATE ≠ 2 ∧ s.dev = 3 ∧ f.axes = [r] ∧ f.groups = [] ∧ r.slice ∈ s.axes ∧ r.axst < 5 ∧ r.mode < 6 ∧ (∀ (l : Latched),
      l ∈ s.faults.latched → l.skind ≠ 5)) ∧
    (∃ (s : State), s.on R.TWN_CFG_EN = true ∧ s.dev ≠ 0 ∧ s.twin.silent = false) ∧
    (∃ (s : State), s.on R.TWN_CFG_EN = true ∧ s.dev ≠ 0 ∧ s.twin.unsynced = false ∧ s.twin.pSyncedOnce = true ∧ s.on R.TWN_STAT_PSYNCED
      = false) ∧
    (∃ (level : Bool) (s : State), (s.on R.TWN_CFG_EN = false ∨ level = true ∧ s.get R.TWN_STAT_LSTATE ≠ 1)) ∧
    (∃ (s : State), s.on R.TWN_CFG_EN = true ∧ s.on R.TWN_STAT_HOLD_IN = false ∧ s.get R.TWN_STAT_LSTATE = 1 ∧ s.get R.SYS_STRAP_RANK =
      1) ∧
    (∃ (s : State), s.on R.TWN_CFG_EN = true ∧ s.on R.TWN_STAT_HOLD_IN = true ∧ s.dev = 3 ∧ s.get R.TWN_STAT_LSTATE = 0) ∧
    (∃ (s : State), s.on R.TWN_STAT_HOLD_IN = false ∧ s.on R.TWN_STAT_SYNCED = true ∧ s.claimWanted = true) ∧
    (∃ (s : State), s.get R.TWN_STAT_LSTATE = 1 ∧ s.on R.TWN_STAT_HOLD_IN = false) ∧
    (∃ (s : State), (s.get R.TWN_STAT_LSTATE = 1 ∧ s.on R.TWN_STAT_HOLD_IN = true ∨ s.get R.TWN_STAT_LSTATE = 2)) ∧
    (∃ (s : State), s.get R.TWN_STAT_LSTATE = 2) ∧
    (∃ (s : State), s.on R.TWN_STAT_GAP = true) ∧
    (∃ (s : State), s.on R.TWN_CFG_EN = true ∧ s.dev = 3 ∧ s.on R.TWN_STAT_SYNCED = true ∧ s.on R.SYS_STATE_TORQUE_OFF = false ∧ s.get
      R.TWN_CFG_REVERT = s.get R.SYS_STRAP_RANK + 1) :=
  ⟨⟨st [(R.TWN_CFG_EN, 1), (R.SYS_STATE_STATE, 3), (R.TWN_STAT_LINK, 1), (R.PWR_STAT_DOM_ON, 255)], by decide⟩,
   ⟨st [(R.TWN_CFG_EN, 1), (R.SYS_STATE_STATE, 3), (R.TWN_STAT_LINK, 1)], by decide⟩,
   ⟨{ st [(R.TWN_CFG_EN, 1), (R.SYS_STATE_STATE, 3), (R.TWN_STAT_LINK, 1)] with twin.sendDue := true }, by decide, by decide, by decide⟩,
   ⟨{ mf with intact := false }, st [(R.TWN_CFG_EN, 1), (R.SYS_STATE_STATE, 3), (R.TWN_STAT_LINK, 1)], by constructor <;> decide,
     by decide⟩,
   ⟨{ mf with ecc := .double }, st [(R.TWN_CFG_EN, 1), (R.SYS_STATE_STATE, 3), (R.TWN_STAT_LINK, 1)], by constructor <;> decide,
     by decide, by decide, by decide⟩,
   ⟨mf, st [(R.TWN_CFG_EN, 1), (R.SYS_STATE_STATE, 3), (R.TWN_STAT_LINK, 1)], by constructor <;> decide, by decide, by decide,
     by decide, by decide, by decide⟩,
   ⟨mf, mx,
     { st [(R.TWN_CFG_EN, 1), (R.SYS_STATE_STATE, 3), (R.TWN_STAT_LINK, 1)] with ax := Vector.replicate 16 { AxisDyn.reset with used := true } },
     by constructor <;> decide, by decide, by decide, by decide, by decide, by decide, by decide, by decide, by decide, by decide,
     by decide, by decide⟩,
   ⟨{ st [(R.TWN_CFG_EN, 1), (R.SYS_STATE_STATE, 3), (R.TWN_STAT_LINK, 1)] with twin.silent := false }, by decide, by decide, by decide⟩,
   ⟨{ st [(R.TWN_CFG_EN, 1), (R.SYS_STATE_STATE, 3), (R.TWN_STAT_LINK, 1), (R.TWN_STAT_PSYNCED, 0)] with twin.unsynced := false, twin.pSyncedOnce := true },
     by decide, by decide, by decide, by decide, by decide⟩,
   ⟨false, st [(R.TWN_CFG_EN, 0), (R.SYS_STATE_STATE, 3), (R.TWN_STAT_LINK, 1)], by decide⟩,
   ⟨st [(R.TWN_CFG_EN, 1), (R.SYS_STATE_STATE, 3), (R.TWN_STAT_LINK, 1), (R.TWN_STAT_HOLD_IN, 0), (R.TWN_STAT_LSTATE, 1),
     (R.SYS_STRAP_RANK, 1)], by decide, by decide, by decide, by decide⟩,
   ⟨st [(R.TWN_CFG_EN, 1), (R.SYS_STATE_STATE, 3), (R.TWN_STAT_LINK, 1), (R.TWN_STAT_HOLD_IN, 1), (R.TWN_STAT_LSTATE, 0)], by decide,
     by decide, by decide, by decide⟩,
   ⟨st [(R.TWN_CFG_EN, 1), (R.SYS_STATE_STATE, 3), (R.TWN_STAT_LINK, 1), (R.TWN_STAT_HOLD_IN, 0), (R.TWN_STAT_SYNCED, 1),
     (R.SCH_HLTH_LAST_OK, 1)], by decide, by decide, by decide⟩,
   ⟨st [(R.TWN_CFG_EN, 1), (R.SYS_STATE_STATE, 3), (R.TWN_STAT_LINK, 1), (R.TWN_STAT_LSTATE, 1), (R.TWN_STAT_HOLD_IN, 0)], by decide,
     by decide⟩,
   ⟨st [(R.TWN_CFG_EN, 1), (R.SYS_STATE_STATE, 3), (R.TWN_STAT_LINK, 1), (R.TWN_STAT_LSTATE, 2)], by decide⟩,
   ⟨st [(R.TWN_CFG_EN, 1), (R.SYS_STATE_STATE, 3), (R.TWN_STAT_LINK, 1), (R.TWN_STAT_LSTATE, 2)], by decide⟩,
   ⟨st [(R.TWN_CFG_EN, 1), (R.SYS_STATE_STATE, 3), (R.TWN_STAT_LINK, 1), (R.TWN_STAT_GAP, 1)], by decide⟩,
   ⟨st [(R.TWN_CFG_EN, 1), (R.SYS_STATE_STATE, 3), (R.TWN_STAT_LINK, 1), (R.TWN_STAT_SYNCED, 1), (R.SYS_STATE_TORQUE_OFF, 0),
     (R.TWN_CFG_REVERT, 1), (R.SYS_STRAP_RANK, 0)], by decide, by decide, by decide, by decide, by decide⟩⟩

theorem witness_PowerAndThermal :
    (∃ (s : State), s.on R.PWR_PLVL_BUSY = true ∧ s.pw.goal < 4) ∧
    (∃ (c : Instr) (v : Nat) (s : State), (c, v) ∈ [(Instr.sleepS1, 1), (Instr.sleepS2, 2), (Instr.sleepS3, 3)] ∧ s.staged = [] ∧
      s.sleepCode ≠ 0) ∧
    (∃ (c : Instr) (v : Nat) (s : State), (c, v) ∈ [(Instr.sleepS1, 1), (Instr.sleepS2, 2), (Instr.sleepS3, 3)] ∧ s.staged = [] ∧
      s.sleepCode = 0) ∧
    (∃ (s : State), s.pw.early = none ∧ s.pw.entry = 1) ∧
    (∃ (s : State), s.pw.early = none ∧ s.pw.entry = 2) ∧
    (∃ (s : State), s.pw.early = none ∧ s.pw.entry = 3) ∧
    (∃ (x : WakeSrc) (s : State), WakeHeard s x ∧ s.pw.entry = 0 ∧ s.pw.step = 0 ∧ s.pw.waitRetry = false ∧ (s.pw.sleep = 1 ∨ s.pw.sleep
      = 2)) ∧
    (∃ (x : WakeSrc) (s : State), WakeHeard s x ∧ s.pw.entry ≠ 0 ∧ s.pw.early = none) ∧
    (∃ (s : State), s.leaving = false ∧ s.boot.resetLow = false ∧ s.pw.step = 1) ∧
    (∃ (s : State), s.leaving = false ∧ s.boot.resetLow = false ∧ s.pw.step = 2) ∧
    (∃ (s : State), s.leaving = false ∧ s.boot.resetLow = false ∧ s.pw.step = 3) ∧
    (∃ (s : State), s.leaving = false ∧ s.boot.resetLow = false ∧ s.pw.step = 4) ∧
    (∃ (s : State), s.pw.step ≠ 0 ∧ s.pw.step < 8) ∧
    (∃ (s : State), s.pw.waitRetry = true) ∧
    (∃ (r : Reading) (s : State), s.boot.rind = true ∧ s.zonesLoaded = false ∧ r.sensor < 14 ∧ r.raw < 4096 ∧ -32768 ≤ r.temp ∧ r.temp <
      32768) ∧
    (∃ (s : State), s.boot.rind = true ∧ s.zonesLoaded = true ∧ ZonesRead s ∧ s.on R.SYS_STATE_THROTTLE = false ∧ s.pw.zones.length = 14
      ∧ (∀ (z : Nat), z < 14 → s.inRequest z = false)) ∧
    (∃ (s : State), s.boot.rind = true ∧ s.zonesLoaded = true ∧ ZonesRead s ∧ s.on R.SYS_STATE_THROTTLE = false ∧ s.pw.zones.length = 14
      ∧ (∃ (z : Nat), z < 14 ∧ s.inRequest z = true ∧ s.released z = false)) ∧
    (∃ (s : State), s.on R.SYS_STATE_THROTTLE = true ∧ s.pw.enforcing = false ∧ s.pw.zones.length = 14) ∧
    (∃ (z : Fin 14) (s : State), s.pw.enforcing = true ∧ (s.zone ↑z).due = true ∧ s.pw.zones.length = 14) :=
  ⟨⟨st [(R.PWR_PLVL_BUSY, 1)], by decide, by decide⟩,
   ⟨.sleepS1, 1, { st [] with staged := [] }, by decide, by decide, by decide⟩,
   ⟨.sleepS1, 1, { st [(R.SYS_STATE_STATE, 1), (R.PWR_WCFG_ETH0, 1), (R.PWR_STAT_DOM_ON, 255)] with staged := [] }, by decide,
     by decide, by decide⟩,
   ⟨{ st [] with pw.early := none, pw.entry := 1 }, by decide, by decide⟩,
   ⟨{ st [] with pw.early := none, pw.entry := 2 }, by decide, by decide⟩,
   ⟨{ st [] with pw.early := none, pw.entry := 3 }, by decide, by decide⟩,
   ⟨.eth0, { st [] with pw.entry := 0, pw.step := 0, pw.waitRetry := false, pw.sleep := 1, pw.armed := [(1, false)] },
     by constructor <;> decide, by decide, by decide, by decide, by decide⟩,
   ⟨.eth0, { st [] with pw.early := none, pw.entry := 1, pw.armed := [(1, false)] }, by constructor <;> decide, by decide, by decide⟩,
   ⟨{ st [] with leaving := false, boot.resetLow := false, pw.step := 1 }, by decide, by decide, by decide⟩,
   ⟨{ st [] with leaving := false, boot.resetLow := false, pw.step := 2 }, by decide, by decide, by decide⟩,
   ⟨{ st [] with leaving := false, boot.resetLow := false, pw.step := 3 }, by decide, by decide, by decide⟩,
   ⟨{ st [] with leaving := false, boot.resetLow := false, pw.step := 4 }, by decide, by decide, by decide⟩,
   ⟨{ st [] with pw.step := 1 }, by decide, by decide⟩,
   ⟨{ st [] with pw.waitRetry := true }, by decide⟩,
   ⟨⟨0, 0, 0⟩, { st [] with boot.rind := true }, by decide, by decide, by decide, by decide, by decide, by decide⟩,
   ⟨{ st [(R.SYS_STATE_THROTTLE, 0), (R.SYS_STATE_STATE, 1)] with boot.rind := true, pw.zones := List.replicate 14 { ZoneDyn.reset with raw := 2000 } },
     by decide, by decide, by unfold ZonesRead; decide, by decide, by decide, by decide⟩,
   ⟨{ st [(R.SYS_STATE_THROTTLE, 0), (R.SYS_STATE_STATE, 1)] with boot.rind := true, pw.zones := List.replicate 14 { ZoneDyn.reset with raw := 2000, temps := [14000] } },
     by decide, by decide, by unfold ZonesRead; decide, by decide, by decide, by decide⟩,
   ⟨{ st [(R.SYS_STATE_THROTTLE, 1)] with pw.enforcing := false }, by decide, by decide, by decide⟩,
   ⟨0, { st [] with pw.enforcing := true, pw.zones := List.replicate 14 { ZoneDyn.reset with due := true } }, by decide, by decide,
     by decide⟩⟩

theorem witness_FaultsAndClear :
    (∃ (r : FaultSpec) (s : State), FaultAlone s r ∧ r.sev ≤ 1 ∧ s.faults.log.length < 256 ∧ newestOf r.code r.skind r.sindex
      s.faults.log = none) ∧
    (∃ (r : FaultSpec) (k : Nat) (x : LogEntry) (s : State), FaultAlone s r ∧ r.sev ≤ 1 ∧ newestOf r.code r.skind r.sindex s.faults.log
      = some (k, x) ∧ s.clock.up ≤ x.at_ + secUnit ∧ x.merge < 255) ∧
    (∃ (r : FaultSpec) (s : State), FaultAlone s r ∧ 2 ≤ r.sev ∧ r.sev ≤ 4) ∧
    (∃ (r : FaultSpec) (n : Slice) (s : State), FaultAlone s r ∧ 2 ≤ r.sev ∧ r.sev ≤ 4 ∧ n ∈ s.axes ∧ r.skind = 1 ∧ r.sindex = ↑n ∧
      s.covers 1 (↑n) n = true ∧ s.worst n < r.sev ∧ s.axst n = 2) ∧
    (∃ (k : Nat) (i : Nat) (s : State), s.domOn 0 = true ∧ k ≠ 1 ∧ scopeValid k i = false) ∧
    (∃ (k : Nat) (i : Nat) (s : State), s.domOn 0 = true ∧ k ≠ 1 ∧ scopeValid k i = true ∧ (LatchedIn s k i fun (l : Latched) =>
      s.present l = true)) ∧
    (∃ (k : Nat) (i : Nat) (s : State), s.domOn 0 = true ∧ k ≠ 1 ∧ scopeValid k i = true ∧ (¬LatchedIn s k i fun (l : Latched) =>
      s.present l = true) ∧ s.reactionRuns k i = true) ∧
    (∃ (k : Nat) (i : Nat) (s : State), s.domOn 0 = true ∧ k ≠ 1 ∧ scopeValid k i = true ∧ (¬LatchedIn s k i fun (l : Latched) =>
      s.present l = true) ∧ s.reactionRuns k i = false ∧ (LatchedIn s k i fun (l : Latched) => l.sev = 5)) ∧
    (∃ (k : Nat) (i : Nat) (s : State), s.domOn 0 = true ∧ k ≠ 1 ∧ scopeValid k i = true ∧ (¬LatchedIn s k i fun (l : Latched) =>
      s.present l = true ∨ l.sev = 5) ∧ s.reactionRuns k i = false) ∧
    (∃ (s : State), s.domOn 0 = true) :=
  ⟨⟨fs, st [(R.PWR_STAT_DOM_ON, 255)], by constructor <;> decide, by decide, by decide, by decide⟩,
   ⟨fs, 0, { FaultRec.entry ⟨0x0E05, 0, 0, 0, 255, 0, false, false⟩ false [] with merge := 0 },
     { st [(R.PWR_STAT_DOM_ON, 255)] with faults.log := [(0, FaultRec.entry ⟨0x0E05, 0, 0, 0, 255, 0, false, false⟩ false [])] },
     by constructor <;> decide, by decide, by decide, by decide, by decide⟩,
   ⟨{ fs with sev := 2 }, st [(R.PWR_STAT_DOM_ON, 255)], by constructor <;> decide, by decide, by decide⟩,
   ⟨{ fs with sev := 3, skind := 1 }, 0,
     { st [(R.PWR_STAT_DOM_ON, 255), (R.SLC_AXST_AXST 0, 2)] with ax := Vector.replicate 16 { AxisDyn.reset with used := true } },
     by constructor <;> decide, by decide, by decide, by decide, by decide, by decide, by decide, by decide, by decide⟩,
   ⟨0, 1, st [(R.PWR_STAT_DOM_ON, 255)], by decide, by decide, by decide⟩,
   ⟨0, 0, { st [(R.PWR_STAT_DOM_ON, 255), (R.SAF_STAT_DIAG, 1)] with faults.latched := [⟨0x1002, 4, 0, 0, 0, false⟩] }, by decide,
     by decide, by decide, by unfold LatchedIn; decide⟩,
   ⟨0, 0,
     { st [(R.PWR_STAT_DOM_ON, 255), (R.SLC_AXST_AXST 0, 3)] with faults.latched := [⟨0x0E05, 2, 0, 0, 0, false⟩], ax := Vector.replicate 16 { AxisDyn.reset with used := true, stop := .f2 } },
     by decide, by decide, by decide, by unfold LatchedIn; decide, by decide⟩,
   ⟨0, 0, { st [(R.PWR_STAT_DOM_ON, 255)] with faults.latched := [⟨0x0E05, 5, 0, 0, 0, false⟩] }, by decide, by decide, by decide,
     by unfold LatchedIn; decide, by decide, by unfold LatchedIn; decide⟩,
   ⟨0, 0, st [(R.PWR_STAT_DOM_ON, 255)], by decide, by decide, by decide, by unfold LatchedIn; decide, by decide⟩,
   ⟨st [(R.PWR_STAT_DOM_ON, 255)], by decide⟩⟩

end Sys2Proof.Tests
end

/-!
What a register word reads while L writes wait (R8). A read goes through the register file and through the parts of the state that the
live fields show; the list of staged writes is neither, so each function that a read calls gives the same with another list in its place.
-/

namespace Sys2Proof.Machine

variable (s : State) (l : List Staged)

theorem State.get_of_staged (f : Fld) : ({ s with staged := l } : State).get f = s.get f := rfl

theorem State.pairFunc_of_staged (n : Slice) : ({ s with staged := l } : State).pairFunc n = s.pairFunc n := rfl

theorem State.oddInPair_of_staged (n : Slice) : ({ s with staged := l } : State).oddInPair n = s.oddInPair n := by
  simp only [State.oddInPair, State.pairFunc_of_staged]

theorem State.rawWord_of_staged (fs : List FDef) (a : Nat) : ({ s with staged := l } : State).rawWord fs a = s.rawWord fs a := by
  simp only [State.rawWord, State.get_of_staged]

theorem State.logSlot_of_staged (k : Nat) : ({ s with staged := l } : State).logSlot k = s.logSlot k := rfl

theorem State.highest_of_staged : ({ s with staged := l } : State).highest = s.highest := rfl

theorem State.faultN_of_staged : ({ s with staged := l } : State).faultN = s.faultN := rfl

theorem State.fltAct_of_staged : ({ s with staged := l } : State).fltAct = s.fltAct := rfl

theorem State.armCount_of_staged (k : Nat) : ({ s with staged := l } : State).armCount k = s.armCount k := rfl

theorem State.rclm_of_staged : ({ s with staged := l } : State).rclm = s.rclm := rfl

/-- The live fields come from the fault engine, the scheduler, the cores, the clock, the armed moves and the twin. -/
theorem State.liveWord_of_staged (n : RegName) (idx : List Nat) (v : Nat) :
    ({ s with staged := l } : State).liveWord n idx v = s.liveWord n idx v := by
  simp only [State.liveWord, State.get_of_staged, State.logSlot_of_staged, State.highest_of_staged, State.faultN_of_staged,
    State.fltAct_of_staged, State.armCount_of_staged, State.rclm_of_staged]

/-- R8, over the places a word can come from: a reserved address, a register of a slice, a register of any other block. -/
theorem State.regWord_of_staged (a : Nat) : ({ s with staged := l } : State).regWord a = s.regWord a := by
  unfold State.regWord
  cases regAt a with
  | none => rfl
  | some found =>
    obtain ⟨r, idx⟩ := found
    cases sliceAt a with
    | none => simp only [State.liveWord_of_staged, State.rawWord_of_staged]
    | some n => simp only [State.oddInPair_of_staged, State.liveWord_of_staged, State.rawWord_of_staged]

end Sys2Proof.Machine

namespace Sys2Proof.Proofs

open Sys2Proof.Machine

/-- Settles O7: no function that a register read calls looks at the staged writes. -/
theorem stagedReadsInEffect : Obligations.StagedReadsInEffect := by
  unfold Obligations.StagedReadsInEffect
  exact State.regWord_of_staged

end Sys2Proof.Proofs

/-!
What the entry to HALT leaves of the module's own registers. The blocks SYS, PWR, IMG, FLT and BUS lie below 0x80000 (Table MAP.3); of their
fields the entry writes SYS_STATE.STATE, TOKEN and AX_ON and PWR_PLVL.BUSY. Each function that it calls has one lemma here, in the order
of the model.
-/

namespace Sys2Proof.Machine

/-- A field below 0x80000 that neither the axes' states, nor the level request that follows from them, nor the token write. -/
structure Fld.Standing (g : Fld) : Prop where
  low : g.key < 0x80000 * 8
  axOn : g.key ≠ R.SYS_STATE_AX_ON.key
  token : g.key ≠ R.SYS_STATE_TOKEN.key
  busy : g.key ≠ R.PWR_PLVL_BUSY.key

theorem Fld.standing_dev : R.SYS_STATE_STATE.Standing := by constructor <;> decide

theorem Fld.standing_imgCode : R.IMG_STAT_CODE.Standing := by constructor <;> decide

/-- A field written reads the value, held to its width. -/
theorem State.get_set_self (s : State) (f : Fld) (v : Nat) : (s.set f v).get f = v % 2 ^ f.w := by
  have h : lookupD (s.set f v).regs f.key f.rst = v % 2 ^ f.w := by
    unfold State.set
    by_cases hr : v % 2 ^ f.w = f.rst
    · rw [if_pos hr, lookupD_dropKey_self, hr]
    · rw [if_neg hr, lookupD_ordInsert_self (not_mem_dropKey _ _)]
  rw [State.get, h, Nat.mod_mod]

theorem State.get_set_ne {s : State} {f g : Fld} {v : Nat} (h : g.key ≠ f.key) : (s.set f v).get g = s.get g := by
  have hl : lookupD (s.set f v).regs g.key g.rst = lookupD s.regs g.key g.rst := by
    unfold State.set
    by_cases hr : v % 2 ^ f.w = f.rst
    · rw [if_pos hr, lookupD_dropKey_ne h]
    · rw [if_neg hr, lookupD_ordInsert_ne h, lookupD_dropKey_ne h]
  rw [State.get, hl, State.get]

@[simp] theorem State.get_ite {c : Prop} [Decidable c] (s t : State) (g : Fld) :
    (if c then s else t).get g = if c then s.get g else t.get g := apply_ite (State.get · g) c s t

@[simp] theorem State.raise_get (s : State) (r : FaultRec) (g : Fld) : (s.raise r).get g = s.get g := rfl

@[simp] theorem State.raiseMod_get (s : State) (code sev detail : Nat) (g : Fld) : (s.raiseMod code sev detail).get g = s.get g := rfl

@[simp] theorem State.passTo_get (s : State) (t : Nat) (g : Fld) : (s.passTo t).get g = s.get g := by
  unfold State.passTo
  split <;> rfl

/-- What no step of a fold changes, the fold does not change. -/
theorem State.each_get {α : Type} {g : Fld} {f : State → α → State} (h : ∀ s x, (f s x).get g = s.get g) (l : List α) (s : State) :
    (s.each l f).get g = s.get g := by
  induction l generalizing s with
  | nil => rfl
  | cons x t ih => exact (ih (f s x)).trans (h s x)

variable {g : Fld} (hg : g.Standing) {s : State}
include hg

/-- A field from 0x80000 up is another field. The address stands apart, so that `omega` finds its bound once the field is unfolded. -/
theorem State.get_set_high {a lo w rst v : Nat} (ha : 0x80000 ≤ a) : (s.set ⟨a, lo, w, rst⟩ v).get g = s.get g :=
  State.get_set_ne fun e => by
    have hlow := hg.low
    rw [e, Fld.key] at hlow
    simp only at hlow
    omega

/-! Axes: what `State.leave` calls. -/

theorem State.perfCheck_get : s.perfCheck.get g = s.get g := by
  unfold State.perfCheck
  split
  · rfl
  · exact (State.get_set_ne hg.busy : (s.set R.PWR_PLVL_BUSY 1).get g = s.get g)

omit hg in
theorem State.rearmBusuv_get : s.rearmBusuv.get g = s.get g :=
  State.each_get (fun _ _ => by split <;> rfl) _ _

theorem State.setAxst_get (n : Slice) (v : Nat) : (s.setAxst n v).get g = s.get g := by
  have bits (b : Bool) := State.each_get (g := g) (f := fun s (m : Slice) => s.putBit R.SYS_STATE_AX_ON m.val b)
    fun _ _ => State.get_set_ne hg.axOn
  simp (disch := omega) [State.setAxst, State.perfCheck_get hg, State.rearmBusuv_get, bits, State.get_set_high hg, R.SLC_AXST_AXST]

theorem State.setIlim_get (n : Slice) (w : (Nat × Nat) × (Nat × Nat)) : (s.setIlim n w).get g = s.get g := by
  simp (disch := omega) [State.setIlim, State.get_set_high hg, R.SLC_GAIN_MANT, R.SLC_GAIN_EXP]

theorem State.homeRestore_get (n : Slice) (h : HomeDyn) : (s.homeRestore n h).get g = s.get g := by
  unfold State.homeRestore
  cases h.savedIlim with
  | none => simp (disch := omega) [State.get_set_high hg, R.SLC_SVCTL_FESEL]
  | some w => simp (disch := omega) [State.get_set_high hg, State.setIlim_get hg, R.SLC_SVCTL_FESEL]

theorem State.endHoming_get (n : Slice) : (s.endHoming n).get g = s.get g := by
  unfold State.endHoming
  split
  · rfl
  · simp (disch := omega) [State.homeRestore_get hg, State.get_set_high hg, R.SLC_SVSTAT_HOMESUSP, R.SLC_PRSTAT_PSTATE,
      R.SLC_PRSTAT_HSTEP]

theorem State.dropPlan_get (n : Slice) : (s.dropPlan n).get g = s.get g := by
  simp (disch := omega) [State.dropPlan, State.endHoming_get hg, State.get_set_high hg, R.SLC_PRSTAT_PSTATE]

theorem State.startRest_get (n : Slice) : (s.startRest n).get g = s.get g := by
  have mode : (s.set (R.SLC_SLCMD_MODE n) 0).get g = s.get g := by
    simp (disch := omega) [State.get_set_high hg, R.SLC_SLCMD_MODE]
  exact mode

theorem State.seqIdle_get (n : Slice) (byStop : Bool) : (s.seqIdle n byStop).get g = s.get g := by
  have forced : (((s.set (R.SLC_SLSTAT_PHASE n) 0).set (R.SLC_SLCMD_MODE n) 1).set (R.SLC_SLCMD_IREF n) 0).get g = s.get g := by
    simp (disch := omega) [State.get_set_high hg, R.SLC_SLSTAT_PHASE, R.SLC_SLCMD_MODE, R.SLC_SLCMD_IREF]
  have idle : ((s.set (R.SLC_SLSTAT_PHASE n) 0).startRest n).get g = s.get g := by
    simp (disch := omega) [State.startRest_get hg, State.get_set_high hg, R.SLC_SLSTAT_PHASE]
  simp only [State.seqIdle]
  split
  · split
    · rfl
    · exact State.startRest_get hg n
  · split
    · rfl
    · split
      · exact forced
      · exact idle

omit hg in
theorem State.gatesOff_get (n : Slice) : (s.gatesOff n).get g = s.get g := by
  unfold State.gatesOff
  exact State.each_get (fun _ _ => State.modPwm_get ..) _ _

theorem State.supOff_get (n : Slice) : (s.supOff n).get g = s.get g := by
  simp (disch := omega) [State.supOff, State.get_set_high hg, R.SLC_SVREFV_RAMP]

theorem State.feedHold_get (k : Nat) (quick : Bool) : (s.feedHold k quick).get g = s.get g := by
  have holding : (s.set (R.GRP_STAT_STATE k) 3).get g = s.get g := by
    simp (disch := omega) [State.get_set_high hg, R.GRP_STAT_STATE]
  unfold State.feedHold
  split
  · simp [holding]
  · rfl

theorem State.startRamp_get (n : Slice) (k : StopKind) : (s.startRamp n k).get g = s.get g := by
  simp (disch := omega) [State.startRamp, State.setS, State.get_set_high hg, R.SLC_SVREFV_RAMP, R.SLC_SVREF_PR, R.SLC_SVREFV_VR]

theorem State.followerStop_get (m : Slice) : (s.followerStop m).get g = s.get g := by
  simp (disch := omega) [State.followerStop, State.startRamp_get hg, State.get_set_high hg, R.SLC_AXST_CAUSE]

theorem State.beginStop_get (n : Slice) (k : StopKind) : (s.beginStop n k).get g = s.get g := by
  simp [State.beginStop, State.feedHold_get hg, State.startRamp_get hg, State.dropPlan_get hg, State.seqIdle_get hg, State.setAxst_get hg]

theorem State.reactF2_get (n : Slice) : (s.reactF2 n).get g = s.get g := by
  unfold State.reactF2
  split
  · simp (disch := omega) [State.supOff_get hg, State.gatesOff_get, State.seqIdle_get hg, State.setAxst_get hg, State.get_set_high hg,
      R.SLC_AXST_PHASE, R.SLC_AXST_CAUSE]
  · simp (disch := omega) [State.beginStop_get hg, State.get_set_high hg, R.SLC_AXST_CAUSE]
  · simp [State.feedHold_get hg]
  · rfl

/-- The axis itself leaves (`gone`), its path group holds (`held`) and the other members react (`left_`), and then its followers. -/
theorem State.leave_get (n : Slice) (dst : Nat) (cause : Option Nat) (by_ : LeaveBy) : (s.leave n dst cause by_).get g = s.get g := by
  unfold State.leave
  split
  · rfl
  · extract_lets -merge was fol mode k off noPhase told still gatesOff noPlan noRamp idle gone held left_
    have hnoPhase : noPhase.get g = s.get g := by
      simp (disch := omega) [noPhase, off, State.setAxst_get hg, State.get_set_high hg, R.SLC_AXST_PHASE]
    have htold : told.get g = s.get g := by
      unfold told
      cases cause with
      | none => exact hnoPhase
      | some c => simp (disch := omega) [hnoPhase, State.get_set_high hg, R.SLC_AXST_CAUSE]
    have hgone : gone.get g = s.get g := by
      simp [gone, idle, noRamp, noPlan, gatesOff, still, State.seqIdle_get hg, State.supOff_get hg, State.dropPlan_get hg,
        State.gatesOff_get, htold]
    have hheld : held.get g = s.get g := by simp [held, State.feedHold_get hg, hgone]
    have hleft : left_.get g = s.get g := by
      unfold left_
      split
      · exact (State.each_get (fun _ _ => State.reactF2_get hg _) _ _).trans hheld
      · exact hheld
    cases by_ with
    | command => exact (State.each_get (fun _ _ => by simp [State.followerStop_get hg]) _ _).trans hleft
    | fault => exact (State.each_get (fun _ _ => by simp [State.reactF2_get hg]) _ _).trans hleft
    | other => exact hleft

theorem State.faultAxes_get : s.faultAxes.get g = s.get g := by
  unfold State.faultAxes
  exact State.each_get (fun _ _ => State.leave_get hg ..) _ _

/-! The device state and its notices. -/

theorem State.bump_get_high {a lo w rst : Nat} (ha : 0x80000 ≤ a) : (s.bump ⟨a, lo, w, rst⟩).get g = s.get g :=
  State.get_set_high hg ha

theorem State.notice_get (kind : Nat) (detail : List Nat) : (s.notice kind detail).get g = s.get g := by
  unfold State.notice
  extract_lets -merge n who full sent counted
  have hsent : sent.get g = s.get g := by
    refine State.each_get (fun s i => ?_) who s
    split
    · simp only [State.get_ite, State.send_get]
      exact ite_self _
    · rfl
  have hcounted : counted.get g = sent.get g := State.each_get (fun _ _ => State.bump_get_high hg (by decide)) full sent
  exact hcounted.trans hsent

omit hg in
theorem State.noteState_get : s.noteState.get g = s.get g := by
  unfold State.noteState
  split <;> rfl

theorem State.flushState_get : s.flushState.get g = s.get g := by
  unfold State.flushState
  split
  · rfl
  · simp only [State.get_ite, State.notice_get hg]
    exact ite_self _

/-- The notice of a change leaves what the change leaves. -/
theorem State.withState_get (f : State → State) : (s.withState f).get g = (f s.noteState).get g := by
  simp [State.withState, State.flushState_get hg]

omit hg in
/-- The device state, once changed, reads the new value. -/
theorem State.setDev_dev (s : State) (v : Nat) : (s.setDev v).dev = v % 8 :=
  (State.withState_get Fld.standing_dev _).trans (State.get_set_self ..)

theorem State.setDev_get (hs : g.key ≠ R.SYS_STATE_STATE.key) (v : Nat) : (s.setDev v).get g = s.get g :=
  (State.withState_get hg _).trans ((State.get_set_ne hs).trans State.noteState_get)

/-! The token. -/

theorem State.setToken_get (b : Bool) : (s.setToken b).get g = s.get g := by
  have pin : (s.setB R.TWN_STAT_HOLD_OUT b).get g = s.get g := State.get_set_high hg (by decide)
  have shown (s : State) : (s.setB R.SYS_STATE_TOKEN b).get g = s.get g := State.get_set_ne hg.token
  simp [State.setToken, State.withState_get hg, shown, State.noteState_get, pin]

theorem State.gapBegin_get (seen : Bool) : (s.gapBegin seen).get g = s.get g := by
  simp (disch := omega) [State.gapBegin, State.get_set_high hg, R.TWN_STAT_GAP]

theorem State.releaseToken_get (orderly : Bool) : (s.releaseToken orderly).get g = s.get g := by
  simp (disch := omega) [State.releaseToken, State.setToken_get hg, State.gapBegin_get hg, State.get_set_high hg, R.TWN_STAT_LSTATE]

/-! Outputs, scheduler, acquisition and CAN. -/

omit hg in
theorem State.holdLevels_get : s.holdLevels.get g = s.get g := by
  unfold State.holdLevels
  split <;> rfl

theorem State.schedStop_get : s.schedStop.get g = s.get g := by
  simp (disch := omega) [State.schedStop, State.get_set_high hg, R.SCH_STAT_STATE]

theorem State.trigIdle_get : s.trigIdle.get g = s.get g := by
  simp (disch := omega) [State.trigIdle, State.enterTrig, State.modTrig, State.get_set_high hg, R.ACQ_TSTAT_STATE, R.ACQ_TSTAT_CNT,
    R.ACQ_TSTAT_ACTIVE]

omit hg in
theorem State.ringWrite_get (pos : Nat) (l : List Nat) : (s.ringWrite pos l).get g = s.get g := by
  induction l generalizing s pos with
  | nil => rfl
  | cons b t ih => exact (ih _).trans (State.putByte_get ..)

omit hg in
theorem State.modClock_get (c : Nat) (f : AcqClock → AcqClock) : (s.modClock c f).get g = s.get g := rfl

omit hg in
theorem State.lose_get (c cause first rows : Nat) (block : Option Nat) : (s.lose c cause first rows block).get g = s.get g := by
  simp [State.lose, State.modClock_get]

omit hg in
/-- A record put into its queue changes no register. -/
theorem State.get_of_acqPut {t : State} {q : Nat} {body : List Nat} (h : s.acqPut q body = some t) : t.get g = s.get g := by
  unfold State.acqPut at h
  split at h
  · cases h
  · simp only [Option.ite_none_left_eq_some] at h
    obtain ⟨-, h⟩ := h
    cases h
    rfl

theorem State.offerGap_get (c : Nat) : (s.offerGap c).get g = s.get g := by
  unfold State.offerGap
  extract_lets
  split
  · rfl
  · split
    · rfl
    · rename_i put
      simp (disch := omega) [State.bump_get_high hg, R.ACQ_STAT_GAPS, State.get_of_acqPut put]

theorem State.sendMarks_get (l : List (List Nat)) : (s.sendMarks l).get g = s.get g := by
  induction l generalizing s with
  | nil => rfl
  | cons m t ih =>
    unfold State.sendMarks
    split
    · rfl
    · rename_i put
      simp (disch := omega) [ih, State.bump_get_high hg, State.get_set_high hg, R.ACQ_CNT_MARKS, R.ACQ_TSTAT_MQ, State.get_of_acqPut put]

theorem State.acqDrain_get : s.acqDrain.get g = s.get g := by
  unfold State.acqDrain
  split
  · rfl
  · exact (State.sendMarks_get hg _).trans (State.each_get (fun _ _ => State.offerGap_get hg _) _ _)

omit hg in
theorem State.get_withArc (a : ArcDyn) : ({ s with arc := a } : State).get g = s.get g := rfl

theorem State.closeBlock_get (c : Nat) (ecc : EccSeen) : (s.closeBlock c ecc).get g = s.get g := by
  unfold State.closeBlock
  split
  · rfl
  · extract_lets -merge +onlyGivenNames body pos ring written next closed shown
    have hwritten : written.get g = s.get g := by simp [written, State.ringWrite_get]
    have hclosed : closed.get g = s.get g := (State.modClock_get _ _).trans ((State.modAcq_get ..).trans hwritten)
    clear_value closed
    have hshown : shown.get g = s.get g :=
      (State.get_set_high hg (by decide)).trans ((State.get_set_high hg (by decide)).trans hclosed)
    clear_value shown
    have dropped (t : State) : (t.bump R.ACQ_STAT_BLKDROP).get g = t.get g := State.bump_get_high hg (by decide)
    have sent (t : State) : (t.bump R.ACQ_CNT_BLKSENT).get g = t.get g := State.bump_get_high hg (by decide)
    split
    · exact hshown
    · split
      · rw [State.raiseMod_get, dropped, State.lose_get, hshown]
      · extract_lets -merge +onlyGivenNames arc counted offered
        have hcounted : counted.get g = s.get g := by
          unfold counted
          split
          · exact (State.get_withArc _).trans hshown
          · exact hshown
        have hoffered : offered.get g = s.get g := (State.offerGap_get hg c).trans hcounted
        split
        · rename_i put
          rw [sent, State.get_of_acqPut (Option.ite_none_left_eq_some.1 put).2, hoffered]
        · rw [dropped, State.lose_get, hoffered]

theorem State.acqStopRun_get : s.acqStopRun.get g = s.get g := by
  have closed : ([0, 1, 2, 3].foldl (fun s c => s.closeBlock c .clean) s.trigIdle).get g = s.trigIdle.get g :=
    State.each_get (fun _ _ => State.closeBlock_get hg ..) _ _
  have stopped (s : State) : (s.set R.ACQ_CTL_RUN 0).get g = s.get g := State.get_set_high hg (by decide)
  unfold State.acqStopRun
  split
  · rfl
  · rw [State.acqDrain_get hg, stopped, closed, State.trigIdle_get hg]

omit hg in
theorem State.wr_get (a n v : Nat) : (s.wr a n v).get g = s.get g := by
  unfold State.wr
  induction leBytes n v generalizing s a with
  | nil => rfl
  | cons b t ih => exact (ih _).trans (State.putByte_get ..)

theorem State.finishTx_get (c : Fin 2) (e result : Nat) (sof : Option Nat) : (s.finishTx c e result sof).get g = s.get g := by
  cases sof <;>
    simp (disch := omega) [State.finishTx, State.putBit, State.get_set_high hg, State.wr_get, R.CAN_TXPEND_PEND, R.CAN_TXDONE_DONE]

theorem State.txWithdraw_get (c : Fin 2) (mask : Nat) : (s.txWithdraw c mask).get g = s.get g := by
  unfold State.txWithdraw
  exact State.each_get (fun _ _ => by simp [State.finishTx_get hg]) _ _

theorem State.canHalt_get : s.canHalt.get g = s.get g := by
  unfold State.canHalt State.canWithdraw
  exact (State.each_get (fun _ _ => State.modCan_get ..) _ _).trans (State.each_get (fun _ _ => State.txWithdraw_get hg ..) _ _)

/-! Entry to HALT. -/

theorem State.enterHalt_get (hs : g.key ≠ R.SYS_STATE_STATE.key) : s.enterHalt.get g = s.get g := by
  simp [State.enterHalt, State.canHalt_get hg, State.acqStopRun_get hg, State.schedStop_get hg, State.setDev_get hg hs,
    State.holdLevels_get, State.faultAxes_get hg, State.releaseToken_get hg]

omit hg in
/-- After the entry the device is in HALT: what follows the change of the state leaves it. -/
theorem State.enterHalt_dev (s : State) : s.enterHalt.dev = 5 := by
  unfold State.enterHalt
  split
  · exact beq_iff_eq.1 ‹_›
  · simp only [State.dev, State.modBoot_get, State.canHalt_get Fld.standing_dev, State.acqStopRun_get Fld.standing_dev,
      State.schedStop_get Fld.standing_dev]
    exact State.setDev_dev (State.holdLevels _) 5

omit hg in
/-- From INTAKE, HALT offers recovery access, and no step of INTAKE is left (R88). -/
theorem State.enterHalt_boot_of_intake (h : s.dev = 0) : s.enterHalt.boot.recovery = true ∧ s.enterHalt.boot.step = 0 := by
  simp [State.enterHalt, State.modBoot, h]

end Sys2Proof.Machine

namespace Sys2Proof.Proofs

open Sys2Proof.Machine Sys2Proof.Claims

/-- INTAKE that ends in HALT with a code of 8 bits leaves HALT with that code and recovery access (R88). -/
theorem intakeHalt_haltedWith {s : State} {code : Nat} (hd : s.dev = 0) (hc : code < 256) : HaltedWith (s.intakeHalt code) code := by
  have hin : ((s.set R.IMG_STAT_CODE code).intakeMs).dev = 0 := by
    unfold State.dev State.intakeMs
    rw [State.get_set_ne (by decide), State.get_set_ne (by decide)]
    exact hd
  obtain ⟨hrec, hstep⟩ := State.enterHalt_boot_of_intake hin
  refine ⟨State.enterHalt_dev _, hrec, hstep, ?_⟩
  calc (s.intakeHalt code).get R.IMG_STAT_CODE
    _ = ((s.set R.IMG_STAT_CODE code).intakeMs).get R.IMG_STAT_CODE := State.enterHalt_get Fld.standing_imgCode (by decide)
    _ = (s.set R.IMG_STAT_CODE code).get R.IMG_STAT_CODE := State.get_set_ne (by decide)
    _ = code % 256 := State.get_set_self ..
    _ = code := Nat.mod_eq_of_lt hc

/-- Settles O28: the time limit ends INTAKE in HALT (R85), whichever of its steps before 10 it is in. -/
theorem intakeTimeLimit : Obligations.IntakeTimeLimit := by
  unfold Obligations.IntakeTimeLimit
  rintro k s ⟨hstep, hleaving, hreset, hdev⟩ hk
  refine ⟨_, ?_, intakeHalt_haltedWith (s := s.passTo (s.boot.t0 + 10 * secUnit)) ((State.passTo_get ..).trans hdev) (by decide)⟩
  change execIntakeTimeout s = _
  simp [execIntakeTimeout, hstep, hleaving, hreset, hk]

end Sys2Proof.Proofs

/-!
The clock as its two registers show it (R324). PTP_TIME0 shows the local clock as it stands, PTP_TIME1 what the register file holds: the
seconds that the last read of PTP_TIME0 put there. The passing of time goes past the register file.
-/

namespace Sys2Proof.Machine

/-- The word of a register outside the slices: its fields, under its live fields. -/
theorem State.regWord_of_regAt (s : State) {a : Nat} {r : RegRow RegName} {idx : List Nat} (hr : regAt a = some (r, idx))
    (hs : sliceAt a = none) : s.regWord a = s.liveWord r.name idx (s.rawWord r.fields a) := by
  simp only [State.regWord, hr, hs]

theorem regAt_time0 : regAt 0x310018 = some (regRow_PTP_TIME0, []) := by decide

theorem regAt_time1 : regAt 0x310020 = some (regRow_PTP_TIME1, []) := by decide

/-- PTP_TIME0 reads NS and SUBNS of the local clock as it stands. -/
theorem State.regWord_time0 (s : State) :
    s.regWord 0x310018 = s.clock.now / nsUnit % 1000000000 + s.clock.now % nsUnit / 2 ^ 16 * 2 ^ 32 :=
  s.regWord_of_regAt regAt_time0 (by decide)

/-- PTP_TIME1 has no live field: it reads its one field of the register file. -/
theorem State.regWord_time1 (s : State) : s.regWord 0x310020 = s.get R.PTP_TIME1_SEC :=
  calc s.regWord 0x310020
    _ = s.rawWord regRow_PTP_TIME1.fields 0x310020 := s.regWord_of_regAt regAt_time1 (by decide)
    _ = 0 + s.get R.PTP_TIME1_SEC * 2 ^ 0 := rfl
    _ = s.get R.PTP_TIME1_SEC := by omega

/-- The read of PTP_TIME0 latches the seconds, and draws no free value. -/
theorem State.afterRead_time0 (s : State) : s.afterRead 0x310018 8 = s.set R.PTP_TIME1_SEC (s.clock.now / secUnit) := rfl

theorem State.passBoth_get (s : State) (d r : Nat) (g : Fld) : (s.passBoth d r).get g = s.get g := rfl

theorem State.idle_get (s : State) (g : Fld) : s.idle.get g = s.get g := by
  unfold State.idle
  split
  · rfl
  · exact State.passBoth_get ..

end Sys2Proof.Machine

namespace Sys2Proof.Claims

open Sys2Proof.Machine

/-- One field written: nothing else changes, and no fault is raised. -/
theorem only_set (s : State) (f : Fld) (v : Nat) : Only s (s.set f v) [(f, v % 2 ^ f.w)] [] := by
  refine ⟨rfl, fun g hg => State.get_set_ne (by simpa using hg), fun x hx => ?_, [], by simp, rfl⟩
  obtain rfl := List.mem_singleton.1 hx
  exact State.get_set_self ..

end Sys2Proof.Claims

namespace Sys2Proof.Proofs

open Sys2Proof.Machine Sys2Proof.Claims

/-- Settles O49: the read of PTP_TIME0 is one write of the field that PTP_TIME1 reads, and time writes no field. -/
theorem timePairRead : Obligations.TimePairRead := by
  unfold Obligations.TimePairRead
  refine ⟨fun s => ⟨s.set R.PTP_TIME1_SEC (s.clock.now / secUnit), ?_, only_set .., ?_, s.regWord_time0⟩, State.regWord_time1, fun s => ?_⟩
  · change execPtpTime0Read s = _
    rw [execPtpTime0Read, State.afterRead_time0]
  · rw [State.regWord_time1, State.get_set_self]
    rfl
  · rw [State.regWord_time1, State.regWord_time1, State.idle_get]

end Sys2Proof.Proofs
